-- ==== Sys2Proof/Word.lean ====
section
/-! DEFINITION. The word types of the CK832 (R7, R8): bytes, 16-bit Q15 words, 32-bit registers, 40-bit accumulators and 64-bit lane blocks. -/

namespace Sys2Proof

/-- One byte of a structure (R7). -/
abbrev Byte := BitVec 8

/-- A 16-bit value: a Q15 number (R226), a sequence number or a raw signal. -/
abbrev Half := BitVec 16

/-- A BAR0 register (R8). -/
abbrev Word := BitVec 32

/-- An A40 accumulator (R227). -/
abbrev Acc := BitVec 40

/-- A lane payload block (R275). -/
abbrev Block := BitVec 64

end Sys2Proof
end

