-- ==== Sys2Proof/Machine/Bytes.lean ====
section
/-! DEFINITION. Byte order (R8), the CRC-32C of R179, rounding (R229) and the list access that the other files share. -/

namespace Sys2Proof.Machine

/-- Byte `i` of a structure; bytes beyond its end read 0. -/
def byteAt (l : List Byte) (i : Nat) : Byte := l.getD i 0

/-- R8: the unsigned little-endian value of `n` bytes from offset `i`. -/
def leAt (l : List Byte) (i : Nat) : Nat → Nat
  | 0 => 0
  | n + 1 => (byteAt l i).toNat + 256 * leAt l (i + 1) n

def u8 (l : List Byte) (i : Nat) : Nat := (byteAt l i).toNat
def u16 (l : List Byte) (i : Nat) : Nat := leAt l i 2
def u32 (l : List Byte) (i : Nat) : Nat := leAt l i 4
def u64 (l : List Byte) (i : Nat) : Nat := leAt l i 8

/-- The two's complement value of an unsigned `bits`-bit number. -/
def signed (bits v : Nat) : Int := if v < 2 ^ (bits - 1) then (v : Int) else (v : Int) - (2 ^ bits : Nat)

def i8 (l : List Byte) (i : Nat) : Int := signed 8 (u8 l i)
def i16 (l : List Byte) (i : Nat) : Int := signed 16 (u16 l i)
def i32 (l : List Byte) (i : Nat) : Int := signed 32 (u32 l i)
def i64 (l : List Byte) (i : Nat) : Int := signed 64 (u64 l i)

/-- R8: `n` little-endian bytes of a value, modulo 256^n. -/
def toLE : Nat → Nat → List Byte
  | 0, _ => []
  | n + 1, v => BitVec.ofNat 8 v :: toLE n (v / 256)

/-- `n` little-endian bytes of a signed value. -/
def toLEi (n : Nat) (v : Int) : List Byte := toLE n (v % (256 ^ n : Nat)).toNat

/-- `n` big-endian bytes of a value. -/
def toBE (n v : Nat) : List Byte := (toLE n v).reverse

/-- `n` bytes from offset `i`, padded with zeros beyond the end. -/
def bytesAt (l : List Byte) (i n : Nat) : List Byte := (List.range n).map fun k => byteAt l (i + k)

def zeros (n : Nat) : List Byte := List.replicate n 0

/-- A list cut or padded with zeros to `n` bytes. -/
def padTo (n : Nat) (l : List Byte) : List Byte := bytesAt l 0 n

/-- R10: every byte of a reserved range is 0. -/
def allZero (l : List Byte) (i n : Nat) : Bool := (List.range n).all fun k => byteAt l (i + k) == 0

/-- Bits [lo + w − 1 : lo] of a value. -/
def bits (v lo w : Nat) : Nat := v / 2 ^ lo % 2 ^ w

/-- Bit `i` of a value. -/
def bitOf (v i : Nat) : Bool := v / 2 ^ i % 2 == 1

def b2n (b : Bool) : Nat := if b then 1 else 0

/-- A counter of `w` bits that saturates. -/
def satAdd (w a b : Nat) : Nat := min (2 ^ w - 1) (a + b)

/-- One bit of the reflected CRC-32C with polynomial 0x1EDC6F41 (R179). -/
def crcBit (c : Word) : Word := if c.getLsbD 0 then (c >>> 1) ^^^ 0x82F63B78#32 else c >>> 1

def crcByte (c : Word) (b : Byte) : Word :=
  let x := c ^^^ b.setWidth 32
  crcBit (crcBit (crcBit (crcBit (crcBit (crcBit (crcBit (crcBit x)))))))

/-- R179: CRC-32C, reflected, initial value and final XOR 0xFFFFFFFF. -/
def crc32c (l : List Byte) : Nat := (l.foldl crcByte 0xFFFFFFFF#32 ^^^ 0xFFFFFFFF#32).toNat

/-- A value in the 16-bit two's complement range. -/
def clampQ15 (v : Int) : Int := max (-32768) (min 32767 v)

/-- Division rounded half away from zero (R228, R229); `d` > 0. -/
def divRound (v : Int) (d : Nat) : Int :=
  let m := (2 * v.natAbs + d) / (2 * d)
  if v < 0 then -(m : Int) else (m : Int)

/-- R229: a rational value rounded half away from zero. -/
def roundRat (r : Rat) : Int := divRound r.num r.den

/-- R229: a value in units of 1/`d` converted to Q15 with rounding and saturation. -/
def toQ15 (v : Int) (d : Nat) : Half := BitVec.ofInt 16 (clampQ15 (divRound v d))

/-- Element `i` of an indexed family; the default beyond its end. -/
def nth [Inhabited α] (l : List α) (i : Nat) : α := l.getD i default

/-- Replace element `i` by `f` of it; nothing beyond the end. -/
def upd (l : List α) (i : Nat) (f : α → α) : List α := l.modify i f

/-- Ceiling division. -/
def ceilDiv (a b : Nat) : Nat := (a + b - 1) / b

def natDist (a b : Nat) : Nat := (a - b) + (b - a)

/-- Place a field of `w` bits at bit `lo`. -/
def fld (lo w v : Nat) : Nat := v % 2 ^ w * 2 ^ lo

/-- A signed field. -/
def fldI (lo w : Nat) (v : Int) : Nat := fld lo w (v % (2 ^ w : Nat)).toNat

/-- A temperature in 0.1 °C, or 0x8000 when there is none. -/
def tempField : Option Int → Nat
  | some t => fldI 0 16 t
  | none => 0x8000

/-- Clamp a written value to a field's range (R103). -/
def clampTo (lo hi v : Nat) : Nat := max lo (min hi v)

def noneTo (d : Nat) : Option Nat → Nat
  | some v => v
  | none => d

end Sys2Proof.Machine
end

