-- ==== Sys2Proof/Machine/Flags.lean ====
section
/-! DEFINITION. Arithmetic and flags of the law engines: A40 accumulators (R227, R228), conversion to Q15 (R229), shifts, table interpolation (R243) and conditions (R242). A result comes with whether it saturated. -/

namespace Sys2Proof.Machine

/-- The value of an A40 accumulator. -/
def accVal (a : Acc) : Int := a.toInt

/-- R228: a value brought into the A40 range, and whether that changed it. -/
def satAcc (v : Int) : Acc × Bool :=
  if v < -(2 ^ 39 : Int) then (BitVec.ofInt 40 (-(2 ^ 39 : Int)), true)
  else if (2 ^ 39 : Int) - 1 < v then (BitVec.ofInt 40 ((2 ^ 39 : Int) - 1), true)
  else (BitVec.ofInt 40 v, false)

/-- R227: a Q15 operand aligned to A40. -/
def aligned (x : Half) : Int := x.toInt * 32768

/-- R229: a 16-bit value brought into the Q15 range, and whether that changed it. -/
def satQ15 (v : Int) : Half × Bool :=
  if v < -32768 then (0x8000#16, true) else if 32767 < v then (0x7FFF#16, true) else (BitVec.ofInt 16 v, false)

/-- R229: an A40 value converted to Q15. -/
def accToQ15 (a : Acc) : Half × Bool := satQ15 (divRound (accVal a) 32768)

/-- R229: the Q15 product. -/
def mulQ15 (x y : Half) : Half × Bool := satQ15 (divRound (x.toInt * y.toInt) 32768)

/-- A left shift by s ≥ 0, or a right shift by −s rounded half away from zero (R228, R229), of an exact value. -/
def shiftExact (v : Int) (s : Int) : Int :=
  if 0 ≤ s then v * (2 ^ s.toNat : Nat) else divRound v (2 ^ (-s).toNat)

/-- SHX. -/
def shiftQ15 (x : Half) (sc : BitVec 5) : Half × Bool := satQ15 (shiftExact x.toInt sc.toInt)

/-- SHA. -/
def shiftAcc (a : Acc) (sc : BitVec 5) : Acc × Bool := satAcc (shiftExact (accVal a) sc.toInt)

/-- R243: ACCLIM applies the upper bound first and the lower bound second; whether a bound was applied. -/
def clampAcc (a : Acc) (lo hi : Half) : Acc × Bool :=
  let v := accVal a
  let v1 := if aligned hi < v then aligned hi else v
  let v2 := if v1 < aligned lo then aligned lo else v1
  (BitVec.ofInt 40 v2, decide (aligned hi < v) || decide (v1 < aligned lo))

/-- R243: the index and fraction of a lookup. -/
def lutIndex (x : Half) : Nat × Nat :=
  let u := (x.toInt + 32768).toNat
  (u / 2048, u % 2048)

/-- R243: interpolation between two table words with the fraction f. -/
def lutMix (a b : Half) (f : Nat) : Half × Bool :=
  satQ15 (divRound (a.toInt * 2048 + (b.toInt - a.toInt) * (f : Int)) 2048)

/-- The flags of one run. -/
structure LawFlags where
  n : Bool := false
  z : Bool := false
  clp : Bool := false
  sat : Bool := false
  ov : Bool := false
  deriving DecidableEq, Repr, Inhabited

/-- R240: N and Z from a 16-bit result. -/
def LawFlags.nz (f : LawFlags) (r : Half) : LawFlags := { f with n := r.msb, z := r == 0 }

/-- R243: CMP sets N and Z from the exact difference. -/
def LawFlags.cmp (f : LawFlags) (x y : Half) : LawFlags :=
  { f with n := decide (x.toInt < y.toInt), z := x == y }

/-- R243: SAT and OV are sticky within a run. -/
def LawFlags.satOr (f : LawFlags) (b : Bool) : LawFlags := { f with sat := f.sat || b }
def LawFlags.ovOr (f : LawFlags) (b : Bool) : LawFlags := { f with ov := f.ov || b }

/-- R242: the conditions; the reserved values do not hold. -/
def LawFlags.holds (f : LawFlags) (cond : BitVec 4) : Bool :=
  match cond.toNat with
  | 0 => f.z
  | 1 => !f.z
  | 2 => f.n
  | 3 => !f.n
  | 4 => !f.n && !f.z
  | 5 => f.n || f.z
  | 6 => f.clp
  | 7 => !f.clp
  | 8 => f.sat
  | 9 => true
  | _ => false

end Sys2Proof.Machine
end

