-- ==== Sys2Proof/Machine/Types.lean ====
section
/-! DEFINITION. The parts of the state: one structure for each block of the CK832, every field at its reset value. All plain data. -/

namespace Sys2Proof.Machine

/-! ### The fabric (R581, R582) -/

/-- R582: what a bus master can access. -/
inductive FabricTarget
  | doorbell
  /-- The entries of SQn; of CQm. -/
  | submission (n : Nat)
  | completion (m : Nat)
  /-- Host memory from an address, for a length. -/
  | hostMemory (addr len : Nat)
  | firmware | firmwareData | profileSlots | registers | metWindow | caddisMailbox
  /-- The memory of a law engine: 0 program, 1 coefficients, 2 state. -/
  | law (engine mem : Nat)
  | signal (id : Nat)
  | thermal | keyStore | keySlots
  | laneStreams | converters
  | captureShare (unit : Nat)
  | plcBuffers | plcSection | plcRing
  | sessions
  /-- The Green PHY and T1S buffers of an outlet; the buffers of a CAN controller; the set-point command queue of an outlet. -/
  | greenPhy (outlet : Nat)
  | t1s (outlet : Nat)
  | canBuffers (ctl : Nat)
  | setpointQueue (outlet : Nat)
  deriving DecidableEq, Repr, Inhabited

/-- One access of a master; `addr` is the address that E114 and FLT_VIOL report. -/
structure Access where
  master : Nat := 0
  write : Bool := false
  target : FabricTarget := .doorbell
  addr : Nat := 0
  deriving DecidableEq, Repr, Inhabited

/-- R117: one 64-byte descriptor as the ring fetcher reads it, with the ring it stands on. -/
structure Desc where
  /-- The submission ring, 0 to 15. -/
  ring : Nat := 0
  opcode : Byte := 0
  cls : BitVec 2 := 0
  barrier : Bool := false
  silent : Bool := false
  /-- Byte 1 bits [7:4], reserved. -/
  rsv1 : BitVec 4 := 0
  seq : Half := 0
  devAddr : BitVec 7 := 0
  /-- Byte 4 bit 7, reserved. -/
  rsv4 : BitVec 1 := 0
  tag : BitVec 7 := 0
  /-- Byte 5 bit 7, reserved. -/
  rsv5 : BitVec 1 := 0
  kind : BitVec 4 := 0
  index : Byte := 0
  /-- Bytes 6–7 bits [15:12], reserved. -/
  rsv6 : BitVec 4 := 0
  /-- Bytes 8 to 63; bytes the list does not hold are 0. -/
  body : List Byte := []
  /-- R614: what the host's memory returns for the buffer that the operation reads; `none` when the access fails. -/
  input : Option (List Byte) := some []
  /-- R583: an access that a master issues for this descriptor to none of its windows. -/
  stray : Option Access := none
  deriving DecidableEq, Repr, Inhabited

/-- R67: the levels of the strap contacts (true is high). -/
structure Straps where
  profile0 : Bool := false
  profile1 : Bool := false
  role : Bool := true
  pairPresent : Bool := true
  deriving DecidableEq, Repr, Inhabited

/-! ### Supply, clocks, sleep and waking (03) -/

/-- R86, PWR_STATUS.OP_STATE. -/
inductive OpState
  | boot | setup | operate | safe
  deriving DecidableEq, Repr, Inhabited

/-- R87. SLEEP is never read (R96). -/
inductive PowerState
  | doze | run | sleep
  deriving DecidableEq, Repr, Inhabited

/-- R69, R70: the debug port. -/
structure Tap where
  /-- DBG_TRST_N is low, or open on its pull-down: the TAP is held in reset. -/
  inReset : Bool := true
  /-- A boundary-scan test runs and holds the module in reset. -/
  testing : Bool := false
  /-- What the scan drives: signal-array position (R46) and level. -/
  drive : List (Nat × Bool) := []
  deriving DecidableEq, Repr, Inhabited

/-- The CLK/PWR block (R96), the reset and strap state (R67, R73, R75, R77) and the sleep timers (R87, R88, R92). -/
structure Pwr where
  opState : OpState := .boot
  powerState : PowerState := .doze
  /-- PWR_STATUS.REF_EXT. -/
  refExt : Bool := false
  /-- PWR_STATUS.OPERATE_BLOCK: 0 NONE, 1 NO_OWNER_KEY, 2 NO_PROFILE, 3 RINGS_INCOMPLETE. -/
  operateBlock : Nat := 0
  slowPollUs : Nat := 0x3E8
  sleepDelayMs : Nat := 0x64
  wakeEn : BitVec 10 := 0x3FF
  wakeCause : BitVec 10 := 0
  /-- RESET_CAUSE: 1 POWER_ON, 2 RESET_PIN, 3 WATCHDOG, 4 FIRMWARE_UPDATE. -/
  resetCause : Nat := 1
  locked : BitVec 12 := 0
  /-- R73: the rails have left tolerance and no reset has come since. -/
  undefinedLogic : Bool := false
  /-- R75: the power-on reset is armed. -/
  porArmed : Bool := false
  /-- The rails are up: a reset release shows them, SUPPLY_FAIL takes them away (R63, R65). -/
  powered : Bool := true
  /-- The controller logic is held in reset: by RESET_N (R77), boundary scan (R70) or the thermal halt (R364). -/
  held : Bool := false
  /-- R77: the level on RESET_N is low. -/
  resetNLow : Bool := false
  tap : Tap := {}
  /-- R80: t0, the device time of the latest reset release. -/
  releasedAt : Nat := 0
  /-- R84: the clock on EXT_REF_IN has qualified and has not been lost since; it was lost in Sleep while it was selected. -/
  extQualified : Bool := false
  refLost : Bool := false
  /-- Straps as sampled at reset release (R25, R67). -/
  straps : Straps := {}
  /-- SLEEP_N is high (R67). -/
  sleepN : Bool := true
  /-- R87: the sleep-delay timer runs, since this device time. -/
  dozeTimer : Bool := false
  dozeAt : Nat := 0
  /-- R87: E125 has been raised in this Doze. -/
  e125Raised : Bool := false
  /-- R79: the core whose watchdog caused the latest reset, until E126 is raised. -/
  wdCore : Option Nat := none
  /-- R86: Safe was entered from Operate. -/
  safeFromOperate : Bool := false
  /-- R86: the profile loaded at reset was valid (a Safe under R30 has no exit). -/
  bootProfileOk : Bool := true
  /-- R280, R66: ILK_OUT pulses. -/
  ilkOut : Bool := false
  /-- R65: MOD_FAULT_N is held low. -/
  modFaultLow : Bool := true
  /-- AWAKE contact. -/
  awake : Bool := false
  /-- Device time of entry into Operate, for R95 and R141. -/
  operateAt : Nat := 0
  /-- R82: both firmware banks have failed verification in this Boot. -/
  bootFailed : Bool := false
  /-- Device time of entry into Sleep (R362), and CLK_LOCK before it (R92). -/
  sleepAt : Nat := 0
  lockedAwake : BitVec 12 := 0
  /-- R95: the first poll since entry into Operate; R93: the latest fetch of the doorbell block. -/
  firstPoll : Option Nat := none
  fetchAt : Nat := 0
  deriving DecidableEq, Repr, Inhabited

/-! ### Host interface (04) -/

/-- R108: an index modulo the ring size with its WRAP bit. -/
structure RingPos where
  index : Nat := 0
  wrap : Bool := false
  deriving DecidableEq, Repr, Inhabited

/-- R115. -/
inductive RingState
  | disabled | enabled | armed | error
  deriving DecidableEq, Repr, Inhabited

/-- A submission ring (R103, R105, R108, R115, R116, R127, R129). -/
structure Sq where
  baseLo : Word := 0
  baseHi : Word := 0
  sizeLog2 : Nat := 4
  cq : Nat := 0
  enable : Bool := false
  rate : Nat := 0x0A
  burst : Nat := 0x08
  state : RingState := .disabled
  head : RingPos := {}
  /-- The tail fetched last. -/
  tail : RingPos := {}
  expSeq : Half := 0
  /-- R129: the busy tag that the ring's fetcher waits for; R137: the released tag that it is next to take. -/
  hold : Option (BitVec 7) := none
  claim : Option (BitVec 7) := none
  /-- R117: an admitted BARRIER descriptor that waits for the earlier ones of this ring. -/
  waiting : Option Desc := none
  /-- R127: the bucket in millionths of a token, as of `filledAt`. -/
  bucket : Nat := 0
  filledAt : Nat := 0
  /-- R127: refusals not yet reported, and when E112 was raised last. -/
  refusals : Nat := 0
  reportedAt : Option Nat := none
  deriving DecidableEq, Repr, Inhabited

/-- A completion ring (R103, R112). -/
structure Cq where
  baseLo : Word := 0
  baseHi : Word := 0
  sizeLog2 : Nat := 4
  vector : Nat := 0
  enable : Bool := false
  index : Nat := 0
  phase : Bool := true
  deriving DecidableEq, Repr, Inhabited

/-- The event ring (R103, R114, R133). Positions count modulo twice the ring size. -/
structure Evq where
  baseLo : Word := 0
  baseHi : Word := 0
  sizeLog2 : Nat := 4
  vector : Nat := 0
  enable : Bool := false
  coalesceUs : Nat := 0
  /-- Started by a RINGS_GO with ENABLE set, and not stopped by a PCIe reset since. -/
  started : Bool := false
  tail : Nat := 0
  head : Nat := 0
  /-- Records written since the last good head. -/
  sinceHead : Nat := 0
  /-- Records held internally, oldest first, with PHASE still 0; at most 256. -/
  heldRecs : List (List Byte) := []
  /-- HIF_EVQ_LOST.COUNT. -/
  lost : Nat := 0
  /-- Records lost in this episode. -/
  lostNow : Nat := 0
  /-- R114: the latest fetched EVQ_HEAD was bad. -/
  badRun : Bool := false
  /-- R133: a non-C0 record waits for its coalesced message. -/
  unsignalled : Bool := false
  deriving DecidableEq, Repr, Inhabited

/-- One MSI-X table entry of the PCIe specification. -/
structure MsixEntry where
  addrLo : Word := 0
  addrHi : Word := 0
  data : Word := 0
  masked : Bool := true
  pendingBit : Bool := false
  deriving DecidableEq, Repr, Inhabited

/-- What an operation in flight still has to do (R118: it holds its tag until its completion is written). -/
inductive OpKind
  /-- R124: written at the next control period boundary. -/
  | snapshot (kind index bufAddr bufLen : Nat)
  /-- R27, R29: takes effect at an allocation boundary. -/
  | selectProfile (slot : Nat)
  /-- R406: the CAN transmit buffer of a controller. -/
  | canSend (ctl buf : Nat)
  /-- R435: a PLC message number. -/
  | plcSend (msg : Nat)
  /-- R102: a posted receive buffer. -/
  | ethReceive (port bufAddr len : Nat)
  /-- R583: its access was refused; it completes with BUFFER_FAULT when the master is released. -/
  | violated (master : Nat)
  /-- R117: admitted with BARRIER; it has not begun. -/
  | waiting
  /-- R467, R478: a metering request that waits for Caddis. -/
  | meter (tag : BitVec 7)
  deriving DecidableEq, Repr, Inhabited

structure InFlight where
  ring : Nat := 0
  tag : BitVec 7 := 0
  seq : Half := 0
  silent : Bool := false
  /-- Device time when execution began (R125). -/
  startedAt : Nat := 0
  /-- R136: the completion and buffer writes are discarded. -/
  discard : Bool := false
  /-- R582: the host-buffer windows: address and length; the crypto engine serves the operation. -/
  bufs : List (Nat × Nat) := []
  crypto : Bool := false
  op : OpKind := .violated 0
  deriving DecidableEq, Repr, Inhabited

/-- R467, R478: a request that waits for Caddis: of the host, or mirrored from the peer (R475, R476): outlet, start, SESSION_REF, primary transaction and CADDIS_ID. -/
inductive MeterWait
  | host (d : Desc)
  | mirrored (outlet : Nat) (start : Bool) (ref : List Byte) (txn : Nat) (id : List Byte)
  deriving DecidableEq, Repr, Inhabited

/-- A PTP message of the master (R100) with its times in 0.1 ns of PTP time (TAI). -/
inductive PtpMsg
  /-- currentUtcOffset in s. -/
  | announce (utcOffset : Int)
  /-- Sequence, two-step, origin time, correction, and device time of ingress in ns. -/
  | sync (seq : Nat) (twoStep : Bool) (origin corr : Int) (ingress : Nat)
  | followUp (seq : Nat) (origin corr : Int)
  /-- Receive time of the Delay_Req. -/
  | delayResp (seq : Nat) (receive corr : Int)
  /-- A message of an option that R100 does not support. -/
  | unsupported
  deriving DecidableEq, Repr, Inhabited

/-- R100: the transports. -/
inductive PtpTransport
  | layer2 | udp4 | udp6
  deriving DecidableEq, Repr, Inhabited

/-- R100: the slave-only ordinary clock. Times in 0.1 ns. -/
structure Ptp where
  utcOffset : Option Int := none
  /-- A two-step Sync that waits for its Follow_Up: sequence, ingress time, correction. -/
  await : Option (Nat × Int × Int) := none
  /-- t2 − t1 of the latest Sync. -/
  down : Int := 0
  /-- The Delay_Req sent last: its sequence and egress time, until it is answered. -/
  reqSeq : Nat := 0
  egress : Option Int := none
  /-- Mean path delay. -/
  delay : Int := 0
  deriving DecidableEq, Repr, Inhabited

/-- An Ethernet port (R99 to R103). -/
structure EthPort where
  mode : Nat := 0
  ptpEn : Bool := false
  civilFromPtp : Bool := false
  linkUp : Bool := false
  /-- R102: frames dropped since the previous completion. -/
  drops : Nat := 0
  deriving DecidableEq, Repr, Inhabited

/-! ### Faults, frozen masters and events (19) -/

/-- An event that has arisen in the present step: source, cause, instance, payload, device time (R589). -/
structure Arising where
  src : Nat := 0
  cause : Nat := 0
  inst : Nat := 0
  payload : List Byte := []
  at_ : Nat := 0
  deriving DecidableEq, Repr, Inhabited

/-- FLT block (R595) with the freeze instants that R585 reports. -/
structure Flt where
  frozen : BitVec 36 := 0
  safeCause : BitVec 7 := 0
  violMaster : Nat := 0
  violKind : Nat := 0
  violCount : Nat := 0
  violAddr : Nat := 0
  evSeq : Word := 0
  evWraps : Nat := 0
  /-- Master and device time of each freeze in force. -/
  freezeAt : List (Nat × Nat) := []
  /-- R584: the outlets that the freeze of the vehicle-link engine has stopped. -/
  stopped : List Nat := []
  /-- R594: each Safe cause (bit) that has been set, with the device time of the latest. -/
  causeAt : List (Nat × Nat) := []
  /-- R615: occurrences counted, as (event, cause, instance, count) with the second of device time they fell in. -/
  counts : List ((Nat × Nat × Nat × Nat) × Nat) := []
  /-- Events of the present step, as they arose. -/
  arising : List Arising := []
  /-- R615: events raised at most once a second, as (event, cause, instance, device time). -/
  onceAt : List (Nat × Nat × Nat × Nat) := []
  deriving DecidableEq, Repr, Inhabited

/-! ### Profiles (01) -/

/-- A profile slot of the flash (R25, R123): its bytes, and whether a LAST has committed them. -/
structure ProfileSlot where
  bytes : List Byte := []
  committed : Bool := false
  /-- R123: a write has begun and not ended. -/
  writing : Bool := false
  deriving DecidableEq, Repr, Inhabited

/-- The active profile: its slot and image (R25, R26). -/
structure Profile where
  slot : Nat := 0
  image : List Byte := []
  deriving DecidableEq, Repr, Inhabited

structure ProfileStore where
  slots : List ProfileSlot := List.replicate 4 {}
  active : Option Profile := none
  /-- R28: every outlet is locked against session start, from this instant. -/
  lock : Bool := false
  lockAt : Nat := 0
  /-- R308: the lanes whose training the lock takes in. -/
  lockLanes : List Nat := []
  /-- R29: the slot that takes effect at the next allocation boundary; in a pair at the common one with this PERIOD_COUNT (R32, R539). -/
  change : Option Nat := none
  changeCount : Nat := 0
  /-- R28: outlets whose session request or CONNECT waits for the end of the lock. -/
  waiting : List (Nat × List Byte) := []
  deriving DecidableEq, Repr, Inhabited

/-! ### The allocator (05) and the stages (05, 06) -/

/-- R166, ALC_STGs.XFER. -/
inductive Xfer
  | steady | rampDown | opening | tracking | closing | blocked
  deriving DecidableEq, Repr, Inhabited

/-- The three kinds of stage order. -/
inductive StageOrder
  | move | attach | release
  deriving DecidableEq, Repr, Inhabited

/-- R208 to R210: what the UPLINKs latched since the last check window showed of one stage. -/
structure PhaseWindow where
  /-- Latched UPLINKs; the sums of their phase sums (Q15 at 512 A) and of their output currents (Q15 at 1024 A). -/
  periods : Nat := 0
  phases : Int := 0
  output : Int := 0
  /-- Phases whose current stayed low with their loop output saturated in every one of them. -/
  low : BitVec 4 := 0xF
  /-- Phases with a sample outside the converter range. -/
  bad : BitVec 4 := 0
  deriving DecidableEq, Repr, Inhabited

/-- One converter stage (R17 to R21, R149, R166, R203, R208 to R213, R616, R617). -/
structure Stage where
  /-- Assignment table: the outlet held. -/
  outlet : Option Nat := none
  dest : Option Nat := none
  xfer : Xfer := .steady
  order : StageOrder := .attach
  /-- Outlet the running transfer left, for E35 and E36. -/
  src : Option Nat := none
  /-- Device time at which the transfer timer started. -/
  xferAt : Nat := 0
  /-- Device time at which the last transfer ended. -/
  lastEnd : Option Nat := none
  trackTimeouts : Nat := 0
  /-- R214: a STAGE_HALT is in force. -/
  halted : Bool := false
  /-- R213: a STAGE_HALT preceded, so a resume re-enables dropped phases. -/
  haltSeen : Bool := false
  /-- R616: a resume waits for the safe end. -/
  resumeDeferred : Bool := false
  /-- R21: removed from allocation. -/
  removed : Bool := false
  /-- The stage output is enabled (EN of R278). -/
  outEn : Bool := false
  /-- Commanded coils of X(s, 0) to X(s, 7). -/
  coils : BitVec 8 := 0
  /-- R19: coils whose open command waits for 2 A or less, and since when. -/
  openWait : BitVec 8 := 0
  waitAt : Nat := 0
  waitRaised : Bool := false
  /-- XP_FB of the last latched UPLINK. -/
  fb : BitVec 8 := 0
  /-- Current ramp of R166 and R214: reference at its start (Q15 at 1024 A), its start, and whether it rises. -/
  rampFrom : Int := 0
  rampAt : Nat := 0
  ramping : Bool := false
  rampUp : Bool := false
  /-- R166: the instant at which the present transfer state began, and the output voltage then (R165). -/
  stepAt : Nat := 0
  trackFrom : Int := 0
  /-- R165: since when the output has stayed within 5 V of the reference. -/
  nearAt : Option Nat := none
  /-- R207: since when the short condition has held. -/
  shortAt : Option Nat := none
  /-- R21: the boundary of the DOWNLINK that carried the latest change of each coil, and the latch of that of each feedback bit. -/
  coilAt : List Nat := List.replicate 8 0
  fbAt : List Nat := List.replicate 8 0
  /-- Disabled phases, and those of them that R209 or R210 disabled (SPP_STGs.PHASE_DROPPED). -/
  dropped : BitVec 4 := 0
  lost : BitVec 4 := 0
  /-- R208: the running check window. -/
  win : PhaseWindow := {}
  /-- R221: SPP_STGs as of the last generator tick. -/
  shown : Word := 0
  /-- SPP_STGs.K_SHARE (R203). -/
  kShare : Half := 0
  /-- R209: raw value and length of the run of identical samples of each phase. -/
  frozenRun : List (Half × Nat) := List.replicate 4 (0, 0)
  deriving DecidableEq, Repr, Inhabited

/-- R142: the allocator's inputs of one outlet. Units: 0.1 A, 0.1 V, kW. -/
structure Request where
  iTarget : Nat := 0
  vTarget : Nat := 0
  iMax : Nat := 0
  vMax : Nat := 0
  iMin : Nat := 0
  /-- 0 means no limit. -/
  pMax : Nat := 0
  deriving DecidableEq, Repr, Inhabited

/-- R148. -/
inductive Demand
  | none | starting | active | stopping | paused
  deriving DecidableEq, Repr, Inhabited

/-- Allocator state of one outlet: policy (R142), publication (R163, R164, R170) and infeasibility (R161, R162). -/
structure AlcOutlet where
  /-- OUTLET_POLICY, once one has executed: tier, weight, cap. -/
  policy : Option (Nat × Nat × Nat) := none
  /-- SESSION_AUTHORIZE P_LIMIT_KW, 0 for none. -/
  sessionLimit : Nat := 0
  /-- Published budget in W. -/
  budget : Nat := 0
  iCeil : Nat := 0
  vCeil : Nat := 0
  /-- CLIP_SRC codes of the terms that set I_CEIL and V_CEIL (R181). -/
  iClip : Nat := 0
  vClip : Nat := 0
  /-- Published STAGES and STATE of ALC_OUTo_BUDGET. -/
  stages : Nat := 0
  state : Demand := .none
  demandW : Nat := 0
  limit : Nat := 0
  /-- R161. -/
  paused : Bool := false
  /-- R162: causes in force, bit c for cause c. -/
  e32 : BitVec 6 := 0
  /-- R158: since when the outlet's need has been lower than the stages it holds; RELEASE_HOLD_MS has elapsed since. -/
  surplusAt : Option Nat := none
  surplusOver : Bool := false
  /-- R142: the last bus voltage, Q15 at 1600 V. -/
  busV : Int := 0
  deriving DecidableEq, Repr, Inhabited

/-- R139: what one stage showed when the inputs were latched. -/
structure StageLatch where
  outlet : Option Nat := none
  dest : Option Nat := none
  xfer : Xfer := .steady
  steadyOn : Option Nat := none
  available : Bool := false
  capW : Nat := 0
  capDa : Nat := 0
  vMaxV : Nat := 0
  order : StageOrder := .attach
  present : Bool := false
  iQ : Int := 0
  vQ : Int := 0
  /-- R159: MOVE_HOLD_MS has passed since the last transfer. -/
  holdOver : Bool := true
  xferAt : Nat := 0
  deriving DecidableEq, Repr, Inhabited

/-- R139: what one outlet showed when the inputs were latched. -/
structure OutletLatch where
  demand : Demand := .none
  req : Request := {}
  tier : Nat := 0
  weight : Nat := 1
  pCapKw : Nat := 0
  sessionKw : Nat := 0
  /-- Bus voltage, Q15 at 1600 V. -/
  busV : Int := 0
  iMeasQ : Int := 0
  /-- Cable and connector ceiling in 0.1 A, and whether it is the stale fallback. -/
  cable : Option (Nat × Bool) := none
  /-- R142: the bus voltage is the last value of a stage whose lane is lost. -/
  busStale : Bool := false
  /-- R158: RELEASE_HOLD_MS has elapsed; R161: paused by the allocation before. -/
  surplusOver : Bool := false
  paused : Bool := false
  lastBudget : Nat := 0
  deriving DecidableEq, Repr, Inhabited

/-- R139: the inputs latched at one allocation boundary. -/
structure AlcLatch where
  capKw : Nat := 0
  capSrc : Nat := 0
  trafoKw : Option Nat := none
  stages : List StageLatch := []
  outlets : List OutletLatch := []
  deriving DecidableEq, Repr, Inhabited

/-- The allocator (R138 to R173). -/
structure Alloc where
  running : Bool := false
  /-- GRID_CAP in force: kW and whether a HOLD_MS runs. -/
  hostCap : Option (Nat × Bool) := none
  /-- R143: device time at which the HOLD_MS of the GRID_CAP lapses. -/
  holdUntil : Nat := 0
  /-- Level of each GPIO contact after its debounce (R142). -/
  gpio : BitVec 24 := 0
  capBinding : Bool := false
  trafoBinding : Bool := false
  /-- ALC_STATUS as published. -/
  fastShown : Bool := false
  hostShown : Bool := false
  levelTier : Nat := 0
  transfers : Nat := 0
  periodCount : Word := 0
  capKw : Nat := 0
  availKw : Nat := 0
  level : Nat := 0xFFFFFFFF
  estKw : Nat := 0
  /-- R162: CAP_BELOW_LOAD is in force. -/
  capBelow : Bool := false
  /-- R172: the transformer headroom is low (E34). -/
  trafoLow : Bool := false
  /-- R142: transformer permitted import in kW and whether it is fresh. -/
  trafoKw : Nat := 0
  trafoFresh : Bool := false
  /-- Inputs latched at the last boundary. -/
  latch : Option AlcLatch := none
  outlets : List AlcOutlet := List.replicate 8 {}
  /-- Stage words as published (R170): OUTLET, DEST, XFER, AVAILABLE, CAP_KW. -/
  stgShown : List Word := List.replicate 32 0xFF#32
  deriving DecidableEq, Repr, Inhabited

/-! ### The set-point path (06) -/

/-- R189. -/
inductive PathState
  | idle | connecting | connected | check | precharge | deliver | paused | stopping | discharging | faulted
  deriving DecidableEq, Repr, Inhabited

/-- R185: the open TARGET of an outlet. -/
structure OpenTarget where
  bytes : List Byte := []
  acceptedAt : Nat := 0
  /-- R216. -/
  deferred : Bool := false
  kClamped : Bool := false
  /-- R195: the tick at which the trajectory starts, and its planned duration in ms. -/
  startAt : Option Nat := none
  planMs : Rat := 0
  deriving DecidableEq, Repr, Inhabited

/-- One trajectory segment of constant jerk: jerk and duration in ms (R196). -/
structure Segment where
  jerk : Rat := 0
  dur : Rat := 0
  deriving DecidableEq, Repr, Inhabited

/-- One axis of the profile generator (R196 to R199). Units: A or V, and ms. -/
structure Axis where
  x : Rat := 0
  v : Rat := 0
  a : Rat := 0
  goal : Rat := 0
  moving : Bool := false
  /-- The state the plan started from, its segments, and the ms run since. -/
  x0 : Rat := 0
  v0 : Rat := 0
  a0 : Rat := 0
  plan : List Segment := []
  elapsed : Rat := 0
  /-- The present move is shaped by the slew limiter. -/
  slewing : Bool := false
  deriving DecidableEq, Repr, Inhabited

/-- Answers that the internal source of R174 receives. -/
structure PathAnswer where
  ack : Bool := false
  cmd : Nat := 0
  reason : Nat := 0
  detail : Nat := 0
  deriving DecidableEq, Repr, Inhabited

/-- Set-point path and port of one outlet (R178 to R191, R200, R214 to R216, R221). -/
structure Path where
  state : PathState := .idle
  linkUp : Bool := false
  /-- R184: last new SEQUENCE, forgotten at link-up. -/
  lastNew : Option Half := none
  lastAcc : Half := 0
  answered : Half := 0
  /-- R184: the answer held for repeats. -/
  held : Option (List Byte) := none
  tgt : Option OpenTarget := none
  heldConnect : Bool := false
  halted : Bool := false
  haltReason : Nat := 0
  /-- R215: a resume waits for the safe end. -/
  resumeDeferred : Bool := false
  req : Request := {}
  kReq : Nat := 0
  iEff : Nat := 0
  vEff : Nat := 0
  /-- R199: the runtime copy of the 16 bytes of generator parameters (R219), and the CRC-32C stored with it. -/
  params : List Byte := []
  paramsCrc : Nat := 0
  iAxis : Axis := {}
  vAxis : Axis := {}
  /-- R199: 0 none, 1 PARAM_CHECK, 2 INFEASIBLE, 3 RATE. -/
  fallback : Nat := 0
  /-- Device times of accepted re-targets within the last 1000 ms. -/
  retargets : List Nat := []
  /-- Outlet contactor: its commanded drive, since when, and what is verified of it. -/
  drive : Bool := false
  driveAt : Nat := 0
  closed : Bool := false
  opened : Bool := true
  /-- R190: the entry to CONNECTING or to STOPPING. -/
  since : Nat := 0
  /-- R188: the last valid frame on the port. -/
  frameAt : Nat := 0
  /-- R201, R195, R204: since when the outlet has matched the inlet rail, been in band, and been at or below DISCHARGE_V. -/
  nearAt : Option Nat := none
  bandAt : Option Nat := none
  lowAt : Option Nat := none
  /-- R200: start of the discharge rail: device time and bus voltage, Q15 at 1600 V. -/
  discharge : Option (Nat × Int) := none
  dischargeDone : Bool := false
  /-- R201: the coincident inlet reference, in Q15 units at 1600 V before rounding, and its instant. -/
  matchFrom : Rat := 0
  matchAt : Nat := 0
  /-- ACQ_IN mean of INLET_ACQ for the period, Q15 of the converter. -/
  inletQ : Int := 0
  frameErrors : Nat := 0
  naks : Nat := 0
  /-- The latest answer to the internal source (R174). -/
  lastAnswer : Option PathAnswer := none
  /-- R221: the registers of SPP_OUTo as of the last generator tick. -/
  shown : List Word := List.replicate 7 0
  deriving DecidableEq, Repr, Inhabited

/-! ### Law engines (07) -/

/-- An injection on one engine (R259 to R264). -/
structure Injection where
  wave : Nat := 0
  port : Nat := 0
  slot : Nat := 0
  amplitude : Int := 0
  order : Nat := 0
  capture : Nat := 0xFF
  hold : Nat := 0
  f0 : Nat := 0
  f1 : Nat := 0
  runs : Nat := 0
  /-- R262: allocation boundaries still to pass before the start; started. -/
  wait : Nat := 2
  started : Bool := false
  n : Nat := 0
  phi : Nat := 0
  lfsr : Nat := 0
  /-- The sample of the current due run. -/
  y : Int := 0
  deriving DecidableEq, Repr, Inhabited

/-- The run of one slot (R230, R240, R250). -/
structure Run where
  slot : Nat := 0
  pc : Nat := 0
  x : List Half := List.replicate 16 0
  acc0 : Acc := 0
  acc1 : Acc := 0
  flags : LawFlags := {}
  /-- State words as stored so far by this run (R241). -/
  st : List Half := []
  /-- Output ports written so far: port and value. -/
  outs : List (Nat × Half) := []
  deriving DecidableEq, Repr, Inhabited

/-- One law engine (R230, R248, R255, R256, R271). -/
structure Engine where
  fault : Bool := false
  planned : Nat := 0
  slots : Nat := 0
  peak : Nat := 0
  misses : Nat := 0
  corrected : Nat := 0
  inj : Option Injection := none
  /-- Slots due in this window and not yet run, in ascending ORDER. -/
  due : List Nat := []
  run : Option Run := none
  /-- Engine cycles used in this window, dispatch and stalls included. -/
  used : Nat := 0
  /-- R231: single-bit memory errors that the engine has still to meet and correct in this window. -/
  flips : Nat := 0
  deriving DecidableEq, Repr, Inhabited

/-- State of one law slot (R230, R238, R251). -/
structure LawSlot where
  st : List Half := []
  missed : Bool := false
  satBit : Bool := false
  ovBit : Bool := false
  holdBit : Bool := false
  mcnt : Nat := 0
  consec : Nat := 0
  /-- The slot was due in the present window and is not yet settled; it was skipped in the present window. -/
  dueNow : Bool := false
  skipped : Bool := false
  deriving DecidableEq, Repr, Inhabited

/-- The law block: engines, slots, and the signals of R232. -/
structure Law where
  engines : List Engine := List.replicate 8 {}
  /-- By slot number, 0 to 1023. -/
  slots : List LawSlot := List.replicate 1024 {}
  baseRate : Nat := 0
  window : Nat := 0
  margin : Nat := 0
  count : Nat := 0
  running : Bool := false
  /-- Inputs as latched at the window's start: signal ID and value. -/
  inputs : List (Nat × Half) := []
  /-- Outputs as published at the last window's end: signal ID and value. -/
  outputs : List (Nat × Half) := []
  /-- Outputs committed in the present window. -/
  fresh : List (Nat × Half) := []
  /-- The law window is open. -/
  openNow : Bool := false
  deriving DecidableEq, Repr, Inhabited

/-! ### Phase lanes (08) -/

/-- R306. -/
inductive LaneState
  | unused | down | active | refused
  deriving DecidableEq, Repr, Inhabited

/-- Where training of R290 stands. -/
inductive Train
  /-- Waiting for block lock. -/
  | idle
  /-- Measurement rounds; the list holds the RTTs measured. -/
  | rounds (next : Nat) (rtts : List Int)
  /-- The final request has been sent. -/
  | final
  /-- DOWNLINKs run; consecutive usable UPLINKs so far. -/
  | running (usable : Nat)
  deriving DecidableEq, Repr, Inhabited

/-- One phase lane (R274 to R291, R306 to R310). -/
structure Lane where
  state : LaneState := .unused
  aSent : Bool := false
  /-- 0 NONE, 1 LATENCY, 2 NODE_MISMATCH. -/
  refuse : Nat := 0
  /-- The cause of the last refusal event, for R306. -/
  refuseRaised : Nat := 0
  latencyNs : Nat := 0
  nodeType : Half := 0
  nodeVersion : Half := 0
  ph0 : Nat := 0
  ph1 : Nat := 0
  sensors : Nat := 0
  crcErrors : Nat := 0
  seqErrors : Nat := 0
  missing : Nat := 0
  holdFrames : Nat := 0
  xpFb : Half := 0
  limit : Byte := 0
  stop0 : Nat := 0
  stop1 : Nat := 0
  losses : Nat := 0
  blockLock : Bool := false
  train : Train := .idle
  /-- R306: when this training began or begins; of a REFUSED lane, when it was refused. -/
  trainAt : Nat := 0
  /-- T1 of the TRAIN_REQ sent last, and its round. -/
  t1 : Nat := 0
  round : Nat := 0
  trainFailRun : Bool := false
  /-- Consecutive periods without a usable UPLINK; the last latched one was usable. -/
  missRun : Nat := 0
  /-- Data blocks of the last DOWNLINK or HOLD sent. -/
  lastDown : List Block := []
  /-- Actuation fields last sent (block 9 of R278). -/
  lastAct : Block := 0
  /-- The valid UPLINKs that have arrived whole since the last latch, oldest first. -/
  arrived : List (List Block) := []
  /-- Data blocks of the last latched UPLINK. -/
  lastUp : List Block := []
  /-- GATE_FAULT of the last latched UPLINK. -/
  gate : Byte := 0
  /-- XP_REFUSED of the last latched UPLINK. -/
  refused : BitVec 2 := 0
  deriving DecidableEq, Repr, Inhabited

/-- All lanes and the period sequence (R277). -/
structure Lanes where
  q : Half := 0
  /-- The first control period has begun. -/
  ticking : Bool := false
  /-- B_k: device time of the latest control period boundary. -/
  boundary : Nat := 0
  lane : List Lane := List.replicate 16 {}
  /-- R92: the lanes before an entry to Sleep. -/
  before : List Lane := []
  deriving DecidableEq, Repr, Inhabited

/-! ### Trigger and acquisition (09) -/

/-- R317. -/
inductive CapState
  | idle | parked | armed | triggered | done | calibrating
  deriving DecidableEq, Repr, Inhabited

/-- One entry before it is encoded (R329): time in 0.25 ns of device time, channel, KIND, value. -/
structure CapEntry where
  time : Int := 0
  ch : Nat := 0
  kind : Nat := 0
  value : Half := 0
  deriving DecidableEq, Repr, Inhabited

/-- One decimated sample (R321) with its time tag, and whether its channel was uncalibrated then (R314). -/
structure CapSample where
  ch : Nat := 0
  time : Int := 0
  value : Half := 0
  uncal : Bool := false
  deriving DecidableEq, Repr, Inhabited

/-- What a capture unit holds back until everything of an earlier time has arrived (R322, R328). -/
inductive CapNews
  | sample (value : Half) (uncal : Bool)
  /-- R316: the source supplies no sample. -/
  | gap
  /-- R324: a LAW_FLAG, EVENT or EXTERNAL trigger at this device time in ns, if the pattern holds then. -/
  | fire (t : Int)
  deriving DecidableEq, Repr, Inhabited

structure CapItem where
  time : Int := 0
  ch : Nat := 0
  news : CapNews := .gap
  deriving DecidableEq, Repr, Inhabited

/-- One channel of a capture unit (R321, R322, R326). -/
structure CapChan where
  /-- The run that decimation collects: time tags and values. -/
  run : List (Int × Half) := []
  /-- The source has supplied its samples up to this time tag. -/
  seenTo : Int := 0
  /-- The previous valid decimated sample, for triggers. -/
  prev : Option (Int × Int) := none
  /-- A sample below TRIG_LEVEL_A − TRIG_HYST, or above TRIG_LEVEL_A + TRIG_HYST, has come. -/
  low : Bool := false
  high : Bool := false
  stored : Option Int := none
  /-- Decimated samples since the last stored entry. -/
  since : Nat := 0
  inGap : Bool := false
  /-- The channel has shown a sample since arming. -/
  begun : Bool := false
  /-- R340: the channel's first gap of the record has been raised. -/
  gapped : Bool := false
  deriving DecidableEq, Repr, Inhabited

/-- One capture unit (R317, R339). -/
structure CapUnit where
  state : CapState := .idle
  /-- The configuration block in force or parked. -/
  cfg : List Byte := []
  byInject : Bool := false
  /-- Device time of arming, and the end of the holdoff. -/
  armedAt : Nat := 0
  holdoffEnd : Nat := 0
  /-- The trigger has fired, at this device time in ns, and CAPTURE_TRIGGER is due. -/
  trig : Option Int := none
  trigTime : Int := 0
  civil : Int := 0
  /-- FIRST_TIME of R327, in 0.25 ns of device time. -/
  firstTime : Int := 0
  preShort : Bool := false
  full : Bool := false
  patWas : Bool := false
  chans : List CapChan := []
  /-- R328: what is held back. -/
  queue : List CapItem := []
  /-- Entries and decimated samples since arming, newest first. -/
  entries : List CapEntry := []
  samples : List CapSample := []
  /-- R334: F0 of the injection that armed the unit, when its WAVE is SINE. -/
  injF0 : Nat := 0
  /-- The held record, and whether it is a calibration record. -/
  record : Option (List Byte) := none
  recordCal : Bool := false
  number : Word := 0
  completed : Nat := 0
  deriving DecidableEq, Repr, Inhabited

/-- The ACQ block. -/
structure Acq where
  ovr : Half := 0
  edges : Word := 0
  last : List Half := List.replicate 16 0
  /-- R315: nominal time and codes of the latest conversions. -/
  recent : List (Nat × List Half) := []
  /-- R325: ACQ_TRIG_OUT is high until this instant. -/
  pulseUntil : Option Nat := none
  /-- ACQ_IN of R232 for the present period. -/
  mean : List Int := List.replicate 16 0
  units : List CapUnit := List.replicate 8 {}
  deriving DecidableEq, Repr, Inhabited

/-! ### Thermal models and cooling (10) -/

/-- One thermal object (R344 to R357, R371). Temperatures in °C, currents in A, powers in W. -/
structure ThmObj where
  theta : List Rat := []
  /-- Samples of the driving quantity not yet in a millisecond: nominal time in 0.25 ns and Q15 value. -/
  raw : List (Int × Int) := []
  /-- Means of X² and |X| of the latest millisecond. -/
  meanSq : Rat := 0
  meanAbs : Rat := 0
  /-- Sums over the milliseconds since the last sample: losses, means of X², and their count. -/
  lossSum : Rat := 0
  sqSum : Rat := 0
  ticks : Nat := 0
  lastSample : Nat := 0
  /-- Time and θ1 of earlier samples, newest first. -/
  hist : List (Nat × Rat) := []
  tref : Rat := 0
  lastCorr : Nat := 0
  meas : Option Int := none
  /-- Since when every correction had |e| above DIVERGE_DK, and the latest e in 0.1 K. -/
  divergeSince : Option Nat := none
  err : Int := 0
  diverged : Bool := false
  openLoop : Bool := false
  step : Nat := 0
  /-- Since when the margin has stayed above 21, 11 and 6 K. -/
  aboveSince : List (Option Nat) := [none, none, none]
  near : Bool := false
  above : Bool := false
  rateOver : Bool := false
  rateStop : Bool := false
  /-- r in K/s, once a sample at least 1 s old exists. -/
  rate : Option Rat := none
  loss : Rat := 0
  ttl : Nat := 0xFFFF
  /-- Published capacity and when it was last published. -/
  cap : Rat := 0
  capAt : Nat := 0
  /-- R371: the object's registers as of its last sample: TEMP, FCST, STATE and LOSS. -/
  shown : List Word := [0x80000000, 0xFFFF, 0, 0]
  deriving DecidableEq, Repr, Inhabited

/-- One coolant loop (R359 to R361). -/
structure CoolLoop where
  flow : Nat := 0
  flowLow : Bool := false
  pumpOn : Bool := false
  /-- Device time at which the pump was commanded on. -/
  pumpAt : Nat := 0
  fanOn : Bool := false
  duty : Nat := 0
  /-- R360: some cooling need holds now, and the instant at which one was last seen to hold. -/
  need : Bool := false
  neededAt : Nat := 0
  /-- R361: since when the flow has stayed below MIN_FLOW_DLPM, and since when at or above it. -/
  lowSince : Option Nat := none
  okSince : Option Nat := none
  deriving DecidableEq, Repr, Inhabited

/-- One reading of a sensor: value in 0.1 °C, or none when invalid, and the device time from which it counts. -/
structure Reading where
  value : Option Int := none
  at_ : Nat := 0
  deriving DecidableEq, Repr, Inhabited

/-- One RTD input (R346, R347). -/
structure Rtd where
  reading : Option Int := none
  fault : Bool := false
  alarm : Bool := false
  deriving DecidableEq, Repr, Inhabited

/-- The THM block, with the AON halt mark of R364. -/
structure Thm where
  objs : List ThmObj := []
  seq : Word := 0
  dieWarm : Bool := false
  dieDc : Int := 0
  /-- The highest reading since reset, once one has been taken. -/
  peakDc : Option Int := none
  /-- R364: a halt is pending since this device time, from this die sensor. -/
  halting : Option Nat := none
  haltSensor : Nat := 0
  /-- R364: held in reset by the halt; R365: a reset release waits with these straps. -/
  halted : Bool := false
  waiting : Option Straps := none
  haltMark : Bool := false
  rtd : List Rtd := List.replicate 24 {}
  /-- Own and peer RTD readings that count now: sensor ID and reading. -/
  applied : List (Nat × Reading) := []
  /-- R348: readings converted and not yet applied: sensor ID (or 0x8000 + loop flow), value, conversion time. -/
  queue : List (Nat × Option Int × Nat) := []
  /-- R348: the 10 ms boundary at which readings were applied last. -/
  appliedAt : Nat := 0
  /-- R359: pulses of each FLOW input in the last ten intervals of 100 ms, newest first. -/
  pulses : List (List Nat) := List.replicate 8 []
  /-- NODE_TEMP indices invalid at their latest sample. -/
  nodeBad : List Nat := []
  loops : List CoolLoop := List.replicate 8 {}
  deriving DecidableEq, Repr, Inhabited

/-! ### Vehicle links (11) -/

/-- R386. -/
inductive SessState
  | idle | plugged | linked | setup | authorizing | preparing | charging | ending | ended
  deriving DecidableEq, Repr, Inhabited

/-- The session of one outlet, as a SESSION record mirrors it (R386 to R393). -/
structure Session where
  state : SessState := .idle
  protocol : Nat := 0
  tls : Bool := false
  pnc : Bool := false
  /-- The vehicle's latest target and maxima. -/
  req : Request := {}
  /-- R386: the authorization that a CHADEMO outlet records in IDLE, and SESSION_REF. -/
  authorized : Bool := false
  sessionRef : List Byte := []
  energyLimitWh : Nat := 0
  /-- SEQUENCE of the internal TARGETs, and what the latest CHARGE or PRECHARGE asked for. -/
  seq : Half := 0
  issuedI : Nat := 0
  issuedV : Nat := 0
  issuedAt : Nat := 0
  /-- The isolation test has begun; its CHECK is acknowledged; a PRECHARGE, a CHARGE has been issued. -/
  isolating : Bool := false
  checked : Bool := false
  precharging : Bool := false
  delivering : Bool := false
  /-- R380, R385, R386: when PLUGGED and when AUTHORIZING was entered. -/
  pluggedAt : Nat := 0
  authAt : Nat := 0
  /-- R387: PAUSE has been issued for a standby; R389: the isolation status is Fault. -/
  standby : Bool := false
  isoFault : Bool := false
  /-- R390: a CONNECT failed with NO_STAGE, and when; since when the outlet starves. -/
  noStage : Bool := false
  noStageAt : Nat := 0
  starvedSince : Option Nat := none
  reason : Nat := 0
  /-- The protocol's closing messages are done or not needed. -/
  closed : Bool := false
  /-- R394: the transaction stop waits for a lease. -/
  stopWaits : Bool := false
  /-- R478: the authorization waits until Caddis is READY after an installation: SESSION limit, energy limit and SESSION_REF. -/
  startWaits : Option (Nat × Nat × List Byte) := none
  /-- R383: charge sequence signals, and when signal 1 was released. -/
  sig1 : Bool := false
  sig2 : Bool := false
  sig1At : Nat := 0
  /-- CHAdeMO: 0x102 has reported ready. -/
  ready : Bool := false
  /-- 5 % duty on the pilot; the pilot drives F. -/
  duty : Bool := false
  pilotF : Bool := false
  deriving DecidableEq, Repr, Inhabited

/-- The vehicle-link engine of one outlet (R377 to R385, R395). -/
structure Veh where
  ses : Session := {}
  pilot : Nat := 0
  highMv : Int := 0
  lowMv : Int := 0
  ppClass : Nat := 0
  ppOhm : Nat := 0xFFFF
  /-- R381, R382: the T1S link is up; a TCP connection is open. -/
  t1sUp : Bool := false
  tcpOpen : Bool := false
  /-- R379: since when PP has not been LATCHED; R381, R385: the latest T1S frame and CHAdeMO message, and the latest charger messages. -/
  ppBadAt : Nat := 0
  t1sAt : Nat := 0
  canAt : Nat := 0
  canTxAt : Nat := 0
  /-- R383: vehicle charge permission. -/
  permission : Bool := false
  sessions : Word := 0
  deriving DecidableEq, Repr, Inhabited

/-! ### CAN controllers (12) -/

/-- A receive ring in host memory (R404, R413, R437): registers, write position, and since when an entry waits for its message. -/
structure RxRing where
  baseLo : Word := 0
  baseHi : Word := 0
  sizeLog2 : Nat := 4
  vector : Nat := 0
  enable : Bool := false
  coalesceUs : Nat := 0
  index : Nat := 0
  phase : Bool := true
  unsigAt : Option Nat := none
  deriving DecidableEq, Repr, Inhabited

/-- A CAN frame as received (R404); FORMAT 0 CLASSICAL, 1 FD, 2 FD_BRS, 3 XL. -/
structure CanFrame where
  fmt : Nat := 0
  ide : Bool := false
  esi : Bool := false
  rtr : Bool := false
  id : Nat := 0
  sdt : Byte := 0
  vcid : Byte := 0
  af : Word := 0
  data : List Byte := []
  /-- Device time of the start-of-frame bit. -/
  time : Nat := 0
  deriving DecidableEq, Repr, Inhabited

/-- A buffered frame: its deciding filter entry, PRIO and OVERRUN_BEFORE (R403, R404). -/
structure CanRx where
  frame : CanFrame := {}
  filter : Nat := 0
  prio : Bool := false
  overrun : Bool := false
  deriving DecidableEq, Repr, Inhabited

/-- A pending transmit buffer: its frame, and the losses of R410. -/
structure CanTx where
  frame : CanFrame := {}
  losses : Nat := 0
  colliding : Bool := false
  deriving DecidableEq, Repr, Inhabited

inductive CanMode
  | normal | restricted | detecting
  deriving DecidableEq, Repr, Inhabited

/-- One CAN controller (R399 to R413). -/
structure CanCtl where
  running : Bool := false
  mode : CanMode := .normal
  /-- R399, R415: the frame on the wire still completes; then the controller leaves for this reason (4 LEASE_LOST, 5 PROFILE). -/
  leaving : Nat := 0
  busOff : Bool := false
  recovering : Bool := false
  /-- R409: when recovery began to count. -/
  recoverAt : Nat := 0
  tec : Nat := 0
  /-- REC. -/
  recc : Nat := 0
  lastError : Nat := 0
  lastInData : Bool := false
  rateIndex : Nat := 0
  dataVerified : Bool := false
  /-- R411: candidate under test, its frames without error, since when, and that it is accepted. -/
  candidate : Nat := 0
  good : Nat := 0
  candAt : Nat := 0
  accepted : Bool := false
  /-- R399, R411: since when 11 recessive bits let the controller go on: a rate was accepted, or the lease was gained. -/
  quietAt : Nat := 0
  tx : List (Option CanTx) := [none, none, none]
  /-- The buffer whose frame is offered to the bus. -/
  onWire : Option Nat := none
  prio : Option CanRx := none
  fifo : List CanRx := []
  /-- R403: a run of drops; the next entry is marked. -/
  dropping : Bool := false
  busOffs : Nat := 0
  overruns : Nat := 0
  rxFrames : Word := 0
  txFrames : Word := 0
  rx : RxRing := {}
  deriving DecidableEq, Repr, Inhabited


/-! ### Site mains network (13) -/

/-- A tone map: version, code rate (0 1/2, 1 2/3, 2 4/5) and the bits loaded on carriers 28 to 382 (R416, R429). -/
structure ToneMap where
  version : Nat := 0
  rate : Nat := 0
  load : List Nat := []
  deriving DecidableEq, Repr, Inhabited

/-- A received frame: its 32 bytes of frame control, each payload block by index with its data or `none` when it is bad, the nonce's device time and the plaintext when the frame completes a message whose tag verifies (R431), and the tone map that the PHY computes from the frame (R429). -/
structure PlcFrame where
  fc : List Byte := []
  blocks : List (Nat × Option (List Byte)) := []
  auth : Option (Nat × List Byte) := none
  est : Option ToneMap := none
  deriving DecidableEq, Repr, Inhabited

/-- One region of a link to a neighbour (R429, R434). -/
structure PlcRegion where
  /-- No map: robust mode. -/
  map : Option ToneMap := none
  /-- 4 after the fourth step: robust mode. -/
  down : Nat := 0
  failures : Nat := 0
  /-- Since when the direct link has been degraded, or has not been. -/
  degraded : Bool := false
  since : Nat := 0
  /-- The other direction: the map that this node sent last, and when. -/
  sent : Option ToneMap := none
  sentAt : Nat := 0
  deriving DecidableEq, Repr, Inhabited

/-- What a node knows of another node: its link, and its last ROUTE (R426, R434). -/
structure PlcNode where
  addr : Nat := 0
  direct : Bool := false
  lastHeard : Nat := 0
  regions : List PlcRegion := List.replicate 8 {}
  strider : Bool := false
  asleep : Bool := false
  nodeId : Nat := 0
  /-- Its neighbours with the region rates of PLC_NBa. -/
  links : List (Nat × Word) := []
  /-- Next hop in use for each region, 0 for none. -/
  via : List Nat := List.replicate 8 0
  deriving DecidableEq, Repr, Inhabited

/-- A block of a queued message. -/
inductive PlcBlock
  | pending | good
  /-- Bad: re-send in region r from a device time, after so many re-sends. -/
  | bad (region fromNs resends : Nat)
  deriving DecidableEq, Repr, Inhabited

/-- A queued message (R427, R435). -/
structure PlcMsg where
  num : Nat := 0
  type : Nat := 2
  prio : Nat := 0
  orig : Nat := 0
  final : Nat := 0
  seq : Half := 0
  hopsLeft : Nat := 4
  /-- The message with its tag. -/
  bytes : List Byte := []
  blocks : List PlcBlock := []
  queuedAt : Nat := 0
  started : Bool := false
  robust : Bool := false
  /-- R436: held until the destination is heard. -/
  held : Bool := false
  /-- Every block is delivered; the E2E_ACK is awaited. -/
  waitAck : Bool := false
  /-- It belongs to a PLC_SEND descriptor. -/
  own : Bool := false
  deriving DecidableEq, Repr, Inhabited

/-- A frame sent whose SACK is due (R428). -/
structure PlcAwait where
  num : Nat := 0
  dst : Nat := 0
  region : Nat := 0
  map : Nat := 0
  deriving DecidableEq, Repr, Inhabited

/-- A message being received: originator, MSG_SEQ, type, number of blocks and the good ones. -/
structure PlcPartial where
  orig : Nat := 0
  seq : Half := 0
  type : Nat := 0
  count : Nat := 0
  got : List (Nat × List Byte) := []
  deriving DecidableEq, Repr, Inhabited

/-- The PLC block and the network's state on this node (R418 to R441). -/
structure Plc where
  /-- ROLE: 0 OFF, 1 SEEKING, 2 MEMBER, 3 COORDINATOR. -/
  role : Nat := 0
  addr : Nat := 0
  lock : Bool := false
  nid : Nat := 0
  /-- SITE_KEY_SLOT and STATIC_ADDR in force (R439). -/
  keySlot : Nat := 0
  staticAddr : Nat := 0
  coordAddr : Nat := 0
  nodes : Nat := 0
  depth : Nat := 0
  synthetic : Bool := false
  assocOpen : Bool := false
  relays : List Nat := [0, 0, 0]
  cycle : Word := 0
  /-- C_j and T_m in ns. -/
  cycleStart : Nat := 0
  periodNs : Nat := 0
  /-- Device time of the last beacon, or of entry to Operate. -/
  heardAt : Nat := 0
  /-- Local crossings, newest first, at most 17, in ns; consecutive valid ones; E74 is in force. -/
  zc : List Nat := []
  zcRun : Nat := 0
  zcValid : Bool := false
  zcFault : Bool := false
  /-- R418: the measured frequency lies outside 45 to 66 Hz. -/
  zcBad : Bool := false
  zcPeriod : Nat := 0
  zcOffset : Half := 0
  known : List PlcNode := []
  /-- Coordinator: address, NODE_ID and when last heard. -/
  table : List (Nat × Nat × Nat) := []
  /-- R436: addresses to wake and the beacons still to list them. -/
  wake : List (Nat × Nat) := []
  /-- R423, R436: WAKE of the beacon heard last, and that its own beacon or relay repeats. -/
  wakeHeard : List Nat := []
  /-- R422, R432: 1 an ASSOC_REQ is owed, 2 it is queued and goes before any other frame. -/
  ask : Nat := 0
  /-- R432: when it asked last or was refused. -/
  askedAt : Nat := 0
  /-- R434: when the last ROUTE frame was queued. -/
  routeAt : Nat := 0
  /-- R431: the device time of the last nonce. -/
  nonceAt : Nat := 0
  /-- R428: the end of the frame on the wire, and of the SACK that it awaits. -/
  busyUntil : Nat := 0
  msgs : List PlcMsg := []
  nextNum : Nat := 0
  nextSeq : Half := 0
  await : Option PlcAwait := none
  collided : Bool := false
  parts : List PlcPartial := []
  /-- R431: the last device time accepted from an originator with a TYPE. -/
  times : List (Nat × Nat × Nat) := []
  /-- R437: messages that wait for the ring: entry without PHASE. -/
  waiting : List (List Byte) := []
  rx : RxRing := {}
  bad : Nat := 0
  resent : Nat := 0
  failed : Nat := 0
  refused : Nat := 0
  /-- R442: the half-cycle with bad blocks and its regions. -/
  hitHalf : Nat := 0
  hitMask : Byte := 0
  deriving DecidableEq, Repr, Inhabited


/-! ### Caddis: sealed metrology (14) -/

/-- The registers and residuals of one channel (R448, R449): mWh, and J below 3.6. -/
structure MetRegs where
  delivered : Nat := 0
  reverse : Nat := 0
  loss : Nat := 0
  deliveredRes : Rat := 0
  reverseRes : Rat := 0
  lossRes : Rat := 0
  deriving DecidableEq, Repr, Inhabited

/-- One stored record of a transaction (R462): its number, KIND and 256 bytes. -/
structure MetRecord where
  txn : Nat := 0
  kind : Nat := 0
  bytes : List Byte := []
  deriving DecidableEq, Repr, Inhabited

/-- One energy channel (R447 to R451, R460 to R464, R469, R472). -/
structure MetChan where
  sensorSet : Nat := 0
  uScale : Nat := 1000
  iScale : Nat := 1000
  uOffset : Int := 0
  iOffset : Int := 0
  rCable : Nat := 0
  lossComp : Nat := 0
  regs : MetRegs := {}
  /-- The registers of the last commit (R445). -/
  saved : MetRegs := {}
  isOpen : Bool := false
  txn : Nat := 0
  secondary : Bool := false
  primaryTxn : Nat := 0
  primaryId : List Byte := []
  sessionRef : List Byte := []
  startDelivered : Nat := 0
  startMs : Nat := 0
  /-- R464: flags that have been set during the open transaction. -/
  flags : Nat := 0
  /-- TXN_DELIVERED of the last closed transaction. -/
  lastDelivered : Nat := 0
  records : List MetRecord := []
  /-- Failed tests 5 (MODULATOR) and 6 (INPUT_OPEN). -/
  modFail : Bool := false
  openFail : Bool := false
  /-- R473: the last run of test 6. -/
  openAt : Nat := 0
  /-- An overrange sample since the last refresh; sample count of the last E81 OVERRANGE. -/
  above : Bool := false
  overAt : Option Nat := none
  /-- Sums of u, i and p over the samples since the last refresh, and their count. -/
  uSum : Rat := 0
  iSum : Rat := 0
  pSum : Rat := 0
  n : Nat := 0
  deriving DecidableEq, Repr, Inhabited

/-- The Caddis die. It keeps this state across every reset of the controller logic (R444). -/
structure Met where
  powered : Bool := true
  ready : Bool := false
  warmup : Bool := false
  sealIntact : Bool := true
  tamperIntact : Bool := true
  /-- Failed tests 0 to 4. -/
  failed : Nat := 0
  /-- Samples since first power-up: CADDIS_TIME_MS is an eighth of it (R465). -/
  samples : Nat := 0
  /-- The log: index and entry, in the order written (R470). -/
  log : List (Nat × List Byte) := []
  /-- An installed image: FW_VERSION and FW_DIGEST; none for the image from manufacture (R457). -/
  firmware : Option (Nat × List Byte) := none
  /-- R457, R473: the image in the other bank. -/
  otherBank : Option (Nat × List Byte) := none
  /-- R457, R478: an installation has begun, and Caddis restarts. -/
  installing : Bool := false
  /-- R445, R446, R469, R473: device time of the start, of the last periodic commit, of the last refresh, and of the last run of tests 0 to 4. -/
  startedAt : Nat := 0
  commitAt : Nat := 0
  refreshAt : Nat := 0
  testAt : List Nat := List.replicate 5 0
  ch : List MetChan := List.replicate 8 {}
  seq : Word := 0
  /-- The read window as last refreshed: BAR0 offset and word. -/
  shown : List (Nat × Word) := []
  /-- Events that arose while the module's logic was stopped: event, cause, instance, payload. -/
  waiting : List (Nat × Nat × Nat × List Byte) := []
  deriving DecidableEq, Repr, Inhabited

/-! ### Recorder (15) -/

/-- A HIST_PAGE (R480, R485); SEQ is that of its current copy. -/
structure HistPage where
  seq : Word := 2
  number : Nat := 0
  kind : Nat := 0
  inst : Nat := 0
  isOpen : Bool := true
  isVolatile : Bool := false
  stepped : Bool := false
  profile : Bool := false
  time : Nat := 0
  civil : Int := 0
  endTime : Nat := 0
  binLo : Int := 0
  binWidth : Nat := 0
  samples : Nat := 0
  invalid : Nat := 0
  under : Nat := 0
  above : Nat := 0
  min : Int := 0
  max : Int := 0
  sum : Int := 0
  /-- PERIOD: true for DAY. -/
  day : Bool := true
  bins : List Nat := List.replicate 100 0
  deriving DecidableEq, Repr, Inhabited

/-- An EXTREMES record (R487). -/
structure Extreme where
  seq : Word := 2
  isVolatile : Bool := false
  kind : Nat := 0
  inst : Nat := 0
  time : Nat := 0
  civil : Int := 0
  min : Int := 0
  max : Int := 0
  minTime : Nat := 0
  maxTime : Nat := 0
  deriving DecidableEq, Repr, Inhabited

/-- An EXCURSION record (R489). -/
structure Excursion where
  seq : Word := 2
  number : Nat := 0
  kind : Nat := 0
  inst : Nat := 0
  isOpen : Bool := true
  isVolatile : Bool := false
  profile : Bool := false
  time : Nat := 0
  civil : Int := 0
  endTime : Nat := 0
  peakTime : Nat := 0
  peak : Int := 0
  count : Nat := 1
  durationMs : Nat := 0
  /-- The running excursion: its start, and the most extreme value so far with its instant. -/
  startAt : Nat := 0
  live : Int := 0
  liveAt : Nat := 0
  deriving DecidableEq, Repr, Inhabited

/-- A TIME_STEP record (R491). -/
structure TimeStep where
  number : Nat := 0
  isVolatile : Bool := false
  time : Nat := 0
  civil : Int := 0
  old : Int := 0
  source : Nat := 1
  deriving DecidableEq, Repr, Inhabited

/-- One recorder ring (R479, R492): the next NUMBER, overwrites since reset, those since the last E89, and when it was raised. -/
structure RecRing where
  next : Nat := 0
  wraps : Nat := 0
  since : Nat := 0
  raisedAt : Option Nat := none
  deriving DecidableEq, Repr, Inhabited

/-- What the recorder memory holds (R479), rings oldest first. -/
structure RecData where
  pages : List HistPage := []
  opens : List (Option HistPage) := List.replicate 178 none
  extremes : List (Option Extreme) := List.replicate 178 none
  excursions : List Excursion := []
  steps : List TimeStep := []
  histNext : Nat := 0
  excNext : Nat := 0
  stepNext : Nat := 0
  deriving DecidableEq, Repr, Inhabited

/-- The REC block. -/
structure Recorder where
  data : RecData := {}
  /-- R494: the content last readable when the memory failed. -/
  base : RecData := {}
  isVolatile : Bool := false
  marked : Bool := false
  /-- AON fault word: cause and address. -/
  faultCause : Nat := 0
  faultAddr : Nat := 0
  /-- REC_CFG.PAGE_PERIOD: true for DAY. -/
  day : Bool := true
  rings : List RecRing := List.replicate 3 {}
  /-- Source values of each slot in the running second: sum and count. -/
  acc : List (Rat × Nat) := List.replicate 178 (0, 0)
  /-- R484: the whole second of device time that was sampled last. -/
  secondAt : Nat := 0
  /-- The latest value of each peak quantity of R488: kind, instance, value. -/
  last : List (Nat × Nat × Int) := []
  /-- R488: the nominal mains period in ns that MAINS peaks are measured from. -/
  nominalNs : Nat := 20000000
  deriving DecidableEq, Repr, Inhabited


/-! ### Wellspring, keys and attestation (16) -/

/-- R499, R501: what the boot ROM reconstructs: Wellspring, and the highest number of errors in any block (above 24: reconstruction fails). -/
structure WellspringRead where
  root : List Byte := []
  maxErrors : Nat := 0
  deriving DecidableEq, Repr, Inhabited

/-- R80, R82, R514: whether each firmware bank verifies at boot. -/
structure FirmwareBoot where
  bank0 : Bool := true
  bank1 : Bool := true
  deriving DecidableEq, Repr, Inhabited

/-- R507. -/
inductive SlotState
  | empty | ready | orphaned | invalid
  deriving DecidableEq, Repr, Inhabited

/-- R510: how a slot's key came to be. -/
inductive KeyOrigin
  | derived | placed | pub
  deriving DecidableEq, Repr, Inhabited

/-- One key slot (R505 to R511). -/
structure KeySlot where
  state : SlotState := .empty
  type : Nat := 0
  usage : Nat := 0
  flags : Nat := 0
  parent : Nat := 0xFF
  label : List Byte := []
  origin : KeyOrigin := .derived
  /-- The unmasked material; a public key for a public type. -/
  material : List Byte := []
  /-- The index of the free value that masks it. -/
  mask : Nat := 0
  /-- The integrity tag matches. -/
  tagOk : Bool := true
  zeroised : Bool := false
  deriving DecidableEq, Repr, Inhabited

/-- A store generation (R512): the MEAS of each wrap with its profile slot, and the persistent slots. -/
structure Store where
  wraps : List (Nat × List Byte) := []
  saved : List KeySlot := List.replicate 64 {}
  deriving DecidableEq, Repr, Inhabited

/-- R520: what the IDENTIFY at READY returned: FW_VERSION, FW_DIGEST, CADDIS_ID, public key, certificate. -/
structure CaddisIdent where
  version : Nat := 0
  digest : List Byte := []
  id : List Byte := []
  pub : List Byte := []
  cert : List Byte := []
  deriving DecidableEq, Repr, Inhabited

/-- The KEY block with its flash store and the firmware banks. -/
structure Keys where
  slots : List KeySlot := List.replicate 64 {}
  /-- Stored certificate chains (R513). -/
  certs : List (List Byte) := List.replicate 64 []
  well : WellspringRead := {}
  failed : Bool := false
  /-- M after stage 2, and MEAS. -/
  m2 : List Byte := []
  meas : List Byte := []
  store : Store := {}
  prev : Option Store := none
  floor : Nat := 0
  /-- The packages in flash; an empty one is the package from manufacture. -/
  banks : List (List Byte) := [[], []]
  active : Nat := 0
  /-- R123, R514: the inactive bank is being written; holds a committed package; boots next. -/
  fwWriting : Bool := false
  staged : Bool := false
  bootBank : Option Nat := none
  /-- R515: a recovery load has been completed. -/
  recovered : Bool := false
  /-- R514: a reset with cause FIRMWARE_UPDATE is due 10 ms after this device time. -/
  resetDue : Option Nat := none
  passes : Byte := 0
  /-- R509: the whole multiple of 250 ms of device time at which the last pass ran. -/
  passAt : Nat := 0
  /-- R511: orphans not yet zeroised: the slot revoked or failed, and their number. -/
  orphaning : List (Nat × Nat) := []
  rcvLo : Word := 0
  rcvHi : Word := 0
  rcvLen : Word := 0
  rcvStatus : Nat := 0
  ident : Option CaddisIdent := none
  deriving DecidableEq, Repr, Inhabited


/-! ### Protected switch channels (18) -/

/-- One channel (R561 to R575, R578). -/
structure SwCh where
  /-- The controller's commanded state (R575). -/
  commanded : Bool := false
  /-- The die's enable latch, and that the channel has not conducted since it was set. -/
  enabled : Bool := false
  fresh : Bool := false
  inrush : Bool := false
  short : Bool := false
  latch : Bool := false
  exhausted : Bool := false
  openLoad : Bool := false
  retries : Nat := 0
  code : Nat := 0
  fine : Bool := false
  peakDa : Nat := 0
  tjDc : Int := 0
  /-- The level of SW_IN, which its bus-hold keeps (R562), and since when it is low. -/
  swIn : Bool := false
  lowSince : Nat := 0
  /-- When the inrush window opened or started again, and when the last one closed. -/
  windowAt : Nat := 0
  closedAt : Nat := 0
  /-- Since when the channel conducts; from when RETRY_MS counts (R567, R569); a retry is under way, which a short would use up. -/
  conductAt : Nat := 0
  retryFrom : Nat := 0
  retrying : Bool := false
  /-- R566: when the open-load state was entered. -/
  openAt : Nat := 0
  deriving DecidableEq, Repr, Inhabited

/-- The switch die and the SWC block. -/
structure Switch where
  ch : List SwCh := List.replicate 12 {}
  /-- R68: the SWITCH section that the die runs by; a reset of the controller leaves it. -/
  cfg : List Byte := []
  vauxLow : Bool := false
  vauxMv : Nat := 0
  /-- R571: since when VAUX is low. R572: since when it has been back at 8.5 V. -/
  vauxLowAt : Nat := 0
  vauxOkAt : Nat := 0
  /-- R572: the die has reset for want of VAUX, and E108 VAUX_LOST has yet to be raised. -/
  lost : Bool := false
  lostPending : Bool := false
  /-- R576: since when no heartbeat of the controller comes; frozen since a device time. -/
  beatLost : Option Nat := some 0
  frozen : Bool := false
  frozenAt : Nat := 0
  ignored : Nat := 0
  /-- R575: this unit pre-drives the channels that are on. -/
  preDrive : Bool := false
  deriving DecidableEq, Repr, Inhabited

/-! ### The redundant pair (17) -/

/-- R543, PAIR_STATUS.STATE in its register order. -/
inductive PairState
  | alone | forming | refused | active | hot | resync | isolated
  deriving DecidableEq, Repr, Inhabited

/-- R527: what ILK_IN shows. -/
inductive IlkClass
  | low | high | invalid | standby | active
  deriving DecidableEq, Repr, Inhabited

/-- One lane of the pair link (R533). -/
structure PairLane where
  blockLock : Bool := false
  latencyNs : Nat := 0
  refused : Bool := false
  train : Train := .idle
  /-- R533: when the lane was refused. -/
  refusedAt : Nat := 0
  t1 : Nat := 0
  round : Nat := 0
  deriving DecidableEq, Repr, Inhabited

/-- R552, R553: a handover in progress on this unit. -/
structure Handover where
  /-- PERIOD_COUNT of the handover instant. -/
  atCount : Nat := 0
  /-- 1 SWITCHOVER, 2 LANE_LOSS. -/
  kind : Nat := 1
  /-- This unit is the taking side. -/
  taking : Bool := false
  /-- Taking side: its ACK is sent. Giving side: the ACK has arrived in time. -/
  acked : Bool := false
  /-- PERIOD_COUNT when the HANDOVER record left or arrived. -/
  since : Nat := 0
  deriving DecidableEq, Repr, Inhabited

/-- R538: what a HELLO record holds. -/
structure Hello where
  /-- The slot 0 manufacturing certificate, and the signature under slot 0 over everything else. -/
  certificate : List Byte := []
  signature : List Byte := []
  unitB : Bool := true
  pairId : BitVec 6 := 0
  ownerKeyId : List Byte := []
  firmware : Nat := 0
  digest : List Byte := []
  meas : List Byte := []
  /-- The NODE_ID of R433 and the slot 1 public key. -/
  nodeId : Nat := 0
  publicKey : List Byte := []
  deriving DecidableEq, Repr, Inhabited

/-- R544: the parts of a snapshot image. -/
inductive SnapPart
  | law (slot : Nat) (st : List Half)
  | stage (i : Nat) (rec : Stage)
  | outlet (i : Nat) (rec : AlcOutlet)
  | path (i : Nat) (rec : Path)
  | thermal (i : Nat) (theta : List Rat)
  | session (i : Nat) (rec : Session)
  /-- PERIOD_COUNT of the resync point. -/
  | point (periodCount : Nat)
  deriving DecidableEq, Repr, Inhabited

/-- R545: the tick at which a mirrored descriptor takes effect: a control period boundary by its PERIOD_COUNT (allocator, law window), or an instant of device time. -/
inductive EffectTick
  | period (count : Nat)
  | time (ns : Nat)
  deriving DecidableEq, Repr, Inhabited

/-- R537: mirror records by what they hold. -/
inductive MirrorRec
  | ack (seq : Word)
  | hello (h : Hello)
  /-- R547: the 16 bytes of a LEASE record. -/
  | lease (body : List Byte)
  | handover (atCount kind : Nat)
  | descriptor (d : Desc) (status : Nat) (tick : EffectTick)
  /-- The session of an outlet, with the pair key that wraps its TLS keys. -/
  | session (outlet : Nat) (rec : Session) (wrapKey : List Byte)
  | target (outlet : Nat) (rec : Path)
  | transfer (stage : Nat) (rec : Stage)
  /-- R348: the device time of conversion, and sensor IDs with their values; an invalid reading has none. -/
  | sensor (at_ : Nat) (readings : List (Nat × Option Int))
  /-- R475, R476: outlet, start or stop, SESSION_REF, transaction and CADDIS_ID. -/
  | caddis (outlet : Nat) (start : Bool) (ref : List Byte) (txn : Nat) (id : List Byte)
  | lane (states : List LaneState)
  /-- R544: the request for a snapshot, and one fragment of its image. -/
  | snapshotRequest
  | snapshot (frag frags : Nat) (part : SnapPart)
  deriving DecidableEq, Repr, Inhabited

/-- R537: a mirror record sent and not yet acknowledged; when it left last, and how often. -/
structure SentRecord where
  seq : Word := 0
  content : MirrorRec := .snapshotRequest
  tries : Nat := 1
  sentAt : Nat := 0
  deriving DecidableEq, Repr, Inhabited

/-- PAIR block (R557), interlock (R527 to R531), link (R533 to R536), lease (R546 to R551). -/
structure Pair where
  auth : Bool := false
  state : PairState := .alone
  ilk : IlkClass := .low
  /-- R530, R531: since when ILK_IN has had its class; a change in Sleep, which the wake takes up. -/
  ilkAt : Nat := 0
  ilkAsleep : Option (IlkClass × Nat) := none
  /-- R527: an E96 away from STANDBY or ACTIVE has been raised and not recovered. -/
  ilkLost : Bool := false
  readbackOk : Bool := false
  /-- R528: since when ILK_OUT pulses. -/
  pulsesAt : Nat := 0
  lanes : List PairLane := List.replicate 2 {}
  linkUp : Bool := false
  /-- R533: when the latest valid PERIOD frame arrived. R531: since when the link is down, and the double fault lasts. -/
  periodAt : Option Nat := none
  linkDownAt : Nat := 0
  doubleFault : Bool := false
  doubleAt : Nat := 0
  /-- R531: when a witness last answered. -/
  answeredAt : Option Nat := none
  witnessOk : BitVec 3 := 0
  term : Word := 0
  holderB : Bool := false
  /-- The term is current in this unit's view, and until which device time. -/
  held : Bool := false
  expiresAt : Nat := 0
  renewCount : Nat := 0
  /-- When the latest renewal was sent, and the term that formation proposes (R549). -/
  renewAt : Nat := 0
  proposed : Option Word := none
  /-- R531: when the renewal that a witness last answered was sent. -/
  witnessedAt : Option Nat := none
  /-- Device time of entry to Setup (R549). -/
  startAt : Nat := 0
  /-- Lease and Caddis records that wait for the next PAIR frame of the site network (R438). -/
  plcOut : List (Nat × List Byte) := []
  /-- R551: this unit's lease has lapsed for want of a witness. -/
  lapsed : Bool := false
  /-- R549: a GRANT of this term has been received and not yet used: by the pair link, for a handover, and over PLC, for a double fault. -/
  granted : Option Word := none
  grantedPlc : Option Word := none
  periodCount : BitVec 48 := 0
  mismatches : Nat := 0
  resyncs : Nat := 0
  takeovers : Nat := 0
  handovers : Nat := 0
  handover : Option Handover := none
  /-- R530: when the latest handover window ended. -/
  windowEndAt : Nat := 0
  /-- The peer as its PERIOD and LANE records show it. -/
  peerAuth : Bool := false
  peerState : PairState := .alone
  peerLanes : Half := 0
  /-- Own digest of the latest period (R541), whether the PERIOD frame says that it counts (R542), and INPUT_LOSS. -/
  digest : Word := 0
  digestOk : Bool := false
  /-- A PERIOD frame of the peer that came before the boundary of its period. -/
  early : List Block := []
  inputLoss : Bool := false
  /-- The bytes of the present period that its digest covers, and the INPUT_LOSS of the present period. -/
  digestBytes : List Byte := []
  lossNow : Bool := false
  witBaseLo : Word := 0
  witBaseHi : Word := 0
  witEnable : Bool := false
  /-- R550: the lease word of the host board as last read, and when; R438: when the latest PAIR frame left. -/
  hostWord : BitVec 64 := 0
  polledAt : Nat := 0
  frameAt : Nat := 0
  /-- A CompareAndSwap in flight: the word swapped in, and whether it claims. -/
  cas : Option (BitVec 64 × Bool) := none
  recordSeq : Word := 0
  unacked : List SentRecord := []
  /-- RECORD_SEQs of the peer already acknowledged. -/
  ackedSeqs : List Word := []
  /-- R545: descriptors waiting for their effect tick. -/
  effects : List (EffectTick × Desc) := []
  /-- R543: consecutive counted matches since the snapshot was applied; the snapshot has been applied. -/
  hotRun : Nat := 0
  snapApplied : Bool := false
  everResynced : Bool := false
  snapWanted : Bool := false
  /-- R544: snapshot fragments received, and the PERIOD_COUNT of the resync point. -/
  snapParts : List (Nat × SnapPart) := []
  resyncAt : Option Nat := none
  /-- R538, R539: the pair key is in slot 2; the peer's slot 1 key and NODE_ID; the pair key before the last profile change. -/
  helloOk : Bool := false
  peerPublic : List Byte := []
  peerNode : Nat := 0
  prevKey : Option (List Byte) := none
  /-- R539: the boundary at which the key changed. -/
  prevKeyAt : Nat := 0
  /-- R538: a profile change lets a REFUSED unit take a new HELLO exchange. -/
  mayRejoin : Bool := false
  deriving DecidableEq, Repr, Inhabited

/-! ### What leaves the block, and the host interface (04) -/

/-- What the CK832 sends out: the model's own log of outputs, newest first. -/
inductive Out
  /-- One posted host memory write (R98). -/
  | hostWrite (addr : Nat) (bytes : List Byte)
  /-- A read of host memory that the CK832 issues: address and length. -/
  | hostRead (addr len : Nat)
  /-- An MSI-X message (R133). -/
  | msix (addr data : Nat)
  /-- A BAR0 read answer. -/
  | regRead (offset : Nat) (value : Word)
  /-- An Ethernet frame (R122). -/
  | eth (port : Nat) (frame : List Byte)
  /-- A frame on a set-point port (R181 to R183). -/
  | sp (outlet : Nat) (frame : List Byte)
  /-- A frame on a phase lane (R278, R281, R288): frame TYPE and data blocks. -/
  | lane (n type : Nat) (blocks : List Block)
  /-- A pair link frame other than a mirror record (R535). -/
  | pairFrame (blocks : List Block)
  /-- A mirror record (R536, R537) with its RECORD_SEQ, and the MIRROR frames of one whose bytes the spec lays out. -/
  | mirror (seq : Word) (rec : MirrorRec) (frames : List (List Block))
  /-- A CAN frame sent (R398, R406): controller, FORMAT, identifier, IDE, the SDT, VCID and AF bytes of an XL frame, and data. -/
  | can (ctl fmt id : Nat) (ide : Bool) (xl data : List Byte)
  /-- A frame of the site network, `level` dB below the full level (R417). -/
  | plc (type dest level : Nat) (frame : List Byte)
  /-- A step of the vehicle protocol that the session engine takes (R387): outlet and message. -/
  | vehicle (outlet : Nat) (msg : List Byte)
  /-- R382: a TCP connection that a vehicle asks for is served or refused. -/
  | tcp (outlet : Nat) (served : Bool)
  /-- A pulse or level on a contact: name number and level (ETH_PPS_OUT 0, ACQ_TRIG_OUT 1). -/
  | contact (name : Nat) (level : Bool)
  /-- R336: the calibration square wave on ACQ_TRIG_OUT: T_start in ns and its number of rising edges. -/
  | calWave (start edges : Nat)
  /-- A request on PCIe to enter L1 (R87). -/
  | pcieL1
  /-- R100: a Delay_Req with its sequence, sent on a port. -/
  | ptpDelayReq (port seq : Nat)
  /-- A CompareAndSwap on the host board (R550): compare and swap words. -/
  | cas (addr cmp swap : Nat)
  deriving DecidableEq, Repr, Inhabited

/-- The host interface block. -/
structure HostIf where
  pairId : BitVec 6 := 0
  linkGen : Nat := 0
  linkWidth : Nat := 0
  ringsRunning : Bool := false
  hifOpen : Bool := false
  /-- RINGS_GO has been written since the last reset of the controller logic or PCIe reset. -/
  c0Tags : Nat := 0
  dbBaseLo : Word := 0
  dbBaseHi : Word := 0
  evq : Evq := {}
  eth : List EthPort := List.replicate 2 {}
  ptpLimitNs : Nat := 0x3E8
  /-- R467: requests that wait for Caddis, in arrival order. -/
  mailbox : List MeterWait := []
  /-- R101: the PTP servo is locked, and the offset was last outside the limit. -/
  ptpLocked : Bool := false
  ptpExceeded : Bool := false
  ptp : Ptp := {}
  /-- ETH_PPS_OUT pulses since reset; while the contact is high, when it falls (R101). -/
  ppsCount : Nat := 0
  ppsUntil : Option Nat := none
  sq : List Sq := List.replicate 16 {}
  cq : List Cq := List.replicate 16 {}
  msix : List MsixEntry := List.replicate 32 {}
  /-- R110: a doorbell fetch is in flight; a run of fetches fails. -/
  fetching : Bool := false
  failRun : Bool := false
  inflight : List InFlight := []
  /-- R81: the endpoint answers configuration requests; when PCIE_PERST_N was last released. -/
  endpointReady : Bool := false
  perstAt : Nat := 0
  /-- R97: the host-set maximum read request size, and the AER uncorrectable error status. R88: the host has enabled ASPM L1. -/
  maxRead : Nat := 512
  aer : Word := 0
  aspmL1 : Bool := false
  /-- R85: outputs to the host that wait for the PCIe clock, oldest first. -/
  stalled : List Out := []
  /-- R133: messages of the present step, as (source, vector). -/
  msgs : List (Nat × Nat) := []
  /-- The operation that runs now writes no buffer and no completion (R136, R583). -/
  muted : Bool := false
  deriving DecidableEq, Repr, Inhabited

end Sys2Proof.Machine
end

