-- ==== Sys2Proof/Syntax.lean ====
section
/-! DEFINITION. The commands of the CK832: one constructor for each row of the table of operations and events, with what the row carries. -/

namespace Sys2Proof

open Sys2Proof.Machine

/-- R387: the steps that a vehicle's protocol messages take, whatever the standard's own message names. -/
inductive V2gStep
  /-- The protocol (R395) is agreed and the session set up; TLS version as the wire numbers it (0x0303, 0x0304), or 0; Plug and Charge. -/
  | setup (protocol tls : Nat) (pnc : Bool)
  /-- TLS failed, with its alert code. -/
  | tlsFailed (alert : Nat)
  /-- Authorization is requested: identification type and identifier. -/
  | authRequest (idType : Nat) (identifier : List Byte)
  /-- A message that only carries the vehicle's limits or target. -/
  | parameters
  | cableCheck
  | preCharge
  | powerStart
  | demand
  | standby
  | resume
  | stop
  | weldingDetection
  /-- The closing message of the protocol. -/
  | sessionStop
  /-- A message the protocol does not allow, with the response code sent. -/
  | protocolError (code : Nat)
  deriving DecidableEq, Repr

/-- R387: what the CHAdeMO vehicle messages 0x100 to 0x102 report. -/
structure ChademoReport where
  req : Request := {}
  ready : Bool := false
  contactorClosed : Bool := false
  enabled : Bool := false
  stop : Bool := false
  deriving DecidableEq, Repr

/-- R408: what a CAN controller detects. -/
inductive CanHappening
  /-- A detected error: sent by this node as transmitter, LAST_ERROR code, in a data phase, in the arbitration field, and whether a passive error flag read no dominant bit. -/
  | error (transmitter : Bool) (code : Nat) (inData inArbitration noDominant : Bool)
  /-- A receiver reads a dominant bit as the first bit after sending an error flag. -/
  | firstDominant
  /-- A bit error while the node sends an active error flag or overload flag. -/
  | flagBit (transmitter : Bool)
  /-- 14 or 8 consecutive dominant bits after a flag, or 8 more. -/
  | dominantRun (transmitter : Bool)
  deriving DecidableEq, Repr

/-- R587 and the table of operations and events: every command the block takes from outside. Descriptor rows carry the descriptor as fetched; event rows carry what the event shows. -/
inductive Instr
  -- Supply, clocks, sleep and waking (03)
  /-- R75, R80: the core rail rises through its threshold; `straps` are the levels sampled, `wellspring` is what the boot ROM reads of the SRAM region and helper data (R499). -/
  | powerOnResetRelease (straps : Straps) (wellspring : WellspringRead)
  /-- R73. -/
  | supplyFail
  /-- R68, R77. -/
  | resetNAssert
  /-- R77, R80: with the strap levels sampled at release. -/
  | resetNRelease (straps : Straps)
  /-- R80, R82: `fw` is what verification of the two firmware banks gave. -/
  | bootSequenceComplete (fw : FirmwareBoot)
  /-- R79: the application core whose watchdog expired; the straps sampled at the restart. -/
  | watchdogExpiry (core : Nat) (straps : Straps)
  | extRefQualified
  | extRefLost
  /-- R85: clock domain number of R83. -/
  | pllLockLoss (domain : Nat)
  | pllRelock (domain : Nat)
  /-- R86: the value written to PWR_CTRL. -/
  | operate (value : Word)
  | pwrStatusRead
  /-- R87, R88: `l1Enabled` says whether the host has enabled ASPM L1 (PCIe configuration space). -/
  | sleepDelayExpiry (l1Enabled : Bool)
  /-- R89, R91: the sources that assert in one AON tick; `clocksStopped` is R92's distinction. -/
  | wakeSourceAssert (mask : BitVec 10) (clocksStopped : Bool)
  /-- R94: the doorbell block that the poll fetches, or `none` when the fetch fails. -/
  | slowPollTick (block : Option (List Byte))
  -- Host interface (04)
  /-- R136. -/
  | pcieReset
  /-- R115, R128: the value written to HIF_CTRL. -/
  | ringsGo (value : Word)
  /-- R9: a 32-bit write at a BAR0 offset. -/
  | registerWrite (offset : Nat) (value : Word)
  | doorbellFetch
  /-- R110: the 64 bytes of the doorbell block. -/
  | doorbellFetchComplete (block : List Byte)
  /-- R110: `timedOut` is false for a fetch that completes with an error. -/
  | doorbellFetchTimeout (timedOut : Bool)
  /-- R129: the held ring. -/
  | tagWaitResume (ring : Nat)
  | eventQueueDrain
  | coalesceTimerExpiry
  | nop (d : Desc)
  | armRing (d : Desc)
  | ringReset (d : Desc)
  | releaseMaster (d : Desc)
  | safeEnter (d : Desc)
  | safeExit (d : Desc)
  | gridCap (d : Desc)
  | outletHalt (d : Desc)
  | outletResume (d : Desc)
  | stageHalt (d : Desc)
  | stageResume (d : Desc)
  /-- R616: the stage whose deferred resume falls due. -/
  | stageResumeTakeEffect (stage : Nat)
  | snapshot (d : Desc)
  | sessionAuthorize (d : Desc)
  | sessionEnd (d : Desc)
  | outletPolicy (d : Desc)
  | selectProfile (d : Desc)
  | profileTakeEffect
  | canSend (d : Desc)
  | plcSend (d : Desc)
  | txnStart (d : Desc)
  | txnStop (d : Desc)
  | readRegisters (d : Desc)
  | readRecord (d : Desc)
  | readLog (d : Desc)
  | identify (d : Desc)
  | setParameter (d : Desc)
  | selfTest (d : Desc)
  | recordRead (d : Desc)
  | setCivilTime (d : Desc)
  | derive (d : Desc)
  | generate (d : Desc)
  | importWrapped (d : Desc)
  | importPublic (d : Desc)
  | readPublic (d : Desc)
  | sign (d : Desc)
  | info (d : Desc)
  | revoke (d : Desc)
  | delete (d : Desc)
  | certWrite (d : Desc)
  | certRead (d : Desc)
  | enrollOwner (d : Desc)
  | attest (d : Desc)
  | profileWrite (d : Desc)
  | firmwareWrite (d : Desc)
  | firmwareActivate (d : Desc)
  | captureArm (d : Desc)
  | captureCalibrate (d : Desc)
  | captureDisarm (d : Desc)
  | captureRead (d : Desc)
  | inject (d : Desc)
  | injectOff (d : Desc)
  | ethSend (d : Desc)
  | ethReceive (d : Desc)
  /-- R102: port and frame without FCS. -/
  | ethFrameReceive (port : Nat) (frame : List Byte)
  /-- R100: port, transport and message; `locked` says whether the servo is locked after it (R101). -/
  | ptpMessageReceive (port : Nat) (transport : PtpTransport) (msg : PtpMsg) (locked : Bool)
  | civilSecond
  /-- R583: an access of a master, and the tag of the descriptor on whose behalf it was issued, if any. -/
  | masterViolation (access : Access) (tag : Option (BitVec 7))
  -- The Tarn allocator (05)
  /-- R139, R140: `overrun` says that the allocation latched at the last boundary is not complete. -/
  | allocationBoundary (overrun : Bool)
  /-- R144: a GPIO contact (the fast-cap contact where FAST_CAP_GPIO names it) and its level after the debounce. -/
  | fastCapChange (contact : Nat) (level : Bool)
  | gridCapHoldExpiry
  /-- R158: the outlet. -/
  | releaseHoldExpiry (outlet : Nat)
  | transferRampDone (stage : Nat)
  | transferRampTimeout (stage : Nat)
  | xpOpenVerified (stage : Nat)
  | xpOpenTimeout (stage : Nat)
  | trackingDone (stage : Nat)
  | trackTimeout (stage : Nat)
  | xpCloseVerified (stage : Nat)
  | xpCloseTimeout (stage : Nat)
  | transferTimeout (stage : Nat)
  | xpCommandRelease (stage : Nat)
  | xpCurrent (stage : Nat)
  | feedbackMismatch (stage : Nat)
  -- Set-point path (06); ports carry whole frames (R179, R180)
  | spLinkUp (outlet : Nat)
  | spLinkDown (outlet : Nat)
  | targetStop (outlet : Nat) (frame : List Byte)
  | targetConnect (outlet : Nat) (frame : List Byte)
  | targetCheck (outlet : Nat) (frame : List Byte)
  | targetPrecharge (outlet : Nat) (frame : List Byte)
  | targetCharge (outlet : Nat) (frame : List Byte)
  | targetPause (outlet : Nat) (frame : List Byte)
  | statusPeriod (outlet : Nat)
  | portTimeout (outlet : Nat)
  | generatorTick
  | ackDecision (outlet : Nat)
  | notReached (outlet : Nat)
  | connectMatch (outlet : Nat)
  | contactorVerifiedClosed (outlet : Nat)
  | connectTimeout (outlet : Nat)
  | contactorCloseTimeout (outlet : Nat)
  | outletCurrentLow (outlet : Nat)
  | contactorVerifiedOpen (outlet : Nat)
  | contactorOpenTimeout (outlet : Nat)
  | dischargeReached (outlet : Nat)
  | dischargeComplete (outlet : Nat)
  | stopTimeout (outlet : Nat)
  /-- R207: `stage` is the stage whose start or tracking is shorted. -/
  | shortAtStart (stage : Nat)
  /-- R208: the stage whose 50 µs window ends. -/
  | phaseCheckWindow (stage : Nat)
  | phaseSenseFailed (stage phase : Nat)
  -- Law engines (07)
  /-- R248, R231: the single-bit memory errors that each engine meets and corrects in the window, eight counts. -/
  | lawWindowOpen (flips : List Nat)
  | lawWindowClose
  /-- R256: engine and memory (0 PROGRAM, 1 COEFFICIENT, 2 STATE). -/
  | memUncorrectable (engine mem : Nat)
  | injectionRunsDone (engine : Nat)
  -- Law instructions (R239, R240): the engine and the instruction's fields
  | lawNop (e : Fin 8)
  | ldc (e : Fin 8) (rd : BitVec 4) (k : Byte)
  | lds (e : Fin 8) (rd : BitVec 4) (k : Byte)
  | sts (e : Fin 8) (ra : BitVec 4) (k : Byte)
  | lin (e : Fin 8) (rd : BitVec 4) (k : Byte)
  | lout (e : Fin 8) (ra : BitVec 4) (k : Byte)
  | ldi (e : Fin 8) (rd : BitVec 4) (imm : Half)
  | mov (e : Fin 8) (rd ra : BitVec 4)
  | clr (e : Fin 8) (ac : Bool)
  | mpy (e : Fin 8) (ac : Bool) (ra rb : BitVec 4)
  | mac (e : Fin 8) (ac : Bool) (ra rb : BitVec 4)
  | msu (e : Fin 8) (ac : Bool) (ra rb : BitVec 4)
  | macc (e : Fin 8) (ac : Bool) (ra : BitVec 4) (k : Byte)
  | msuc (e : Fin 8) (ac : Bool) (ra : BitVec 4) (k : Byte)
  | lda (e : Fin 8) (ac : Bool) (ra : BitVec 4)
  | adda (e : Fin 8) (ac : Bool) (ra : BitVec 4)
  | suba (e : Fin 8) (ac : Bool) (ra : BitVec 4)
  | accadd (e : Fin 8) (ac : Bool)
  | sha (e : Fin 8) (ac : Bool) (sc : BitVec 5)
  | acclim (e : Fin 8) (ac : Bool) (ra rb : BitVec 4)
  | str (e : Fin 8) (rd : BitVec 4) (ac : Bool)
  | stas (e : Fin 8) (ac : Bool) (k : Byte)
  | ldas (e : Fin 8) (ac : Bool) (k : Byte)
  | add (e : Fin 8) (rd ra rb : BitVec 4)
  | sub (e : Fin 8) (rd ra rb : BitVec 4)
  | mul (e : Fin 8) (rd ra rb : BitVec 4)
  | min (e : Fin 8) (rd ra rb : BitVec 4)
  | max (e : Fin 8) (rd ra rb : BitVec 4)
  | abs (e : Fin 8) (rd ra : BitVec 4)
  | neg (e : Fin 8) (rd ra : BitVec 4)
  | shx (e : Fin 8) (rd ra : BitVec 4) (sc : BitVec 5)
  | and (e : Fin 8) (rd ra rb : BitVec 4)
  | or (e : Fin 8) (rd ra rb : BitVec 4)
  | xor (e : Fin 8) (rd ra rb : BitVec 4)
  | cmp (e : Fin 8) (ra rb : BitVec 4)
  | sel (e : Fin 8) (rd ra rb : BitVec 4) (cond : BitVec 4)
  | lut (e : Fin 8) (rd ra : BitVec 4) (k : Byte)
  | br (e : Fin 8) (cond : BitVec 4) (off : BitVec 10)
  | endRun (e : Fin 8)
  -- Phase lanes (08)
  /-- R281, R286: the lanes whose DOWNLINK content is incomplete 100 ns before the boundary. -/
  | downlinkSend (incomplete : Half)
  /-- R276: lane, TYPE byte of the SOF, and the data blocks. -/
  | uplinkReceive (lane : Nat) (type : Byte) (blocks : List Block)
  | uplinkLatch (lane : Nat)
  | laneLost (lane : Nat)
  /-- R274, R533: lanes 0 to 15 are phase lanes, 16 and 17 are PAIR0 and PAIR1. -/
  | blockLockLoss (lane : Nat)
  | blockLock (lane : Nat)
  | trainReqSend (lane : Nat)
  /-- R289, R290: the frame and the device time of its SOF arrival. -/
  | trainAck (lane : Nat) (type : Byte) (blocks : List Block) (arrivedAt : Nat)
  | trainTimeout (lane : Nat)
  | refusedRetry (lane : Nat)
  -- Trigger and acquisition (09)
  | holdoffEnd (unit : Nat)
  | captureTrigger (unit : Nat)
  /-- R322: the edge's direction and its device time in ns. -/
  | externalTriggerEdge (rising : Bool) (time : Nat)
  | captureDone (unit : Nat)
  | calDone (unit : Nat)
  /-- R315: the 16 converter codes. -/
  | acqConversion (codes : List Half)
  -- Thermal models (10)
  | lossTick
  | thermalSample (object : Nat)
  /-- R346: RTD inputs converted, with the resistance in mΩ between input and return, and the resistance in mΩ that the lead loop of each group shows. -/
  | rtdConversion (readings : List (Nat × Nat)) (leads : List Nat)
  | readingApply
  | diverged (object : Nat)
  /-- R359: pulses on each FLOW input of this unit over the last 100 ms. -/
  | flowUpdate (counts : List Nat)
  | flowLow (loop : Nat)
  | flowRecovered (loop : Nat)
  | runonExpiry (loop : Nat)
  /-- R363: the four die sensors in 0.1 °C. -/
  | dieTempRead (temps : List Int)
  | thermalHalt
  /-- R365: the die sensors, below 95 °C. -/
  | thermalHaltRelease (temps : List Int)
  -- Vehicle links (11)
  /-- R377: the plateaus of the pilot in mV, as they have held for 3 periods, or for 3 ms without PWM. -/
  | pilotStateChange (outlet : Nat) (highMv lowMv : Int)
  /-- R379: the resistance in Ω. -/
  | ppClassChange (outlet ohm : Nat)
  | ppFault (outlet : Nat)
  | slacMatched (outlet : Nat)
  /-- R396: 1 NO_PARAM_REQ, 2 MATCH_FAILED. -/
  | slacFailed (outlet detail : Nat)
  | t1sFrameReceive (outlet : Nat)
  | t1sLinkDown (outlet : Nat)
  | tcpConnectRequest (outlet : Nat)
  /-- R387: the step, and the vehicle's latest target, maxima and minimum. -/
  | v2gMessageReceive (outlet : Nat) (step : V2gStep) (req : Request)
  /-- The identifier 0x100 to 0x102 and what the messages report. -/
  | chademoMessageReceive (outlet id : Nat) (report : ChademoReport)
  | chademoTxTick (outlet : Nat)
  | canLoss (outlet : Nat)
  | authTimeout (outlet : Nat)
  | chademoUnplugTimer (outlet : Nat)
  /-- R392: the protocol message code. -/
  | msgTimeout (outlet code : Nat)
  | starved (outlet : Nat)
  | noStageRetry (outlet : Nat)
  | energyLimitPoll (outlet : Nat)
  | chargePermissionChange (outlet : Nat) (high : Bool)
  -- CAN controllers (12)
  | canFrameReceive (ctl : Nat) (frame : CanFrame)
  | canRxRingWrite (ctl : Nat)
  | canTxComplete (ctl : Nat)
  | canError (ctl : Nat) (what : CanHappening)
  | busOffRecoveryDone (ctl : Nat)
  /-- R413: the controller and the value written to CAN_CTLn_CMD. -/
  | recover (ctl : Nat) (value : Word)
  | redetect (ctl : Nat) (value : Word)
  | detectWindowExpiry (ctl : Nat)
  | canRestrictedExit (ctl : Nat)
  -- Site mains network (13)
  /-- R418: device time of the rising crossing in ns. -/
  | zeroCrossing (time : Nat)
  | zcLost
  /-- R421: the beacon slot 0 to 3 whose window opens. -/
  | beaconWindow (slot : Nat)
  /-- R422, R424: the frame, the device time of its start, and the COORD_RANK of its coordinator. -/
  | beacon (f : PlcFrame) (start rank : Nat)
  | beaconLockLoss
  | coordStart
  /-- R428: whether this node goes on to transmit, and the symbol times it waited. -/
  | plcContention (won : Bool) (backoff : Nat)
  | data (f : PlcFrame)
  | sack (fc : List Byte)
  | sackTimeout
  | e2eAck (f : PlcFrame)
  | assocReq (f : PlcFrame)
  | assocRes (f : PlcFrame)
  | tonemap (f : PlcFrame)
  | route (f : PlcFrame)
  | wakeReq (f : PlcFrame)
  | pairFrame (f : PlcFrame)
  | routeTimer
  | assocRetry
  | addressHoldExpiry (addr : Nat)
  /-- R435: MSG_SEQ of the message. -/
  | plcMsgTimeout (seq : Half)
  | pairFrameTimer
  -- Caddis (14)
  /-- R446, R473: the failed-test mask of the start tests (bits 0 and 1), and whether the image of the other bank passes its digest. -/
  | caddisStart (failed : Nat) (otherOk : Bool)
  | warmupEnd
  | caddisCommit
  | metRefresh
  /-- R453, R454: the debounced input is intact. -/
  | sealChange (intact : Bool)
  | tamperChange (intact : Bool)
  /-- R473: the test bit, the channel for tests 5 and 6, and whether it passed. -/
  | caddisSelfTestRun (test outlet : Nat) (passed : Bool)
  /-- R447: the 24-bit codes of voltage and current of each channel, and the channels whose bitstream is stuck. -/
  | caddisSample (codes : List (Int × Int)) (stuck : Byte)
  | caddisSupplyLoss
  -- Recorder (15)
  | recorderSecond
  | pageClose
  /-- R493: cause 1 VERIFY or 2 NO_RESPONSE, and the FRAM address. -/
  | framFailure (cause addr : Nat)
  -- Wellspring, keys and attestation (16)
  /-- R509: the slots whose integrity tag the pass finds wrong. -/
  | remaskPass (bad : List Nat)
  /-- R515: the value written to KEY_RCV_CTRL, and what host memory returns for the package. -/
  | go (value : Word) (package : Option (List Byte))
  -- The redundant pair (17)
  | ilkInClassChange (cls : IlkClass)
  | ilkReadbackFail
  | authYield
  | authCollision
  | doubleFault
  /-- R535: SOF TYPE and data blocks. -/
  | period (type : Byte) (blocks : List Block)
  | pairLinkDown
  /-- R536: RECORD_SEQ of the mirror record. -/
  | mirrorAckTimeout (seq : Word)
  | ack (seq : Word)
  /-- R538: what the peer's HELLO holds. -/
  | hello (seq : Word) (h : Hello)
  /-- R547: the 16-byte LEASE record; `plc` when it came in a PAIR frame of the site network. -/
  | lease (seq : Word) (body : List Byte) (plc : Bool)
  /-- R537: handover PERIOD_COUNT and kind. -/
  | handover (seq : Word) (atCount : Nat) (kind : Nat)
  /-- R545: a mirrored descriptor, its completion status and its effect tick. -/
  | descriptor (seq : Word) (d : Desc) (status : Byte) (tick : EffectTick)
  | mirroredDescriptorEffect
  /-- With the pair key under which the peer wrapped its TLS keys (R539). -/
  | session (seq : Word) (outlet : Nat) (rec : Session) (wrapKey : List Byte)
  | target (seq : Word) (outlet : Nat) (rec : Path)
  | transfer (seq : Word) (stage : Nat) (rec : Stage)
  /-- R348: the peer's readings and the device time of their conversion: RTD k in the first list, flow loop in the second. -/
  | sensor (seq : Word) (at_ : Nat) (rtds : List (Nat × Half)) (flows : List (Nat × Nat))
  /-- R475, R476: outlet, start (true) or stop, and for a start the SESSION_REF, PRIMARY_TXN and PRIMARY_ID. -/
  | caddis (seq : Word) (outlet : Nat) (start : Bool) (sessionRef : List Byte) (primaryTxn : Nat) (primaryId : List Byte)
  /-- R537: bit n is 1 while the peer's lane n is ACTIVE. -/
  | lane (seq : Word) (active : Half)
  | snapshotRecord (seq : Word) (frag frags : Nat) (part : SnapPart)
  | resyncPoint
  /-- R552: the value written to PAIR_CTRL. -/
  | switchover (value : Word)
  | resync (value : Word)
  | handoverTaken
  | handoverGiven
  | handoverWindowEnd
  | leaseRenew
  | leaseExpiry
  | leaseClaim
  /-- R550: the lease word read, or `none` when the read fails. -/
  | hostBoardPoll (word : Option (BitVec 64))
  /-- R550: the word found, or `none` when the CAS completes with an error. -/
  | hostCasComplete (found : Option (BitVec 64))
  -- Protected switch channels (18)
  /-- The channel and the value written to SWC_CHn_CMD. -/
  | on (channel : Nat) (value : Word)
  | off (channel : Nat) (value : Word)
  /-- With the junction temperature that the die reads, in 0.1 °C. -/
  | clear (channel : Nat) (value : Word) (tjDc : Int)
  | swInEdge (channel : Nat) (level : Bool)
  /-- R578: the peak current of the window, in 0.1 A. -/
  | inrushEnd (channel peakDa : Nat)
  /-- R565: the current of the channel in mA, and for how many ns it has stood at the limit. -/
  | limit (channel currentMa ns : Nat)
  /-- R560: the current of the channel in mA. -/
  | hardTrip (channel currentMa : Nat)
  | switchRetry (channel : Nat)
  | retryCountReset (channel : Nat)
  | latched (channel : Nat) (tjDc : Int)
  /-- R566: the samples of OPEN_MS lie on one side of OPEN_UA; the last of them, in µA. -/
  | openLoad (channel ua : Nat)
  | openLoadCleared (channel ua : Nat)
  | vauxLow (mv : Nat)
  | vauxRecovered (mv : Nat)
  | vauxLost (mv : Nat)
  | vauxReapply
  | switchDieFreeze
  -- Remaining events (03, 04, 16, 17, 19)
  | eventSecondTick
  | powerOnResetRearm
  /-- R87, R88: SLEEP_N falls; with the host's ASPM L1 enable. -/
  | sleepNLow (l1Enabled : Bool)
  /-- R97, R593: link rate generation and width, and the maximum read request size in bytes that the host sets. -/
  | pcieLinkUp (gen width maxRead : Nat)
  | pcieLinkDown
  | ethLinkUp (port : Nat)
  | ethLinkDown (port : Nat)
  /-- R514, R515: with the strap levels sampled at release. -/
  | firmwareUpdateReset (straps : Straps)
  /-- R69, R70: the level of DBG_TRST_N, and the signal-array positions with levels that a test drives. -/
  | boundaryScan (trstN : Bool) (drive : List (Nat × Bool))
  /-- R544: RECORD_SEQ of the peer's request. -/
  | snapshotRequest (seq : Word)
  deriving DecidableEq, Repr

end Sys2Proof
end

