-- ==== Sys2Proof/Decode.lean ====
section
/-! DEFINITION. Commands as words. The table of operations and events gives no row any bits: commands come as descriptors, register writes, frames and events, so no word spells one. -/

namespace Sys2Proof

/-- The command that a word spells by the table's bits: none, since the table gives no bits. -/
def decodeTableWord (_nbits _w : Nat) : Option Instr := none

end Sys2Proof
end

