-- ==== Sys2Proof/Config.lean ====
section
/-! DEFINITION. What the spec leaves open: constants without a value, so that no proof can see one. Byte functions answer byte i of a string. -/

namespace Sys2Proof.Config

/-- HIF_ID.REVISION: the spec gives no value (R103). -/
opaque siliconRevision : BitVec 8

/-- Successive free values: `freeByte i k` is byte `k` of the i-th value the spec leaves open. -/
opaque freeByte : Nat → Nat → Byte

/-- Whether an ECDSA signature (r‖s) over a message verifies under a SEC1 public key (R36, R463, R520). -/
opaque ecdsaVerify : (publicKey message signature : List Byte) → Bool

/-- Byte k of the i-th ECDSA P-256 signature, over a message under the private key named by the first argument. -/
opaque ecdsaSign : (key : List Byte) → (i : Nat) → (message : List Byte) → (k : Nat) → Byte

/-- The Caddis key pair and certificate of the module (R463, R468), and the firmware from manufacture (R456). -/
opaque caddisPublicKey : Nat → Byte
opaque caddisCertLen : Fin 1025
opaque caddisCert : Nat → Byte
opaque caddisFwVersion : Word
opaque caddisFwDigest : Nat → Byte

/-- R451: the approved list of SENSOR_SET codes in the Caddis firmware. -/
opaque approvedSensorSet : Nat → Bool

/-- Byte k of the AES-256-GCM ciphertext and its 16-byte tag (R427, R431, R512). -/
opaque gcmSeal : (key nonce aad message : List Byte) → (k : Nat) → Byte

/-- The AES-256-GCM plaintext of a ciphertext with its tag, or none when the tag fails (R517). -/
opaque gcmOpen : (key nonce aad sealed : List Byte) → Option (List Byte)

/-- Byte k of the x-coordinate of an ECDH P-256 secret (R517, R538). -/
opaque ecdh : (privateKey publicKey : List Byte) → (k : Nat) → Byte

/-- Byte k of the public key of a private key of a type of R505: SEC1 uncompressed, or the Ed448 key. -/
opaque publicKey : (type : Nat) → (privateKey : List Byte) → (k : Nat) → Byte

/-- Byte k of an Ed448 signature (R505, R517). -/
opaque ed448Sign : (key message : List Byte) → (k : Nat) → Byte

/-- R514: a firmware package verifies against the Duntil firmware key; its FW_VERSION; an empty one stands for the package from manufacture. -/
opaque fwVerify : (package : List Byte) → Bool
opaque fwVersion : (package : List Byte) → Word

/-- R457: the Caddis image of a package: its signature verifies for Caddis, FW_VERSION and FW_DIGEST. -/
opaque caddisImage : (package : List Byte) → Bool × Word × List Byte

/-- R502: D_0 and D_1; the versions of the boot ROM and the loader (R520). -/
opaque romDigest : Nat → Byte
opaque loaderDigest : Nat → Byte
opaque bootRomVersion : Word
opaque loaderVersion : Word

/-- R538: a manufacturing certificate chains to the Duntil manufacturing CA; byte k of the public key it certifies. -/
opaque certVerify : (certificate : List Byte) → Bool
opaque certKey : (certificate : List Byte) → (k : Nat) → Byte

/-- R520: the manufacturing certificate of slot 0. -/
opaque identityCertLen : Fin 1025
opaque identityCert : Nat → Byte

end Sys2Proof.Config
end

