-- ==== Sys2Proof/Machine/Generator.lean ====
section
/-! DEFINITION. The profile generator (R196 to R199): jerk-limited trajectories, replanning, and the slew limiter. Times in ms. -/

namespace Sys2Proof.Machine

/-- The largest r below 2^k + r₀ with r² ≤ n, digit by digit. -/
def isqrtFrom : Nat → Nat → Nat → Nat
  | 0, _, r => r
  | k + 1, n, r => if (r + 2 ^ k) * (r + 2 ^ k) ≤ n then isqrtFrom k n (r + 2 ^ k) else isqrtFrom k n r

def icbrtFrom : Nat → Nat → Nat → Nat
  | 0, _, r => r
  | k + 1, n, r => if (r + 2 ^ k) * (r + 2 ^ k) * (r + 2 ^ k) ≤ n then icbrtFrom k n (r + 2 ^ k) else icbrtFrom k n r

/-- DESIGN CHOICE: square and cube roots of the generator are cut at 2^-24 (log 12). -/
def ratSqrt (r : Rat) : Rat := (isqrtFrom 64 (r * (2 ^ 48 : Nat)).floor.toNat 0 : Nat) / (2 ^ 24 : Nat)
def ratCbrt (r : Rat) : Rat := (icbrtFrom 64 (r * (2 ^ 72 : Nat)).floor.toNat 0 : Nat) / (2 ^ 24 : Nat)

def ratAbs (r : Rat) : Rat := if r < 0 then -r else r

/-- Limits of one axis: velocity, acceleration, jerk (R219). -/
structure Limits where
  vm : Rat
  am : Rat
  jm : Rat

/-- R198: the time that a velocity change takes. -/
def changeTime (l : Limits) (dv : Rat) : Rat :=
  if l.am * l.am / l.jm ≤ dv then dv / l.am + l.am / l.jm else 2 * ratSqrt (dv / l.jm)

/-- The segments of a velocity change of `dv` in the direction `sg`. -/
def changeSegs (l : Limits) (sg dv : Rat) : List Segment :=
  if l.am * l.am / l.jm ≤ dv then
    [{ jerk := sg * l.jm, dur := l.am / l.jm }, { jerk := 0, dur := dv / l.am - l.am / l.jm },
     { jerk := -(sg * l.jm), dur := l.am / l.jm }]
  else [{ jerk := sg * l.jm, dur := ratSqrt (dv / l.jm) }, { jerk := -(sg * l.jm), dur := ratSqrt (dv / l.jm) }]

/-- Segments of an acceleration phase of duration `ta` with jerk time `tj`. -/
def phaseSegs (l : Limits) (sg ta tj : Rat) : List Segment :=
  [{ jerk := sg * l.jm, dur := tj }, { jerk := 0, dur := ta - 2 * tj }, { jerk := -(sg * l.jm), dur := tj }]

/-- R197: a move of signed distance `d` from rest to rest. -/
def restPlan (l : Limits) (d : Rat) : List Segment :=
  if d = 0 then []
  else
    let sg : Rat := if d < 0 then -1 else 1
    let dist := ratAbs d
    let tj := min (l.am / l.jm) (ratSqrt (l.vm / l.jm))
    let ae := l.jm * tj
    let ta := l.vm / ae + tj
    let da := l.vm * ta / 2
    if 2 * da ≤ dist then
      phaseSegs l sg ta tj ++ [{ jerk := 0, dur := (dist - 2 * da) / l.vm }] ++ phaseSegs l (-sg) ta tj
    else if 2 * l.am * l.am * l.am / (l.jm * l.jm) ≤ dist then
      let vp := l.am * (ratSqrt (l.am * l.am / (l.jm * l.jm) + 4 * dist / l.am) - l.am / l.jm) / 2
      let ta := vp / l.am + l.am / l.jm
      phaseSegs l sg ta (l.am / l.jm) ++ phaseSegs l (-sg) ta (l.am / l.jm)
    else
      let tj := ratCbrt (dist / (2 * l.jm))
      phaseSegs l sg (2 * tj) tj ++ phaseSegs l (-sg) (2 * tj) tj

/-- R198: the bisection of [lo, hi] down to a width of `tol`, in at most as many halvings as the first number says. -/
def bisect (ok : Rat → Bool) (tol : Rat) : Nat → Rat → Rat → Rat
  | 0, lo, _ => lo
  | k + 1, lo, hi =>
    if hi - lo ≤ tol then lo
    else if ok ((lo + hi) / 2) then bisect ok tol k ((lo + hi) / 2) hi else bisect ok tol k lo ((lo + hi) / 2)

/-- R198: a plan from the present state (x, v, a) toward goal g. -/
def replan (l : Limits) (x v a g : Rat) : List Segment :=
  let tz := ratAbs a / l.jm
  let x1 := x + v * tz + a * tz * tz / 3
  let v1 := v + a * tz / 2
  let d := g - x1
  let first : List Segment := if a = 0 then [] else [{ jerk := if a < 0 then l.jm else -l.jm, dur := tz }]
  let sg : Rat := if v1 < 0 then -1 else 1
  let stop := ratAbs v1 / 2 * changeTime l (ratAbs v1)
  if v1 ≠ 0 ∧ ((v1 < 0) ≠ (d < 0) ∨ d = 0 ∨ ratAbs d < stop) then
    first ++ changeSegs l (-sg) (ratAbs v1) ++ restPlan l (g - (x1 + sg * stop))
  else if v1 = 0 ∧ a = 0 then restPlan l d
  else
    let sg : Rat := if v1 = 0 then (if d < 0 then -1 else 1) else sg
    let u := ratAbs v1
    let cost := fun vp => (u + vp) / 2 * changeTime l (vp - u) + vp / 2 * changeTime l vp
    let vp := if cost l.vm ≤ ratAbs d then l.vm else bisect (fun w => cost w ≤ ratAbs d) (l.vm / 1024) 10 u l.vm
    let left := ratAbs d - cost vp
    first ++ changeSegs l sg (vp - u) ++ [{ jerk := 0, dur := left / vp }] ++ changeSegs l (-sg) vp

def planTime (p : List Segment) : Rat := (p.map (·.dur)).foldl (· + ·) 0

/-- The state (x, v, a) after `t` ms of a plan. -/
def runPlan : List Segment → Rat → Rat → Rat → Rat → Rat × Rat × Rat
  | [], x, v, a, _ => (x, v, a)
  | sg :: rest, x, v, a, t =>
    let d := if t < sg.dur then t else sg.dur
    let x' := x + v * d + a * d * d / 2 + sg.jerk * d * d * d / 6
    let v' := v + a * d + sg.jerk * d * d / 2
    let a' := a + sg.jerk * d
    if t < sg.dur then (x', v', a') else runPlan rest x' v' a' (t - sg.dur)

/-- R196: one generator tick in ms. -/
def tickMs : Rat := 1 / 10

/-- R199: the state at planning, or the plan's duration, makes the plan infeasible. -/
def infeasible (l : Limits) (ax : Axis) (p : List Segment) : Bool :=
  decide (65535 < planTime p ∨ l.vm < ratAbs ax.v ∨ l.am < ratAbs ax.a)

/-- R196, R198: start a trajectory toward `g`: from rest at the next tick; an axis that moves replans at once, and the next tick advances it on the new plan (log 101). -/
def Axis.start (l : Limits) (g : Rat) (ax : Axis) : Axis :=
  { ax with
    goal := g, moving := true, slewing := false, x0 := ax.x, v0 := ax.v, a0 := ax.a
    plan := replan l ax.x ax.v ax.a g, elapsed := if ax.moving then 0 else -tickMs }

/-- R199: the slew limiter takes over toward `g` from the present x, with acceleration 0 and the velocity at once at the slew rate. -/
def Axis.slewTo (slew g : Rat) (ax : Axis) : Axis :=
  { ax with
    goal := g, moving := decide (ax.x ≠ g), slewing := true
    v := if ax.x < g then slew else if g < ax.x then -slew else 0
    a := 0, plan := [], elapsed := 0 }

/-- R194, R214: set the axis to a value at once, with velocity and acceleration 0. -/
def Axis.setTo (g : Rat) (ax : Axis) : Axis :=
  { ax with x := g, v := 0, a := 0, goal := g, moving := false, slewing := false, plan := [], elapsed := 0 }

/-- R195: the duration of the move that the axis has begun; a fallback move takes |distance| / slew. -/
def Axis.duration (slew : Rat) (ax : Axis) : Rat :=
  if !ax.moving then 0 else if ax.slewing then ratAbs (ax.goal - ax.x) / slew else planTime ax.plan

/-- R196, R199: one tick of 100 µs; `slew` in A/ms or V/ms. -/
def Axis.tick (slew : Rat) (ax : Axis) : Axis :=
  if !ax.moving then ax
  else if ax.slewing then
    let step := slew * tickMs
    let d := ax.goal - ax.x
    if ratAbs d ≤ step then { ax with x := ax.goal, v := 0, a := 0, moving := false }
    else if d < 0 then { ax with x := ax.x - step, v := -slew, a := 0 } else { ax with x := ax.x + step, v := slew, a := 0 }
  else
    let t := ax.elapsed + tickMs
    if planTime ax.plan ≤ t then { ax with x := ax.goal, v := 0, a := 0, moving := false, elapsed := t }
    else
      let r := runPlan ax.plan ax.x0 ax.v0 ax.a0 t
      { ax with x := r.1, v := r.2.1, a := r.2.2, elapsed := t }

/-- The axis value in tenths, rounded down and not below 0. -/
def Axis.tenths (ax : Axis) : Nat := (ax.x * 10).floor.toNat

/-- The axis value as a signal: Q15 at a full scale (R229). -/
def Axis.q15 (ax : Axis) (scale : Nat) : Int :=
  let r := ax.x * 32768 / scale
  clampQ15 (divRound r.num r.den)

end Sys2Proof.Machine
end

