-- ==== Sys2Proof/Machine/RealOps.lean ====
section
/-! DEFINITION. Real functions that the rules name, in fixed point at 2^-64: sine, cosine, exponential, logarithm-free roots and angles. DESIGN CHOICE (log 12): the results are cut at that scale. -/

namespace Sys2Proof.Machine

/-- One in fixed point. -/
def fixOne : Int := 2 ^ 64

def toFix (r : Rat) : Int := (r * (2 ^ 64 : Nat)).floor
def ofFix (i : Int) : Rat := (i : Rat) / (2 ^ 64 : Nat)
def mulFix (a b : Int) : Int := a * b / fixOne

/-- 2π in fixed point. -/
def twoPiFix : Int := 115904311329233965479

/-- Partial sum of a power series whose next term is the last one times −θ² / ((k + 1)(k + 2)). -/
def trigSeries (sq : Int) : Nat → Nat → Int → Int → Int
  | 0, _, _, sum => sum
  | n + 1, k, term, sum => trigSeries sq n (k + 2) (-(mulFix term sq) / (((k + 1) * (k + 2) : Nat) : Int)) (sum + term)

/-- Cosine and sine of an angle in turns, in fixed point. -/
def cosTurn (r : Rat) : Int :=
  let t := mulFix (toFix (r - r.floor)) twoPiFix
  trigSeries (mulFix t t) 32 0 fixOne 0

def sinTurn (r : Rat) : Int :=
  let t := mulFix (toFix (r - r.floor)) twoPiFix
  trigSeries (mulFix t t) 32 1 t 0

/-- Partial sum of the exponential series. -/
def expSeries (x : Int) : Nat → Nat → Int → Int → Int
  | 0, _, _, sum => sum
  | n + 1, k, term, sum => expSeries x n (k + 1) (mulFix term x / ((k + 1 : Nat) : Int)) (sum + term)

/-- Repeated squaring of a fixed-point value. -/
def squareTimes : Nat → Int → Int
  | 0, x => x
  | n + 1, x => squareTimes n (mulFix x x)

/-- e^(−r) for r ≥ 0: the series at r / 256, squared eight times; 0 beyond 64. -/
def expNeg (r : Rat) : Rat :=
  if 64 ≤ r then 0 else ofFix (squareTimes 8 (expSeries (toFix (-r / 256)) 20 0 fixOne 0))

/-- Square root of a rational at 2^-24, and the nearest integer to it, half away from zero. -/
def sqrtRound (r : Rat) : Nat := (isqrtFrom 80 (4 * r).floor.toNat 0 + 1) / 2

/-- Division of a rational to the nearest integer, half away from zero (R229). -/
def ratRound (r : Rat) : Int := divRound r.num r.den

/-- The largest p below 2^k + p₀ with the direction of p − 1/2 hundredths of a degree not beyond (x, y), y ≥ 0. -/
def angleFrom (x y : Int) : Nat → Nat → Nat
  | 0, p => p
  | k + 1, p =>
    let q := p + 2 ^ k
    let h : Rat := ((2 * q : Nat) - 1 : Rat) / 72000
    if q ≤ 18000 ∧ 0 ≤ cosTurn h * y - sinTurn h * x then angleFrom x y k q else angleFrom x y k p

/-- The angle of (x, y) in units of 0.01°, in (−18000, 18000], rounded. -/
def angleCentiDeg (x y : Int) : Int :=
  let p : Int := angleFrom x (if y < 0 then -y else y) 15 0
  if y < 0 ∧ p < 18000 then -p else p

end Sys2Proof.Machine
end

