-- ==== Sys2Proof/Machine/Capture.lean ====
section
/-! DEFINITION. Capture units (R320 to R337): configuration, decimation, storage, triggers, records, measurements and calibration, as functions of one unit. Times in units of 0.25 ns of device time where a name does not say ns. -/

namespace Sys2Proof.Machine

/-! ### The configuration block (R320, R321) -/

def cfMode (c : List Byte) : Nat := u8 c 0
def cfStart (c : List Byte) : Nat := u8 c 1
def cfCount (c : List Byte) : Nat := u8 c 2
def cfTrigType (c : List Byte) : Nat := u8 c 3
def cfTrigCh (c : List Byte) : Nat := u8 c 4
def cfSlope (c : List Byte) : Nat := u8 c 5
def cfLevelA (c : List Byte) : Int := i16 c 6
def cfLevelB (c : List Byte) : Int := i16 c 8
def cfHyst (c : List Byte) : Nat := u16 c 0x0A
def cfRate (c : List Byte) : Nat := (i32 c 0x0C).natAbs
def cfParam (c : List Byte) : Nat := u16 c 0x10
def cfSel (c : List Byte) : Nat := u8 c 0x12
def cfPatOr (c : List Byte) : Bool := u8 c 0x13 == 1
def cfQualify (c : List Byte) : Bool := u8 c 0x14 == 1
def cfTrigOut (c : List Byte) : Bool := u8 c 0x15 == 1
def cfRecLimit (c : List Byte) : Nat := u8 c 0x16
def cfHoldoffUs (c : List Byte) : Nat := u32 c 0x18
def cfPreUs (c : List Byte) : Nat := u32 c 0x1C
def cfPostUs (c : List Byte) : Nat := u32 c 0x20
def cfMeasStart (c : List Byte) : Int := i32 c 0x24
def cfMeasLen (c : List Byte) : Nat := u32 c 0x28
def cfRespCh (c : List Byte) : Nat := u8 c 0x2C
def cfInjCh (c : List Byte) : Nat := u8 c 0x2D
def cfMaxGap (c : List Byte) : Nat := u16 c 0x2E
def cfCorrFreq (c : List Byte) : Nat := u32 c 0x30

/-- Channel entry k. -/
def cfEntry (c : List Byte) (k : Nat) : List Byte := bytesAt c (64 + 16 * k) 16
def chKind (e : List Byte) : Nat := u8 e 0
def chIndex (e : List Byte) : Nat := u16 e 2
def chDeadband (e : List Byte) : Nat := u16 e 4
def chDecim (e : List Byte) : Nat := 2 ^ u8 e 6
def chPattern (e : List Byte) : Nat := u8 e 7
def chPatLevel (e : List Byte) : Int := i16 e 8
def chMeasLevel (e : List Byte) : Int := i16 e 0x0A
def chMeasHyst (e : List Byte) : Nat := u16 e 0x0C
def chFixture (e : List Byte) : Int := i16 e 0x0E

/-- Ranges of one channel entry (R321). -/
def chRangeOk (cal : Bool) (e : List Byte) : Bool :=
  1 ≤ chKind e && chKind e ≤ 8 && u8 e 1 == 0 && chDeadband e ≤ 0x7FFF && u8 e 6 ≤ 8 && chPattern e ≤ 2
    && chMeasHyst e ≤ 0x4000 && (cal || chFixture e == 0)

/-- Ranges of a whole block with MODE SINGLE, REPEAT or CALIBRATE (R320). -/
def cfRangeOk (c : List Byte) : Bool :=
  let n := cfCount c
  let chOrNone := fun v => v < n || v == 0xFF
  cfMode c ≤ 2 && cfStart c ≤ 1 && (cfMode c != 2 || cfStart c == 0) && 1 ≤ n && n ≤ 16 && c.length == 64 + 16 * n
    && cfTrigType c ≤ 7
    && (!(1 ≤ cfTrigType c && cfTrigType c ≤ 3) || cfTrigCh c < n)
    && cfSlope c ≤ 2 && (cfTrigType c != 2 || cfSlope c ≤ 1) && cfLevelA c ≤ cfLevelB c + (if cfTrigType c == 2 then 0 else 65536)
    && cfHyst c ≤ 0x4000
    && (cfTrigType c != 5 || (cfParam c ≤ 1023 && cfSel c ≤ 3)) && (cfTrigType c != 6 || cfParam c ≤ 127)
    && u8 c 0x13 ≤ 1 && u8 c 0x14 ≤ 1 && u8 c 0x15 ≤ 1 && u8 c 0x17 == 0
    && cfHoldoffUs c ≤ 10000000 && cfPreUs c ≤ 10000000 && 1 ≤ cfPostUs c && cfPostUs c ≤ 120000000
    && -(cfPreUs c : Int) ≤ cfMeasStart c && cfMeasStart c ≤ cfPostUs c && cfMeasLen c ≤ cfPostUs c + cfPreUs c
    && chOrNone (cfRespCh c)
    && (cfInjCh c == 0xFF || (cfInjCh c < n && chKind (cfEntry c (cfInjCh c)) == 8))
    && allZero c 0x34 12
    && (List.range n).all fun k => chRangeOk (cfMode c == 2) (cfEntry c k)

/-- R321: no source twice. -/
def cfDistinct (c : List Byte) : Bool :=
  let src := (List.range (cfCount c)).map fun k => (chKind (cfEntry c k), chIndex (cfEntry c k))
  decide src.Nodup

/-- The channel of a unit that takes a source. -/
def CapUnit.chanOf (u : CapUnit) (kind index : Nat) : Option Nat :=
  (List.range (cfCount u.cfg)).find? fun k => chKind (cfEntry u.cfg k) == kind && chIndex (cfEntry u.cfg k) == index

def CapUnit.chan (u : CapUnit) (k : Nat) : CapChan := nth u.chans k
def CapUnit.modChan (u : CapUnit) (k : Nat) (f : CapChan → CapChan) : CapUnit := { u with chans := upd u.chans k f }

/-! ### Triggers (R322 to R324) -/

/-- R322: the sample that channel k holds at a time tag, unless 0x8000 or a gap has broken its sequence. -/
def CapUnit.valueAt (u : CapUnit) (k : Nat) (t : Int) : Option Int :=
  match u.samples.find? fun p => p.ch == k && p.time ≤ t with
  | some p =>
    if p.value == 0x8000#16 || u.entries.any (fun e => e.ch == k && e.kind == 2 && p.time < e.time && e.time ≤ t) then none
    else some p.value.toInt
  | none => none

/-- The pattern of R322 at a time tag; a channel without a valid sample does not hold. -/
def CapUnit.patternAt (u : CapUnit) (t : Int) : Bool :=
  let conds := (List.range (cfCount u.cfg)).filterMap fun k =>
    let e := cfEntry u.cfg k
    match chPattern e, u.valueAt k t with
    | 0, _ => none
    | 1, some x => some (decide (chPatLevel e ≤ x))
    | _, some x => some (decide (x < chPatLevel e))
    | _, none => some false
  if conds.isEmpty then false else if cfPatOr u.cfg then conds.any id else conds.all id

/-- R323: time at which the line between two samples crosses a level, as a rational. -/
def crossAt (t0 : Int) (x0 : Int) (t1 : Int) (x1 : Int) (lvl : Rat) : Rat :=
  if x1 = x0 then t1 else (t0 : Rat) + ((t1 - t0 : Int) : Rat) * (lvl - x0) / ((x1 - x0 : Int) : Rat)

/-- 0.25 ns units to whole ns, rounded half away from zero. -/
def nsOf (q : Rat) : Int := ratRound (q / 4)

/-- The unit waits for its configured trigger. -/
def CapUnit.waits (u : CapUnit) : Bool := u.state == .armed && u.trig.isNone && !u.byInject

/-- R324: the types that QUALIFY = PATTERN qualifies. -/
def CapUnit.qualified (u : CapUnit) : Bool := cfQualify u.cfg && cfTrigType u.cfg != 0 && cfTrigType u.cfg != 4

/-- R324: the trigger fires at t (ns) unless the qualifying pattern fails then. -/
def CapUnit.fireNow (t : Int) (u : CapUnit) : CapUnit :=
  if u.waits && (!u.qualified || u.patternAt (4 * t)) then { u with trig := some t } else u

/-- R322, R324: a LAW_FLAG, EVENT or EXTERNAL trigger at t (ns); a qualified one waits for the samples up to t. -/
def CapUnit.fire (t : Int) (u : CapUnit) : CapUnit :=
  if !u.waits then u
  else if u.qualified then { u with queue := u.queue ++ [{ time := 4 * t, ch := 16, news := .fire t }] }
  else u.fireNow t

/-- R322: what a valid decimated sample (t, x) of TRIG_CH fires: the trigger time in 0.25 ns. -/
def CapUnit.levelTrigger (u : CapUnit) (c : CapChan) (t x : Int) : Option Rat :=
  let a := cfLevelA u.cfg
  let b := cfLevelB u.cfg
  let s := cfSlope u.cfg
  let inside := fun v : Int => a ≤ v && v ≤ b
  match cfTrigType u.cfg, c.prev with
  | 1, some (t0, x0) =>
    if s != 1 && c.low && a ≤ x then some (crossAt t0 x0 t x a)
    else if s != 0 && c.high && x ≤ a then some (crossAt t0 x0 t x a) else none
  | 2, some (t0, x0) =>
    if s == 0 && inside x && !inside x0 then some (crossAt t0 x0 t x ((if x0 < a then a else b : Int) : Rat))
    else if s == 1 && !inside x && inside x0 then some (crossAt t0 x0 t x ((if x < a then a else b : Int) : Rat)) else none
  | 3, some (t0, x0) =>
    let dx := (x - x0) * 4000
    let r : Int := (cfRate u.cfg : Int) * (t - t0)
    if (s != 1 && r ≤ dx) || (s != 0 && dx ≤ -r) then some (((t0 + t : Int) : Rat) / 2) else none
  | _, _ => none

/-- Note a valid sample for the trigger conditions of its channel. -/
def CapChan.note (c : CapChan) (a hyst : Int) (t x : Int) : CapChan :=
  { c with prev := some (t, x), low := c.low || x < a - hyst, high := c.high || a + hyst < x }

/-- R322: 0x8000 or a gap breaks the sequence: what follows acts as the first sample after arming. -/
def CapUnit.breakSeq (k : Nat) (u : CapUnit) : CapUnit :=
  { u with patWas := false }.modChan k fun c => { c with prev := none, low := false, high := false }

/-- R322: evaluate the triggers on one decimated sample. -/
def CapUnit.evalSample (k : Nat) (t : Int) (x : Half) (u : CapUnit) : CapUnit :=
  if x == 0x8000#16 then u.breakSeq k
  else
    let c := u.chan k
    let hit := if k = cfTrigCh u.cfg then u.levelTrigger c t x.toInt else none
    let u1 := u.modChan k fun c => c.note (cfLevelA u.cfg) (cfHyst u.cfg) t x.toInt
    let pat := u1.patternAt t
    let u2 := { u1 with patWas := pat }
    if t < 4 * u.holdoffEnd then u2
    else if cfTrigType u.cfg == 4 then (if pat && !u.patWas then u2.fireNow (nsOf t) else u2)
    else match hit with
      | some q => u2.fireNow (nsOf q)
      | none => u2

/-! ### Storage (R326 to R328) -/

/-- Write one entry into the unit's memory share while it has room. -/
def CapUnit.put (cap : Nat) (e : CapEntry) (u : CapUnit) : CapUnit :=
  if u.full then u
  else
    let u1 := { u with entries := e :: u.entries }
    if u.state == .triggered && cap ≤ (u1.entries.filter fun e => u.firstTime ≤ e.time).length + 2 * cfCount u.cfg
      && e.time < 4 * u.trigTime + 4000 * (cfPostUs u.cfg : Int) then { u1 with full := true } else u1

/-- R326: the KIND under which a decimated sample is stored, or none. -/
def storeKind (cfg entry : List Byte) (c : CapChan) (x : Int) : Option Nat :=
  match c.stored with
  | none => some 0
  | some v =>
    if !c.begun || chDeadband entry < (x - v).natAbs then some 0
    else if cfMaxGap cfg ≠ 0 ∧ cfMaxGap cfg ≤ c.since + 1 then some 1
    else none

/-- Store one decimated sample under R326. -/
def CapUnit.store (cap k : Nat) (t : Int) (x : Half) (u : CapUnit) : CapUnit :=
  let c := u.chan k
  let u1 := if c.inGap then (u.put cap { time := t, ch := k, kind := 3 }).modChan k fun c => { c with inGap := false, stored := none } else u
  let c := u1.chan k
  match storeKind u.cfg (cfEntry u.cfg k) c x.toInt with
  | some kind => (u1.put cap { time := t, ch := k, kind := kind, value := x }).modChan k fun c =>
      { c with stored := some x.toInt, since := 0, begun := true }
  | none => u1.modChan k fun c => { c with since := c.since + 1 }

/-- R321: the mean of a decimation run and the mean of its time tags. -/
def decimate (l : List (Int × Half)) : Int × Half :=
  let t := divRound ((l.map (·.1)).foldl (· + ·) 0) l.length
  if l.any fun p => p.2 == 0x8000#16 then (t, 0x8000#16)
  else (t, BitVec.ofInt 16 (divRound ((l.map fun p => p.2.toInt).foldl (· + ·) 0) l.length))

/-- R316: channel k is in a gap from the nominal time `t` of the first sample that is missing. -/
def CapUnit.startGap (cap k : Nat) (t : Int) (u : CapUnit) : CapUnit :=
  if (u.chan k).inGap then u
  else ((u.put cap { time := t, ch := k, kind := 2 }).breakSeq k).modChan k fun c => { c with inGap := true, gapped := true }

/-- What one piece of news does once it is its turn; `cap` is the unit's memory share in entries. -/
def CapUnit.take (cap : Nat) (u : CapUnit) (i : CapItem) : CapUnit :=
  match i.news with
  | .sample x uncal =>
    let u1 := ({ u with samples := { ch := i.ch, time := i.time, value := x, uncal := uncal } :: u.samples }).store cap i.ch i.time x
    if u1.waits then u1.evalSample i.ch i.time x else u1
  | .gap => u.startGap cap i.ch i.time
  | .fire t => u.fireNow t

/-- R322, R328: the news up to a time tag, in time-tag order, equal times in channel order. -/
def CapUnit.takeTo (cap : Nat) (h : Int) (u : CapUnit) : CapUnit :=
  let ready := (u.queue.filter (·.time ≤ h)).mergeSort fun a b => a.time < b.time || (a.time == b.time && a.ch ≤ b.ch)
  ready.foldl (CapUnit.take cap) { u with queue := u.queue.filter (h < ·.time) }

/-- R328: no channel will supply anything of a time tag up to this one any more; a channel that has been silent since `lag` holds nothing back. -/
def CapUnit.horizon (lag : Int) (u : CapUnit) : Int :=
  match (List.range (cfCount u.cfg)).map fun k =>
    let c := u.chan k
    if c.seenTo < lag then lag else match c.run with | p :: _ => p.1 - 1 | [] => c.seenTo with
  | [] => lag
  | x :: r => r.foldl Min.min x

def CapUnit.drain (cap : Nat) (lag : Int) (u : CapUnit) : CapUnit := u.takeTo cap (u.horizon lag)

/-- One sample of channel k with its time tag. A calibration takes its samples as they come. -/
def CapUnit.feed (cap k : Nat) (lag t : Int) (x : Half) (uncal : Bool) (u : CapUnit) : CapUnit :=
  let u0 := u.modChan k fun c => { c with run := c.run ++ [(t, x)], seenTo := t }
  if (u0.chan k).run.length < chDecim (cfEntry u.cfg k) then u0
  else
    let d := decimate (u0.chan k).run
    let u1 := u0.modChan k fun c => { c with run := [] }
    if u.state == .calibrating then { u1 with samples := { ch := k, time := d.1, value := d.2, uncal := uncal } :: u1.samples }
    else ({ u1 with queue := u1.queue ++ [⟨d.1, k, .sample d.2 uncal⟩] } : CapUnit).drain cap lag

/-- R316, R329: the source of channel k supplies no sample at nominal time `t`. -/
def CapUnit.gap (cap k : Nat) (lag t delay : Int) (u : CapUnit) : CapUnit :=
  if u.state == .calibrating then u.startGap cap k t
  else
    let u0 := u.modChan k fun c => { c with run := [], seenTo := t - delay }
    ({ u0 with queue := u0.queue ++ [⟨t, k, .gap⟩] } : CapUnit).drain cap lag

/-- R330: channel k had a gap between two times. -/
def CapUnit.hadGap (u : CapUnit) (k : Nat) (a b : Int) : Bool :=
  let g := u.entries.filter fun e => e.ch == k && 2 ≤ e.kind
  g.any (fun e => a ≤ e.time && e.time ≤ b) || (match g.find? (·.time < a) with | some e => e.kind == 2 | none => false)

/-- R314, R330: channel k was uncalibrated between two times. -/
def CapUnit.wasUncal (u : CapUnit) (k : Nat) (a b : Int) : Bool :=
  let c := u.samples.filter (·.ch == k)
  c.any (fun p => a ≤ p.time && p.time ≤ b && p.uncal) || (match c.find? (·.time < a) with | some p => p.uncal | none => false)

/-! ### Arming (R317) -/

/-- R317, R330: a held record makes way, and the next one takes the next RECORD_NUMBER. -/
def CapUnit.discard (u : CapUnit) : CapUnit :=
  { u with number := if u.record.isSome then u.number + 1 else u.number, record := none, recordCal := false }

/-- Fresh storage and a fresh holdoff from `now`. -/
def CapUnit.arm (now : Nat) (byInject : Bool) (u : CapUnit) : CapUnit :=
  { u with
    state := .armed, byInject := byInject, armedAt := now, holdoffEnd := now + 1000 * cfHoldoffUs u.cfg
    trig := none, full := false, preShort := false, patWas := false
    chans := List.replicate (cfCount u.cfg) {}, queue := [], entries := [], samples := [] }

/-- R317: the trigger takes effect: TRIGGER_TIME, and FIRST_TIME of R327. -/
def CapUnit.trigger (cap : Nat) (t civil : Int) (u : CapUnit) : CapUnit :=
  let held := u.entries.take cap
  let oldest : Int := if u.entries.length ≤ cap then 4 * u.armedAt else match held.getLast? with | some e => e.time | none => 4 * t
  let want := 4 * t - 4000 * (cfPreUs u.cfg : Int)
  let first := max want (max (4 * (u.armedAt : Int)) oldest)
  { u with
    state := .triggered, trig := none, trigTime := t, civil := civil, firstTime := first, preShort := decide (want < first)
    chans := u.chans.mapIdx fun k c => { c with gapped := c.inGap || u.hadGap k first (4 * t) } }

/-! ### Measurements (R333, R334) -/

/-- Samples of channel k in the measurement window, oldest first, times relative to TRIGGER_TIME, without 0x8000. -/
def CapUnit.measSamples (u : CapUnit) (k : Nat) (len : Rat) : List (Int × Int) :=
  let a : Int := 4000 * cfMeasStart u.cfg
  (u.samples.reverse.filter fun p => p.ch == k && p.value != 0x8000#16 && a ≤ p.time - 4 * u.trigTime
      && (((p.time - 4 * u.trigTime : Int) : Rat) < a + 4000 * len)).map fun p => (p.time - 4 * u.trigTime, p.value.toInt)

def sumInt (l : List Int) : Int := l.foldl (· + ·) 0
def minInt (l : List Int) : Int := match l with | [] => 0 | x :: r => r.foldl Min.min x
def maxInt (l : List Int) : Int := match l with | [] => 0 | x :: r => r.foldl Max.max x
def minRat (l : List Rat) : Rat := match l with | [] => 0 | x :: r => r.foldl Min.min x
def maxRat (l : List Rat) : Rat := match l with | [] => 0 | x :: r => r.foldl Max.max x

/-- R333: peak to peak of the residuals of the least-squares line. -/
def ripple (l : List (Int × Int)) : Rat :=
  let n : Int := l.length
  let st := sumInt (l.map (·.1))
  let sx := sumInt (l.map (·.2))
  let den := n * sumInt (l.map fun p => p.1 * p.1) - st * st
  let b : Rat := if den = 0 then 0 else ((n * sumInt (l.map fun p => p.1 * p.2) - st * sx : Int) : Rat) / (den : Rat)
  let r := l.map fun p => (p.2 : Rat) - b * (p.1 : Rat)
  maxRat r - minRat r

/-- Rising crossings of a level, each armed by a sample below level − hyst (R333). -/
def risingCrossings (lvl hyst : Int) : List (Int × Int) → Bool → List Rat
  | (t0, x0) :: (t1, x1) :: r, armed =>
    let armed := armed || x0 < lvl - hyst
    if armed && lvl ≤ x1 then crossAt t0 x0 t1 x1 lvl :: risingCrossings lvl hyst ((t1, x1) :: r) false
    else risingCrossings lvl hyst ((t1, x1) :: r) armed
  | _, _ => []

/-- Times at which consecutive samples cross a level upward (`up`) or downward. -/
def levelCrossings (up : Bool) (lvl : Rat) : List (Int × Int) → List Rat
  | (t0, x0) :: (t1, x1) :: r =>
    let hit := if up then decide ((x0 : Rat) < lvl ∧ lvl ≤ x1) else decide (lvl < (x0 : Rat) ∧ (x1 : Rat) ≤ lvl)
    if hit then crossAt t0 x0 t1 x1 lvl :: levelCrossings up lvl ((t1, x1) :: r) else levelCrossings up lvl ((t1, x1) :: r)
  | _ => []

/-- R333: RISE_NS or FALL_NS in ns, when both crossings exist. -/
def edgeTime (up : Bool) (l : List (Int × Int)) : Option Rat :=
  let mn : Rat := minInt (l.map (·.2))
  let mx : Rat := maxInt (l.map (·.2))
  let lo := mn + (mx - mn) / 10
  let hi := mn + 9 * (mx - mn) / 10
  let last := if up then hi else lo
  let before := if up then lo else hi
  match levelCrossings up last l with
  | [] => none
  | t :: _ => match (levelCrossings up before l).reverse.find? (fun q => q < t) with
    | some q => some ((t - q) / 4)
    | none => none

/-- A non-negative result saturated to 32 bits. -/
def sat32 (r : Int) : Nat := min 0xFFFFFFFF r.toNat

/-- The measurement block of one channel (R331). -/
def CapUnit.measBlock (u : CapUnit) (k : Nat) : List Byte :=
  let e := cfEntry u.cfg k
  let l := if cfMeasLen u.cfg = 0 then [] else u.measSamples k (cfMeasLen u.cfg : Nat)
  let n := l.length
  if n < 2 then zeros 28 ++ toLE 4 n
  else
    let xs := l.map (·.2)
    let cr := risingCrossings (chMeasLevel e) (chMeasHyst e) l false
    let period : Option Rat := match cr, cr.getLast? with
      | a :: _ :: _, some b => some ((b - a) / 4 / ((cr.length - 1 : Nat) : Rat))
      | _, _ => none
    let rise := edgeTime true l
    let fall := edgeTime false l
    let num := fun v : Option Rat => match v with | some r => sat32 (ratRound r) | none => 0
    toLEi 2 (minInt xs) ++ toLEi 2 (maxInt xs) ++ toLEi 2 (divRound (sumInt xs) n)
      ++ toLE 2 (min 0x7FFF (sqrtRound ((sumInt (xs.map fun x => x * x) : Rat) / (n : Rat))))
      ++ toLE 2 (min 0x7FFF (ratRound (ripple l)).toNat)
      ++ toLE 2 (1 + 2 * b2n period.isSome + 4 * b2n rise.isSome + 8 * b2n fall.isSome)
      ++ toLE 4 (num period)
      ++ toLE 4 (match period with | some p => if p = 0 then 0xFFFFFFFF else sat32 (ratRound (1000000000000 / p)) | none => 0)
      ++ toLE 4 (num rise) ++ toLE 4 (num fall) ++ toLE 4 n

/-- The complex sum of R334 without its division by n, in fixed point; f in mHz, times in 0.25 ns. -/
def phasor (fMhz : Nat) (l : List (Int × Int)) : Int × Int :=
  l.foldl (fun a p =>
    let turn : Rat := -(((fMhz : Int) * p.1 : Int) : Rat) / 4000000000000
    (a.1 + p.2 * cosTurn turn, a.2 + p.2 * sinTurn turn)) (0, 0)

/-- R331, R334: the correlation block. -/
def CapUnit.corrBlock (u : CapUnit) : List Byte :=
  let f := if cfCorrFreq u.cfg = 0 then u.injF0 else cfCorrFreq u.cfg
  let k := cfMeasLen u.cfg * f / 1000000000
  let len : Rat := if f = 0 then 0 else ((k * 1000000000 : Nat) : Rat) / (f : Rat)
  let rs := u.measSamples (cfRespCh u.cfg) len
  let inj := u.measSamples (cfInjCh u.cfg) len
  let r := phasor f rs
  let i := phasor f inj
  let sq := fun p : Int × Int => p.1 * p.1 + p.2 * p.2
  if cfRespCh u.cfg = 0xFF ∨ cfInjCh u.cfg = 0xFF ∨ k = 0 ∨ !u.byInject ∨ sq i = 0 ∨ rs.isEmpty then zeros 16
  else
    let ratio : Rat := (sq r : Rat) * ((inj.length * inj.length : Nat) : Rat) / ((sq i : Rat) * ((rs.length * rs.length : Nat) : Rat))
    toLE 4 (min 0xFFFFFFFF (sqrtRound (ratio * (2 ^ 32 : Nat))))
      ++ toLEi 4 (angleCentiDeg (r.1 * i.1 + r.2 * i.2) (r.2 * i.1 - r.1 * i.2))
      ++ toLE 4 f ++ toLE 2 (min 0xFFFF k) ++ zeros 2

/-! ### Records (R328 to R331, R337) -/

/-- R329. -/
def encodeEntry (trig : Int) (e : CapEntry) : List Byte :=
  toLE 2 e.value.toNat ++ toLE 1 (e.ch + 16 * e.kind) ++ toLEi 5 (e.time - 4 * trig)

def entryBefore (a b : CapEntry) : Bool := a.time < b.time || (a.time == b.time && a.ch ≤ b.ch)

/-- The value that channel k holds at FIRST_TIME, from the newest stored entry at or before it. -/
def CapUnit.heldAt (u : CapUnit) (k : Nat) (t : Int) : Option Half :=
  (u.entries.find? fun e => e.ch == k && e.kind ≤ 1 && e.time ≤ t).map (·.value)

/-- The last decimated sample of channel k at or before a time. -/
def CapUnit.lastAt (u : CapUnit) (k : Nat) (t : Int) : Option Half :=
  (u.samples.find? fun p => p.ch == k && p.time ≤ t).map (·.value)

/-- R328: all entries of the record in ascending time, equal times in channel order; `hole` stands for a channel that has shown no sample. -/
def CapUnit.recordEntries (u : CapUnit) (last : Int) (hole : Half) : List CapEntry :=
  let chs := List.range (cfCount u.cfg)
  let inner := (u.entries.reverse.filter fun e =>
    if e.kind ≤ 1 then u.firstTime < e.time && e.time < last else u.firstTime ≤ e.time && e.time ≤ last)
  let ends := fun (t : Int) (v : Nat → Option Half) => chs.map fun k => ({ time := t, ch := k, kind := 1, value := (v k).getD hole } : CapEntry)
  (ends u.firstTime (fun k => u.heldAt k u.firstTime) ++ inner ++ ends last (fun k => u.lastAt k last)).mergeSort entryBefore

/-- A mask over channels. -/
def chanMask (u : CapUnit) (p : Nat → Bool) : Nat :=
  ((List.range (cfCount u.cfg)).map fun k => if p k then 2 ^ k else 0).foldl (· + ·) 0

/-- R330: UNCAL_MASK and GAP_MASK of a record. -/
def CapUnit.uncalMask (u : CapUnit) (first last : Int) : Nat := chanMask u fun k => u.wasUncal k first last
def CapUnit.gapMask (u : CapUnit) (first last : Int) : Nat := chanMask u fun k => u.hadGap k first last

/-- R330: FLAGS [2] and [4] follow the masks. -/
def CapUnit.maskFlags (u : CapUnit) (first last : Int) : Nat :=
  4 * b2n (u.uncalMask first last != 0) + 16 * b2n (u.gapMask first last != 0)

/-- R330 from UNIT to RECORD_LEN, closed by HDR_CRC. -/
def recordHeader (u : CapUnit) (ix flags trigType : Nat) (trig civil : Int) (count : Nat) (first last : Int) (rate meas entry len : Nat) : List Byte :=
  withCrc32 (toLE 4 0x52434B43 ++ toLE 1 ix ++ toLE 1 flags ++ toLE 1 (cfCount u.cfg) ++ toLE 1 trigType ++ toLEi 8 trig
    ++ toLEi 8 civil ++ toLE 4 u.number.toNat ++ toLE 4 count ++ toLEi 8 (first - 4 * trig) ++ toLEi 8 (last - 4 * trig)
    ++ toLE 4 rate ++ toLE 2 (u.uncalMask first last) ++ toLE 2 (u.gapMask first last) ++ toLE 4 meas ++ toLE 4 entry ++ toLE 4 len
    ++ zeros 56)
where withCrc32 (b : List Byte) : List Byte := b ++ toLE 4 (crc32c b)

/-- The channel entries of the configuration, as bytes. -/
def cfEntries (c : List Byte) : List Byte := bytesAt c 64 (16 * cfCount c)

/-- R328, R330, R331: close the record at `last` (0.25 ns of device time). -/
def CapUnit.close (u : CapUnit) (ix rate : Nat) (stopped : Bool) (last : Int) (hole : Half) : List Byte :=
  let n := cfCount u.cfg
  let es := u.recordEntries last hole
  let flags := b2n u.full + 2 * b2n u.preShort + 8 * b2n u.byInject + 32 * b2n stopped + u.maskFlags u.firstTime last
  let meas := 128 + 16 * n
  let entry := meas + 32 * n + 16
  recordHeader u ix flags (if u.byInject then 0xFF else cfTrigType u.cfg) u.trigTime u.civil es.length u.firstTime last rate meas entry
      (entry + 8 * es.length)
    ++ cfEntries u.cfg ++ (List.range n).flatMap u.measBlock ++ u.corrBlock ++ es.flatMap (encodeEntry u.trigTime)

/-- LAST_TIME of a triggered record: the end of POST_US, or the last entry that fitted. -/
def CapUnit.lastTime (u : CapUnit) : Int :=
  if u.full then match u.entries with | e :: _ => e.time | [] => 4 * u.trigTime
  else 4 * u.trigTime + 4000 * (cfPostUs u.cfg : Int)

/-! ### Calibration (R336) -/

/-- Number of rising edges for the longest decimated sample period (0.25 ns units), and the distance between edges. -/
def calSpacing : Nat := 4000001

/-- τ of a sample: its time less that of the nearest preceding edge, in 0.25 ns. -/
def calTau (start edges : Nat) (t : Int) : Option Int :=
  let d := t - 4 * (start : Int)
  if d < 0 then none
  else
    let k := Nat.min (d.toNat / calSpacing) (edges - 1)
    some (d - (k * calSpacing : Nat))

/-- The median of a list of values; the mean of the middle two for an even count. -/
def median (l : List Int) : Rat :=
  let m := l.mergeSort (fun a b => decide (a ≤ b))
  let n := m.length
  if n = 0 then 0 else ((m.getD ((n - 1) / 2) 0 + m.getD (n / 2) 0 : Int) : Rat) / 2

/-- First crossing of a level between neighbours sorted by τ. -/
def calCross (lvl : Rat) : List (Int × Int) → Option Rat
  | (t0, x0) :: (t1, x1) :: r =>
    if (x0 : Rat) < lvl ∧ lvl ≤ x1 then some (crossAt t0 x0 t1 x1 lvl) else calCross lvl ((t1, x1) :: r)
  | _ => none

/-- R336: DELAY_QNS of channel k, or none when it fails. -/
def CapUnit.calDelay (u : CapUnit) (edges k : Nat) : Option Int :=
  let ps := (u.samples.filter fun p => p.ch == k && p.value != 0x8000#16).filterMap fun p =>
    (calTau u.armedAt edges p.time).map fun tau => (tau, p.value.toInt)
  let within := fun (a b : Int) => (ps.filter fun p => 4000 * a ≤ p.1 && p.1 ≤ 4000 * b).map (·.2)
  let lo := median (within 600 900)
  let hi := median (within 100 400)
  let sorted := ps.mergeSort fun a b => decide (a.1 ≤ b.1)
  match calCross ((lo + hi) / 2) sorted with
  | none => none
  | some t =>
    let d := ratRound (t - chFixture (cfEntry u.cfg k))
    if hi - lo < 1024 ∨ d < -8192 ∨ 8191 < d then none else some d

/-- R337, R338: a skew entry. -/
def skewEntry (kind index : Nat) (delay : Int) (lat : Nat) : List Byte :=
  toLE 1 kind ++ zeros 1 ++ toLE 2 index ++ toLEi 2 delay ++ toLE 2 lat

/-! ### Events as triggers (R322) -/

/-- R322: every unit with an EVENT trigger of that event and cause fires. -/
def Acq.onEvent (now src cause : Nat) (a : Acq) : Acq :=
  { a with units := a.units.map fun u =>
      if cfTrigType u.cfg == 6 && cfParam u.cfg == src && (cfSel u.cfg == 0xFF || cfSel u.cfg == cause) && u.holdoffEnd ≤ now
      then u.fire now else u }

end Sys2Proof.Machine
end

