-- ==== Sys2Proof/Machine/State.lean ====
section
/-! DEFINITION. The state of the block, the reasons a step can stop, and the state after reset. -/

namespace Sys2Proof.Machine

/-- Reasons the block stops. -/
inductive Fault
  /-- Raised by every command of the controller after its rails have left tolerance and before the next reset: R73 says that its behaviour is undefined. Safe: the model stops where the hardware may do anything. -/
  | supplyUndefined
  deriving DecidableEq, Repr

/-- Reasons a command is turned away. -/
inductive Refusal
  /-- Raised by an arm of `exec` that has no meaning yet; no arm raises it now. Safe: the model stops. -/
  | notModelled (mnemonic : String)
  deriving DecidableEq, Repr

/-- The state of one CK832: the controller logic block by block, the Caddis die, the switch die, and the model's own fields `pending`, `outs` and `freeIx`. -/
structure State where
  /-- Commands that wait, first in, first out. -/
  pending : List Instr := []
  /-- Device time in ns since first boot (R13). -/
  now : Nat := 0
  /-- Everything sent out, newest first. -/
  outs : List Out := []
  /-- Index of the next free value. -/
  freeIx : Nat := 0
  pwr : Pwr := {}
  host : HostIf := {}
  flt : Flt := {}
  prof : ProfileStore := {}
  stages : List Stage := List.replicate 32 {}
  alloc : Alloc := {}
  paths : List Path := List.replicate 8 {}
  law : Law := {}
  lanes : Lanes := {}
  pair : Pair := {}
  acq : Acq := {}
  thm : Thm := {}
  sw : Switch := {}
  met : Met := {}
  veh : List Veh := List.replicate 8 {}
  /-- R13: civil time is device time plus this offset, in ns. -/
  civil : Int := 0
  key : Keys := {}
  can : List CanCtl := List.replicate 8 {}
  plc : Plc := {}
  rcd : Recorder := {}
  deriving DecidableEq, Repr

/-- The machine right after reset. -/
def State.reset : State := {}

end Sys2Proof.Machine
end

