-- ==== Sys2Proof/Machine/RecordOps.lean ====
section
/-! DEFINITION. The recorder's records (R479 to R494): their bytes, histogram pages, extremes, excursions and time steps. -/

namespace Sys2Proof.Machine

/-! ### Slots (R484) -/

/-- R484: KIND and instance of a slot. -/
def slotKind (i : Nat) : Nat × Nat :=
  if i < 8 then (1, i) else if i < 16 then (2, i - 8) else if i < 48 then (3, i - 16) else if i < 144 then (4, i - 48)
  else if i < 168 then (5, i - 144) else if i = 168 then (6, 0) else if i < 177 then (7, i - 169) else (8, 0)

/-- R484: BIN_LO and BIN_WIDTH of a KIND. -/
def kindBins : Nat → Int × Nat
  | 1 => (0, 32) | 2 => (0, 13) | 3 => (0, 8) | 4 => (-400, 30) | 5 => (-400, 30) | 6 => (0, 200) | 7 => (0, 50) | _ => (0, 15)

/-! ### Bytes (R480, R485, R487, R489, R491) -/

/-- R480: the frame around a record's body. -/
def recFrame (seq : Word) (type number kind flags inst time : Nat) (civil : Int) (body : List Byte) : List Byte :=
  let len := 32 + body.length + 8
  let tail := toLE 1 0xA5 ++ toLE 1 type ++ toLE 2 len ++ toLE 4 number ++ toLE 1 kind ++ toLE 1 flags ++ toLE 2 inst
    ++ toLE 8 time ++ toLEi 8 civil ++ body
  toLE 4 seq.toNat ++ tail ++ toLE 4 (crc32c tail) ++ toLE 4 seq.toNat

def recFlags (isOpen vol stepped prof : Bool) : Nat := b2n isOpen + 2 * b2n vol + 4 * b2n stepped + 8 * b2n prof

def HistPage.bytes (p : HistPage) : List Byte :=
  let body := toLE 8 p.endTime ++ toLEi 4 p.binLo ++ toLE 4 p.binWidth ++ toLE 4 p.samples ++ toLE 4 p.invalid
    ++ toLE 4 p.under ++ toLE 4 p.above ++ toLEi 4 p.min ++ toLEi 4 p.max ++ toLEi 8 p.sum ++ toLE 1 (b2n p.day) ++ zeros 15
    ++ p.bins.flatMap (toLE 4) ++ zeros 8
  recFrame p.seq 1 p.number p.kind (recFlags p.isOpen p.isVolatile p.stepped p.profile) p.inst p.time p.civil body

def Extreme.bytes (slot : Nat) (e : Extreme) : List Byte :=
  recFrame e.seq 2 slot e.kind (recFlags false e.isVolatile false false) e.inst e.time e.civil
    (toLEi 4 e.min ++ toLEi 4 e.max ++ toLE 8 e.minTime ++ toLE 8 e.maxTime)

def Excursion.bytes (x : Excursion) : List Byte :=
  recFrame x.seq 3 x.number x.kind (recFlags x.isOpen x.isVolatile false x.profile) x.inst x.time x.civil
    (toLE 8 x.endTime ++ toLE 8 x.peakTime ++ toLEi 4 x.peak ++ toLE 4 x.count ++ toLE 4 x.durationMs ++ zeros 60)

def TimeStep.bytes (t : TimeStep) : List Byte :=
  recFrame 2#32 4 t.number 0 (recFlags false t.isVolatile false false) 0 t.time t.civil (toLEi 8 t.old ++ toLE 1 t.source ++ zeros 15)

/-! ### Rings (R479, R492) -/

def Recorder.modData (r : Recorder) (f : RecData → RecData) : Recorder := { r with data := f r.data }

/-- Count `n` overwritten records of ring k (0 pages, 1 excursions, 2 steps). -/
def Recorder.overwrote (r : Recorder) (k n : Nat) : Recorder :=
  { r with rings := upd r.rings k fun q => { q with wraps := satAdd 16 q.wraps n, since := satAdd 32 q.since n } }

def Recorder.pushPage (r : Recorder) (p : HistPage) : Recorder :=
  let l := r.data.pages ++ [{ p with number := r.data.histNext, seq := 2#32, isOpen := false, isVolatile := r.isVolatile }]
  (r.modData fun d => { d with pages := l.drop (l.length - 6528), histNext := (d.histNext + 1) % 2 ^ 32 }).overwrote 0 (l.length - 6528)

def Recorder.pushExcursion (r : Recorder) (x : Excursion) : Recorder :=
  let l := r.data.excursions ++ [{ x with number := r.data.excNext, isVolatile := r.isVolatile }]
  (r.modData fun d => { d with excursions := l.drop (l.length - 2048), excNext := (d.excNext + 1) % 2 ^ 32 }).overwrote 1 (l.length - 2048)

def Recorder.pushStep (r : Recorder) (t : TimeStep) : Recorder :=
  let l := r.data.steps ++ [{ t with number := r.data.stepNext, isVolatile := r.isVolatile }]
  (r.modData fun d => { d with steps := l.drop (l.length - 1024), stepNext := (d.stepNext + 1) % 2 ^ 32 }).overwrote 2 (l.length - 1024)

/-! ### Samples and pages (R484 to R487) -/

/-- Take one source value of a slot into the running second. -/
def Recorder.feed (r : Recorder) (slot : Nat) (v : Rat) : Recorder :=
  { r with acc := upd r.acc slot fun a => (a.1 + v, a.2 + 1) }

/-- R486: an open page that starts at `time`. -/
def Recorder.newPage (r : Recorder) (slot time : Nat) (civil : Int) (seq : Word) : HistPage :=
  let k := slotKind slot
  let b := kindBins k.1
  { seq := seq, number := slot, kind := k.1, inst := k.2, isVolatile := r.isVolatile, time := time, civil := civil
    binLo := b.1, binWidth := b.2, day := r.day }

/-- R485: one sample into a page. -/
def HistPage.add (p : HistPage) (v : Option Int) : HistPage :=
  match v with
  | none => { p with invalid := p.invalid + 1 }
  | some x =>
    let p1 := { p with
      samples := p.samples + 1, sum := p.sum + x
      min := if p.samples = 0 then x else Min.min p.min x
      max := if p.samples = 0 then x else Max.max p.max x }
    let d := x - p.binLo
    if d < 0 then { p1 with under := p1.under + 1 }
    else if (100 * p.binWidth : Nat) ≤ d then { p1 with above := p1.above + 1 }
    else { p1 with bins := upd p1.bins (d.toNat / p.binWidth) (· + 1) }

/-- R487: one valid sample against the extremes. -/
def extremeOf (vol : Bool) (slot now : Nat) (civil : Int) (x : Int) : Option Extreme → Extreme
  | none =>
    let k := slotKind slot
    { isVolatile := vol, kind := k.1, inst := k.2, time := now, civil := civil, min := x, max := x, minTime := now, maxTime := now }
  | some e =>
    if x < e.min then { e with seq := e.seq + 2, isVolatile := vol, min := x, minTime := now }
    else if e.max < x then { e with seq := e.seq + 2, isVolatile := vol, max := x, maxTime := now } else e

/-- R484: the values taken so far leave no sample: the second lay in Boot or Sleep. -/
def Recorder.dropSecond (r : Recorder) : Recorder := { r with acc := List.replicate 178 (0, 0) }

/-- R484, R486, R487: the sample of one present slot; the running sums start again. -/
def Recorder.sample (now : Nat) (civil : Int) (slot : Nat) (r : Recorder) : Recorder :=
  let a := nth r.acc slot
  let v : Option Int := if a.2 = 0 then none else some (ratRound (a.1 / ((a.2 : Nat) : Rat)))
  let page := match nth r.data.opens slot with | some p => { p with seq := p.seq + 2 } | none => r.newPage slot now civil 2#32
  { r with
    acc := upd r.acc slot fun _ => (0, 0)
    data := { r.data with
      opens := r.data.opens.set slot (some { page.add v with isVolatile := r.isVolatile })
      extremes := match v with
        | none => r.data.extremes
        | some x => r.data.extremes.set slot (some (extremeOf r.isVolatile slot now civil x (nth r.data.extremes slot))) } }

/-- R486: the device time at which civil time reaches the first boundary after the page began. -/
def HistPage.boundary (p : HistPage) (civil : Int) : Nat :=
  let per : Int := if p.day then 86400000000000 else 3600000000000
  (((p.time : Int) + civil) / per * per + per - civil).toNat

/-- R486: the boundaries that civil time has reached since the page began. -/
def HistPage.passed (p : HistPage) (civil : Int) (now : Nat) : Nat :=
  let per := if p.day then 86400000000000 else 3600000000000
  if now < p.boundary civil then 0 else 1 + (now - p.boundary civil) / per

/-- R486: close one open page; a new one starts when the slot stays present. -/
def Recorder.closePage (endTime : Nat) (civil : Int) (stepped prof present : Bool) (slot : Nat) (r : Recorder) : Recorder :=
  match nth r.data.opens slot with
  | none => r
  | some p =>
    let r1 := r.pushPage { p with endTime := endTime, stepped := p.stepped || stepped, profile := p.profile || prof }
    r1.modData fun d => { d with
      opens := d.opens.set slot (if present then some (r1.newPage slot endTime civil (p.seq + 2)) else none) }

/-- R486: close the open page at each of `n` boundaries in turn. -/
def Recorder.closeAt (civil : Int) (present : Bool) (slot : Nat) : Nat → Recorder → Recorder
  | 0, r => r
  | n + 1, r => match nth r.data.opens slot with
    | some p => closeAt civil present slot n (r.closePage (p.boundary civil) civil false false present slot)
    | none => r

/-! ### Excursions (R488 to R490) -/

/-- R488: a value is more extreme than the peak. -/
def passes (kind nominal : Nat) (peak v : Int) : Bool :=
  match kind with
  | 4 | 5 => v < peak
  | 7 => ((peak - nominal).natAbs < (v - nominal).natAbs : Bool)
  | _ => peak < v

/-- R488: coalesce window in ns. -/
def coalesceNs : Nat → Nat
  | 1 | 2 | 5 => 60000000000 | 6 => 300000000000 | _ => 10000000000

/-- R488: the excursion that an event starts (true) or ends. -/
def excursionEvent (src cause inst : Nat) : Option (Bool × Nat × Nat) :=
  match src, cause with
  | 50, 1 => some (true, 1, inst) | 50, 0 => some (false, 1, inst)
  | 48, 1 => some (true, 2, inst) | 48, 0 => some (false, 2, inst)
  | 33, 1 => some (true, 3, 0) | 33, 2 => some (false, 3, 0)
  | 34, 1 => some (true, 4, 0) | 34, 2 => some (false, 4, 0)
  | 54, 1 => some (true, 5, inst) | 54, 0 => some (false, 5, inst)
  | 51, 1 => some (true, 6, 0) | 51, 0 => some (false, 6, 0)
  | 74, 1 | 74, 2 => some (true, 7, 0) | 74, 0 => some (false, 7, 0)
  | _, _ => none

def Excursion.isOf (x : Excursion) (kind inst : Nat) : Bool := x.kind == kind && x.inst == inst

/-- Rewrite the newest record of a kind and instance. -/
def updNewest (kind inst : Nat) (f : Excursion → Excursion) (l : List Excursion) : List Excursion :=
  match l.reverse.findIdx? fun x => x.isOf kind inst with
  | some i => l.modify (l.length - 1 - i) f
  | none => l

/-- The latest value of a peak quantity, kept for the running excursion too. -/
def Recorder.note (r : Recorder) (kind inst : Nat) (v : Int) (now : Nat) : Recorder :=
  { r with
    last := r.last.filter (fun x => !(x.1 == kind && x.2.1 == inst)) ++ [(kind, inst, v)]
    data := { r.data with excursions := updNewest kind inst (fun x =>
      if x.isOpen && passes kind r.nominalNs x.live v then { x with live := v, liveAt := now } else x) r.data.excursions } }

/-- The running excursion's extreme passes into PEAK. -/
def Excursion.takePeak (nominal : Nat) (x : Excursion) : Excursion :=
  if passes x.kind nominal x.peak x.live then { x with peak := x.live, peakTime := x.liveAt } else x

/-- R490: the start of an excursion. -/
def Recorder.startExcursion (r : Recorder) (now : Nat) (civil : Int) (kind inst : Nat) : Recorder :=
  let v := match r.last.find? fun x => x.1 == kind && x.2.1 == inst with | some x => x.2.2 | none => 0
  match r.data.excursions.reverse.find? fun x => x.isOf kind inst with
  | some x =>
    if x.isOpen then r
    else if now ≤ x.endTime + coalesceNs kind then
      r.modData fun d => { d with excursions := updNewest kind inst (fun x =>
        { x with seq := x.seq + 2, isVolatile := r.isVolatile, count := satAdd 32 x.count 1, isOpen := true, endTime := 0
                 startAt := now, live := v, liveAt := now }.takePeak r.nominalNs) d.excursions }
    else r.pushExcursion { kind := kind, inst := inst, time := now, civil := civil, peak := v, peakTime := now, startAt := now, live := v, liveAt := now }
  | none =>
    r.pushExcursion { kind := kind, inst := inst, time := now, civil := civil, peak := v, peakTime := now, startAt := now, live := v, liveAt := now }

/-- R489, R490: the end of an excursion. -/
def Excursion.close (now nominal : Nat) (vol prof : Bool) (x : Excursion) : Excursion :=
  if !x.isOpen then x
  else { x.takePeak nominal with
    seq := x.seq + 2, isVolatile := vol, isOpen := false, profile := x.profile || prof, endTime := now
    durationMs := satAdd 32 x.durationMs ((now - x.startAt) / 1000000) }

/-- R488: the event's part in the excursion ring. -/
def Recorder.onEvent (r : Recorder) (now : Nat) (civil : Int) (src cause inst : Nat) : Recorder :=
  match excursionEvent src cause inst with
  | none => r
  | some (true, kind, i) => r.startExcursion now civil kind i
  | some (false, kind, i) => r.modData fun d => { d with excursions := updNewest kind i (Excursion.close now r.nominalNs r.isVolatile false) d.excursions }

/-- R489: once per second the records whose PEAK has moved are rewritten. -/
def Recorder.peaks (r : Recorder) : Recorder :=
  let f := fun x : Excursion =>
    if x.isOpen && passes x.kind r.nominalNs x.peak x.live then { x.takePeak r.nominalNs with seq := x.seq + 2, isVolatile := r.isVolatile } else x
  r.modData fun d => { d with excursions := d.excursions.map f }

/-- R490: a profile takes effect: every open excursion ends. -/
def Recorder.endExcursions (r : Recorder) (now : Nat) : Recorder :=
  r.modData fun d => { d with excursions := d.excursions.map (Excursion.close now r.nominalNs r.isVolatile true) }

/-! ### Volatile mode (R494) -/

/-- R494: the layout continues in DRAM from the content last readable. -/
def Recorder.toVolatile (r : Recorder) (base : RecData) : Recorder :=
  { r with isVolatile := true, base := base, data := { base with pages := [], excursions := [], steps := [] } }

end Sys2Proof.Machine
end

