-- ==== Sys2Proof/Machine/Ops.lean ====
section
/-! DEFINITION. Operations that every family shares: the sub-record updates, the output log, device addresses, event records (R589 to R592, R114), MSI-X messages (R133), completion records (R125, R112) and authority (R121, R529). -/

namespace Sys2Proof.Machine

/-! ### Updates of parts of the state -/

def State.modPwr (f : Pwr → Pwr) (s : State) : State := { s with pwr := f s.pwr }
def State.modHost (f : HostIf → HostIf) (s : State) : State := { s with host := f s.host }
def State.modFlt (f : Flt → Flt) (s : State) : State := { s with flt := f s.flt }
def State.modProf (f : ProfileStore → ProfileStore) (s : State) : State := { s with prof := f s.prof }
def State.modStage (i : Nat) (f : Stage → Stage) (s : State) : State := { s with stages := upd s.stages i f }
def State.modAlloc (f : Alloc → Alloc) (s : State) : State := { s with alloc := f s.alloc }
def State.modAlcOut (o : Nat) (f : AlcOutlet → AlcOutlet) (s : State) : State :=
  { s with alloc := { s.alloc with outlets := upd s.alloc.outlets o f } }
def State.modPath (o : Nat) (f : Path → Path) (s : State) : State := { s with paths := upd s.paths o f }
def State.modLaw (f : Law → Law) (s : State) : State := { s with law := f s.law }
def State.modEngine (e : Nat) (f : Engine → Engine) (s : State) : State :=
  { s with law := { s.law with engines := upd s.law.engines e f } }
def State.modLawSlot (i : Nat) (f : LawSlot → LawSlot) (s : State) : State :=
  { s with law := { s.law with slots := upd s.law.slots i f } }
def State.modLane (n : Nat) (f : Lane → Lane) (s : State) : State :=
  { s with lanes := { s.lanes with lane := upd s.lanes.lane n f } }
def State.modPair (f : Pair → Pair) (s : State) : State := { s with pair := f s.pair }
def State.modAcq (f : Acq → Acq) (s : State) : State := { s with acq := f s.acq }
def State.modUnit (u : Nat) (f : CapUnit → CapUnit) (s : State) : State :=
  { s with acq := { s.acq with units := upd s.acq.units u f } }
def State.modRec (f : Recorder → Recorder) (s : State) : State := { s with rcd := f s.rcd }
def State.modKey (f : Keys → Keys) (s : State) : State := { s with key := f s.key }
def State.modSlot (i : Nat) (f : KeySlot → KeySlot) (s : State) : State :=
  { s with key := { s.key with slots := upd s.key.slots i f } }
def State.modPlc (f : Plc → Plc) (s : State) : State := { s with plc := f s.plc }
def State.modSq (n : Nat) (f : Sq → Sq) (s : State) : State :=
  { s with host := { s.host with sq := upd s.host.sq n f } }
def State.modCq (m : Nat) (f : Cq → Cq) (s : State) : State :=
  { s with host := { s.host with cq := upd s.host.cq m f } }
def State.modEvq (f : Evq → Evq) (s : State) : State := { s with host := { s.host with evq := f s.host.evq } }

def State.stage (s : State) (i : Nat) : Stage := nth s.stages i
def State.path (s : State) (o : Nat) : Path := nth s.paths o
def State.alcOut (s : State) (o : Nat) : AlcOutlet := nth s.alloc.outlets o
def State.lane (s : State) (n : Nat) : Lane := nth s.lanes.lane n
def State.engine (s : State) (e : Nat) : Engine := nth s.law.engines e
def State.unit (s : State) (u : Nat) : CapUnit := nth s.acq.units u
def State.slot (s : State) (i : Nat) : KeySlot := nth s.key.slots i
def State.sq (s : State) (n : Nat) : Sq := nth s.host.sq n
def State.cq (s : State) (m : Nat) : Cq := nth s.host.cq m

/-- Apply an operation to every index of a list, in order. -/
def forAll (l : List ι) (f : ι → State → State) (s : State) : State := l.foldl (fun s i => f i s) s

/-- An operation performed only under a condition. -/
def when (c : Bool) (f : State → State) (s : State) : State := if c then f s else s

/-- Append one output to the log. -/
def emit (o : Out) (s : State) : State := { s with outs := o :: s.outs }

/-- The next free 16-bit value. -/
def freeHalf (s : State) : Half := Config.freeByte s.freeIx 1 ++ Config.freeByte s.freeIx 0

/-- The next free value's index; the counter advances. -/
def useFree (s : State) : State := { s with freeIx := s.freeIx + 1 }

/-! ### Identity, authority and operating state -/

/-- R67: PAIR_PRESENT was tied low at reset release. -/
def State.member (s : State) : Bool := !s.pwr.straps.pairPresent

/-- HIF_ADDR.UNIT: 1 for unit B; a standalone module reads 0 (R103). -/
def State.unitB (s : State) : Bool := s.member && s.pwr.straps.role

/-- R6: the device address, HIF_ADDR[6:0]. -/
def State.deviceAddr (s : State) : Nat := 2 * s.host.pairId.toNat + b2n s.unitB

/-- R121, R280, R529: actuation authority. A standalone module holds it in Setup and Operate, a pair unit while AUTH is set. -/
def State.authority (s : State) : Bool :=
  if s.member then s.pair.auth else s.pwr.opState == .setup || s.pwr.opState == .operate

/-- R121: this unit holds a current Mayfly lease; a standalone module holds it permanently. -/
def State.leaseHere (s : State) : Bool :=
  if s.member then s.pair.held && s.pair.holderB == s.unitB else true

/-- R121: RESULT of NOT_TOKEN_HOLDER: the holder's device address, or 0xFF when no unit holds a current lease. -/
def State.holderAddr (s : State) : Nat :=
  if s.leaseHere then s.deviceAddr
  else if s.pair.held then 2 * s.host.pairId.toNat + b2n s.pair.holderB else 0xFF

/-- R121: a unit in Safe executes an A descriptor when its peer does not hold actuation authority. -/
def State.acceptsA (s : State) : Bool :=
  s.authority || (s.pwr.opState == .safe && (!s.member || s.pair.ilk != .active))

/-- R280: what the interlock state writes into the A bit. -/
def State.aBit (s : State) : Bool := s.authority && (s.pwr.opState == .setup || s.pwr.opState == .operate)

/-- The controller logic runs: out of reset and past Boot, with its fast clocks on. -/
def State.awake (s : State) : Bool :=
  !s.pwr.held && s.pwr.opState != .boot && s.pwr.powerState != .sleep

/-- R83, R85: the clock of domain `d` runs and is locked; a domain without lock does nothing. -/
def State.domainUp (s : State) (d : Nat) : Bool := s.pwr.locked.getLsbD d

/-- R100: the port that runs PTP: port 0 when both enable it. -/
def State.ptpPort (s : State) : Option Nat := (List.range 2).find? fun n => (nth s.host.eth n).ptpEn

/-- R101: PTP steers civil time. -/
def State.ptpSteers (s : State) : Bool :=
  match s.ptpPort with
  | some n => (nth s.host.eth n).civilFromPtp && s.host.ptpLocked
  | none => false

/-- R583: a frozen master starts no access. -/
def State.isFrozen (s : State) (m : Nat) : Bool := s.flt.frozen.getLsbD m

/-- R374, R505: a contract or V2G trust anchor is in a READY slot. -/
def State.contractAnchor (s : State) : Bool := s.key.slots.any fun k => k.state == .ready && bitOf k.usage 7

/-- DESIGN CHOICE: one idle step is 1 µs of device time. -/
def tickNs : Nat := 1000

/-! ### Transactions on PCIe (R85, R97, R98) -/

/-- An output to the host; without the clock of domain 6 it waits for the relock (R85). -/
def toHost (o : Out) (s : State) : State :=
  if s.domainUp 6 then emit o s else s.modHost fun h => { h with stalled := h.stalled ++ [o] }

/-- R85: the outputs that waited for the clock, in order. -/
def flushStalled (s : State) : State :=
  if s.domainUp 6 then s.host.stalled.foldl (fun s o => emit o s) (s.modHost fun h => { h with stalled := [] }) else s

/-- R97: the read requests for a stretch of host memory: none above the maximum size, none across a 4 KiB boundary. -/
def readChunks (size : Nat) : (fuel addr len : Nat) → List (Nat × Nat)
  | 0, _, _ => []
  | fuel + 1, addr, len =>
    if len = 0 then []
    else
      let n := min len (min size (4096 - addr % 4096))
      (addr, n) :: readChunks size fuel (addr + n) (len - n)

/-- R97: read host memory; 128 bytes is the least size a host can set (PCIe). -/
def hostReads (addr len : Nat) (s : State) : State :=
  (readChunks (max 128 (min 512 s.host.maxRead)) len addr len).foldl (fun s c => toHost (.hostRead c.1 c.2) s) s

/-! ### MSI-X messages (R133) -/

/-- Send one message on a vector, or set its pending bit while the vector is masked. It signals every event record written before it by a ring of that vector. -/
def sendMsix (v : Nat) (s0 : State) : State :=
  let s := s0.modEvq fun q => if q.vector = v then { q with unsignalled := false } else q
  let e := nth s.host.msix v
  if e.masked then s.modHost fun h => { h with msix := upd h.msix v fun e => { e with pendingBit := true } }
  else toHost (.msix (e.addrLo.toNat + 2 ^ 32 * e.addrHi.toNat) e.data.toNat) s

/-- A message that one source of R137 asks for in this step. -/
def askMsix (source v : Nat) (s : State) : State := s.modHost fun h => { h with msgs := h.msgs ++ [(source, v)] }

/-- Place an element before the first with a greater key (R12). -/
def placeBy (key : α → Nat) (a : α) : List α → List α
  | [] => [a]
  | b :: l => if key a < key b then a :: b :: l else b :: placeBy key a l

/-- Requests of one cycle in the order in which they are served: by key, and of one key as they came. -/
def served (key : α → Nat) (l : List α) : List α := l.foldl (fun acc a => placeBy key a acc) []

/-- R137: the messages of the step, lower source first. -/
def settleMsgs (s : State) : State :=
  forAll (served (·.1) s.host.msgs) (fun m s => sendMsix m.2 s) (s.modHost fun h => { h with msgs := [] })

/-! ### Event records (R589 to R592, R114) -/

/-- R592: the C0-class sources. -/
def c0Event (src : Nat) : Bool :=
  (16 ≤ src && src ≤ 38) || (48 ≤ src && src ≤ 52) || (96 ≤ src && src ≤ 103)

/-- R589: an event record with PHASE 0. -/
def eventRecord (s : State) (e : Arising) : List Byte :=
  toLE 4 s.flt.evSeq.toNat ++ toLE 1 (s.deviceAddr + 128 * b2n (c0Event e.src)) ++ toLE 1 e.src
    ++ toLE 1 e.cause ++ toLE 1 e.inst ++ toLE 8 e.at_ ++ toLE 2 s.flt.evWraps ++ padTo 13 e.payload ++ zeros 1

def Evq.size (q : Evq) : Nat := 2 ^ q.sizeLog2

/-- R108, R114: records written and not yet read. -/
def Evq.used (q : Evq) : Nat := (q.tail + 2 * q.size - q.head) % (2 * q.size)

def Evq.canTake (q : Evq) : Bool := q.started && q.used < q.size

/-- R114, R112: write one record at the tail with its PHASE. -/
def writeEvent (rec : List Byte) (s : State) : State :=
  let q := s.host.evq
  let phase := q.tail / q.size % 2 == 0
  let addr := q.baseLo.toNat + 2 ^ 32 * q.baseHi.toNat + 32 * (q.tail % q.size)
  toHost (.hostWrite addr (rec.take 31 ++ toLE 1 (128 * b2n phase)))
    (s.modEvq fun q => { q with tail := (q.tail + 1) % (2 * q.size), sinceHead := q.sinceHead + 1 })

/-- R133: the message for a written record. -/
def signalEvent (c0 : Bool) (s : State) : State :=
  let q := s.host.evq
  if c0 || q.coalesceUs == 0 then askMsix 16 q.vector s
  else s.modEvq fun q => { q with unsignalled := true }

/-- R114: write the record, or hold it internally within 256 records, or count it as lost. -/
def placeEvent (c0 : Bool) (rec : List Byte) (s : State) : State :=
  let q := s.host.evq
  if q.canTake && q.heldRecs.isEmpty then signalEvent c0 (writeEvent rec s)
  else if q.heldRecs.length < 256 then s.modEvq fun q => { q with heldRecs := q.heldRecs ++ [rec] }
  else s.modEvq fun q => { q with lost := satAdd 32 q.lost 1, lostNow := satAdd 32 q.lostNow 1 }

/-- R590: SEQUENCE and WRAPS advance with every record produced. -/
def nextEvSeq (s : State) : State :=
  s.modFlt fun f => { f with
    evSeq := f.evSeq + 1
    evWraps := if f.evSeq == 0xFFFFFFFF#32 then satAdd 16 f.evWraps 1 else f.evWraps }

/-- R484: one source value of a recorder slot. -/
def recFeed (slot : Nat) (v : Rat) (s : State) : State := s.modRec (·.feed slot v)

/-- R488: one value of a peak quantity. -/
def recNote (kind inst : Nat) (v : Int) (s : State) : State := s.modRec fun r => r.note kind inst v s.now

/-- R364, R488: the excursion that an event starts or ends; no recorder write starts while a thermal halt is pending. -/
def recEvent (src cause inst : Nat) (s : State) : State :=
  if s.thm.halting.isSome then s else s.modRec fun r => r.onEvent s.now s.civil src cause inst

/-- An event arises, and may fire the EVENT triggers of R322. -/
def arise (src cause inst : Nat) (payload : List Byte) (s : State) : State :=
  (s.modAcq (·.onEvent s.now src cause)).modFlt fun f => { f with
    arising := f.arising ++ [{ src := src, cause := cause, inst := inst, payload := payload, at_ := s.now }] }

/-- R492: E89 at the first overwrite in each ring after reset, and then at most once per day per ring. -/
def raiseWraps (s : State) : State :=
  forAll [0, 1, 2] (fun k s =>
    let q := nth s.rcd.rings k
    let due := match q.raisedAt with | none => true | some t => decide (t + 86400000000000 ≤ s.now)
    if q.since = 0 ∨ !due then s
    else arise 89 (k + 1) 0xFF (toLE 4 q.since)
      (s.modRec fun r => { r with rings := upd r.rings k fun q => { q with since := 0, raisedAt := some s.now } })) s

/-- Raise one event (R589), which may fire the EVENT triggers of R322 and start or end an excursion (R488). Its record follows when the step settles. -/
def raise (src cause inst : Nat) (payload : List Byte) (s : State) : State :=
  raiseWraps (recEvent src cause inst (arise src cause inst payload s))

/-- R137, R594: the place of an event among those of one cycle: C0-class events first, then the lower number; E114 in ascending master number. -/
def Arising.key (e : Arising) : Nat := 256 * (e.src + 128 * b2n (!c0Event e.src)) + (if e.src = 114 then e.inst else 0)

/-- The record of one event, in its turn. -/
def recordEvent (e : Arising) (s : State) : State := placeEvent (c0Event e.src) (eventRecord s e) (nextEvSeq s)

/-- R114, R137, R590: the records of the events that have arisen, in the order of the tie rule. -/
def settleEvents (s : State) : State :=
  forAll (served Arising.key s.flt.arising) recordEvent (s.modFlt fun f => { f with arising := [] })

/-- The end of a step: its event records, then its messages (R98). -/
def settle (s : State) : State := settleMsgs (settleEvents s)

/-- A command in every state of the controller. -/
def run (f : State → State) (s : State) : Host.Outcome State Fault Refusal := .next (settle (f s))

/-- R73: a command of the controller, which has no defined behaviour once the rails have left tolerance. -/
def ctl (f : State → State) (s : State) : Host.Outcome State Fault Refusal :=
  if s.pwr.undefinedLogic then .fault .supplyUndefined else run f s

/-- A command that the running controller logic acts on; it changes nothing while that logic is stopped. -/
def live (f : State → State) (s : State) : Host.Outcome State Fault Refusal := ctl (fun s => if s.awake then f s else s) s

/-- R615: the whole second of device time that runs. -/
def State.second (s : State) : Nat := s.now / 10 ^ 9

/-- R615: count one occurrence, in the running second, of an event that is raised once per second with its count. -/
def countEvent (src cause inst : Nat) (s : State) : State :=
  let mine := fun c : (Nat × Nat × Nat × Nat) × Nat => c.1.1 == src && c.1.2.1 == cause && c.1.2.2.1 == inst && c.2 == s.second
  s.modFlt fun f =>
    if f.counts.any mine then
      { f with counts := f.counts.map fun c => if mine c then ((src, cause, inst, satAdd 32 c.1.2.2.2 1), c.2) else c }
    else { f with counts := f.counts ++ [((src, cause, inst, 1), s.second)] }

/-- R615: raise an event at most once in any 1 s; `key` tells its occurrences apart. -/
def raiseOnceFor (key src cause inst : Nat) (payload : List Byte) (s : State) : State :=
  let mine := fun c : Nat × Nat × Nat × Nat => c.1 == src && c.2.1 == cause && c.2.2.1 == key
  if s.flt.onceAt.any fun c => mine c && s.now < c.2.2.2 + 10 ^ 9 then s
  else raise src cause inst payload
    (s.modFlt fun f => { f with onceAt := f.onceAt.filter (fun c => !mine c) ++ [(src, cause, key, s.now)] })

def raiseOnce (src cause inst : Nat) (payload : List Byte) (s : State) : State := raiseOnceFor inst src cause inst payload s

/-! ### Completion records (R125, R112, R133) -/

/-- R125: a completion record with its PHASE. -/
def completionRecord (s : State) (phase : Bool) (ring : Nat) (tag : BitVec 7) (seq : Half) (startedAt status result : Nat) : List Byte :=
  toLE 1 (s.deviceAddr + 128 * b2n phase) ++ toLE 1 status ++ toLE 1 tag.toNat ++ toLE 1 ring
    ++ toLE 2 seq.toNat ++ toLE 6 startedAt ++ toLE 4 result

/-- R120, R126: statuses whose RESULT the spec states: OK, PARTIAL, DEFERRED_DONE, NOT_TOKEN_HOLDER, BUFFER_FAULT and METER_REFUSED. -/
def resultStated (status : Nat) : Bool := [0x00, 0x02, 0x03, 0x0C, 0x13, 0x18].contains status

/-- A free value of 32 bits. -/
def freeWord (s : State) : Nat := leAt ((List.range 4).map (Config.freeByte s.freeIx)) 0 4

/-- RESULT of a completion: a status whose RESULT the spec leaves open carries a free value unless its opcode gives one (passed as a value other than 0). -/
def resultOf (status result : Nat) (s : State) : Nat := if result = 0 ∧ !resultStated status then freeWord s else result

/-- R112, R133: write a completion into the ring that the submission ring names, and send its message unless SILENT. A disabled completion ring takes nothing (R115). -/
def complete (ring : Nat) (tag : BitVec 7) (seq : Half) (silent : Bool) (startedAt status result : Nat) (s : State) : State :=
  let m := (s.sq ring).cq
  let c := s.cq m
  if !s.host.ringsRunning || !c.enable || s.host.muted then s
  else
    let addr := c.baseLo.toNat + 2 ^ 32 * c.baseHi.toNat + 16 * c.index
    let last := c.index + 1 == 2 ^ c.sizeLog2
    let s1 := toHost (.hostWrite addr (completionRecord s c.phase ring tag seq startedAt status (resultOf status result s)))
      ((useFree s).modCq m fun c => { c with index := if last then 0 else c.index + 1, phase := if last then !c.phase else c.phase })
    if silent then s1 else askMsix m c.vector s1

/-- Complete a descriptor that ran to its end at once. -/
def completeDesc (d : Desc) (status result : Nat) (s : State) : State :=
  complete d.ring d.tag d.seq d.silent s.now status result s

/-- R122: the host buffers of a descriptor: address, length, and whether the CK832 writes it. -/
def descBuffers (d : Desc) : List (Nat × Nat × Bool) :=
  (match d.opcode.toNat with
    | 0x0B => [(u64 d.body 0, u16 d.body 8, true)]
    | 0x24 | 0x25 | 0x43 | 0x45 | 0x46 => [(u64 d.body 8, u16 d.body 16, false)]
    | 0x30 | 0x47 => [(u64 d.body 8, u16 d.body 16, true)]
    | 0x31 | 0x44 => [(u64 d.body 8, u32 d.body 16, true)]
    | 0x33 => [(u64 d.body 8, u16 d.body 16, false), (u64 d.body 24, u16 d.body 32, true)]
    | 0x34 => [(u64 d.body 32, u16 d.body 40, true)]
    | 0x40 | 0x41 => [(u64 d.body 8, u32 d.body 16, false)]
    | _ => []).filter fun b => b.2.1 != 0

/-- Hold a descriptor's tag for an operation that ends later (R118), with its host-buffer windows (R582). -/
def startOp (d : Desc) (op : OpKind) (s : State) : State :=
  s.modHost fun h => { h with inflight := h.inflight ++
    [{ ring := d.ring, tag := d.tag, seq := d.seq, silent := d.silent, startedAt := s.now, discard := h.muted
       bufs := (descBuffers d).map fun b => (b.1, b.2.1), crypto := d.opcode == 0x33 || d.opcode == 0x34, op := op }] }

/-- An operation that runs without writing a buffer or a completion (R136, R583). -/
def muted (f : State → State) (s : State) : State :=
  (f (s.modHost fun h => { h with muted := true })).modHost fun h => { h with muted := false }

/-- R118, R136, R137: end the operations in flight that `p` selects, by ring: each releases its tag and writes its completion, unless a PCIe reset discarded it. -/
def endOps (p : OpKind → Bool) (status result : Nat) (s : State) : State :=
  let ended := served (·.ring) (s.host.inflight.filter fun i => p i.op)
  let s1 := s.modHost fun h => { h with inflight := h.inflight.filter fun i => !p i.op }
  forAll ended (fun i s => if i.discard then s else complete i.ring i.tag i.seq i.silent i.startedAt status result s) s1

/-- A buffer write for an operation: discarded after a PCIe reset (R136). -/
def writeBuffer (addr : Nat) (bytes : List Byte) (s : State) : State :=
  if s.host.ringsRunning && !s.host.muted then toHost (.hostWrite addr bytes) s else s

/-! ### Frozen masters (R583) -/

/-- R583: the violation of a master: it freezes, with E114 and the counts of R595. -/
def freezeMaster (m kind addr : Nat) (s : State) : State :=
  raise 114 1 m (toLE 1 kind ++ toLE 8 addr) (s.modFlt fun f => { f with
    frozen := f.frozen ||| BitVec.ofNat 36 (2 ^ m)
    violMaster := m, violKind := kind, violAddr := addr, violCount := satAdd 16 f.violCount 1
    freezeAt := if f.freezeAt.any (·.1 == m) then f.freezeAt else f.freezeAt ++ [(m, s.now)] })

/-- R583: the descriptor on whose behalf the access was issued waits for the release. -/
def markViolated (m : Nat) (tag : Option (BitVec 7)) (s : State) : State :=
  s.modHost fun h => { h with inflight := h.inflight.map fun i => if some i.tag == tag then { i with op := .violated m } else i }

/-! ### Mirror records (R536, R537, R545) -/

/-- R537. -/
def MirrorRec.rtype : MirrorRec → Nat
  | .ack _ => 1 | .hello _ => 2 | .lease _ => 3 | .handover _ _ => 4 | .descriptor _ _ _ => 5 | .session _ _ _ => 6 | .target _ _ => 7
  | .transfer _ _ => 8 | .sensor _ _ => 9 | .caddis _ _ _ _ _ => 0x0A | .lane _ => 0x0B | .snapshotRequest | .snapshot _ _ _ => 0x0C

/-- The bytes of the records that the spec lays out (R537, R547). -/
def MirrorRec.bytes : MirrorRec → List Byte
  | .ack seq => toLE 4 seq.toNat
  | .lease body => body
  | .handover atCount kind => toLE 6 atCount ++ toLE 1 kind
  | _ => []

/-- R536: the MIRROR frames of the bytes of one record, 128 to a frame. -/
def mirrorFrames (s : State) (rtype : Nat) (seq : Word) (l : List Byte) : List (List Block) :=
  let n := ceilDiv l.length 128
  (List.range n).map fun k =>
    let part := bytesAt l (128 * k) (min 128 (l.length - 128 * k))
    let head : List Block := [BitVec.ofNat 64 (0x11 + 512 * b2n s.unitB + 1024 * s.host.pairId.toNat + 2 ^ 24 * s.lanes.q.toNat
        + 2 ^ 40 * rtype + 2 ^ 48 * k + 2 ^ 56 * n), BitVec.ofNat 64 (seq.toNat + 2 ^ 32 * part.length)]
    let body := head ++ (List.range 16).map fun i => BitVec.ofNat 64 (u64 (padTo 128 part) (8 * i))
    body ++ [BitVec.ofNat 64 (crc32c (body.flatMap fun b => toLE 8 b.toNat))]

/-- A record leaves on the pair link. -/
def putRecord (seq : Word) (r : MirrorRec) (s : State) : State := emit (.mirror seq r (mirrorFrames s r.rtype seq r.bytes)) s

/-- R536: send one record to the peer while the pair link is up; it waits for its ACK. -/
def sendRecord (r : MirrorRec) (s : State) : State :=
  if !s.member || !s.pair.linkUp then s
  else putRecord s.pair.recordSeq r (s.modPair fun p => { p with
    recordSeq := p.recordSeq + 1
    unacked := if r.rtype == 1 then p.unacked else p.unacked ++ [{ seq := p.recordSeq, content := r, sentAt := s.now }] })

/-- R543: the unit runs in a formed pair, so that it mirrors what it executes. -/
def State.paired (s : State) : Bool := s.member && s.pair.linkUp && s.pair.helloOk

end Sys2Proof.Machine
end

