-- ==== Sys2Proof/Machine/Operands.lean ====
section
/-! DEFINITION. Operand forms: the fields of profile sections (R34 to R38, R146, R218, R219, R556), of descriptor bodies (R122) and of uplink frames (R282, R283), and the quantities read from them. -/

namespace Sys2Proof.Machine

/-! ### Profile images -/

/-- R34, R35: entry `i` of the section table: type, offset, length. -/
def tableEntry (img : List Byte) (i : Nat) : Nat × Nat × Nat :=
  let b := 128 + 16 * i
  (u16 img b, u32 img (b + 4), u32 img (b + 8))

/-- R36: the bytes of the section of a type, or none. -/
def imageSection? (img : List Byte) (t : Nat) : Option (List Byte) :=
  ((List.range (u16 img 0x10)).find? fun i => (tableEntry img i).1 == t).map fun i =>
    let e := tableEntry img i
    (img.drop e.2.1).take e.2.2

def imageSection (img : List Byte) (t : Nat) : List Byte := (imageSection? img t).getD []

/-- The bytes of a section of the active profile; empty without a profile or without the section. -/
def State.sec (s : State) (t : Nat) : List Byte :=
  match s.prof.active with
  | some p => imageSection p.image t
  | none => []

def State.hasSec (s : State) (t : Nat) : Bool :=
  match s.prof.active with
  | some p => (imageSection? p.image t).isSome
  | none => false

/-- R34: PROFILE_VERSION of an image. -/
def profileVersion (img : List Byte) : Nat := u32 img 0x0C

/-! ### SITE (R37) and OUTLETS (R38) -/

def State.xpOperateMs (s : State) : Nat := u16 (s.sec 1) 0
def State.allocPeriodUs (s : State) : Nat := u16 (s.sec 1) 2
def State.stPresent (s : State) (i : Nat) : Bool := u8 (s.sec 1) (8 + 16 * i) == 1
def State.stPhases (s : State) (i : Nat) : Nat := u8 (s.sec 1) (9 + 16 * i)
def State.stPMaxKw (s : State) (i : Nat) : Nat := u16 (s.sec 1) (10 + 16 * i)
def State.stVMaxV (s : State) (i : Nat) : Nat := u16 (s.sec 1) (12 + 16 * i)
def State.stIMaxA (s : State) (i : Nat) : Nat := u16 (s.sec 1) (14 + 16 * i)

/-- R15: a lane is in use when at least one of its two stages is present. -/
def State.laneInUse (s : State) (n : Nat) : Bool := s.stPresent (2 * n) || s.stPresent (2 * n + 1)

def outRec (sec : List Byte) (o : Nat) : List Byte := (sec.drop (32 * o)).take 32
def State.personality (s : State) (o : Nat) : Nat := u8 (s.sec 2) (32 * o)
/-- R39: an active outlet is one whose PERSONALITY is not DISABLED. -/
def State.outActive (s : State) (o : Nat) : Bool := s.personality o != 0
/-- R23: SP_SOURCE is SETPOINT_PORT. -/
def State.portSource (s : State) (o : Nat) : Bool := u8 (s.sec 2) (32 * o + 1) == 1
def State.olTier (s : State) (o : Nat) : Nat := u8 (s.sec 2) (32 * o + 2)
def State.olWeight (s : State) (o : Nat) : Nat := u8 (s.sec 2) (32 * o + 3)
def State.olIMaxA (s : State) (o : Nat) : Nat := u16 (s.sec 2) (32 * o + 4)
def State.olVMaxV (s : State) (o : Nat) : Nat := u16 (s.sec 2) (32 * o + 6)
def State.olVMinV (s : State) (o : Nat) : Nat := u16 (s.sec 2) (32 * o + 8)
def State.olPMaxKw (s : State) (o : Nat) : Nat := u16 (s.sec 2) (32 * o + 10)
def State.chademoCan (s : State) (o : Nat) : Nat := u8 (s.sec 2) (32 * o + 12)
def State.contactorGpio (s : State) (o : Nat) : Nat := u8 (s.sec 2) (32 * o + 13)

/-- R38, R383: the GPIO contacts that an OUTLETS section binds as sole-actor outputs: the contactor drive of each active outlet, and charge sequence signals 1 and 2 of each CHADEMO outlet. -/
def soleActors (sec : List Byte) : List Nat :=
  (List.range 8).flatMap fun o =>
    if u8 sec (32 * o) = 0 then []
    else u8 sec (32 * o + 13) :: (if u8 sec (32 * o) = 3 then [3 * o, 3 * o + 1] else [])

/-! ### ALLOCATOR (R146) -/

def State.defaultCapKw (s : State) : Nat := u32 (s.sec 3) 0x00
def State.fastCapKw (s : State) : Nat := u32 (s.sec 3) 0x04
def State.fastCapGpio (s : State) : Nat := u8 (s.sec 3) 0x08
def State.fastCapActiveHigh (s : State) : Bool := u8 (s.sec 3) 0x09 == 1
def State.auxLoadKw (s : State) : Nat := u16 (s.sec 3) 0x0A
def State.effPermille (s : State) : Nat := u16 (s.sec 3) 0x0C
def State.vFloorV (s : State) : Nat := u16 (s.sec 3) 0x0E
def State.rampAPerMs (s : State) : Nat := u16 (s.sec 3) 0x10
def State.trackSlewVPerMs (s : State) : Nat := u16 (s.sec 3) 0x12
def State.trackTimeoutMs (s : State) : Nat := u8 (s.sec 3) 0x14
def State.maxTransfers (s : State) : Nat := u8 (s.sec 3) 0x15
def State.releaseHoldMs (s : State) : Nat := u16 (s.sec 3) 0x16
def State.moveHoldMs (s : State) : Nat := u16 (s.sec 3) 0x18
def State.startReserveKw (s : State) : Nat := u16 (s.sec 3) 0x1A
def State.trafoLowKw (s : State) : Nat := u16 (s.sec 3) 0x1C
def State.trafoFallbackKw (s : State) : Nat := u32 (s.sec 3) 0x20
def State.cableFallbackA (s : State) (o : Nat) : Nat := u16 (s.sec 3) (0x24 + 2 * o)

/-- R142: the contact that FAST_CAP_GPIO names is at its active level. -/
def State.fastActive (s : State) : Bool :=
  s.fastCapGpio < 24 && s.alloc.gpio.getLsbD s.fastCapGpio == s.fastCapActiveHigh

/-! ### SETPOINT (R218, R219) -/

def State.statusPeriodUs (s : State) : Nat := u16 (s.sec 8) 0x00
def State.portTimeoutMs (s : State) : Nat := u16 (s.sec 8) 0x02
def State.trackILimitA (s : State) : Nat := u16 (s.sec 8) 0x04
def State.psumTolA (s : State) : Nat := u16 (s.sec 8) 0x06
def State.psumTolPct (s : State) : Nat := u8 (s.sec 8) 0x08
def State.openPct (s : State) : Nat := u8 (s.sec 8) 0x09
def State.frozenSamples (s : State) : Nat := u16 (s.sec 8) 0x0A
def State.shortMinRefV (s : State) : Nat := u16 (s.sec 8) 0x0C

/-- A 2-byte field of the SETPOINT record of outlet `o`. -/
def State.sp (s : State) (o off : Nat) : Nat := u16 (s.sec 8) (16 + 64 * o + off)
def State.iVel (s : State) (o : Nat) : Nat := s.sp o 0x00
def State.iAcc (s : State) (o : Nat) : Nat := s.sp o 0x02
def State.iJerk (s : State) (o : Nat) : Nat := s.sp o 0x04
def State.vVel (s : State) (o : Nat) : Nat := s.sp o 0x06
def State.vAcc (s : State) (o : Nat) : Nat := s.sp o 0x08
def State.vJerk (s : State) (o : Nat) : Nat := s.sp o 0x0A
def State.fallbackISlew (s : State) (o : Nat) : Nat := s.sp o 0x0C
def State.fallbackVSlew (s : State) (o : Nat) : Nat := s.sp o 0x0E
def State.ackIBandA (s : State) (o : Nat) : Nat := s.sp o 0x10
def State.ackVBandV (s : State) (o : Nat) : Nat := s.sp o 0x12
def State.ackIBandPermille (s : State) (o : Nat) : Nat := u8 (s.sec 8) (16 + 64 * o + 0x14)
def State.ackMarginMs (s : State) (o : Nat) : Nat := s.sp o 0x16
def State.kMin (s : State) (o : Nat) : Nat := s.sp o 0x18
def State.kMax (s : State) (o : Nat) : Nat := s.sp o 0x1A
def State.prechargeIA (s : State) (o : Nat) : Nat := s.sp o 0x1C
def State.checkIA (s : State) (o : Nat) : Nat := s.sp o 0x1E
def State.dischargeV (s : State) (o : Nat) : Nat := s.sp o 0x20
def State.dischargeSlew (s : State) (o : Nat) : Nat := s.sp o 0x22
def State.stopTimeoutMs (s : State) (o : Nat) : Nat := s.sp o 0x24
def State.connectTimeoutMs (s : State) (o : Nat) : Nat := s.sp o 0x26
def State.inletAcq (s : State) (o : Nat) : Nat := u8 (s.sec 8) (16 + 64 * o + 0x28)
def State.contactorFbGpio (s : State) (o : Nat) : Nat := u8 (s.sec 8) (16 + 64 * o + 0x29)
def State.outletOperateMs (s : State) (o : Nat) : Nat := s.sp o 0x2A
def State.inletScaleV (s : State) (o : Nat) : Nat := s.sp o 0x2C

/-! ### PAIR (R556), with the defaults of a profile without the section -/

def State.pairField (s : State) (dflt v : Nat) : Nat := if s.hasSec 0x0C then v else dflt
def State.leaseMs (s : State) : Nat := s.pairField 200 (u16 (s.sec 0x0C) 0)
def State.renewMs (s : State) : Nat := s.pairField 50 (u16 (s.sec 0x0C) 2)
def State.witnesses (s : State) : Nat := s.pairField 5 (u8 (s.sec 0x0C) 4)
def State.laneHandoverEn (s : State) : Bool := bitOf (s.pairField 1 (u8 (s.sec 0x0C) 5)) 0
def State.hotPeriods (s : State) : Nat := s.pairField 64 (u16 (s.sec 0x0C) 6)
def State.hostPollMs (s : State) : Nat := s.pairField 10 (u8 (s.sec 0x0C) 8)

/-- R438: PAIR frames of the site network reach the peer. -/
def State.plcFallback (s : State) : Bool := s.member && bitOf (u8 (s.sec 0x0B) 1) 3 && (s.plc.lock || s.plc.role == 3)

/-- R537: a LEASE or CADDIS record waits for the next PAIR frame. -/
def queuePlc (rtype : Nat) (body : List Byte) (s : State) : State :=
  if s.plcFallback then s.modPair fun p => { p with plcOut := p.plcOut ++ [(rtype, body)] } else s

/-! ### ACQUISITION (R338), with the defaults of a profile without the section -/

def State.captureMib (s : State) : Nat := if s.hasSec 0x0D then u16 (s.sec 0x0D) 0 else 64
def State.skewCount (s : State) : Nat := u16 (s.sec 0x0D) 2
def State.unitMib (s : State) (u : Nat) : Nat := if s.hasSec 0x0D then u16 (s.sec 0x0D) (8 + 2 * u) else 8

/-- The skew entry of a source: DELAY_QNS and LAT_NS. -/
def State.skew (s : State) (kind index : Nat) : Option (Int × Nat) :=
  let sec := s.sec 0x0D
  ((List.range s.skewCount).find? fun k => u8 sec (32 + 8 * k) == kind && u16 sec (34 + 8 * k) == index).map fun k =>
    (i16 sec (36 + 8 * k), u16 sec (38 + 8 * k))

/-- The default configuration of a unit among `n` entries from an offset. -/
def defaultEntry (sec : List Byte) (u : Nat) : Nat → Nat → Option (List Byte)
  | 0, _ => none
  | n + 1, off => if u8 sec off = u then some (bytesAt sec (off + 8) (u16 sec (off + 2))) else defaultEntry sec u n (off + 8 + u16 sec (off + 2))

def State.unitDefault (s : State) (u : Nat) : Option (List Byte) :=
  let sec := s.sec 0x0D
  defaultEntry sec u (u8 sec 4) (32 + 8 * s.skewCount)

/-- R246: the control period T_c in units of 0.25 ns, of the active base rate or its default. -/
def State.periodQns (s : State) : Nat := 4000000000 / (if s.law.baseRate = 0 then 100000 else s.law.baseRate)

/-- R138, R540: control periods in one allocation period, rounded up. -/
def State.allocPeriods (s : State) : Nat := if s.periodQns = 0 then 1 else max 1 (ceilDiv (s.allocPeriodUs * 4000) s.periodQns)

/-- R138, R540: an allocation boundary: a control period boundary where PERIOD_COUNT is a whole multiple of the allocation period. -/
def State.atAllocBoundary (s : State) : Bool :=
  s.lanes.ticking && s.lanes.boundary == s.now && s.pair.periodCount.toNat % s.allocPeriods == 0

/-! ### Uplink samples (R282, R283) -/

/-- The 16-bit field `i` of a block. -/
def half (b : Block) (i : Nat) : Half := b.extractLsb' (16 * i) 16

/-- R283: the mean of the valid samples among eight, rounded under R229; 0 when none is valid. -/
def meanValid (l : List Half) : Int :=
  let v := (l.filter fun h => h != 0x8000#16).map BitVec.toInt
  if v.isEmpty then 0 else clampQ15 (divRound (v.foldl (· + ·) 0) v.length)

/-- The eight samples that start at block `b` of a frame. -/
def samplesAt (blocks : List Block) (b : Nat) : List Half :=
  let x := blocks.getD b 0
  let y := blocks.getD (b + 1) 0
  [half x 0, half x 1, half x 2, half x 3, half y 0, half y 1, half y 2, half y 3]

/-- Samples of lane-local phase `j` of an UPLINK. -/
def phaseSamples (blocks : List Block) (j : Nat) : List Half := samplesAt blocks (1 + 2 * j)

/-- Samples of quantity `qty` (0 VOUT, 1 IOUT, 2 VIN) of lane-local stage `m`. -/
def stageSamples (blocks : List Block) (m qty : Nat) : List Half := samplesAt blocks (17 + 6 * m + 2 * qty)

/-- R306: the UPLINK that a lane contributes inputs from: none unless it is ACTIVE. -/
def State.inputs (s : State) (n : Nat) : List Block := if (s.lane n).state == .active then (s.lane n).lastUp else []

/-- R283: a stage quantity of the last latched UPLINK, Q15. -/
def State.stageQ (s : State) (i qty : Nat) : Int := meanValid (stageSamples (s.inputs (i / 2)) (i % 2) qty)

/-- Stage output voltage (Q15 at 1600 V), output current (Q15 at 1024 A) and input voltage. -/
def State.stVout (s : State) (i : Nat) : Int := s.stageQ i 0
def State.stIout (s : State) (i : Nat) : Int := s.stageQ i 1
def State.stVin (s : State) (i : Nat) : Int := s.stageQ i 2

/-- PHASE_I of a global phase, Q15 at 512 A. -/
def State.phaseI (s : State) (p : Nat) : Int := meanValid (phaseSamples (s.inputs (p / 8)) (p % 8))

/-- NODE_TEMP of sensor `t` of lane `n`, Q15 at 256 °C; 0x8000 stands for a value that is absent. -/
def State.nodeTemp (s : State) (n t : Nat) : Half :=
  match (s.inputs n)[29 + t / 4]? with
  | some b => half b (t % 4)
  | none => 0x8000#16

/-- R19, R284: the measured stage current is at or below 2 A in magnitude (64 units of 1024 A / 32768). -/
def State.lowCurrent (s : State) (i : Nat) : Bool := (s.stIout i).natAbs ≤ 64

/-- Q15 at 1024 A in units of 0.1 A, and Q15 at 1600 V in units of 0.1 V, rounded under R229. -/
def daOf (q : Int) : Int := divRound (q * 10240) 32768
def dvOf (q : Int) : Int := divRound (q * 16000) 32768

/-- 0.1 V to Q15 at 1600 V, and A to Q15 at 1024 A or 4096 A. -/
def qOfDv (v : Nat) : Int := divRound ((v : Int) * 32768) 16000
def qOfA (a : Nat) : Int := divRound ((a : Int) * 32768) 1024

/-! ### Steady stages (R617) and the bus voltage (R142) -/

/-- R617: the stage is steady on outlet `o`. -/
def Stage.steadyOn (st : Stage) (o : Nat) : Bool :=
  st.xfer == .steady && st.outlet == some o && st.outEn && !st.halted

def State.steadyStages (s : State) (o : Nat) : List Nat :=
  (List.range 32).filter fun i => (s.stage i).steadyOn o

/-- Stages that the assignment table shows on the outlet. -/
def State.heldStages (s : State) (o : Nat) : List Nat :=
  (List.range 32).filter fun i => (s.stage i).outlet == some o

/-- R142: the output voltage of the outlet's lowest-numbered steady stage, or the last value; Q15 at 1600 V. -/
def State.busQ (s : State) (o : Nat) : Int :=
  match s.steadyStages o with
  | i :: _ => if (s.lane (i / 2)).state == .active then s.stVout i else (s.alcOut o).busV
  | [] => (s.alcOut o).busV

/-- R142: the bus voltage is the last value of a stage whose lane is lost. -/
def State.busStale (s : State) (o : Nat) : Bool :=
  match s.steadyStages o with
  | i :: _ => (s.lane (i / 2)).state != .active
  | [] => false

/-- R183: I_MEAS, the sum of the currents of the steady stages, Q15 units of 1024 A. -/
def State.iMeasQ (s : State) (o : Nat) : Int := ((s.steadyStages o).map s.stIout).foldl (· + ·) 0

/-- V_MEAS and I_MEAS in units of 0.1 V and 0.1 A, within 16 bits. -/
def State.vMeasDv (s : State) (o : Nat) : Nat := min 0xFFFF (dvOf (s.busQ o)).toNat
def State.iMeasDa (s : State) (o : Nat) : Nat := min 0xFFFF (daOf (s.iMeasQ o)).toNat

/-- R200: the inlet rail in units of 0.1 V and in Q15 at 1600 V. -/
def State.inletDv (s : State) (o : Nat) : Nat :=
  min 0xFFFF (divRound ((s.path o).inletQ * (10 * s.inletScaleV o : Nat)) 32768).toNat
def State.inletQ (s : State) (o : Nat) : Int := divRound ((s.path o).inletQ * (s.inletScaleV o : Nat)) 1600

def State.vehOf (s : State) (o : Nat) : Veh := nth s.veh o
def State.ses (s : State) (o : Nat) : Session := (s.vehOf o).ses

/-- R27: the outlet is idle: no session, its contactor verified open, no stage assigned. -/
def State.outletIdle (s : State) (o : Nat) : Bool :=
  (s.ses o).state == .idle && (s.path o).state == .idle && (s.path o).opened && (s.heldStages o).isEmpty

def State.allIdle (s : State) : Bool := (List.range 8).all s.outletIdle

/-- R149: declared phases n, running phases n′ as a mask, and its count. -/
def State.runMask (s : State) (i : Nat) : BitVec 4 :=
  BitVec.ofNat 4 (2 ^ s.stPhases i - 1) &&& ~~~(s.stage i).dropped

def popCount4 (m : BitVec 4) : Nat := b2n (m.getLsbD 0) + b2n (m.getLsbD 1) + b2n (m.getLsbD 2) + b2n (m.getLsbD 3)

def State.nRun (s : State) (i : Nat) : Nat := popCount4 (s.runMask i)

/-! ### Descriptor bodies (R122); offsets count from byte 0 of the descriptor -/

def Desc.b (d : Desc) (i : Nat) : Nat := u8 d.body (i - 8)
def Desc.h (d : Desc) (i : Nat) : Nat := u16 d.body (i - 8)
def Desc.w (d : Desc) (i : Nat) : Nat := u32 d.body (i - 8)
def Desc.q (d : Desc) (i : Nat) : Nat := u64 d.body (i - 8)
def Desc.ix (d : Desc) : Nat := d.index.toNat

/-- The bytes of the body that no listed field covers are 0; fields are (offset, size) from byte 8 upward. -/
def restZero (d : Desc) (fields : List (Nat × Nat)) : Bool :=
  (List.range 56).all fun k => (fields.any fun f => f.1 ≤ k + 8 && k + 8 < f.1 + f.2) || byteAt d.body k == 0

end Sys2Proof.Machine
end

