-- ==== Sys2Proof/Machine/AcqOps.lean ====
section
/-! DEFINITION. The acquisition block (R313 to R319): which samples feed which capture channels, their time tags, gaps, and what arms and ends captures. -/

namespace Sys2Proof.Machine

/-- The phase lane of a lane source (R313). -/
def laneOfSource (kind index : Nat) : Option Nat :=
  if kind = 1 ∨ kind = 5 then some (index / 8) else if 2 ≤ kind ∧ kind ≤ 4 then some (index / 2) else none

/-- R314: the delay of a source and whether its channel is uncalibrated; law and injected sources have no skew. -/
def State.sourceDelay (s : State) (kind index : Nat) : Int × Bool :=
  if 7 ≤ kind then (0, false)
  else match s.skew kind index with
    | none => (0, true)
    | some (d, lat) => (d, match laneOfSource kind index with
        | some n => decide (1 < ((s.lane n).latencyNs : Int) - lat ∨ ((s.lane n).latencyNs : Int) - lat < -1)
        | none => false)

/-- R327, R338: the memory share of a unit in entries: UNIT_MIB less the preamble of its record. -/
def State.unitCap (s : State) (u : Nat) : Nat :=
  (s.unitMib u * 1048576 - (144 + 48 * cfCount (s.unit u).cfg)) / 8

/-- R321: the profile has the source: a signal of an absent stage or phase, of an unused lane or of a DISABLED outlet is absent. -/
def State.sourcePresent (s : State) (kind index : Nat) : Bool :=
  match kind with
  | 1 => index < 128 && s.stPresent (index / 4) && index % 4 < s.stPhases (index / 4)
  | 2 | 3 | 4 => index < 32 && s.stPresent index
  | 5 => index < 128 && s.laneInUse (index / 8)
  | 6 => index < 16
  | 8 => index < 8
  | 7 =>
    let i := index % 1024
    (match index / 1024 with
      | 1 | 2 | 0x20 => i < 128 && s.stPresent (i / 4) && i % 4 < s.stPhases (i / 4)
      | 3 | 4 | 5 | 6 | 7 | 8 | 0x21 => i < 32 && s.stPresent i
      | 9 => i < 128 && s.laneInUse (i / 8)
      | 0x0A | 0x0B | 0x0C | 0x0D | 0x0E | 0x0F | 0x10 | 0x22 => i < 8 && s.outActive i
      | 0x11 => i < 16
      | 0x30 => i < 256
      | _ => false)
  | _ => false

/-- R340 cause GAP: channels whose first gap of the record has just begun. -/
def raiseNewGaps (u : Nat) (before : CapUnit) (s : State) : State :=
  forAll (List.range (cfCount before.cfg)) (fun k s =>
    when (!(before.chan k).gapped && ((s.unit u).chan k).gapped) (raise (40 + u) 7 u (toLE 1 k)) s) s

def CapUnit.storing (u : CapUnit) : Bool := u.state == .armed || u.state == .triggered || u.state == .calibrating

/-- R328: entries are held back for 2 × T_c + 2 µs at most, in 0.25 ns of device time. -/
def State.capLag (s : State) : Int := 4 * (s.now : Int) - (2 * s.periodQns + 8000 : Nat)

/-- Change a unit and raise the gaps that begin with it (R340). -/
def onUnit (u : Nat) (f : CapUnit → CapUnit) (s : State) : State := raiseNewGaps u (s.unit u) (s.modUnit u f)

/-- R328: what a unit has held back long enough. -/
def drainUnit (u : Nat) (s : State) : State :=
  if (s.unit u).state == .armed || (s.unit u).state == .triggered then onUnit u (·.drain (s.unitCap u) s.capLag) s else s

/-- R316: the source supplies no sample at a nominal time. -/
def acqGap (kind index : Nat) (nominal : Int) (s : State) : State :=
  let d := s.sourceDelay kind index
  forAll (List.range 8) (fun u s =>
    match (s.unit u).storing, (s.unit u).chanOf kind index with
    | true, some k => onUnit u (·.gap (s.unitCap u) k s.capLag nominal d.1) s
    | _, _ => s) s

/-- Feed one sample with its nominal time (0.25 ns) to every channel of its source; a frozen acquisition DMA stores nothing (R584). -/
def acqFeed (kind index : Nat) (nominal : Int) (x : Half) (s : State) : State :=
  if s.isFrozen 0x20 then acqGap kind index nominal s else
  let d := s.sourceDelay kind index
  forAll (List.range 8) (fun u s =>
    match (s.unit u).storing, (s.unit u).chanOf kind index with
    | true, some k =>
      onUnit u (fun v => v.feed (s.unitCap u) k s.capLag (if v.state == .calibrating then nominal else nominal - d.1) x d.2) s
    | _, _ => s) s

/-- Every source of a lane that some unit watches. -/
def laneSources (s : State) (n : Nat) : List (Nat × Nat) :=
  (s.acq.units.flatMap fun u => if u.storing then
      (List.range (cfCount u.cfg)).filterMap fun k =>
        let e := cfEntry u.cfg k
        if laneOfSource (chKind e) (chIndex e) == some n then some (chKind e, chIndex e) else none
    else []).eraseDups

/-- R313: nominal times and values of a lane source in one UPLINK whose period began at `b` (0.25 ns). -/
def laneSamples (s : State) (blocks : List Block) (b : Int) (kind index : Nat) : List (Int × Half) :=
  let tc := s.periodQns
  let eight := fun l : List Half => l.mapIdx fun n x => (b + (n * tc / 8 : Nat), x)
  match kind with
  | 1 => eight (phaseSamples blocks (index % 8))
  | 2 | 3 | 4 => eight (stageSamples blocks (index % 2) (kind - 2))
  | _ => [(b + (tc / 2 : Nat), half (blocks.getD (29 + index % 8 / 4) 0) (index % 4))]

/-- R313, R291: the samples of a latched UPLINK. -/
def acqLane (n : Nat) (blocks : List Block) (s : State) : State :=
  let b : Int := 4 * (s.lanes.boundary : Int) - s.periodQns
  forAll (laneSources s n) (fun src s =>
    forAll (laneSamples s blocks b src.1 src.2) (fun p s => acqFeed src.1 src.2 p.1 p.2 s) s) s

/-- R316: a lane supplies no samples for the period that ends at B_k. -/
def acqLaneGap (n : Nat) (s : State) : State :=
  let b : Int := 4 * (s.lanes.boundary : Int) - s.periodQns
  forAll (laneSources s n) (fun src s =>
    acqGap src.1 src.2 (if src.1 = 5 then b + (s.periodQns / 2 : Nat) else b) s) s

/-- Law signals that some unit watches. -/
def watchedSignals (s : State) : List Nat :=
  (s.acq.units.flatMap fun u => if u.storing then
      (List.range (cfCount u.cfg)).filterMap fun k =>
        let e := cfEntry u.cfg k
        if chKind e = 7 then some (chIndex e) else none
    else []).eraseDups

/-- Input kinds of R232. -/
def isInputSignal (id : Nat) : Bool := id / 1024 < 0x20

/-- R313: nominal time of an input kind, and of an output kind or AUX, in the present period. -/
def lawOpenTime (s : State) : Int := 4 * (s.lanes.boundary : Int) + 4000
def lawCloseTime (s : State) : Int := 4 * (s.lanes.boundary : Int) + s.periodQns - 4000

/-- R322 LAW_FLAG: the flag of a slot at the close of a window. -/
def slotFlag (sl : LawSlot) (sel : Nat) : Bool :=
  match sel with | 0 => sl.missed | 1 => sl.satBit | 2 => sl.ovBit | _ => sl.holdBit

/-- R322: LAW_FLAG triggers at the close of a window. -/
def acqLawFlags (s : State) : State :=
  let t := nsOf (lawCloseTime s)
  forAll (List.range 8) (fun u s =>
    let c := (s.unit u).cfg
    when (cfTrigType c == 5 && (s.unit u).waits && decide (((s.unit u).holdoffEnd : Int) ≤ t)
      && slotFlag (nth s.law.slots (cfParam c)) (cfSel c)) (fun s => s.modUnit u (·.fire t)) s) s

/-- R317, R340: raise SKEW_STALE for the channels uncalibrated now. -/
def raiseStale (u : Nat) (s : State) : State :=
  let c := (s.unit u).cfg
  let mask := ((List.range (cfCount c)).map fun k =>
    let e := cfEntry c k
    if (s.sourceDelay (chKind e) (chIndex e)).2 then 2 ^ k else 0).foldl (· + ·) 0
  when (mask != 0) (raise (40 + u) 4 u (toLE 2 mask)) s

/-- R340: a lane that retrains makes the skew of armed and triggered units stale. -/
def acqRetrained (n : Nat) (s : State) : State :=
  forAll (List.range 8) (fun u s =>
    let v := s.unit u
    when ((v.state == .armed || v.state == .triggered)
      && (List.range (cfCount v.cfg)).any fun k =>
          let e := cfEntry v.cfg k
          laneOfSource (chKind e) (chIndex e) == some n && (s.sourceDelay (chKind e) (chIndex e)).2) (raiseStale u) s) s

/-- Arm a unit with the configuration it holds. -/
def armUnit (u : Nat) (byInject : Bool) (s : State) : State :=
  raiseStale u (s.modUnit u (·.arm s.now byInject))

/-- R340: a capture ends in IDLE with a reason; a held record is discarded. -/
def abortUnit (u reason : Nat) (s : State) : State :=
  raise (40 + u) 3 u (toLE 1 reason) (s.modUnit u fun v =>
    { v.discard with state := .idle, trig := none, queue := [], entries := [], samples := [] })

/-- R317: INJECT arms the unit that its CAPTURE names; `f0` is F0 of a SINE (R334). -/
def acqInject (u f0 : Nat) (s : State) : State :=
  if 8 ≤ u || !((s.unit u).state == .idle || (s.unit u).state == .parked) then s
  else
    let parked := (s.unit u).state == .parked
    match (if parked then some (s.unit u).cfg else s.unitDefault u) with
    | some c => armUnit u true (s.modUnit u fun v => { v.discard with cfg := c, completed := 0, injF0 := f0 })
    | none => raise (40 + u) 3 u (toLE 1 5) s

/-- R317: the injection ends; a unit that waits for its first run goes to IDLE. -/
def acqInjectEnd (u : Nat) (s : State) : State :=
  when (u < 8 && (s.unit u).state == .armed && (s.unit u).byInject) (abortUnit u 3) s

/-- R317, R322: the first injected run is the trigger of the unit armed by its INJECT, at B_k + 1.0 µs. -/
def acqFirstRun (u : Nat) (s : State) : State :=
  let t := nsOf (lawOpenTime s)
  s.modUnit u fun v => if v.state == .armed && v.byInject && v.trig.isNone then { v with trig := some t } else v

/-- R317: a new profile takes effect. -/
def acqProfile (s : State) : State :=
  forAll (List.range 8) (fun u s => when ((s.unit u).state != .idle) (abortUnit u 2) s) s

/-- R317: a stage is energised during a calibration. -/
def acqEnergised (s : State) : State :=
  forAll (List.range 8) (fun u s => when ((s.unit u).state == .calibrating) (abortUnit u 4) s) s

/-- R88: some unit counts as armed. -/
def State.capturesArmed (s : State) : Bool := s.acq.units.any CapUnit.storing

/-- R327, R328: close the record of a triggered unit at `last`. -/
def closeRecord (u : Nat) (stopped : Bool) (last : Int) (s : State) : State :=
  let s0 := onUnit u (·.takeTo (s.unitCap u) last) s
  let bytes := (s0.unit u).close u s0.law.baseRate stopped (min last (s0.unit u).lastTime) (freeHalf s0)
  let s1 := useFree (s0.modUnit u fun v =>
    { v with state := .done, record := some bytes, recordCal := false, completed := v.completed + 1, queue := [], entries := [], samples := [] })
  raise (40 + u) 2 u (toLE 1 (u8 bytes 5) ++ toLE 4 bytes.length) s1

/-- R336: the longest decimated sample period among the channels, in 0.25 ns. -/
def State.calEdges (s : State) (c : List Byte) : Nat :=
  ((List.range (cfCount c)).map fun k =>
    let e := cfEntry c k
    let p := match chKind e with
      | 1 | 2 | 3 | 4 => s.periodQns / 8
      | 6 => 800
      | _ => s.periodQns
    p * chDecim e).foldl Max.max 0

/-- R317, R336: start a calibration. -/
def startCalibration (u : Nat) (cfg : List Byte) (s : State) : State :=
  let s1 := s.modUnit u fun v => { ({ v with cfg := cfg } : CapUnit).arm s.now false with state := .calibrating }
  emit (.calWave s.now (s.calEdges cfg)) s1

/-- R337: the calibration record and its event. -/
def closeCalibration (u : Nat) (s : State) : State :=
  let v := s.unit u
  let n := cfCount v.cfg
  let edges := s.calEdges v.cfg
  let delays := (List.range n).map fun k => v.calDelay edges k
  let failed := (delays.mapIdx fun k d => if d.isNone then 2 ^ k else 0).foldl (· + ·) 0
  let ents := (List.range n).flatMap fun k =>
    let e := cfEntry v.cfg k
    let lat := match laneOfSource (chKind e) (chIndex e) with | some l => (s.lane l).latencyNs | none => 0
    skewEntry (chKind e) (chIndex e) ((delays.getD k none).getD (-32768)) lat
  let t : Int := v.armedAt
  let off := 128 + 16 * n
  let bytes := recordHeader v u (64 + v.maskFlags (4 * t) (4 * (s.now : Int))) (cfTrigType v.cfg) t s.civil n (4 * t) (4 * (s.now : Int)) s.law.baseRate 0 off (off + 8 * n)
    ++ cfEntries v.cfg ++ ents
  let s1 := s.modUnit u fun v => { v with state := .done, record := some bytes, recordCal := true, completed := v.completed + 1, entries := [], samples := [] }
  if failed = 0 then raise (40 + u) 5 u (toLE 1 n) s1 else raise (40 + u) 6 u (toLE 2 failed) s1

end Sys2Proof.Machine
end

