-- ==== Sys2Proof/Machine/Descriptor.lean ====
section
/-! DEFINITION. What every descriptor goes through before its own effect: the fetch of one descriptor from its ring (R109, R115, R116, R129), the twelve checks (R118), tokens (R127), acceptance (R121) and mirroring (R545). -/

namespace Sys2Proof.Machine

/-- R121. -/
inductive Acceptance
  | unit | authority | token
  deriving DecidableEq, Repr

/-- One row of the opcode table (R120) with the reserved bytes and the ranges of its body (R122). -/
structure OpInfo where
  code : Nat
  /-- The class, or none for Any. -/
  cls : Option Nat
  setup : Bool := true
  oper : Bool := true
  safe : Bool := true
  acc : Acceptance := .unit
  /-- Step 3: the reserved bytes of the body are 0. -/
  rsvOk : Desc → Bool
  /-- Step 11. -/
  target : State → Desc → Bool
  /-- Step 12, and the RESULT of its failure. -/
  range : State → Desc → Bool := fun _ _ => true
  rangeResult : Desc → Nat := fun _ => 0

/-- What an operation answers: the state it leaves, and its STATUS and RESULT when it ends at once. -/
abbrev Answer := State × Option (Nat × Nat)

def answer (status result : Nat) (s : State) : Answer := (s, some (status, result))
def stOk : Nat := 0x00
def stPartial : Nat := 0x02
def stDeferred : Nat := 0x03
def stTarget : Nat := 0x08
def stRange : Nat := 0x09
def stNotIdle : Nat := 0x0F
def stProfile : Nat := 0x10
def stSlotActive : Nat := 0x11
def stState : Nat := 0x12
def stBuffer : Nat := 0x13
def stRevoked : Nat := 0x14
def stSlotsFull : Nat := 0x15
def stKeyInvalid : Nat := 0x16
def stBusy : Nat := 0x17
def stMeter : Nat := 0x18

/-! ### Ring positions (R108) -/

def ringSize (q : Sq) : Nat := 2 ^ q.sizeLog2

/-- The position one entry further. -/
def RingPos.next (size : Nat) (p : RingPos) : RingPos :=
  if p.index + 1 < size then { p with index := p.index + 1 } else { index := 0, wrap := !p.wrap }

/-- Position modulo twice the ring size. -/
def RingPos.lin (size : Nat) (p : RingPos) : Nat := p.index % size + (if p.wrap then size else 0)

/-- R122: the 2-byte HEAD format. -/
def RingPos.word (p : RingPos) : Nat := p.index + 4096 * b2n p.wrap

/-- The class of a ring. -/
def ringClass (n : Nat) : Nat := n / 4

/-- R115, R116: the ring enters Error and E113 is raised. -/
def ringError (n cause : Nat) (s : State) : State :=
  let q := s.sq n
  raise 113 cause n (toLE 2 q.head.word ++ toLE 2 q.expSeq.toNat) (s.modSq n fun q => { q with state := .error, hold := none, claim := none })

/-! ### Tokens (R127) -/

def million : Nat := 1000000

/-- The bucket gains RATE tokens per ms continuously and never holds more than BURST. -/
def refill (now : Nat) (q : Sq) : Sq :=
  { q with bucket := min (q.burst * million) (q.bucket + q.rate * (now - q.filledAt)), filledAt := now }

/-- R127: E112 with the refusals that no E112 has reported, at most once per ring per 1 ms. -/
def flushRefusals (n : Nat) (s : State) : State :=
  let q := s.sq n
  let quiet := match q.reportedAt with | some t => decide (t + million ≤ s.now) | none => true
  if q.refusals != 0 && quiet then
    raise 112 1 n (toLE 4 q.refusals) (s.modSq n fun q => { q with refusals := 0, reportedAt := some s.now })
  else s

/-- Count one refusal. -/
def refuseToken (n : Nat) (s : State) : State := s.modSq n fun q => { q with refusals := satAdd 32 q.refusals 1 }

/-! ### The checks (R118) -/

/-- R120: the defined opcodes. -/
def opcodeDefined (c : Nat) : Bool :=
  c ≤ 0x0B || (0x20 ≤ c && c ≤ 0x25) || (0x30 ≤ c && c ≤ 0x34) || (0x40 ≤ c && c ≤ 0x47)

def tagInFlight (s : State) (t : BitVec 7) : Bool := s.host.inflight.any fun i => i.tag == t

/-- R128: the tag range of the ring's class. -/
def tagRangeOk (s : State) (d : Desc) : Bool :=
  if ringClass d.ring = 0 then d.tag.toNat < s.host.c0Tags else s.host.c0Tags ≤ d.tag.toNat

def headerRsvOk (d : Desc) : Bool := d.rsv1 == 0 && d.rsv4 == 0 && d.rsv5 == 0 && d.rsv6 == 0

def stateOk (op : OpInfo) (s : State) : Bool :=
  match s.pwr.opState with
  | .setup => op.setup
  | .operate => op.oper
  | .safe => op.safe
  | .boot => false

/-- Step 3: the reserved bits of the header, and the body bytes that the opcode does not define; an undefined opcode defines none (R117). -/
def rsvBitsOk (op : OpInfo) (d : Desc) : Bool :=
  headerRsvOk d && (if opcodeDefined d.opcode.toNat then op.rsvOk d else d.body.all (· == 0))

/-- Steps 2 to 7 for a C0 descriptor, and 2 to 6 for the others: the status of the first failure. -/
def headChecks (op : OpInfo) (d : Desc) (s : State) : Option Nat :=
  if d.devAddr.toNat ≠ s.deviceAddr then some 0x07
  else if !rsvBitsOk op d then some 0x04
  else if !opcodeDefined d.opcode.toNat then some 0x05
  else if d.cls.toNat ≠ ringClass d.ring || (match op.cls with | some c => d.cls.toNat ≠ c | none => false) then some 0x06
  else if !tagRangeOk s d then some 0x0A
  else if ringClass d.ring = 0 && tagInFlight s d.tag then some 0x0B
  else none

/-- Steps 9 to 12: status and RESULT of the first failure. -/
def bodyChecks (op : OpInfo) (d : Desc) (s : State) : Option (Nat × Nat) :=
  if !stateOk op s then some (0x12, 0)
  else if op.acc == .authority && !s.acceptsA then some (0x0D, 0)
  else if op.acc == .token && !s.leaseHere then some (0x0C, s.holderAddr)
  else if !op.target s d then some (0x08, 0)
  else if !op.range s d then some (0x09, op.rangeResult d)
  else none

/-- R111, R115, R116: the descriptor leaves the ring. -/
def takeDesc (n : Nat) (s : State) : State :=
  s.modSq n fun q => { q with head := q.head.next (ringSize q), expSeq := q.expSeq + 1, hold := none, claim := none }

/-- The ring's fetcher can read one more descriptor. -/
def fetchReady (s : State) (n : Nat) : Bool :=
  let q := s.sq n
  (q.state == .enabled || q.state == .armed) && !s.isFrozen n && q.hold.isNone && q.waiting.isNone && q.head != q.tail

/-- R85, R137: the rings run with the PCIe clock up, and of the rings that can fetch, the one with the lowest number comes first. -/
def canFetch (s : State) (n : Nat) : Bool :=
  n < 16 && s.host.ringsRunning && s.domainUp 6 && fetchReady s n && (List.range n).all fun m => !fetchReady s m

/-! ### Windows (R582) -/

/-- R582: the host buffers of the descriptors in flight that `p` selects cover a stretch of host memory. -/
def inWindow (s : State) (p : InFlight → Bool) (addr len : Nat) : Bool :=
  s.host.inflight.any fun i => p i && i.bufs.any fun b => b.1 ≤ addr && addr + len ≤ b.1 + b.2

/-- R582: a ring fetcher's access to a host buffer lies within a window of a descriptor that it carries. -/
def fetcherWindow (s : State) (n addr len : Nat) : Bool := inWindow s (·.ring == n) addr len

/-- R583: the fetcher of the ring or the crypto engine issues the stray access of a descriptor: host memory outside the windows that are open. -/
def strayOutside (s : State) (d : Desc) (a : Access) : Bool :=
  (a.master == d.ring || (a.master == 0x23 && (d.opcode == 0x33 || d.opcode == 0x34)))
    && match a.target with
      | .hostMemory addr len => !inWindow s (fun i => i.ring == d.ring && i.tag == d.tag) addr len
      | _ => false

/-! ### Execution -/

/-- R583, R614: a refused access for the descriptor freezes its master; the descriptor completes with BUFFER_FAULT at the release. After a refused read the operation takes no effect; after a refused write what it did inside the device stays. -/
def violatedDesc (a : Access) (eff : Desc → State → Answer) (d : Desc) (s : State) : State :=
  let held := fun s => startOp d (.violated a.master) s
  let s1 :=
    if !a.write then held s
    else
      let r := muted (fun s => (eff d s).1) s
      if tagInFlight r d.tag then markViolated a.master (some d.tag) r else held r
  freezeMaster a.master (if a.write then 2 else 1) a.addr s1

/-- R545: effect ticks begin at least 20 µs after execution: PERIOD_COUNT of the first control period boundary that late. -/
def State.nextPeriodCount (s : State) : Nat :=
  if !s.lanes.ticking then 0
  else s.pair.periodCount.toNat + (if s.periodQns = 0 then 0 else ceilDiv ((s.now + 20000 - s.lanes.boundary) * 4) s.periodQns)

/-- R545: PERIOD_COUNT of the first allocation boundary that late. -/
def State.nextAllocCount (s : State) : Nat := ceilDiv s.nextPeriodCount s.allocPeriods * s.allocPeriods

/-- R545: the effect tick: the allocator boundary for caps, policies and profiles, the law window for injections, the generator tick for halts and resumes, and the request queue of Caddis, which has no grid, for the others. -/
def State.effectTick (s : State) (opcode : Nat) : EffectTick :=
  if opcode = 0x06 ∨ opcode = 0x22 ∨ opcode = 0x23 then .period s.nextAllocCount
  else if opcode = 0x45 then .period s.nextPeriodCount
  else if 0x07 ≤ opcode ∧ opcode ≤ 0x0A then .time (ceilDiv (s.now + 20000) 100000 * 100000)
  else .time (s.now + 20000)

/-- R545: mirror an executed A or T descriptor. -/
def mirrorDesc (d : Desc) (status : Nat) (s : State) : State :=
  sendRecord (.descriptor d status (s.effectTick d.opcode.toNat)) s

/-- R545: the descriptor waits for its effect tick. -/
def awaitTick (d : Desc) (s : State) : State :=
  s.modPair fun p => { p with effects := p.effects ++ [(s.effectTick d.opcode.toNat, d)] }

/-- R545: the opcodes that both units apply at the effect tick. The others act at execution: SELECT_PROFILE locks the outlets, CAN_SEND and PLC_SEND send on the holder only, and METER_REQUEST travels as a CADDIS record (R475). -/
def atTick (opcode : Nat) : Bool := (6 ≤ opcode && opcode ≤ 0x0A) || (0x20 ≤ opcode && opcode ≤ 0x22) || opcode == 0x45

/-- R119, R121, R545: execution of an admitted descriptor that passed every check. An A or T descriptor of a formed pair is mirrored and takes its effect at the effect tick. -/
def performDesc (op : OpInfo) (eff : Desc → State → Answer) (d : Desc) (s : State) : State :=
  let r := eff d s
  let shared := op.acc != .unit && s.paired
  match r.2 with
  | none => when shared (mirrorDesc d 0) r.1
  | some (st, res) =>
    if !shared || !(st == stOk || st == stDeferred) then completeDesc d st res r.1
    else if atTick d.opcode.toNat then completeDesc d st res (awaitTick d (mirrorDesc d st s))
    else mirrorDesc d st (completeDesc d st res r.1)

/-- R97: the reads of a descriptor's buffers. -/
def readBuffers (d : Desc) (s : State) : State :=
  forAll ((descBuffers d).filter fun b => !b.2.2) (fun b s => hostReads b.1 b.2.1 s) s

def executeDesc (op : OpInfo) (eff : Desc → State → Answer) (d : Desc) (s0 : State) : State :=
  let s := readBuffers d s0
  match d.stray with
  | some a => if strayOutside (startOp d .waiting s) d a then violatedDesc a eff d s else performDesc op eff d s
  | none => performDesc op eff d s

/-- R118: the checks after the token, and execution. -/
def admitted (op : OpInfo) (eff : Desc → State → Answer) (d : Desc) (s : State) : State :=
  match bodyChecks op d s with
  | some (st, res) => completeDesc d st res s
  | none => executeDesc op eff d s

/-- Earlier descriptors of the ring are in flight. -/
def ringBusy (s : State) (n : Nat) (tag : BitVec 7) : Bool := s.host.inflight.any fun i => i.ring == n && i.tag != tag

/-- R117: an admitted descriptor with BARRIER waits, holding its tag, while an earlier one of its ring is in flight. -/
def beginOrWait (op : OpInfo) (eff : Desc → State → Answer) (d : Desc) (s : State) : State :=
  if d.barrier && ringBusy s d.ring d.tag then (startOp d .waiting s).modSq d.ring fun q => { q with waiting := some d }
  else admitted op eff d s

/-- R117, R136: the descriptor that waited begins once every earlier one has completed; after a PCIe reset it writes nothing. -/
def beginWaiting (op : OpInfo) (eff : Desc → State → Answer) (d : Desc) (s : State) : State :=
  if ringBusy s d.ring d.tag then s
  else
    let silenced := s.host.inflight.any fun i => i.tag == d.tag && i.discard
    let s1 := (s.modHost fun h => { h with inflight := h.inflight.filter fun i => i.tag != d.tag }).modSq d.ring fun q => { q with waiting := none }
    (if silenced then muted else id) (admitted op eff d) s1

/-- Step 8 (R127): a C0 descriptor takes one whole token or is refused. -/
def throughToken (op : OpInfo) (eff : Desc → State → Answer) (d : Desc) (s : State) : State :=
  if ringClass d.ring ≠ 0 then beginOrWait op eff d s
  else
    let s1 := s.modSq d.ring (refill s.now)
    if (s1.sq d.ring).bucket < million then completeDesc d 0x01 0 (refuseToken d.ring s1)
    else beginOrWait op eff d (s1.modSq d.ring fun q => { q with bucket := q.bucket - million })

/-- One descriptor, read at the head of its ring (R109), or one that has waited for its BARRIER. A row takes only its own opcode and undefined ones; a ring that cannot fetch leaves everything as it is. -/
def runDesc (op : OpInfo) (eff : Desc → State → Answer) (d : Desc) (s : State) : State :=
  if opcodeDefined d.opcode.toNat && d.opcode.toNat != op.code then s
  else if (s.sq d.ring).waiting == some d then beginWaiting op eff d s
  else if !canFetch s d.ring then s
  else if d.seq ≠ (s.sq d.ring).expSeq then ringError d.ring 1 s
  else
    match headChecks op d s with
    | some st => completeDesc d st 0 (takeDesc d.ring s)
    | none =>
      if tagInFlight s d.tag then
        raise 115 1 d.ring (toLE 1 d.tag.toNat) (s.modSq d.ring fun q => { q with hold := some d.tag })
      else throughToken op eff d (takeDesc d.ring s)

/-! ### Targets (R117) -/

def kindNone (_ : State) (d : Desc) : Bool := d.kind == 0 && d.index == 0
def kindOutlet (_ : State) (d : Desc) : Bool := d.kind == 1 && d.ix < 8
def kindStage (_ : State) (d : Desc) : Bool := d.kind == 2 && d.ix < 32
def kindBelow (k n : Nat) (_ : State) (d : Desc) : Bool := d.kind.toNat == k && d.ix < n

end Sys2Proof.Machine
end

