-- ==== Sys2Proof/Machine/Acquisition.lean ====
section
/-! DEFINITION. Meanings of the acquisition commands (R315 to R337). -/

namespace Sys2Proof.Machine

/-- R322: the holdoff ends; an IMMEDIATE trigger fires at that instant. -/
def holdoffEndEffect (u : Nat) (s : State) : State :=
  if (s.unit u).waits && cfTrigType (s.unit u).cfg == 0 && (s.unit u).holdoffEnd ≤ s.now then s.modUnit u fun v => v.fireNow v.holdoffEnd else s

def execHoldoffEnd (unit : Nat) (s : State) : Host.Outcome State Fault Refusal := live (holdoffEndEffect unit) s

/-- R325, R341: ACQ_TRIG_OUT is high for 1 µs; units that fire together give one pulse. -/
def trigPulse (s : State) : State :=
  (when s.acq.pulseUntil.isNone (emit (.contact 1 true)) s).modAcq fun a => { a with pulseUntil := some (s.now + 1000) }

/-- R317, R325: the trigger that has fired takes effect: TRIGGERED, its event, and the pulse on ACQ_TRIG_OUT. -/
def captureTriggerEffect (u : Nat) (s : State) : State :=
  let s0 := drainUnit u s
  let v := s0.unit u
  match v.state, v.trig with
  | .armed, some t =>
    let s1 := raise (40 + u) 1 u (toLE 1 (if v.byInject then 0xFF else cfTrigType v.cfg)) (s0.modUnit u (·.trigger (s.unitCap u) t s.civil))
    when (cfTrigOut v.cfg) trigPulse s1
  | _, _ => s0

def execCaptureTrigger (unit : Nat) (s : State) : Host.Outcome State Fault Refusal := live (captureTriggerEffect unit) s

/-- R322: a qualified edge counts and fires the EXTERNAL triggers of its direction. -/
def externalEdgeEffect (rising : Bool) (time : Nat) (s : State) : State :=
  forAll (List.range 8) (fun u s =>
    let c := (s.unit u).cfg
    when (cfTrigType c == 7 && (cfSlope c == 2 || cfSlope c == (if rising then 0 else 1)) && (s.unit u).holdoffEnd ≤ time)
      (fun s => s.modUnit u (·.fire time)) s)
    (s.modAcq fun a => { a with edges := a.edges + 1 })

def execExternalTriggerEdge (rising : Bool) (time : Nat) (s : State) : Host.Outcome State Fault Refusal :=
  live (externalEdgeEffect rising time) s

/-- R317: the record of a triggered unit is complete once the entries up to its LAST_TIME are written. -/
def captureDoneEffect (u : Nat) (s : State) : State :=
  let s0 := drainUnit u s
  let v := s0.unit u
  when (v.state == .triggered && (v.full || v.lastTime ≤ v.horizon s.capLag)) (closeRecord u false v.lastTime) s0

def execCaptureDone (unit : Nat) (s : State) : Host.Outcome State Fault Refusal := live (captureDoneEffect unit) s

/-- R336: the end of the calibration's last period. -/
def State.calOver (s : State) (u : Nat) : Bool :=
  let v := s.unit u
  v.state == .calibrating && decide (4 * v.armedAt + s.calEdges v.cfg * calSpacing ≤ 4 * s.now)

def execCalDone (unit : Nat) (s : State) : Host.Outcome State Fault Refusal := live (fun s => when (s.calOver unit) (closeCalibration unit) s) s

/-- R315: a code of 0x8000 is delivered as 0x8001. -/
def deliver (x : Half) : Half := if x == 0x8000#16 then 0x8001#16 else x

/-- R315, R339: one conversion of all 16 local analog inputs. -/
def acqConversionEffect (codes : List Half) (s : State) : State :=
  let xs := (List.range 16).map fun i => deliver (codes.getD i 0)
  let ovr := (List.range 16).map fun i => if xs.getD i 0 == 0x7FFF#16 || xs.getD i 0 == 0x8001#16 then 2 ^ i else 0
  let t := s.now / 200 * 200
  let s1 := s.modAcq fun a => { a with
    last := xs, ovr := a.ovr ||| BitVec.ofNat 16 (ovr.foldl (· + ·) 0)
    recent := if s.lanes.ticking then a.recent.filter (fun p => 4 * s.lanes.boundary ≤ 4 * p.1 + s.periodQns) ++ [(t, xs)] else [] }
  forAll (List.range 16) (fun i s => acqFeed 6 i (4 * t : Nat) (xs.getD i 0) s) s1

def execAcqConversion (codes : List Half) (s : State) : Host.Outcome State Fault Refusal := live (fun s => when (s.domainUp 9) (acqConversionEffect codes) s) s

/-! ### Descriptors -/

def captureInfo : OpInfo :=
  { code := 0x43, cls := some 3, setup := false
    rsvOk := fun d => restZero d [(16, 10)]
    target := fun s d => kindBelow 9 8 s d && 0 < s.unitMib d.ix
    range := fun _ d => 16 ≤ d.h 24 && d.h 24 ≤ 4096 && d.q 16 % 8 == 0 }

/-- R321: the whole configuration is in range, of present sources, without repeats. -/
def configOk (s : State) (c : List Byte) : Bool :=
  cfRangeOk c && cfDistinct c && (List.range (cfCount c)).all fun k => s.sourcePresent (chKind (cfEntry c k)) (chIndex (cfEntry c k))

/-- R318: CALIBRATE needs idle outlets and ACTIVE lanes. -/
def calibrateOk (s : State) (c : List Byte) : Bool :=
  s.allIdle && (List.range (cfCount c)).all fun k =>
    match laneOfSource (chKind (cfEntry c k)) (chIndex (cfEntry c k)) with
    | some n => (s.lane n).state == .active
    | none => true

/-- R321: a DISARM block is checked for MODE and RSV bytes only. -/
def disarmOk (c : List Byte) : Bool := u8 c 0x17 == 0 && allZero c 0x34 12

/-- The configuration block that the descriptor names. -/
def configOf (d : Desc) : Option (List Byte) := d.input.map (·.take (d.h 24))

/-- R317: CAPTURE_ARM with MODE SINGLE or REPEAT. -/
def captureArmOp (d : Desc) (s : State) : Answer :=
  match configOf d with
  | none => answer stBuffer 0 s
  | some c =>
    if (s.unit d.ix).storing then answer stBusy 0 s
    else if 1 < cfMode c || !configOk s c then answer stRange 0 s
    else
      let s1 := s.modUnit d.ix fun v => { v.discard with cfg := c, completed := 0, byInject := false }
      answer stOk 0 (if cfStart c = 1 then s1.modUnit d.ix fun v => { v with state := .parked } else armUnit d.ix false s1)

def execCaptureArm (d : Desc) (s : State) : Host.Outcome State Fault Refusal := live (runDesc captureInfo captureArmOp d) s

/-- R317, R336: CAPTURE_ARM with MODE CALIBRATE. -/
def captureCalibrateOp (d : Desc) (s : State) : Answer :=
  match configOf d with
  | none => answer stBuffer 0 s
  | some c =>
    if (s.unit d.ix).storing then answer stBusy 0 s
    else if cfMode c ≠ 2 || !configOk s c then answer stRange 0 s
    else if !calibrateOk s c then answer stState 0 s
    else answer stOk 0 (startCalibration d.ix c (s.modUnit d.ix fun v => { v.discard with completed := 0 }))

def execCaptureCalibrate (d : Desc) (s : State) : Host.Outcome State Fault Refusal := live (runDesc captureInfo captureCalibrateOp d) s

/-- R317, R341: CAPTURE_ARM with MODE DISARM; the record of a REPEAT unit in DONE is discarded. -/
def captureDisarmOp (d : Desc) (s : State) : Answer :=
  match configOf d with
  | none => answer stBuffer 0 s
  | some c =>
    if cfMode c ≠ 3 || !disarmOk c then answer stRange 0 s
    else answer stOk 0 (match (s.unit d.ix).state with
      | .parked | .armed | .calibrating => abortUnit d.ix 1 s
      | .triggered => closeRecord d.ix true (4 * (s.now : Int)) s
      | .done => if cfMode (s.unit d.ix).cfg == 1 then s.modUnit d.ix fun v => { v.discard with state := .idle } else s
      | .idle => s)

def execCaptureDisarm (d : Desc) (s : State) : Host.Outcome State Fault Refusal := live (runDesc captureInfo captureDisarmOp d) s

def captureReadInfo : OpInfo :=
  { code := 0x44, cls := some 3, rsvOk := fun d => restZero d [(12, 4), (16, 12)]
    target := kindBelow 9 8
    range := fun _ d => 32 ≤ d.w 24 && d.w 24 ≤ 16777216 && d.q 16 % 8 == 0 }

/-- R317: a REPEAT record whose last byte has been returned makes way for the next. -/
def afterRead (u : Nat) (s : State) : State :=
  let v := s.unit u
  if v.state == .done && cfMode v.cfg == 1 && !v.recordCal && (cfRecLimit v.cfg == 0 || v.completed < cfRecLimit v.cfg) then
    armUnit u false (s.modUnit u CapUnit.discard)
  else s

/-- R332. -/
def captureReadOp (d : Desc) (s : State) : Answer :=
  match (s.unit d.ix).record with
  | none => answer stState 0 s
  | some r =>
    let off := d.w 12
    if r.length ≤ off then answer stRange 0 s
    else
      let part := (r.drop off).take (d.w 24)
      let s1 := writeBuffer (d.q 16) part s
      let s2 := if off + part.length = r.length then afterRead d.ix s1 else s1
      answer (if part.length < d.w 24 then stPartial else stOk) part.length s2

def execCaptureRead (d : Desc) (s : State) : Host.Outcome State Fault Refusal := live (runDesc captureReadInfo captureReadOp d) s

end Sys2Proof.Machine
end

