-- ==== Sys2Proof/Machine/SwitchOps.lean ====
section
/-! DEFINITION. The switch die: load profiles (R564), conduction (R561), inrush windows (R565), commands and authority (R574, R575). -/

namespace Sys2Proof.Machine

def State.modSw (f : Switch → Switch) (s : State) : State := { s with sw := f s.sw }
def State.modSwCh (n : Nat) (f : SwCh → SwCh) (s : State) : State := { s with sw := { s.sw with ch := upd s.sw.ch n f } }
def State.swCh (s : State) (n : Nat) : SwCh := nth s.sw.ch n

/-! ### The SWITCH section (R577) and ganging (R563): the die runs by its own copy (R68) -/

def State.ganged (s : State) (n : Nat) : Bool := bitOf (u8 s.sw.cfg 0) (n / 2)
def State.swInGate (s : State) (n : Nat) : Bool := bitOf (u8 s.sw.cfg (0x11 + 8 * n)) 0
def State.swFine (s : State) (n : Nat) : Bool := bitOf (u8 s.sw.cfg (0x11 + 8 * n)) 1
def State.swRetryMax (s : State) (n : Nat) : Nat := u8 s.sw.cfg (0x12 + 8 * n)
def State.swRetryNs (s : State) (n : Nat) : Nat := 1000000 * u16 s.sw.cfg (0x14 + 8 * n)

/-- The controller's view: the PROFILE in force of the active profile. -/
def State.swProfile (s : State) (n : Nat) : Nat := u8 (s.sec 9) (0x10 + 8 * n)

/-- The die takes the SWITCH section of the active profile. -/
def loadSwitch (s : State) : State := s.modSw fun w => { w with cfg := s.sec 9 }

/-- R564: INRUSH in 0.1 A, INRUSH_MS, LIMIT in 0.1 A, SHORT_US, OPEN_UA, OPEN_MS, REARM_MS of a profile value. -/
def loadProfile (sec : List Byte) (p : Nat) : List Nat :=
  match p with
  | 1 => [120, 50, 60, 100, 20000, 500, 200]
  | 2 => [30, 2, 50, 50, 2000, 200, 50]
  | 3 => [120, 500, 60, 500, 50000, 1000, 500]
  | 4 => [60, 10, 60, 100, 50000, 1000, 100]
  | 5 => [40, 20, 50, 100, 20000, 500, 100]
  | 6 => [120, 5, 60, 100, 0, 0, 20]
  | 7 | 8 => (List.range 7).map fun k => u16 sec (0x70 + 16 * (p - 7) + 2 * k)
  | _ => []

/-- Value `k` of the load profile of a channel. -/
def State.swValue (s : State) (n k : Nat) : Nat := (loadProfile s.sw.cfg (u8 s.sw.cfg (0x10 + 8 * n))).getD k 0
def State.swInrushNs (s : State) (n : Nat) : Nat := 1000000 * s.swValue n 1
/-- R563: the limit doubles on a ganged pair; in mA. -/
def State.swLimitMa (s : State) (n : Nat) : Nat := 100 * s.swValue n 2 * (1 + b2n (s.ganged n))
def State.swShortNs (s : State) (n : Nat) : Nat := 1000 * s.swValue n 3
def State.swOpenUa (s : State) (n : Nat) : Nat := s.swValue n 4
def State.swOpenNs (s : State) (n : Nat) : Nat := 1000000 * s.swValue n 5
def State.swRearmMs (s : State) (n : Nat) : Nat := s.swValue n 6

/-- R560: the hard trip in mA. -/
def State.swTripMa (s : State) (n : Nat) : Nat := 20000 * (1 + b2n (s.ganged n))

/-- R563: the channel that leads: the even one of a ganged pair. -/
def State.swLead (s : State) (n : Nat) : Nat := if s.ganged n then n / 2 * 2 else n

/-- R563: the odd channel of a ganged pair takes no command and no SW_IN. -/
def State.swFollows (s : State) (n : Nat) : Bool := s.ganged n && n % 2 == 1

/-- Change a channel, and its partner when it is ganged. -/
def State.modGang (n : Nat) (f : SwCh → SwCh) (s : State) : State :=
  if s.ganged n then (s.modSwCh (n / 2 * 2) f).modSwCh (n / 2 * 2 + 1) f else s.modSwCh n f

/-! ### Conduction (R561) and inrush -/

/-- R561: the channel conducts. -/
def State.conducts (s : State) (n : Nat) : Bool :=
  let c := s.swCh n
  let lead := s.swCh (s.swLead n)
  c.enabled && !s.sw.lost && (!s.swInGate n || lead.swIn) && !c.short && !c.latch && !c.exhausted

/-- Open an inrush window on a channel that starts to conduct. -/
def openInrush (n : Nat) (s : State) : State :=
  if s.conducts n then s.modGang n fun c => { c with inrush := true, fresh := false, windowAt := s.now, conductAt := s.now } else s

/-- An event of the die reaches the controller only while its logic runs. -/
def dieRaise (src cause inst : Nat) (payload : List Byte) (s : State) : State :=
  if s.awake && !s.pwr.undefinedLogic then raise src cause inst payload s else s

/-- The die takes an enable command (R575, R576). -/
def setEnable (n : Nat) (on : Bool) (s : State) : State :=
  if s.sw.frozen || s.sw.lost || s.swFollows n || (on && s.swProfile n == 0) then s
  else if on then
    if (s.swCh n).enabled then s else openInrush n (s.modGang n fun c => { c with enabled := true, fresh := true })
  else s.modGang n fun c => { c with enabled := false, fresh := false, inrush := false, retrying := false }

/-- R575: a unit with authority drives its commanded state; one that pre-drives drives only on. -/
def driveChannel (n : Nat) (s : State) : State :=
  if s.authority || (s.sw.preDrive && (s.swCh n).commanded) then setEnable n (s.swCh n).commanded s else s

def driveAll (s : State) : State := forAll (List.range 12) driveChannel s

/-- R575: drive every channel off, while the unit still holds AUTH. -/
def driveAllOff (s : State) : State := forAll (List.range 12) (setEnable · false) s

/-- R575: the taking side of a handover drives on what its commanded state has on. -/
def preDriveOn (s : State) : State :=
  forAll (List.range 12) (fun n s => if (s.swCh n).commanded then setEnable n true s else s)
    (s.modSw fun w => { w with preDrive := true })

/-- R574: a coolant loop names the channel as PUMP_SW or FAN_SW. -/
def State.loopOwned (s : State) (n : Nat) : Bool :=
  s.hasSec 6 && (List.range 8).any fun l => u8 (s.sec 6) (0x71 + 16 * l) == n || u8 (s.sec 6) (0x72 + 16 * l) == n

/-- Set a commanded state and drive it. -/
def commandChannel (n : Nat) (on : Bool) (s : State) : State :=
  driveChannel n (s.modSwCh n fun c => { c with commanded := on })

/-- R573. -/
def State.swFlt (s : State) : Bool :=
  s.sw.vauxLow || s.sw.lost || s.sw.ch.any fun c => c.short || c.latch || c.exhausted

/-- R569: from when RETRY_MS counts once the latch has cleared: anew when a retry fell due while it was set. -/
def retryBase (retryNs now : Nat) (c : SwCh) : Nat := if c.retryFrom + retryNs ≤ now then now else c.retryFrom

/-- R568, R569: CLEAR at a junction temperature; a channel that it lets conduct again starts with a window. -/
def clearChannel (n : Nat) (tjDc : Int) (s : State) : State :=
  if !s.authority || s.sw.frozen || s.sw.lost then s
  else
    let c := s.swCh n
    let free := c.latch && decide (tjDc < 1300)
    let s1 := s.modGang n fun c => { c with
      tjDc := tjDc, latch := c.latch && !free, exhausted := false, retries := 0, retrying := false
      retryFrom := if free then retryBase (s.swRetryNs n) s.now c else c.retryFrom }
    let s2 := when free (dieRaise 106 0 n (toLEi 2 tjDc)) s1
    when (free || c.exhausted) (openInrush n) s2

/-- R563, R574: a write of SWC_CHn_CMD; OFF decides over ON. -/
def swcWrite (n : Nat) (value : Nat) (tjDc : Int) (s : State) : State :=
  if s.loopOwned n || s.swProfile n == 0 then s.modSw fun w => { w with ignored := satAdd 16 w.ignored 1 }
  else if s.swFollows n then s
  else
    let s1 := when (bitOf value 2) (clearChannel n tjDc) s
    if bitOf value 1 then commandChannel n false s1
    else if bitOf value 0 then commandChannel n true s1 else s1

/-- R576: the controller sends no heartbeat from now on. -/
def stopBeat (s : State) : State := s.modSw fun w => { w with beatLost := some (noneTo s.now w.beatLost) }

/-- R576: at Setup the controller adopts the enable latches and ends the freeze, with E109 and the faults that stand. -/
def adoptSwitch (s : State) : State :=
  let s0 := when s.sw.lostPending (fun s => raise 108 2 0xFF (toLE 2 s.sw.vauxMv) (s.modSw fun w => { w with lostPending := false })) s
  let s1 := s0.modSw fun w => { w with beatLost := none, ch := w.ch.map fun c => { c with commanded := c.enabled } }
  if !s1.sw.frozen then s1
  else
    let ms := (s1.now - s1.sw.frozenAt) / 1000000
    let s2 := raise 109 1 0xFF (toLE 4 ms) (s1.modSw fun w => { w with frozen := false })
    forAll (List.range 12) (fun n s =>
      let c := s.swCh n
      when (c.exhausted && !s.swFollows n) (raise 107 1 n (toLE 1 (s.swRetryMax n)))
        (when (c.latch && !s.swFollows n) (raise 106 1 n (toLEi 2 c.tjDc))
          (when (c.short && !s.swFollows n) (raise 105 1 n (toLE 1 c.retries))
            (when (c.openLoad && !s.swFollows n) (raise 104 1 n (toLE 2 c.code ++ toLE 1 (b2n c.fine))) s)))) s2

end Sys2Proof.Machine
end

