-- ==== Sys2Proof/Machine/Thermal64.lean ====
section
/-! DEFINITION. Binary64 arithmetic with round-to-nearest-even on rationals (R345), the ladder step, the forecast and the bisection for capacity (R356, R357), and RTD conversion (R346). -/

namespace Sys2Proof.Machine

def pow2 (i : Int) : Rat := if 0 ≤ i then ((2 ^ i.toNat : Nat) : Rat) else 1 / ((2 ^ (-i).toNat : Nat) : Rat)

/-- The exponent e with 2^e ≤ a < 2^(e+1), for a > 0. -/
def exponentOf (a : Rat) : Int :=
  let e : Int := (Nat.log2 a.num.toNat : Int) - (Nat.log2 a.den : Int)
  if a < pow2 e then e - 1 else if pow2 (e + 1) ≤ a then e + 1 else e

/-- The nearest integer, ties to even, of a non-negative rational. -/
def nearestEven (a : Rat) : Nat :=
  let f := a.floor.toNat
  let d := a - (f : Rat)
  if d < 1 / 2 then f else if 1 / 2 < d then f + 1 else if f % 2 = 0 then f else f + 1

/-- R345: round to binary64, round-to-nearest-even; the thermal quantities stay within its normal range. -/
def rnd (r : Rat) : Rat :=
  if r = 0 then 0
  else
    let a := ratAbs r
    let u := pow2 (exponentOf a - 52)
    let m : Rat := (nearestEven (a / u) : Nat)
    if r < 0 then -(m * u) else m * u

def fadd (a b : Rat) : Rat := rnd (a + b)
def fsub (a b : Rat) : Rat := rnd (a - b)
def fmul (a b : Rat) : Rat := rnd (a * b)
def fdiv (a b : Rat) : Rat := rnd (a / b)

/-- The binary64 square root: enough digits that what is cut off cannot change the rounding. -/
def fsqrt (a : Rat) : Rat :=
  if a ≤ 0 then 0
  else
    let k := 56 - exponentOf a / 2
    let x := a * pow2 k * pow2 k
    let q := isqrtFrom 58 x.floor.toNat 0
    let more : Nat := if ((q * q : Nat) : Rat) = x then 0 else 1
    rnd (((2 * q + more : Nat) : Rat) / (2 * pow2 k))

def ratAt (l : List Rat) (i : Nat) : Rat := l.getD i 0

/-- Forward elimination of the tridiagonal system of R345: the modified upper and right-hand coefficients. -/
def ladderForward (g : Nat → Rat) (k : Nat → Rat) (rhs : Nat → Rat) : Nat → Nat → Rat → Rat → List (Rat × Rat)
  | 0, _, _, _ => []
  | n + 1, i, up, y =>
    -- node i: (k i + g (i − 1) + g i) t_i − g (i − 1) t_{i−1} − g i t_{i+1} = rhs i
    let below := if i = 0 then 0 else g (i - 1)
    let den := fsub (fadd (fadd (k i) below) (g i)) (fmul below up)
    let up' := fdiv (g i) den
    let y' := fdiv (fadd (rhs i) (fmul below y)) den
    (up', y') :: ladderForward g k rhs n (i + 1) up' y'

/-- Back substitution from the last node. -/
def ladderBack : List (Rat × Rat) → Rat → List Rat
  | [], _ => []
  | [c], tref => [fadd c.2 (fmul c.1 tref)]
  | c :: rest, tref =>
    let r := ladderBack rest tref
    fadd c.2 (fmul c.1 (ratAt r 0)) :: r

/-- R345: one implicit step of h seconds from `theta` with loss P; resistances in K/W, capacities in J/K. -/
def ladderStep (r c : List Rat) (h p tref : Rat) (theta : List Rat) : List Rat :=
  let n := theta.length
  let g := fun i => fdiv 1 (ratAt r i)
  let k := fun i => fdiv (ratAt c i) h
  let rhs := fun i => fadd (fmul (k i) (ratAt theta i)) (if i = 0 then p else 0)
  ladderBack (ladderForward g k rhs n 0 0 0) tref

/-- R356: run `n` forecast steps with a loss that follows θ1; the index of the first step at or over the limit. -/
def forecast (step : Rat → List Rat → List Rat) (loss : Rat → Rat) (lim : Rat) : Nat → Nat → List Rat → Option Nat
  | 0, _, _ => none
  | n + 1, i, th =>
    let th' := step (loss (ratAt th 0)) th
    if lim ≤ ratAt th' 0 then some (i + 1) else forecast step loss lim n (i + 1) th'

/-- R357: the largest k below 2^b + k₀ that is permitted, digit by digit. -/
def largestK (ok : Nat → Bool) : Nat → Nat → Nat
  | 0, k => k
  | b + 1, k => if k + 2 ^ b ≤ 4096 && ok (k + 2 ^ b) then largestK ok b (k + 2 ^ b) else largestK ok b k

/-! ### RTD conversion (R346) -/

/-- Callendar–Van Dusen resistance in Ω of a PT1000 at t in 0.1 °C. -/
def rtdOhm (dc : Int) : Rat :=
  let t : Rat := (dc : Rat) / 10
  let a : Rat := 39083 / 10000000
  let b : Rat := -5775 / 10000000000
  let c : Rat := if dc < 0 then -4183 / 1000000000000000 else 0
  1000 * (1 + a * t + b * t * t + c * (t - 100) * t * t * t)

/-- The largest temperature below 2^k + t₀ whose resistance does not exceed r, digit by digit, in 0.1 °C above −200 °C. -/
def rtdSearch (r : Rat) : Nat → Int → Int
  | 0, t => t
  | k + 1, t => if rtdOhm (t + (2 ^ k : Nat)) ≤ r then rtdSearch r k (t + (2 ^ k : Nat)) else rtdSearch r k t

/-- R346: temperature in 0.1 °C of a resistance in mΩ, to the nearer step. -/
def rtdTemp (mohm : Nat) : Int :=
  let r : Rat := (mohm : Rat) / 1000
  let t := rtdSearch r 13 (-2000)
  if rtdOhm (t + 1) - r < r - rtdOhm t then t + 1 else t

end Sys2Proof.Machine
end

