-- ==== Sys2Proof/Machine/ThermalOps.lean ====
section
/-! DEFINITION. Thermal objects (R342 to R358), sensors (R346 to R348), coolant loops (R359 to R361) and sleep (R362), without the stop actions, which the meanings add. -/

namespace Sys2Proof.Machine

def State.modThm (f : Thm → Thm) (s : State) : State := { s with thm := f s.thm }
def State.modObj (j : Nat) (f : ThmObj → ThmObj) (s : State) : State := { s with thm := { s.thm with objs := upd s.thm.objs j f } }
def State.modLoop (l : Nat) (f : CoolLoop → CoolLoop) (s : State) : State := { s with thm := { s.thm with loops := upd s.thm.loops l f } }
def State.obj (s : State) (j : Nat) : ThmObj := nth s.thm.objs j
def State.loop (s : State) (l : Nat) : CoolLoop := nth s.thm.loops l

/-! ### The THERMAL and TABLES sections (R366 to R369) -/

def State.objCount (s : State) : Nat := u8 (s.sec 6) 0
def State.rtdAlarmDc (s : State) (i : Nat) : Int := i16 (s.sec 6) (0x10 + 4 * i)
def State.rtdEnabled (s : State) (i : Nat) : Bool := u8 (s.sec 6) (0x12 + 4 * i) == 1

/-- The record of object j. -/
def State.objRec (s : State) (j : Nat) : List Byte := bytesAt (s.sec 6) (0xF0 + 96 * j) 96
def orOrder (r : List Byte) : Nat := u8 r 1
def orBindKind (r : List Byte) : Nat := u8 r 2
def orBindIndex (r : List Byte) : Nat := u8 r 3
def orQtyKind (r : List Byte) : Nat := u8 r 4
def orFlags (r : List Byte) : Nat := u8 r 5
def orQtyIndex (r : List Byte) : Nat := u16 r 6
def orTLim (r : List Byte) : Rat := rnd ((i16 r 8 : Rat) / 10)
def orRateLim (r : List Byte) : Rat := rnd (((u16 r 0x0A : Nat) : Rat) / 100)
def orHorizon (r : List Byte) : Nat := u8 r 0x0C
def orLoop (r : List Byte) : Nat := u8 r 0x0D
def orHyst (r : List Byte) : Rat := rnd (((u8 r 0x0E : Nat) : Rat) / 10)
def orSenseNode (r : List Byte) : Nat := u8 r 0x0F
def orSensor0 (r : List Byte) : Nat := u16 r 0x10
def orSensor1 (r : List Byte) : Nat := u16 r 0x12
def orRef (r : List Byte) : Nat := u16 r 0x14
def orRefFixed (r : List Byte) : Rat := rnd ((i16 r 0x16 : Rat) / 10)
def orR (r : List Byte) (i : Nat) : Rat := rnd (((u32 r (0x18 + 4 * i) : Nat) : Rat) / 1000)
def orC (r : List Byte) (i : Nat) : Rat := rnd (((u32 r (0x28 + 4 * i) : Nat) : Rat) / 100)
def orP0 (r : List Byte) : Rat := (u32 r 0x38 : Nat)
def orR2 (r : List Byte) : Rat := (u32 r 0x3C : Nat)
def orAlpha (r : List Byte) : Rat := (u16 r 0x40 : Nat)
def orLut (r : List Byte) : Nat := u16 r 0x42
def orVRef (r : List Byte) : Nat := u16 r 0x44
def orXMax (r : List Byte) : Nat := u16 r 0x46
def orObsTau (r : List Byte) : Nat := u16 r 0x48
def orGain (r : List Byte) (i : Nat) : Rat := ((u16 r (0x4A + 2 * i) : Nat) : Rat) / 32768
def orNoflow (r : List Byte) : Nat := u16 r 0x52
def orDivergeDk (r : List Byte) : Nat := u16 r 0x54

/-- A loop entry's byte. -/
def State.loopB (s : State) (l i : Nat) : Nat := if s.hasSec 6 then u8 (s.sec 6) (0x70 + 16 * l + i) else 0xFF
def State.loopH (s : State) (l i : Nat) : Nat := u16 (s.sec 6) (0x70 + 16 * l + i)

/-- R369: the points of a table in mW. -/
def State.lutPoints (s : State) (id : Nat) : List Nat :=
  let sec := s.sec 7
  match (List.range (u16 sec 0)).find? fun k => u16 sec (16 + 136 * k) == id with
  | some k => (List.range 33).map fun p => u32 sec (20 + 136 * k + 4 * p)
  | none => []

/-! ### The driving quantity and losses (R343, R344) -/

/-- The stage that an object concerns. -/
def orStage (r : List Byte) : Nat :=
  match orQtyKind r with | 1 => orQtyIndex r / 4 | 2 => orQtyIndex r | 4 => orQtyIndex r / 8 | _ => 0

/-- Q15 full scale of the quantity: 512 A, 1024 A, or already in its own unit. -/
def qtyScale (kind : Nat) : Rat := if kind = 1 then 512 / 32768 else 1024 / 32768

/-- R344: linear interpolation over 33 points spaced evenly over 0 to X_MAX, in mW. -/
def lutValue (pts : List Nat) (xMax : Nat) (x : Rat) : Rat :=
  let pos : Rat := if xMax = 0 then 0 else fdiv (fmul x 32) (xMax : Nat)
  let i := pos.floor.toNat
  if 32 ≤ i then ((pts.getD 32 0 : Nat) : Rat)
  else
    let a : Rat := (pts.getD i 0 : Nat)
    let b : Rat := (pts.getD (i + 1) 0 : Nat)
    fadd a (fmul (fsub b a) (fsub pos (i : Nat)))

/-- R344: the loss in W for given means of X² and |X| at a θ1 and a stage input voltage. -/
def lossOf (r : List Byte) (pts : List Nat) (vin : Rat) (meanSq meanAbs theta1 : Rat) : Rat :=
  let lin := fadd (orP0 r) (fmul (fmul (fmul (orR2 r) (rnd (1 / 1000000))) meanSq)
    (fadd 1 (fmul (fmul (orAlpha r) (rnd (1 / 1000000))) (fsub theta1 20))))
  if orLut r = 0xFFFF then lin
  else
    let k : Rat := if orVRef r = 0 then 1 else fdiv vin (orVRef r : Nat)
    fadd lin (fdiv (fmul (lutValue pts (orXMax r) meanAbs) k) 1000)

/-- STAGE_VIN in V of the stage an object concerns, as a period mean. -/
def State.objVin (s : State) (r : List Byte) : Rat := (s.stVin (orStage r) : Rat) * 1600 / 32768

/-- R344: the samples of one latched UPLINK for every object that takes them; `b` is the period's start in 0.25 ns. -/
def thmLane (n : Nat) (blocks : List Block) (s : State) : State :=
  let b : Int := 4 * (s.lanes.boundary : Int) - s.periodQns
  forAll (List.range s.thm.objs.length) (fun j s =>
    let r := s.objRec j
    if orStage r / 2 ≠ n ∨ orQtyKind r = 3 ∨ orQtyKind r = 5 then s
    else
      let l := match orQtyKind r with
        | 1 => laneSamples s blocks b 1 (orQtyIndex r)
        | 2 => laneSamples s blocks b 3 (orQtyIndex r)
        | _ => laneSamples s blocks b 3 (orStage r)
      let shut := orQtyKind r == 4 && !(s.stage (orStage r)).fb.getLsbD (orQtyIndex r % 8)
      let add := (l.filter fun p => p.2 != 0x8000#16).map fun p => (p.1, if shut then 0 else p.2.toInt)
      s.modObj j fun o => { o with raw := o.raw ++ add }) s

/-- R344: the loss value of one object for the millisecond that ends now. -/
def lossTickObj (j : Nat) (s : State) : State :=
  let r := s.objRec j
  let o := s.obj j
  let till : Int := 4 * (s.now / 1000000 * 1000000 : Nat)
  let mine := (o.raw.filter fun p => till - 4000000 ≤ p.1 && p.1 < till).map (·.2)
  let rest := o.raw.filter fun p => till ≤ p.1
  let m : Rat × Rat := match orQtyKind r with
    | 3 =>
      let x : Rat := (s.iMeasQ (orQtyIndex r) : Rat) * 1024 / 32768
      (fmul x x, ratAbs x)
    | 5 => (fmul (s.alloc.estKw : Nat) (s.alloc.estKw : Nat), (s.alloc.estKw : Nat))
    | k =>
      if mine.isEmpty then (o.meanSq, o.meanAbs)
      else
        let n : Rat := (mine.length : Nat)
        let f := qtyScale k
        (rnd ((sumInt (mine.map fun x => x * x) : Rat) * f * f / n), rnd ((sumInt (mine.map fun x => (x.natAbs : Int)) : Rat) * f / n))
  let p := lossOf r (s.lutPoints (orLut r)) (s.objVin r) m.1 m.2 (ratAt o.theta 0)
  s.modObj j fun o => { o with
    raw := rest, meanSq := m.1, meanAbs := m.2
    lossSum := fadd o.lossSum p, sqSum := fadd o.sqSum m.1, ticks := o.ticks + 1 }

/-! ### Sensors (R346 to R349) -/

/-- R348: unit bit of this unit's RTD sensor IDs. -/
def State.rtdId (s : State) (i : Nat) : Nat := 0x1000 + 0x800 * b2n s.unitB + i

/-- The valid value in °C that a sensor ID shows, with the device time from which it counts. -/
def State.sensor (s : State) (id : Nat) : Option (Rat × Nat) :=
  match id / 0x1000 with
  | 1 => match s.thm.applied.find? fun p => p.1 == id with
    | some (_, { value := some v, at_ := t }) => some (rnd ((v : Rat) / 10), t)
    | _ => none
  | 2 =>
    let n := id % 0x800 / 8
    let x := s.nodeTemp n (id % 8)
    if (s.lane n).state == .active && x != 0x8000#16 then some ((x.toInt : Rat) * 256 / 32768, s.lanes.boundary) else none
  | _ => none

def State.trefOf (s : State) (r : List Byte) : Rat :=
  match s.sensor (orRef r) with | some (v, _) => v | none => orRefFixed r

/-- Note a reading of this or the peer unit that counts from an instant on. -/
def applyReading (id : Nat) (v : Option Int) (at_ : Nat) (s : State) : State :=
  s.modThm fun t => { t with applied := t.applied.filter (fun p => p.1 != id) ++ [(id, { value := v, at_ := at_ })] }

/-- R347: raise E53 at a change of validity. -/
def validity (was now : Bool) (cause id : Nat) (inst : Nat) (s : State) : State :=
  if was && !now then raise 53 cause inst (toLE 2 id) s
  else if !was && now then raise 53 0 inst (toLE 2 id) s else s

/-- R347: the NODE_TEMP samples of a latched UPLINK. -/
def thmNodeTemps (n : Nat) (s : State) : State :=
  forAll (List.range (min 8 (s.lane n).sensors)) (fun t s =>
    let ix := 8 * n + t
    let ok := s.nodeTemp n t != 0x8000#16
    let was := !s.thm.nodeBad.contains ix
    validity was ok 3 (0x2000 + ix) ix (s.modThm fun m =>
      { m with nodeBad := if ok then m.nodeBad.filter (· != ix) else if was then m.nodeBad ++ [ix] else m.nodeBad })) s

/-- R52, R346: the resistance of an RTD in mΩ less that of the leads of its group. -/
def lessLead (leads : List Nat) (i raw : Nat) : Nat := raw - leads.getD (i / 12) 0

/-- R346, R347: one RTD conversion. A reading counts at once on a standalone module, and through R348 in a pair. -/
def convertRtd (i mohm : Nat) (s : State) : State :=
  if !s.rtdEnabled i then s
  else
    let short := mohm < 780000
    let open_ := 1980000 < mohm
    let v : Option Int := if short || open_ then none else some (rtdTemp mohm)
    let id := s.rtdId i
    let s1 := validity (!(nth s.thm.rtd i).fault) v.isSome (if short then 1 else 2) id i s
    let s2 := s1.modThm fun t => { t with rtd := upd t.rtd i fun r =>
      { r with reading := v, fault := v.isNone
               alarm := match v with | some x => decide (s.rtdAlarmDc i < x) | none => false } }
    let s3 := match v with | some x => recFeed (144 + i) (x : Rat) s2 | none => s2
    if s.member then s3.modThm fun t => { t with queue := t.queue ++ [(id, v, s.now)] }
    else applyReading id v s.now s3

/-! ### One object's sample (R345, R349 to R357) -/

/-- The ladder's resistances, with R_N multiplied while the loop is in flow-low state. -/
def State.objR (s : State) (r : List Byte) : List Rat :=
  let n := orOrder r
  (List.range n).map fun i =>
    if i + 1 = n ∧ orLoop r < 8 ∧ (s.loop (orLoop r)).flowLow then rnd (orR r i * (orNoflow r : Nat) / 256) else orR r i

def objC (r : List Byte) : List Rat := (List.range (orOrder r)).map (orC r)

/-- R345: the step over h seconds. -/
def advanceObj (j : Nat) (h p : Rat) (s : State) : State :=
  let r := s.objRec j
  let tref := s.trefOf r
  s.modObj j fun o => { o with theta := ladderStep (s.objR r) (objC r) h p tref o.theta, tref := tref, loss := p }

/-- R349 to R351: the correction by the newest valid readings of the object's sensors. -/
def correctObj (j : Nat) (h : Rat) (s : State) : State :=
  let r := s.objRec j
  let o := s.obj j
  let ids := [orSensor0 r, orSensor1 r].filter (· / 0x1000 ≠ 0)
  let valid := ids.filterMap s.sensor
  let fresh := (valid.filter fun p => o.lastCorr < p.2).map (·.1)
  let s1 := s.modObj j fun o => { o with openLoop := valid.isEmpty }
  if orObsTau r = 0 || fresh.isEmpty then s1
  else
    let m := maxRat fresh
    let e := fsub m (ratAt o.theta (orSenseNode r - 1))
    let a := fdiv h (fadd (fdiv (orObsTau r : Nat) 1000) h)
    let far := orDivergeDk r ≠ 0 && decide (rnd (((orDivergeDk r : Nat) : Rat) / 10) < ratAbs e)
    let s2 := s1.modObj j fun o => { o with
      theta := o.theta.mapIdx fun i t => fadd t (fmul (fmul a (orGain r i)) e)
      lastCorr := s.now, meas := some (ratRound' (m * 10)), err := ratRound' (e * 10)
      divergeSince := if far then (match o.divergeSince with | some t => some t | none => some s.now) else none
      diverged := o.diverged && far }
    if o.diverged && !far then raise 55 0 j (toLEi 2 (s2.obj j).err) s2 else s2
where ratRound' (q : Rat) : Int := divRound q.num q.den

/-- R352: the step that a margin asks for. -/
def stepFor (m : Rat) : Nat := if 20 < m then 0 else if 10 < m then 1 else if 5 < m then 2 else 3

/-- R352: the interval of a step in ms. -/
def stepMs (k : Nat) : Nat := match k with | 0 => 1000 | 1 => 100 | 2 => 10 | _ => 1

/-- R352: the sampling step after a margin. -/
def nextStep (now : Nat) (m : Rat) (o : ThmObj) : ThmObj :=
  let bounds : List Rat := [21, 11, 6]
  let since := bounds.mapIdx fun k b => if b < m then (match o.aboveSince.getD k none with | some t => some t | none => some now) else none
  let held := fun k => match since.getD k none with | some t => decide (t + 1000000000 ≤ now) | none => false
  let down := ((List.range 3).find? fun k => k < o.step && held k && stepFor m ≤ k)
  let want := stepFor m
  { o with aboveSince := since, step := if o.step < want then want else match down with | some k => k | none => o.step }

/-- R354: the rate of rise in K/s, once a sample at least 1 s old exists. -/
def rateOf (now : Nat) (o : ThmObj) : Option Rat :=
  (o.hist.find? fun p => p.1 + 1000000000 ≤ now).map fun p =>
    fdiv (fsub (ratAt o.theta 0) p.2) (fdiv ((now - p.1 : Nat) : Rat) 1000000000)

/-- R356: does a constant X (mean square and mean magnitude) reach the limit, and at which step. -/
def State.forecastOf (s : State) (j : Nat) (x : Rat) : Option Nat :=
  let r := s.objRec j
  let o := s.obj j
  let hf := fdiv (orHorizon r : Nat) 256
  let rs := s.objR r
  let cs := objC r
  let pts := s.lutPoints (orLut r)
  let vin := s.objVin r
  forecast (fun p th => ladderStep rs cs hf p o.tref th) (fun t1 => lossOf r pts vin (fmul x x) (ratAbs x) t1) (orTLim r) 256 0 o.theta

/-- R357: X_k on the grid of the object. -/
def gridX (r : List Byte) (k : Nat) : Rat := rnd (((k * orXMax r : Nat) : Rat) / 4096)

/-- R357: a value rounded down to the grid. -/
def gridFloor (r : List Byte) (x : Rat) : Rat := if orXMax r = 0 then 0 else gridX r (x * 4096 / (orXMax r : Nat)).floor.toNat

/-- R354: X_now, from the mean of X² over the last interval. -/
def xNow (r : List Byte) (meanSq : Rat) : Rat := gridFloor r (fsqrt meanSq)

/-- R357: the capacity by the forecast alone. -/
def State.capacityOf (s : State) (j : Nat) : Rat :=
  let r := s.objRec j
  let ok := fun k => (s.forecastOf j (gridX r k)).isNone
  if ok 0 then gridX r (largestK ok 13 0) else 0

/-! ### Coolant loops (R360) -/

/-- R360: the stage or outlet of an object keeps its loop running. -/
def State.memberRuns (s : State) (r : List Byte) : Bool :=
  match orBindKind r with
  | 1 => (s.stage (orBindIndex r / 4)).outEn
  | 2 => (s.stage (orBindIndex r)).outEn
  | 3 => (s.path (orBindIndex r)).state != .idle
  | _ => false

def State.marginOf (s : State) (j : Nat) : Rat := fsub (orTLim (s.objRec j)) (ratAt (s.obj j).theta 0)

def State.members (s : State) (l : Nat) : List Nat := (List.range s.thm.objs.length).filter fun j => orLoop (s.objRec j) == l

def State.loopNeed (s : State) (l : Nat) : Bool :=
  (s.members l).any fun j => s.memberRuns (s.objRec j) || decide (s.marginOf j < (s.loopB l 8 : Nat))

/-- R360: the PWM duty in percent for the lowest member margin. -/
def State.dutyOf (s : State) (l : Nat) : Nat :=
  let start := s.loopB l 8
  let full := s.loopB l 9
  let lo := s.loopB l 0xA
  let hi := s.loopB l 0xB
  match (s.members l).map s.marginOf with
  | [] => lo
  | ms =>
    let m := minRat ms
    if (start : Rat) ≤ m then lo else if m ≤ (full : Rat) then hi
    else ((lo : Rat) + ((hi - lo : Nat) : Rat) * ((start : Rat) - m) / ((start - full : Nat) : Rat)).floor.toNat

/-- Command the loop's pump and fan (R360). -/
def commandLoop (l : Nat) (on : Bool) (s : State) : State :=
  let s1 := when (s.loopB l 1 < 12) (commandChannel (s.loopB l 1) on) s
  let s2 := when (s.loopB l 2 < 12) (commandChannel (s.loopB l 2) on) s1
  s2.modLoop l fun c => { c with
    pumpAt := if on && !c.pumpOn then s.now else c.pumpAt
    pumpOn := on && s.loopB l 1 < 12, fanOn := on && s.loopB l 2 < 12, duty := if on then c.duty else 0 }

/-- R360: the loop is in use, and its needs and duty now. -/
def updateLoop (l : Nat) (s : State) : State :=
  if s.loopB l 1 == 0xFF && s.loopB l 2 == 0xFF && s.loopB l 3 == 0xFF then s
  else
    let need := s.loopNeed l
    let s1 := s.modLoop l fun c => { c with need := need, neededAt := if need then s.now else c.neededAt }
    let s2 := when (need && !((s1.loop l).pumpOn || (s1.loop l).fanOn)) (commandLoop l true) s1
    let duty := s2.dutyOf l
    s2.modLoop l fun c => { c with duty := if c.pumpOn || c.fanOn then duty else 0 }

def updateLoops (s : State) : State := forAll (List.range 8) updateLoop s

/-- R359, R361: a flow of the loop, in 0.1 L/min. -/
def setFlow (l f : Nat) (s : State) : State :=
  let low := decide (f < s.loopH l 6)
  let since := fun (p : Bool) (t : Option Nat) => if p then some (t.getD s.now) else none
  recFeed (169 + l) ((f : Nat) : Rat) (recNote 5 l f (s.modLoop l fun c => { c with
    flow := f, lowSince := since low c.lowSince, okSince := since (!low) c.okSince }))

/-- R361: enter flow-low state. -/
def enterFlowLow (l : Nat) (s : State) : State :=
  if (s.loop l).flowLow then s else raise 54 1 l (toLE 2 (s.loop l).flow) (s.modLoop l fun c => { c with flowLow := true })

/-- R361: a pump channel that the die reports latched or failed. -/
def pumpFailed (n : Nat) (s : State) : State :=
  forAll (List.range 8) (fun l s => when (s.loopB l 1 == n && s.hasSec 6 && s.awake) (enterFlowLow l) s) s

/-! ### Start and sleep (R345, R362) -/

/-- R345: at profile load every node starts at T_ref. -/
def thmProfile (s : State) : State :=
  let s1 := s.modThm fun t => { t with loops := List.replicate 8 {} }
  s1.modThm fun t => { t with objs := (List.range s1.objCount).map fun j =>
    let r := s1.objRec j
    let tref := s1.trefOf r
    { theta := List.replicate (orOrder r) tref, tref := tref, lastSample := s1.now, capAt := s1.now, hist := [(s1.now, tref)] } }

/-- `n` implicit steps of h seconds. -/
def sleepSteps (r c : List Rat) (h p tref : Rat) : Nat → List Rat → List Rat
  | 0, th => th
  | n + 1, th => sleepSteps r c h p tref n (ladderStep r c h p tref th)

/-- R362: advance every model over the time asleep, in ns. -/
def thmWake (asleep : Nat) (s : State) : State :=
  forAll (List.range s.thm.objs.length) (fun j s =>
    let r := s.objRec j
    let whole := asleep / 1000000000
    let rest := fdiv ((asleep % 1000000000 : Nat) : Rat) 1000000000
    let tref := match s.sensor (orRef r) with | some (v, _) => v | none => (s.obj j).tref
    s.modObj j fun o =>
      if 3600 < whole ∨ (whole = 3600 ∧ rest ≠ 0) then { o with theta := o.theta.map fun _ => tref, tref := tref, lastSample := s.now }
      else
        let t1 := sleepSteps (s.objR r) (objC r) 1 (orP0 r) tref whole o.theta
        let t2 := if rest = 0 then t1 else ladderStep (s.objR r) (objC r) rest (orP0 r) tref t1
        { o with theta := t2, tref := tref, lastSample := s.now }) s

/-- R88: the thermal part of the conditions for Sleep. -/
def State.marginsWide (s : State) : Bool := (List.range s.thm.objs.length).all fun j => decide (20 < s.marginOf j)

/-! ### Capacities for the allocator (R358) -/

/-- The published capacity of an object in whole A or kW, or none once it is stale (R142). -/
def State.objCap (s : State) (j : Nat) : Option Rat :=
  if (s.obj j).capAt + 3000000000 < s.now then none else some (s.obj j).cap

/-- Objects with a binding. -/
def State.boundTo (s : State) (kind index : Nat) : List Nat :=
  (List.range s.thm.objs.length).filter fun j => orBindKind (s.objRec j) == kind && orBindIndex (s.objRec j) == index

def lowestCap : List Rat → Option Rat
  | [] => none
  | x :: r => some (r.foldl Min.min x)

/-- R142, R358: capacity of a set of objects; a stale one counts as `stale`. -/
def State.capOver (s : State) (js : List Nat) (stale : Rat) : Option Rat := lowestCap (js.map fun j => (s.objCap j).getD stale)

end Sys2Proof.Machine
end

