-- ==== Sys2Proof/Machine/Capacity.lean ====
section
/-! DEFINITION. Capacities and ceilings that the thermal models feed (R142, R149, R358). -/

namespace Sys2Proof.Machine

/-- R358: thermal current capacity of a stage in A; `none` where no object bounds it. A stale figure counts as 0 (R142). -/
def State.thermAmps (s : State) (i : Nat) : Option Rat :=
  let own := s.capOver (s.boundTo 2 i) 0
  let run := (List.range 4).filter fun k => (s.runMask i).getLsbD k
  let ph := (s.capOver (run.flatMap fun k => s.boundTo 1 (4 * i + k)) 0).map fun c : Rat => c * ((s.nRun i : Nat) : Rat)
  match own, ph with
  | some a, some b => some (Min.min a b)
  | some a, none => some a
  | none, x => x

/-- Thermal power (W) and current (0.1 A) capacity of a stage; `none` where no model bounds it. -/
def State.thermStage (s : State) (i : Nat) : Option (Nat × Nat) :=
  (s.thermAmps i).map fun a =>
    let v : Rat := Max.max ((s.stVout i : Rat) * 1600 / 32768) ((s.vFloorV : Nat) : Rat)
    ((a * v).floor.toNat, (a * 10).floor.toNat)

/-- R616: a STAGE-bound or PHASE-bound object of the stage is over its limit, or has RATE_OVER set. -/
def State.stageHot (s : State) (i : Nat) : Bool :=
  (s.boundTo 2 i ++ (List.range 4).flatMap fun k => s.boundTo 1 (4 * i + k)).any fun j => (s.obj j).above || (s.obj j).rateOver

/-- R142: cable and connector ceiling of an outlet in 0.1 A, and whether it is a stale fallback; `none` when no object bounds it. DESIGN CHOICE (log 98): one stale object puts the whole input in its fallback, whatever the fresh ones give. -/
def State.cableCeil (s : State) (o : Nat) : Option (Nat × Bool) :=
  let js := s.boundTo 3 o
  if js.isEmpty then none
  else if js.any fun j => (s.objCap j).isNone then some (s.cableFallbackA o * 10, true)
  else (s.capOver js 0).map fun c => (c.floor.toNat * 10, false)

/-- R142, R147: the transformer permitted import in kW, or none when it is not applied; one stale object puts the input in its fallback (log 98). -/
def State.trafoImport (s : State) : Option Nat :=
  let js := s.boundTo 4 0
  if js.isEmpty then none
  else if js.any fun j => (s.objCap j).isNone then some s.trafoFallbackKw
  else (s.capOver js 0).map fun c => c.floor.toNat

/-- R149: power capacity in W. -/
def State.stageCapW (s : State) (i : Nat) : Nat :=
  let n := s.stPhases i
  let p := s.stPMaxKw i * 1000
  let own := if n = 0 then 0 else min p (p * s.nRun i / n)
  if (s.lane (i / 2)).state != .active || !s.stPresent i then 0
  else match s.thermStage i with
    | some (w, _) => min own w
    | none => own

/-- R149: current capacity in 0.1 A. -/
def State.stageCapDa (s : State) (i : Nat) : Nat :=
  let n := s.stPhases i
  let own := if n = 0 then 0 else s.stIMaxA i * 10 * s.nRun i / n
  if (s.lane (i / 2)).state != .active || !s.stPresent i then 0
  else match s.thermStage i with
    | some (_, a) => min own a
    | none => own

/-- R149: available. -/
def State.stageAvailable (s : State) (i : Nat) : Bool :=
  let st := s.stage i
  0 < s.stageCapW i && 0 < s.stageCapDa i && !st.halted && st.xfer != .blocked && !st.removed

/-- The lower of two limits of which 0 means none. -/
def lowerLimit (a b : Nat) : Nat := if a = 0 then b else if b = 0 then a else min a b

/-- R142, R176: the vehicle request that the allocator takes for an outlet: the open session's, the port's, or both combined. -/
def State.request (s : State) (o : Nat) : Request :=
  let p := (s.path o).req
  let v := (s.ses o).req
  let vehicle := 1 ≤ s.personality o && s.personality o ≤ 3 && (s.ses o).state != .idle
  if !vehicle then p
  else if s.portSource o then
    { p with iMax := min p.iMax v.iMax, vMax := min p.vMax v.vMax, pMax := lowerLimit p.pMax v.pMax, iMin := max p.iMin v.iMin }
  else { p with iTarget := v.iTarget, iMax := v.iMax, vMax := v.vMax, pMax := v.pMax, iMin := v.iMin }

end Sys2Proof.Machine
end

