-- ==== Sys2Proof/Machine/StageOps.lean ====
section
/-! DEFINITION. Stages and crosspoints: coil commands under R18 and R19, stage orders and the transfer states of R166, stops, and the shares of R203. -/

namespace Sys2Proof.Machine

/-- The stage is in one of the transfer states of R166. -/
def Stage.inTransfer (st : Stage) : Bool :=
  st.xfer == .rampDown || st.xfer == .opening || st.xfer == .tracking || st.xfer == .closing

/-! ### Current references (R166, R214, R235) -/

/-- The value of the stage's ramp now, Q15 at 1024 A, rounded under R229: RAMP_A_PER_MS from its start toward `goal`, or down to 0. -/
def rampValue (s : State) (i : Nat) (goal : Int) : Int :=
  let st := s.stage i
  let moved : Rat := (((s.now - st.rampAt) * s.rampAPerMs * 32 : Nat) : Rat) / 1000000
  let target : Int := if st.rampUp then goal else 0
  if st.rampFrom < target then min target (roundRat (st.rampFrom + moved)) else max target (roundRat (st.rampFrom - moved))

/-- R212, R235: a stage current reference limited to ±I_MAX × n′ / n; Q15 at 1024 A. -/
def derated (s : State) (i : Nat) (v : Int) : Int :=
  let n := s.stPhases i
  let lim : Int := if n = 0 then 0 else divRound ((s.stIMaxA i * s.nRun i * 32768 : Nat) : Int) (1024 * n)
  clampQ15 (max (-lim) (min lim v))

/-- R203, R235: the steady share of the outlet loop output, k_s × OUTLET_CTRL × 4, limited; Q15 at 1024 A. -/
def shareRef (s : State) (i : Nat) (outletCtrl : Int) : Int :=
  derated s i (divRound ((s.stage i).kShare.toInt * outletCtrl * 4) 32768)

/-- The value of a published output signal (R232, R234). -/
def State.output (s : State) (id : Nat) : Half := ((s.law.outputs.find? fun p => p.1 == id).map (·.2)).getD 0

def sigId (kind index : Nat) : Nat := kind * 1024 + index

/-- R203: the stage's share of the loop output of the outlet that holds it. -/
def State.stageShare (s : State) (i : Nat) : Int :=
  match (s.stage i).outlet with
  | some o => shareRef s i (s.output (sigId 0x22 o)).toInt
  | none => 0

/-- R166, R214, R235: a ramp runs; a ramp up ends at the share. -/
def State.inRamp (s : State) (i : Nat) : Bool :=
  let st := s.stage i
  st.ramping && (!st.rampUp || rampValue s i (s.stageShare i) != s.stageShare i)

/-- R235: STAGE_IREF. -/
def State.stageIref (s : State) (i : Nat) : Int :=
  let st := s.stage i
  if !st.outEn then 0
  else
    let share := s.stageShare i
    if st.ramping then derated s i (rampValue s i share)
    else if st.xfer == .steady then share else 0

/-! ### Coils (R18, R19) -/

def coilBit (o : Nat) : BitVec 8 := BitVec.ofNat 8 (2 ^ o)

/-- Command the coils of `mask` open: at once at 2 A or less, otherwise when the current allows (R19). -/
def openCoils (i : Nat) (mask : BitVec 8) (s : State) : State :=
  if s.lowCurrent i then s.modStage i fun st => { st with coils := st.coils &&& ~~~mask, openWait := st.openWait &&& ~~~mask }
  else s.modStage i fun st =>
    let add := mask &&& st.coils
    { st with
      waitAt := if st.openWait == 0 then s.now else st.waitAt
      waitRaised := if st.openWait == 0 then false else st.waitRaised
      openWait := st.openWait ||| add }

/-- R18: the lowest other outlet whose coil is commanded closed or not verified open. -/
def blockerOf (st : Stage) (o : Nat) : Option Nat :=
  (List.range 8).find? fun k => k != o && (st.coils.getLsbD k || st.fb.getLsbD k)

/-- R18: command X(s, o) closed, or refuse with E37 and leave the coils. -/
def closeCoil (i o : Nat) (s : State) : State :=
  match blockerOf (s.stage i) o with
  | some k => raise 37 1 i (toLE 1 o ++ toLE 1 k) s
  | none => s.modStage i fun st => { st with coils := st.coils ||| coilBit o, openWait := st.openWait &&& ~~~coilBit o }

/-- R166: the stage output is disabled. -/
def disableOut (i : Nat) (s : State) : State := s.modStage i fun st => { st with outEn := false, ramping := false }

/-! ### Shares (R203) -/

/-- R203: k_s of every steady stage of an outlet. -/
def recomputeShares (o : Nat) (s : State) : State :=
  let l := s.steadyStages o
  let total := (l.map s.stageCapDa).foldl (· + ·) 0
  forAll l (fun i s =>
    let k : Half := if l.length = 1 then 0x7FFF
      else if total = 0 then 0 else toQ15 ((s.stageCapDa i : Int) * 32768) total
    s.modStage i fun st => { st with kShare := k }) s

/-- R203: recompute the shares of every outlet. -/
def recomputeAllShares (s : State) : State := forAll (List.range 8) recomputeShares s

/-! ### Transfer events (R172) -/

def xferPayload (st : Stage) (now : Nat) : List Byte :=
  toLE 1 (noneTo 0xFF st.src) ++ toLE 1 (noneTo 0xFF st.dest) ++ toLE 4 ((now - st.xferAt) / 1000)

/-- R544, R545: the ACTIVE unit mirrors a TRANSFER record at every state change of R166. -/
def mirrorTransfer (i : Nat) (s : State) : State :=
  if s.pair.state == .active then sendRecord (.transfer i (s.stage i)) s else s

def raiseXfer (ev cause i : Nat) (s : State) : State :=
  raise ev cause i (xferPayload (s.stage i) s.now) s

/-! ### Orders and state changes (R166) -/

/-- R168: a new step of a transfer begins only while a unit holds authority. -/
def State.stepsMayBegin (s : State) : Bool := !s.member || s.pair.auth || s.pair.peerAuth

/-- R147: T_down in ms. -/
def State.tDownMs (s : State) : Nat :=
  ceilDiv (((List.range 32).filter s.stPresent).foldl (fun m i => max m (s.stIMaxA i)) 0) s.rampAPerMs + 1

/-- The transfer state of a stage changes. -/
def stepTo (x : Xfer) (i : Nat) (s : State) : State := s.modStage i fun st => { st with xfer := x, stepAt := s.now }

/-- Start a ramp of the stage's current reference to 0. -/
def startRampDown (i : Nat) (s : State) : State :=
  let v := s.stageIref i
  s.modStage i fun st => { st with ramping := true, rampUp := false, rampFrom := v, rampAt := s.now }

/-- TRACKING toward the destination starts (R165). -/
def startTracking (i : Nat) (s : State) : State :=
  stepTo .tracking i (s.modStage i fun st => { st with
    outEn := true, ramping := false, trackFrom := s.stVout i, nearAt := none, shortAt := none })

/-- Issue one stage order (R159, R166). -/
def issueOrder (ord : StageOrder) (i : Nat) (dest : Option Nat) (s : State) : State :=
  let s1 := s.modStage i fun st => { st with order := ord, src := st.outlet, dest := dest, xferAt := s.now }
  mirrorTransfer i <| match ord with
  | .attach => startTracking i (s1.modStage i fun st => { st with src := none })
  | .move | .release => startRampDown i (stepTo .rampDown i s1)

/-- The transfer ends with the stage STEADY and unassigned. -/
def endUnassigned (i : Nat) (s : State) : State :=
  mirrorTransfer i <| s.modStage i fun st =>
    { st with xfer := .steady, outlet := none, dest := none, src := none, lastEnd := some s.now }

/-- Every change to BLOCKED safe-stops the stage: output disabled, every coil open under R19 (R166). -/
def block (i : Nat) (s : State) : State :=
  mirrorTransfer i <| openCoils i 0xFF#8 (disableOut i (s.modStage i fun st =>
    { st with xfer := .blocked, lastEnd := if st.inTransfer then some s.now else st.lastEnd }))

/-- A transfer fails into BLOCKED with its E36 cause. -/
def failXfer (i cause : Nat) (s : State) : State := block i (raiseXfer 36 cause i s)

/-- R253: safe-stop a stage; a transfer in progress aborts with ABORTED_FAULT. -/
def safeStopStage (i : Nat) (s : State) : State :=
  if (s.stage i).inTransfer then failXfer i 7 s
  else if (s.stage i).xfer == .blocked then s else block i s

/-- R18, R166: a stopped stage is unassigned once every crosspoint is commanded and verified open. -/
def settleStage (i : Nat) (s : State) : State :=
  let st := s.stage i
  if (st.xfer == .steady || st.xfer == .blocked) && !st.outEn && st.coils == 0 && st.fb == 0 && (st.outlet.isSome || st.dest.isSome) then
    s.modStage i fun st => { st with outlet := none, dest := none, src := none }
  else s

/-- R214, R166: stop one stage by a halt of its own or of its destination: RAMP ramps to 0 before the coils open, FAST disables at once. -/
def haltStage (i : Nat) (fast : Bool) (s : State) : State :=
  if fast || !(s.stage i).outEn || (s.stage i).coils == 0 then settleStage i (openCoils i 0xFF#8 (disableOut i s))
  else
    let s1 := startRampDown i s
    s1.modStage i fun st => { st with
      waitAt := if st.openWait == 0 then s.now else st.waitAt
      waitRaised := if st.openWait == 0 then false else st.waitRaised
      openWait := st.openWait ||| st.coils }

/-- R166: a halt aborts a transfer: STEADY, unassigned once verified open, E36 ABORTED_HALT. -/
def abortHalt (i : Nat) (fast : Bool) (s : State) : State :=
  let s1 := raiseXfer 36 6 i s
  haltStage i fast (mirrorTransfer i (s1.modStage i fun st => { st with xfer := .steady, dest := none, lastEnd := some s.now, trackTimeouts := 0 }))

/-- R167, R173: a halt of outlet `o` aborts the transfers toward it. -/
def abortToward (o : Nat) (fast : Bool) (s : State) : State :=
  forAll (List.range 32) (fun i s =>
    let st := s.stage i
    if st.inTransfer && st.dest == some o then abortHalt i fast s else s) s

/-! ### Resuming (R616, R213) -/

/-- R616: the stage is halted or BLOCKED. -/
def Stage.stopped (st : Stage) : Bool := st.halted || st.xfer == .blocked

/-- R616: the safe end of a halted or BLOCKED stage. -/
def State.stageSafeEnd (s : State) (i : Nat) : Bool :=
  let st := s.stage i
  !st.outEn && s.lowCurrent i && st.coils == 0 && st.fb == 0 && (s.lane (i / 2)).state == .active

/-- The resume takes effect: the halt clears, and dropped phases run again only after a STAGE_HALT (R213). -/
def takeResume (i : Nat) (s : State) : State :=
  mirrorTransfer i <| s.modStage i fun st =>
    { st with
      xfer := .steady, outlet := none, dest := none, src := none, halted := false, resumeDeferred := false
      openWait := 0, trackTimeouts := 0
      dropped := if st.haltSeen then 0 else st.dropped
      lost := if st.haltSeen then 0 else st.lost
      haltSeen := false }

end Sys2Proof.Machine
end

