-- ==== Sys2Proof/Machine/PathOps.lean ====
section
/-! DEFINITION. The set-point path of an outlet: states and demand (R189, R190), answers (R181 to R186), clipping and replanning (R192 to R194, R199), stops (R214, R217), and what a stage stop does to its outlet. -/

namespace Sys2Proof.Machine

/-! ### States (R189) -/

def PathState.code : PathState → Nat
  | .idle => 0 | .connecting => 1 | .connected => 2 | .check => 3 | .precharge => 4
  | .deliver => 5 | .paused => 6 | .stopping => 7 | .discharging => 8 | .faulted => 9

def Demand.code : Demand → Nat
  | .none => 0 | .starting => 1 | .active => 2 | .stopping => 3 | .paused => 4

/-- CONNECTING to PAUSED (R190). -/
def PathState.started : PathState → Bool
  | .connecting | .connected | .check | .precharge | .deliver | .paused => true
  | _ => false

/-- The outlet contactor, and every crosspoint of the outlet, are commanded and verified open. -/
def State.outletOpen (s : State) (o : Nat) : Bool :=
  (s.path o).opened && !(s.path o).drive
    && (List.range 32).all fun i => !(s.stage i).coils.getLsbD o && !(s.stage i).fb.getLsbD o

/-- The bus is at or below DISCHARGE_V, as far as a steady stage measures it. -/
def State.busLow (s : State) (o : Nat) : Bool := s.busQ o ≤ qOfDv (10 * s.dischargeV o)

/-- R190, R191: the FAULTED conditions of a safe end. -/
def State.faultEnd (s : State) (o : Nat) : Bool := (s.heldStages o).isEmpty && (s.path o).opened && s.busLow o

/-- R189: the demand state that the path reports. -/
def State.demand (s : State) (o : Nat) : Demand :=
  match (s.path o).state with
  | .idle => .none
  | .connecting | .connected | .check | .precharge => .starting
  | .deliver => .active
  | .paused => .paused
  | .stopping => .stopping
  | .discharging => if (s.path o).dischargeDone then .none else .stopping
  | .faulted => if s.faultEnd o then .none else .stopping

/-- R222: every change of PATH_STATE raises STATE_CHANGE with the old and the new state; what must hold in a state for a time is looked at anew. -/
def setPathState (o : Nat) (st : PathState) (s : State) : State :=
  let old := (s.path o).state
  if old == st then s
  else raise o 0x45 o (toLE 1 old.code ++ toLE 1 st.code) (s.modPath o fun p => { p with
    state := st, since := if st == .connecting || st == .stopping then s.now else p.since
    nearAt := none, bandAt := none, lowAt := none })

/-- R190: command the outlet contactor; what is verified of it is stale from then on. -/
def setDrive (o : Nat) (on : Bool) (s : State) : State :=
  s.modPath o fun p => if p.drive == on then p else { p with drive := on, driveAt := s.now, opened := p.opened && !on }

/-! ### TARGET fields (R180) -/

def tCmd (t : List Byte) : Nat := u8 t 4
def tSeq (t : List Byte) : Half := BitVec.ofNat 16 (u16 t 2)
def tRequest (t : List Byte) : Request :=
  { vTarget := u16 t 6, iTarget := u16 t 8, vMax := u16 t 10, iMax := u16 t 12, iMin := u16 t 14, pMax := u16 t 16 }

/-- R186 check 5: byte offset of the first bad field, or none. -/
def tBadField (t : List Byte) : Option Nat :=
  if u8 t 1 / 8 ≠ 0 then some 1
  else if 5 < u8 t 4 then some 4
  else if u8 t 5 ≠ 0 then some 5
  else if 12500 < u16 t 6 then some 6
  else if 30000 < u16 t 8 then some 8
  else if u16 t 10 < u16 t 6 ∨ 12500 < u16 t 10 then some 10
  else if 30000 < u16 t 12 then some 12
  else if u16 t 12 < u16 t 14 then some 14
  else if 3750 < u16 t 16 then some 16
  else if 0x7FFF < u16 t 18 ∨ (u8 t 4 ≠ 2 ∧ u16 t 18 ≠ 0) then some 18
  else if !allZero t 20 4 then some 20
  else none

/-- R179: a frame's CRC over every earlier byte. -/
def withCrc (body : List Byte) : List Byte := body ++ toLE 4 (crc32c body)

/-! ### Answers (R181, R182, R184, R185, R177) -/

/-- R545: the path state of an outlet goes to the peer. -/
def mirrorTarget (o : Nat) (s : State) : State := sendRecord (.target o (s.path o)) s

/-- An answer to the TARGET `t`: kept for repeats when `t` is the latest new one, counted, sent by the lease holder on a port, and shown to the internal source. -/
def sendAnswer (o : Nat) (t frame : List Byte) (a : PathAnswer) (s : State) : State :=
  let s1 := s.modPath o fun p => { p with
    answered := tSeq t
    held := if s.portSource o && p.lastNew == some (tSeq t) then some frame else p.held
    naks := if a.ack then p.naks else satAdd 16 p.naks 1
    lastAnswer := some a }
  if s1.portSource o && s1.leaseHere then mirrorTarget o (emit (.sp o frame) s1) else s1

/-- R182. -/
def nakFrame (o : Nat) (t : List Byte) (reason detail : Nat) : List Byte :=
  withCrc (toLE 1 3 ++ toLE 1 o ++ toLE 2 (tSeq t).toNat ++ toLE 1 (tCmd t) ++ toLE 1 reason ++ toLE 2 detail)

def sendNak (o : Nat) (t : List Byte) (reason detail : Nat) (s : State) : State :=
  sendAnswer o t (nakFrame o t reason detail) { ack := false, cmd := tCmd t, reason := reason, detail := detail } s

/-- R175: the port of a VEHICLE_LINK outlet answers with NAK NOT_SOURCE; the internal source (R174) sees none of it. -/
def refusePort (o : Nat) (t : List Byte) (s : State) : State :=
  let frame := nakFrame o t 0x08 0
  let s1 := s.modPath o fun p => { p with answered := tSeq t, held := some frame, naks := satAdd 16 p.naks 1 }
  if s1.leaseHere then mirrorTarget o (emit (.sp o frame) s1) else s1

/-- R186: end the open TARGET with a NAK; nothing when none is open. -/
def nakOpen (o reason detail : Nat) (s : State) : State :=
  match (s.path o).tgt with
  | none => s
  | some t => sendNak o t.bytes reason detail (s.modPath o fun p => { p with tgt := none, heldConnect := false })

/-- R181: CLIP_SRC and the two clip bits. -/
def clipBits (s : State) (o : Nat) : Nat × Nat :=
  let p := s.path o
  let ic := p.iEff < p.req.iTarget
  let vc := p.vEff < p.req.vTarget
  (16 * b2n ic + 32 * b2n vc, if ic then (s.alcOut o).iClip else if vc then (s.alcOut o).vClip else 0)

/-- R181: the slew limiter shaped the move of a command: the current axis for STOP and PAUSE, the voltage axis for CHECK and PRECHARGE, both for CHARGE. -/
def Path.shaped (p : Path) (cmd : Nat) : Bool :=
  ((cmd == 0 || cmd == 4 || cmd == 5) && p.iAxis.slewing) || ((cmd == 2 || cmd == 3 || cmd == 4) && p.vAxis.slewing)

/-- R183: the slew limiter is in use. -/
def Path.onLimiter (p : Path) : Bool :=
  p.fallback != 0 || (p.iAxis.moving && p.iAxis.slewing) || (p.vAxis.moving && p.vAxis.slewing)

/-- R181. -/
def ackFrame (o : Nat) (t : OpenTarget) (s : State) : List Byte :=
  let p := s.path o
  let fb := p.fallback != 0 || p.shaped (tCmd t.bytes)
  let c := clipBits s o
  withCrc (toLE 1 2 ++ toLE 1 (o + 8 * b2n t.deferred + c.1 + 64 * b2n t.kClamped + 128 * b2n fb)
    ++ toLE 2 (tSeq t.bytes).toNat ++ toLE 1 (tCmd t.bytes) ++ toLE 1 c.2 ++ toLE 2 p.vEff ++ toLE 2 p.iEff
    ++ toLE 2 (s.vMeasDv o) ++ toLE 2 (s.iMeasDa o) ++ toLE 2 (min 0xFFFF ((s.now - t.acceptedAt) / 10000)) ++ zeros 4)

/-- Answer the open TARGET with ACK; nothing when none is open. -/
def ackOpen (o : Nat) (s : State) : State :=
  match (s.path o).tgt with
  | none => s
  | some t =>
    sendAnswer o t.bytes (ackFrame o t s) { ack := true, cmd := tCmd t.bytes, reason := 0, detail := 0 }
      (s.modPath o fun p => { p with tgt := none })

/-- R183. -/
def statusFrame (o : Nat) (s : State) : List Byte :=
  let p := s.path o
  withCrc (toLE 1 4 ++ toLE 1 (o + 8 * b2n s.leaseHere + 16 * b2n p.onLimiter)
    ++ toLE 2 p.lastAcc.toNat ++ toLE 1 p.state.code ++ toLE 1 (s.demand o).code
    ++ toLE 2 (s.vMeasDv o) ++ toLE 2 (s.iMeasDa o) ++ toLE 2 (s.alcOut o).vCeil ++ toLE 2 (s.alcOut o).iCeil
    ++ toLE 2 (s.inletDv o) ++ zeros 4)

/-! ### The generator of an outlet (R192, R194, R197 to R199) -/

/-- R199: the limits of both axes from the runtime copy of the parameters. -/
def Path.limits (p : Path) (volt : Bool) : Limits :=
  let b := if volt then 6 else 0
  { vm := (u16 p.params b : Nat), am := (u16 p.params (b + 2) : Nat), jm := (u16 p.params (b + 4) : Nat) }

/-- R199: FALLBACK_I_SLEW or FALLBACK_V_SLEW of the runtime copy. -/
def Path.slew (p : Path) (volt : Bool) : Rat := (u16 p.params (if volt then 14 else 12) : Nat)

/-- Re-targets within the last 1000 ms. -/
def Path.recent (p : Path) (now : Nat) : List Nat := p.retargets.filter fun t => now < t + 10 ^ 9

/-- Enter or leave fallback with its event (R199, R222). -/
def setFallback (o code : Nat) (s : State) : State :=
  let old := (s.path o).fallback
  let s1 := s.modPath o fun p => { p with fallback := code }
  if old = 0 ∧ code ≠ 0 then raise o 0x40 o (toLE 1 code) s1
  else if old ≠ 0 ∧ code = 0 then raise o 0x41 o [] s1
  else s1

/-- R199: the fallback code that governs a plan of the given axes toward the given goals. DESIGN CHOICE (log 102): of several cases at once the first here governs. -/
def fallbackAt (p : Path) (now : Nat) (goals : List (Bool × Rat)) : Nat :=
  let axisOf := fun volt => if volt then p.vAxis else p.iAxis
  let bad := goals.any fun g =>
    let ax := axisOf g.1
    infeasible (p.limits g.1) ax (replan (p.limits g.1) ax.x ax.v ax.a g.2)
  if p.fallback = 1 ∨ crc32c p.params ≠ p.paramsCrc then 1
  else if 65 ≤ (p.recent now).length then 3
  else if p.fallback = 3 ∧ 32 < (p.recent now).length then 3
  else if bad then 2
  else 0

/-- One axis at a plan: with no fallback the generator takes the axes planned; in fallback the slew limiter takes those and each axis still moving (R199, log 83). -/
def Path.planned (p : Path) (code : Nat) (goals : List (Bool × Rat)) (volt : Bool) (ax : Axis) : Axis :=
  match goals.find? (·.1 == volt) with
  | some g => if code = 0 then ax.start (p.limits volt) g.2 else ax.slewTo (p.slew volt) g.2
  | none => if code ≠ 0 && ax.moving then ax.slewTo (p.slew volt) ax.goal else ax

/-- Plan the given axes (true for the voltage axis) toward their goals; R193 counts a re-target first. -/
def planAxes (o : Nat) (retarget : Bool) (goals : List (Bool × Rat)) (s : State) : State :=
  let s1 := s.modPath o fun p => { p with retargets := p.recent s.now ++ (if retarget then [s.now] else []) }
  let code := fallbackAt (s1.path o) s1.now goals
  (setFallback o code s1).modPath o fun p => { p with
    iAxis := p.planned code goals false p.iAxis, vAxis := p.planned code goals true p.vAxis }

def tenths (n : Nat) : Rat := (n : Rat) / 10

/-- R192: the effective targets under the published ceilings. -/
def clipTargets (o : Nat) (s : State) : State :=
  let a := s.alcOut o
  s.modPath o fun p => { p with iEff := min p.req.iTarget a.iCeil, vEff := min p.req.vTarget a.vCeil }

/-- R194 on one axis, whose ceiling was `was` and is `new`, with effective value `eff`: a fall below the present value, a fall below the goal of a trajectory, or a rise. -/
def ceilingAxis (o : Nat) (volt : Bool) (was new eff : Nat) (s : State) : State :=
  let ax := if volt then (s.path o).vAxis else (s.path o).iAxis
  let g := tenths eff
  if new < was then
    if tenths new < ax.x then
      s.modPath o fun p => if volt then { p with vAxis := p.vAxis.setTo g } else { p with iAxis := p.iAxis.setTo g }
    else if ax.moving && decide (tenths new < ax.goal) then planAxes o false [(volt, g)] s
    else s
  else if was < new ∧ ax.goal ≠ g then planAxes o false [(volt, g)] s
  else s

/-- R194 on the voltage that an outlet holds: a fall acts, a rise does not. -/
def ceilingHeld (o : Nat) (was new : AlcOutlet) (s : State) : State :=
  if new.vCeil < was.vCeil then ceilingAxis o true was.vCeil new.vCeil new.vCeil s else s

/-- R194 on a current that goes to 0: it is cut to the ceiling and goes on to 0 (log 84). -/
def ceilingToZero (o : Nat) (was new : AlcOutlet) (s : State) : State :=
  if new.iCeil < was.iCeil ∧ tenths new.iCeil < (s.path o).iAxis.x then
    planAxes o false [(false, 0)] (ceilingAxis o false was.iCeil new.iCeil new.iCeil s)
  else s

/-- R194: the published ceilings, which were `was`, act on the axes that the path state drives. -/
def applyCeilings (was : Nat → AlcOutlet) (o : Nat) (s : State) : State :=
  let s1 := clipTargets o s
  let p := s1.path o
  let c := s1.alcOut o
  let w := was o
  match p.state with
  | .deliver => ceilingAxis o true w.vCeil c.vCeil p.vEff (ceilingAxis o false w.iCeil c.iCeil p.iEff s1)
  | .check | .precharge => ceilingAxis o true w.vCeil c.vCeil p.vEff s1
  | .connected => ceilingHeld o w c s1
  | .paused | .stopping => ceilingHeld o w c (ceilingToZero o w c s1)
  | _ => s1

/-! ### Stops (R190, R214, R216, R217) -/

/-- R190: CONNECTING to PAUSED enter STOPPING; the open TARGET receives its NAK, unless the stop is its own. FAST sets the current reference to 0 at once with the generator reset, RAMP plans it to 0. -/
def stopPath (o : Nat) (fast : Bool) (nak : Option (Nat × Nat)) (s : State) : State :=
  let s1 := match nak with
    | some (r, d) => if (s.path o).state.started then nakOpen o r d s else s
    | none => s
  let run := (s1.path o).state.started
  let s2 := when run (setPathState o .stopping) s1
  if fast && (run || (s2.path o).state == .stopping) then
    s2.modPath o fun p => { p with iAxis := p.iAxis.setTo 0, vAxis := p.vAxis.setTo p.vAxis.x }
  else when run (planAxes o false [(false, 0)]) s2

/-- R254, R355, R379, R385, R386, R584: the outlet stops as for OUTLET_HALT with mode FAST, and no halt stays in force: an open TARGET receives its NAK in every state, and the transfers toward the outlet abort too (R166, log 86). -/
def stopFast (o : Nat) (nak : Option (Nat × Nat)) (s : State) : State :=
  abortToward o true (stopPath o true none (match nak with
    | some (r, d) => nakOpen o r d s
    | none => s))

/-- R217: on entry to Safe every path that is not IDLE answers its TARGET, enters STOPPING and has its current reference at 0 at once. -/
def pathSafe (o : Nat) (s : State) : State :=
  if (s.path o).state == .idle then s
  else (setPathState o .stopping (nakOpen o 0x0C 4 s)).modPath o fun p => { p with
    discharge := none, dischargeDone := false, iAxis := p.iAxis.setTo 0, vAxis := p.vAxis.setTo p.vAxis.x }

/-- R190: a stop of a stage that leaves no stage on a started outlet stops the outlet. -/
def afterStageLoss (o : Option Nat) (s : State) : State :=
  match o with
  | none => s
  | some o =>
    let s1 := recomputeShares o s
    when ((s1.path o).state.started && (s1.steadyStages o).isEmpty) (stopPath o false (some (0x0C, 3))) s1

/-- R253 with its effect on the outlet (R190). -/
def safeStop (i : Nat) (s : State) : State :=
  let o := (s.stage i).outlet
  afterStageLoss o (safeStopStage i s)

/-- Safe-stop every stage that the assignment table shows on an outlet. -/
def safeStopOutlet (o : Nat) (s : State) : State := forAll (s.heldStages o) safeStopStage s

/-- R190: enter FAULTED with an E0 + o event and the NAK of the open TARGET. -/
def faultPath (o cause : Nat) (payload : List Byte) (reason detail : Nat) (s : State) : State :=
  setPathState o .faulted (nakOpen o reason detail (raise o cause o payload s))

/-- R190, R215, R216: entry to IDLE; a deferred resume clears the halt and a held CONNECT starts fresh. -/
def enterIdle (o : Nat) (s : State) : State :=
  let s1 := setPathState o .idle (s.modPath o fun p => { p with
    discharge := none, dischargeDone := false, iAxis := {}, vAxis := {}
    halted := p.halted && !p.resumeDeferred, resumeDeferred := false, iEff := 0, vEff := 0 })
  if (s1.path o).heldConnect then
    setPathState o .connecting (s1.modPath o fun p => { p with
      heldConnect := false, matchFrom := 0, matchAt := s.now })
  else s1

/-! ### Commands (R185, R186, R190, R202) -/

/-- R186 check 4: the command is permitted by the path state. -/
def cmdPermitted (cmd : Nat) (p : Path) : Bool :=
  match cmd, p.state with
  | 0, .faulted => true
  | 0, st => st.started
  | 1, .idle => true
  | 1, .stopping | 1, .discharging => !p.halted
  | 2, .connected | 2, .check => true
  | 3, .connected | 3, .check | 3, .precharge => true
  | 4, .connected | 4, .check | 4, .precharge | 4, .paused | 4, .deliver => true
  | 5, .deliver => true
  | 1, _ | 2, _ | 3, _ | 4, _ | 5, _ => false
  | _, _ => true

/-- R186: reason and detail of the first failing check of 2 to 5. -/
def targetRefusal (o : Nat) (t : List Byte) (s : State) : Option (Nat × Nat) :=
  let p := s.path o
  if s.pwr.opState == .safe then some (0x0B, 0)
  else if tCmd t = 1 ∧ p.halted then some (0x07, 0)
  else if !cmdPermitted (tCmd t) p then some (0x01, p.state.code)
  else match tBadField t with
    | some off => some (0x02, off)
    | none => none

/-- R202: K_REQ clamped to the sealed range. -/
def clampK (s : State) (o k : Nat) : Nat := max (s.kMin o) (min (s.kMax o) k)

/-- R190: what an accepted command does to the path. -/
def startCommand (o : Nat) (t : List Byte) (s : State) : State :=
  let st := (s.path o).state
  match tCmd t with
  | 0 => if st == .faulted then (if s.faultEnd o then enterIdle o (ackOpen o s) else s) else stopPath o false none s
  | 1 => if st == .idle
      then setPathState o .connecting (s.modPath o fun p => { p with matchFrom := 0, matchAt := s.now })
      else s.modPath o fun p => { p with heldConnect := true, tgt := p.tgt.map fun t => { t with deferred := true } }
  | 2 => planAxes o (st == .check) [(true, tenths (s.path o).vEff)] (setPathState o .check s)
  | 3 => planAxes o (st == .precharge) [(true, tenths (s.path o).vEff)] (setPathState o .precharge s)
  | 4 => planAxes o (st == .deliver) [(false, tenths (s.path o).iEff), (true, tenths (s.path o).vEff)] (setPathState o .deliver s)
  | _ => planAxes o false [(false, 0)] (setPathState o .paused s)

/-- R195: the plan duration of an accepted TARGET: the longer of the trajectories that it started. -/
def notePlan (o cmd : Nat) (s : State) : State :=
  s.modPath o fun p =>
    let i := if cmd = 4 ∨ cmd = 5 then p.iAxis.duration (p.slew false) else 0
    let v := if cmd = 2 ∨ cmd = 3 ∨ cmd = 4 then p.vAxis.duration (p.slew true) else 0
    { p with tgt := p.tgt.map fun t => { t with planMs := max i v } }

/-- R185: acceptance. The open TARGET is answered SUPERSEDED, and the new one opens. -/
def acceptTarget (o : Nat) (t : List Byte) (s : State) : State :=
  let s1 := nakOpen o 0x03 (tSeq t).toNat s
  let k := u16 t 18
  let s2 := s1.modPath o fun p => { p with
    lastAcc := tSeq t
    req := tRequest t
    bandAt := none
    kReq := if tCmd t = 2 then clampK s o k else p.kReq
    tgt := some { bytes := t, acceptedAt := s.now, kClamped := decide (tCmd t = 2 ∧ clampK s o k ≠ k) } }
  notePlan o (tCmd t) (startCommand o t (clipTargets o s2))

/-- R185, R186: a new TARGET passes checks 2 to 5 or is answered with a NAK. -/
def newTarget (o : Nat) (t : List Byte) (s : State) : State :=
  match targetRefusal o t s with
  | some (r, d) => sendNak o t r d s
  | none => acceptTarget o t s

/-! ### Phases (R210 to R213) -/

/-- R212: disable a phase; at n′ = 0 the stage is safe-stopped. `note` raises what the disabling raises. -/
def disablePhase (i k : Nat) (note : State → State) (s : State) : State :=
  if !(s.runMask i).getLsbD k then s
  else
    let s1 := note (s.modStage i fun st => { st with dropped := st.dropped ||| BitVec.ofNat 4 (2 ^ k) })
    when (s1.nRun i == 0) (safeStop i) s1

/-- R209, R210, R213: disable a phase, with its event: the local phase and n′. -/
def dropPhase (i k cause : Nat) (s : State) : State :=
  disablePhase i k (fun s => raise (24 + i / 4) cause i (toLE 1 k ++ toLE 4 (s.nRun i))
    (s.modStage i fun st => { st with lost := st.lost ||| BitVec.ofNat 4 (2 ^ k) })) s

/-! ### Registers (R221) -/

/-- The words of SPP_OUTo. DESIGN CHOICE (log 102): FALLBACK_CAUSE reads 0 outside fallback. -/
def sppOutWord (s : State) (o k : Nat) : Nat :=
  let p := s.path o
  match k with
  | 0 => p.state.code + fld 4 3 (s.demand o).code + fld 7 1 (b2n (p.fallback != 0)) + fld 8 2 p.fallback
      + fld 10 1 (b2n p.halted) + fld 11 1 (b2n p.heldConnect) + fld 12 1 (b2n p.linkUp)
  | 1 => p.lastAcc.toNat + fld 16 16 p.answered.toNat
  | 2 => fld 0 16 p.iEff + fld 16 16 p.vEff
  | 3 => s.iMeasDa o + fld 16 16 (s.vMeasDv o)
  | 4 => s.inletDv o
  | 5 => fld 0 16 p.frameErrors + fld 16 16 p.naks
  | _ => min 255 (p.recent s.now).length

/-- SPP_STGs. -/
def sppStgWord (s : State) (i : Nat) : Nat :=
  let st := s.stage i
  (s.runMask i).toNat + fld 4 4 st.lost.toNat + fld 8 16 st.kShare.toNat

/-- R221: the registers follow at every generator tick. -/
def showSpp (s : State) : State :=
  forAll (List.range 32) (fun i t => t.modStage i fun st => { st with shown := BitVec.ofNat 32 (sppStgWord s i) })
    (forAll (List.range 8) (fun o t => t.modPath o fun p => { p with shown := (List.range 7).map fun k => BitVec.ofNat 32 (sppOutWord s o k) }) s)

end Sys2Proof.Machine
end

