-- ==== Sys2Proof/Machine/LawOps.lean ====
section
/-! DEFINITION. What the law engines read: the schedule and programs of the active profile (R265 to R269), the instruction words (R239, R240), and the input signals with the derived ones (R232 to R237). -/

namespace Sys2Proof.Machine

/-! ### Instruction words (R239, R240) -/

/-- R239: a word from its fields; `low` holds SC, K8, IMM16 or OFF10 in place. -/
def lawWord (op rd ra rb : Nat) (ac : Bool) (low : Nat) : Nat :=
  op * 2 ^ 26 + rd * 2 ^ 22 + ra * 2 ^ 18 + rb * 2 ^ 14 + b2n ac * 2 ^ 13 + low

def lwOp (w : Nat) : Nat := bits w 26 6
def lwRd (w : Nat) : Nat := bits w 22 4
def lwRa (w : Nat) : Nat := bits w 18 4
def lwSc (w : Nat) : Nat := bits w 8 5
def lwK (w : Nat) : Nat := bits w 0 8
def lwOff (w : Nat) : Nat := bits w 0 10

/-- The fields an instruction uses. -/
structure LawForm where
  rd : Bool := false
  ra : Bool := false
  rb : Bool := false
  ac : Bool := false
  /-- Width of the low field and its position: SC at 8, K8, IMM16 or OFF10 at 0. -/
  lowBits : Nat := 0
  lowAt : Nat := 0
  cycles : Nat := 1

def fRK : LawForm := { rd := true, lowBits := 8 }
def fAK : LawForm := { ra := true, lowBits := 8 }
def fRA : LawForm := { rd := true, ra := true }
def fRAB : LawForm := { rd := true, ra := true, rb := true }
def fC : LawForm := { ac := true }
def fCA : LawForm := { ac := true, ra := true }
def fCAB : LawForm := { ac := true, ra := true, rb := true }
def fCAK : LawForm := { ac := true, ra := true, lowBits := 8 }

/-- R240: the listed opcodes. -/
def lawForm (op : Nat) : Option LawForm :=
  match op with
  | 0x00 | 0x3F => some {}
  | 0x01 | 0x02 | 0x04 => some fRK
  | 0x03 | 0x05 => some fAK
  | 0x06 => some { rd := true, lowBits := 16 }
  | 0x07 | 0x1D | 0x1E => some fRA
  | 0x08 | 0x11 => some fC
  | 0x09 | 0x0A | 0x0B | 0x13 => some fCAB
  | 0x0C | 0x0D => some fCAK
  | 0x0E | 0x0F | 0x10 => some fCA
  | 0x12 => some { ac := true, lowBits := 5, lowAt := 8 }
  | 0x14 => some { rd := true, ac := true }
  | 0x15 | 0x16 => some { ac := true, lowBits := 8, cycles := 3 }
  | 0x18 | 0x19 | 0x1A | 0x1B | 0x1C | 0x20 | 0x21 | 0x22 => some fRAB
  | 0x1F => some { rd := true, ra := true, lowBits := 5, lowAt := 8 }
  | 0x23 => some { ra := true, rb := true }
  | 0x24 => some { rd := true, ra := true, rb := true, lowBits := 4, lowAt := 8 }
  | 0x25 => some { rd := true, ra := true, lowBits := 8, cycles := 3 }
  | 0x30 => some { rd := true, lowBits := 10 }
  | _ => none

/-- R239: the word without the fields that its form uses is its opcode alone. -/
def LawForm.unusedZero (f : LawForm) (w : Nat) : Bool :=
  let part := fun (use : Bool) (lo n : Nat) => if use then bits w lo n * 2 ^ lo else 0
  w == lwOp w * 2 ^ 26 + part f.rd 22 4 + part f.ra 18 4 + part f.rb 14 4 + part f.ac 13 1 + part true f.lowAt f.lowBits

/-- R239, R240, R242: the word is a listed instruction with its unused bits 0 and a defined condition. -/
def lawWordOk (w : Nat) : Bool :=
  match lawForm (lwOp w) with
  | none => false
  | some f => f.unusedZero w && (lwOp w != 0x30 || lwRd w ≤ 9) && (lwOp w != 0x24 || bits w 8 4 ≤ 9)

/-! ### Schedule and programs -/

/-- The records of LAW_SCHEDULE (R268). -/
def schedRecs (sec : List Byte) : List (List Byte) := (List.range (u16 sec 4)).map fun k => (sec.drop (16 + 128 * k)).take 128

def srSlot (r : List Byte) : Nat := u16 r 0
def srEngine (r : List Byte) : Nat := u8 r 2
def srClass (r : List Byte) : Nat := u8 r 3
def srProgram (r : List Byte) : Nat := u16 r 4
def srCoef (r : List Byte) : Nat := u16 r 6
def srDiv (r : List Byte) : Nat := u8 r 8
def srOffset (r : List Byte) : Nat := u8 r 9
def srOrder (r : List Byte) : Nat := u16 r 0x0A
def srState (r : List Byte) : Nat := u16 r 0x0C
def srIns (r : List Byte) : Nat := u8 r 0x0E
def srOuts (r : List Byte) : Nat := u8 r 0x0F
def srOwner (r : List Byte) : Nat := u8 r 0x10
def srInjMax (r : List Byte) : Nat := u16 r 0x12
/-- The signal IDs of the ports in use; 0 for another port. -/
def srIn (r : List Byte) (k : Nat) : Nat := if k < srIns r then u16 r (0x20 + 2 * k) else 0
def srOut (r : List Byte) (k : Nat) : Nat := if k < srOuts r then u16 r (0x60 + 2 * k) else 0
def srOutIds (r : List Byte) : List Nat := (List.range (srOuts r)).map (srOut r)
def srInIds (r : List Byte) : List Nat := (List.range (srIns r)).map (srIn r)

/-- R266, R267: the entry of a program or coefficient block by ID. -/
def progEntry (sec : List Byte) (id : Nat) : Option (List Byte) :=
  ((List.range (u16 sec 0)).map fun k => bytesAt sec (16 + 16 * k) 16).find? fun e => u16 e 0 == id

def coefEntry (sec : List Byte) (id : Nat) : Option (List Byte) :=
  ((List.range (u16 sec 2)).map fun k => bytesAt sec (16 + 16 * u16 sec 0 + 8 * k) 8).find? fun e => u16 e 0 == id

def State.lawRecs (s : State) : List (List Byte) := if s.law.running then schedRecs (s.sec 5) else []

/-- The record of a slot; empty when the schedule has no such slot. -/
def State.lawRec (s : State) (slot : Nat) : List Byte := ((s.lawRecs.find? fun r => srSlot r == slot)).getD []

/-- The program word of a slot at an address; `none` outside the program. -/
def State.lawWordAt (s : State) (slot pc : Nat) : Option Nat :=
  match progEntry (s.sec 4) (srProgram (s.lawRec slot)) with
  | none => none
  | some e => if pc < u16 e 2 then some (u32 (s.sec 4) (u32 e 0x0C + 4 * pc)) else none

/-- CF[k] of a slot. -/
def State.coef (s : State) (slot k : Nat) : Half :=
  match coefEntry (s.sec 4) (srCoef (s.lawRec slot)) with
  | none => 0
  | some e => if k < u16 e 2 then BitVec.ofNat 16 (u16 (s.sec 4) (u32 e 4 + 2 * k)) else 0

/-- R261: the slot's run rate in Hz is BASE_RATE_HZ / 2^D. -/
def State.runRate (s : State) (slot : Nat) : Rat := (s.law.baseRate : Rat) / (2 ^ srDiv (s.lawRec slot) : Nat)

/-! ### Derived signals (R235, R237) -/

/-- R235: STAGE_MODE. -/
def State.stageMode (s : State) (i : Nat) : Nat :=
  let st := s.stage i
  if !st.outEn then 0
  else if s.inRamp i then 3
  else if st.xfer == .tracking || st.xfer == .closing then 2
  else match st.outlet with
    | some o => (match (s.path o).state with
      | .connecting | .check | .precharge | .discharging => 2
      | _ => 1)
    | none => 1

/-- The outlet whose bus a stage tracks or feeds. -/
def Stage.onOutlet (st : Stage) : Option Nat := if st.xfer == .tracking || st.xfer == .closing then st.dest else st.outlet

/-- R207, R237: the tracking current limit in A that governs STAGE_CTRL, if any. -/
def State.trackLimit (s : State) (i : Nat) : Option Nat :=
  let st := s.stage i
  if st.outEn && (st.xfer == .tracking || st.xfer == .closing) then some s.trackILimitA
  else match st.outlet with
    | some o => (match (s.path o).state with
      | .connecting | .precharge => some (s.prechargeIA o)
      | .check => some (s.checkIA o)
      | .discharging => some s.trackILimitA
      | _ => none)
    | none => none

/-- R237: STAGE_CTRL after the tracking limit, Q15 at 1024 A. -/
def State.stageCtrl (s : State) (i : Nat) : Int :=
  let v := (s.output (sigId 0x21 i)).toInt
  match s.trackLimit i with
  | some a => max (-(qOfA a)) (min (qOfA a) v)
  | none => v

/-- R235: PHASE_IREF. -/
def State.phaseIref (s : State) (p : Nat) : Int :=
  let i := p / 4
  if (s.runMask i).getLsbD (p % 4) then clampQ15 (divRound (s.stageCtrl i * 2) (s.nRun i)) else 0

/-- A value moved toward a goal by no more than a slew in V/ms over a time in ns; Q15 units at 1600 V, not rounded. -/
def slewed (slewV : Nat) (frm goal : Rat) (ns : Nat) : Rat :=
  let d : Rat := ((slewV * ns * 32768 : Nat) : Rat) / 1600000000
  if frm < goal then min goal (frm + d) else max goal (frm - d)

/-- R201: the reference that follows the inlet rail. -/
def State.inletRef (s : State) (o : Nat) : Rat :=
  let p := s.path o
  slewed s.trackSlewVPerMs p.matchFrom (s.inletQ o) (s.now - p.matchAt)

/-- R200: the discharge rail, from the bus voltage at its start toward 0 V. -/
def State.dischargeRail (s : State) (o : Nat) : Int :=
  match (s.path o).discharge with
  | some (t, v) => roundRat (slewed (s.dischargeSlew o) (max 0 v) 0 (s.now - t))
  | none => s.busQ o

/-- R235: OUTLET_VREF, Q15 at 1600 V, rounded once (R229). -/
def State.outletVref (s : State) (o : Nat) : Int :=
  let p := s.path o
  match p.state with
  | .connecting => roundRat (s.inletRef o)
  | .precharge | .deliver | .paused | .stopping => p.vAxis.q15 1600
  | .check => clampQ15 (roundRat (p.vAxis.x * p.kReq / 1600))
  | .discharging => s.dischargeRail o
  | _ => 0

/-- R235: OUTLET_IREF, Q15 at 4096 A. -/
def State.outletIref (s : State) (o : Nat) : Int :=
  let p := s.path o
  match p.state with
  | .deliver | .paused | .stopping => p.iAxis.q15 4096
  | .connecting | .precharge => clampQ15 (divRound (s.prechargeIA o * 32768 : Nat) 4096)
  | .check => clampQ15 (divRound (s.checkIA o * 32768 : Nat) 4096)
  | _ => 0

/-- R183, R233: OUTLET_VMEAS. -/
def State.outletVmeas (s : State) (o : Nat) : Int := (toQ15 ((s.vMeasDv o * 32768 : Nat) : Int) 16000).toInt

/-- R165: the reference of a transfer: the bus voltage of the destination, 0 V without a steady stage there. -/
def State.trackGoal (s : State) (i : Nat) : Int :=
  match (s.stage i).dest with
  | some o => if (s.steadyStages o).isEmpty then 0 else s.busQ o
  | none => 0

/-- R165, R235: STAGE_VREF. In TRACKING the stage moves toward the reference at TRACK_SLEW_V_PER_MS. -/
def State.stageVref (s : State) (i : Nat) : Int :=
  let st := s.stage i
  if s.stageMode i = 2 then
    (match st.xfer with
    | .tracking => roundRat (slewed s.trackSlewVPerMs st.trackFrom (s.trackGoal i) (s.now - st.stepAt))
    | .closing => s.trackGoal i
    | _ => match st.outlet with
      | some o => s.outletVref o
      | none => 0)
  else match st.outlet with
    | some o => s.outletVmeas o
    | none => 0

/-- R235: STAGE_IREF as a signal: 0 in TRACK and OFF. -/
def State.stageIrefSignal (s : State) (i : Nat) : Int := if s.stageMode i = 2 then 0 else s.stageIref i

/-- R232, R233: the present value of an input signal. -/
def State.signal (s : State) (id : Nat) : Half :=
  let k := id % 1024
  let q := fun v : Int => BitVec.ofInt 16 (clampQ15 v)
  match id / 1024 with
  | 0x01 => q (s.phaseI k)
  | 0x02 => q (s.phaseIref k)
  | 0x03 => q (s.stVout k)
  | 0x04 => q (s.stIout k)
  | 0x05 => q (s.stVin k)
  | 0x06 => q (s.stageIrefSignal k)
  | 0x07 => q (s.stageVref k)
  | 0x08 => BitVec.ofNat 16 (s.stageMode k)
  | 0x09 => s.nodeTemp (k / 8) (k % 8)
  | 0x0A => q (s.outletVmeas k)
  | 0x0B => toQ15 ((s.iMeasDa k * 32768 : Nat) : Int) 40960
  | 0x0C => q (s.outletIref k)
  | 0x0D => q (s.outletVref k)
  | 0x0E => toQ15 (((s.alcOut k).iCeil * 32768 : Nat) : Int) 40960
  | 0x0F => toQ15 (((s.alcOut k).vCeil * 32768 : Nat) : Int) 16000
  | 0x10 => BitVec.ofNat 16 (s.path k).state.code
  | 0x11 => q (s.acq.mean.getD k 0)
  | 0x30 => s.output id
  | _ => 0

/-- R234: the latched value of an input signal; AUX reads the value published at the previous window's end. -/
def State.latched (s : State) (id : Nat) : Half :=
  if id / 1024 = 0x30 then s.output id else ((s.law.inputs.find? fun p => p.1 == id).map (·.2)).getD 0

end Sys2Proof.Machine
end

