-- ==== Sys2Proof/Machine/Holds.lean ====
section
/-! DEFINITION. Conditions that must hold without a break for a time: tracking (R165), the inlet match (R190, R201), the acknowledgement bands (R195), discharge (R204) and shorts (R207). Each is looked at whenever a measurement or a reference is new: at the latch of an UPLINK, at a law window's start and at a generator tick. -/

namespace Sys2Proof.Machine

/-- A condition that has held since `t` has held for `d` ns. -/
def heldFor (t : Option Nat) (d now : Nat) : Bool :=
  match t with
  | some a => decide (a + d ≤ now)
  | none => false

/-- Since when a condition has held without a break, given whether it holds now. -/
def holdSince (c : Bool) (now : Nat) (old : Option Nat) : Option Nat := if c then some (noneTo now old) else none

/-! ### Stages (R165, R207) -/

/-- Two voltages of Q15 at 1600 V lie within 5 V of each other. -/
def within5V (a b : Int) : Bool := decide ((a - b).natAbs * 1600 ≤ 5 * 32768)

/-- R165: the output is within 5 V of the bus voltage that it tracks, or the bus it tracks to 0 V for is verified discharged. -/
def State.tracked (s : State) (i : Nat) : Bool :=
  within5V (s.stVout i) (s.trackGoal i) && (match (s.stage i).dest with
    | some o => !(s.steadyStages o).isEmpty || s.busLow o
    | none => false)

/-- R207: the rail of a stage to which the short rule applies, in Q15 at 1600 V. -/
def State.shortRail (s : State) (i : Nat) : Option Int :=
  let st := s.stage i
  if st.xfer == .tracking then some (s.trackGoal i)
  else match st.outlet with
    | none => none
    | some o => match (s.path o).state with
      | .connecting => if st.steadyOn o then some (s.inletQ o) else none
      | .check | .precharge => some ((s.path o).vAxis.q15 1600)
      | _ => none

/-- R207: the rail is at or above SHORT_MIN_REF_V, the current at or above 95 % of the tracking limit, and the output below 20 % of the reference that the stage follows. -/
def State.shorted (s : State) (i : Nat) : Bool :=
  match s.shortRail i, s.trackLimit i with
  | some rail, some a =>
    decide ((s.shortMinRefV * 32768 : Nat) ≤ rail * 1600) && decide ((95 * a * 32768 : Nat) ≤ s.stIout i * 102400)
      && decide (s.stVout i * 5 < s.stageVref i)
  | _, _ => false

def watchStage (i : Nat) (s : State) : State :=
  s.modStage i fun st => { st with
    nearAt := holdSince (st.xfer == .tracking && s.tracked i) s.now st.nearAt
    shortAt := holdSince (s.shorted i) s.now st.shortAt }

/-! ### Outlets (R195, R201, R204) -/

/-- I_band in units of 0.0001 A. -/
def iBand (s : State) (o : Nat) : Nat := max (10000 * s.ackIBandA o) ((s.path o).iEff * s.ackIBandPermille o)

/-- R195: a voltage of 0.1 V units lies within the voltage band of `k` / 32768 × V_EFF. -/
def vInBand (s : State) (o k : Nat) : Bool :=
  let goal := k * (s.path o).vEff
  decide (natDist (32768 * s.vMeasDv o) goal ≤ 32768 * 10 * s.ackVBandV o)

/-- R195: the in-band condition of an open command. -/
def inBand (s : State) (o cmd : Nat) : Bool :=
  let p := s.path o
  let ended := !p.iAxis.moving && !p.vAxis.moving
  let i := 1000 * s.iMeasDa o
  let e := 1000 * p.iEff
  match cmd with
  | 2 => p.state == .check && !p.vAxis.moving && vInBand s o p.kReq
  | 3 => p.state == .precharge && !p.vAxis.moving && vInBand s o 32768
  | 4 => p.state == .deliver && ended
      && (decide (natDist i e ≤ iBand s o) || (decide (p.vEff ≤ s.vMeasDv o + 10 * s.ackVBandV o) && decide (i ≤ e + iBand s o)))
  | 5 => p.state == .paused && decide (i ≤ iBand s o)
  | _ => false

/-- The command of the open TARGET. -/
def openCmd (p : Path) : Option Nat := p.tgt.map fun t => tCmd t.bytes

/-- R190, R201: an outlet in CONNECTING with a steady stage has matched the inlet rail within 5 V. -/
def State.inletMatched (s : State) (o : Nat) : Bool :=
  (s.path o).state == .connecting && !(s.steadyStages o).isEmpty && within5V (s.busQ o) (s.inletQ o)

/-- R190, R204: the bus is at or below DISCHARGE_V in DISCHARGING. -/
def State.discharged (s : State) (o : Nat) : Bool := (s.path o).state == .discharging && s.busLow o

def watchPath (o : Nat) (s : State) : State :=
  s.modPath o fun p => { p with
    nearAt := holdSince (s.inletMatched o) s.now p.nearAt
    bandAt := holdSince (inBand s o (noneTo 0 (openCmd p))) s.now p.bandAt
    lowAt := holdSince (s.discharged o) s.now p.lowAt }

/-- Look at every condition. -/
def watch (s : State) : State := forAll (List.range 8) watchPath (forAll (List.range 32) watchStage s)

end Sys2Proof.Machine
end

