-- ==== Sys2Proof/Machine/LawRun.lean ====
section
/-! DEFINITION. The law instructions (R239 to R243, R250): each row is one instruction that engine `e` executes on its present run, when the word at the run's address is that instruction. -/

namespace Sys2Proof.Machine

/-! ### Runs (R230, R248, R250) -/

/-- R255, R583: the freeze bit of an engine's master. -/
def State.engineFrozen (s : State) (e : Nat) : Bool := s.isFrozen (0x18 + e)

/-- R230, R248: start the next due slot of an engine: registers, accumulators and flags 0, and 6 dispatch cycles. -/
def startRun (e : Nat) (s : State) : State :=
  match (s.engine e).due with
  | [] => s.modEngine e fun g => { g with run := none }
  | sl :: rest =>
    let st := (nth s.law.slots sl).st
    s.modEngine e fun g => { g with
      due := rest
      run := some { slot := sl, st := st }
      used := g.used + 6 }

/-- The run on which the engine executes the word `w` now, if any. -/
def State.runAt (s : State) (e w : Nat) : Option Run :=
  if !s.law.openNow || s.engineFrozen e || (s.engine e).fault || !lawWordOk w then none
  else match (s.engine e).run with
    | none => none
    | some r => if s.lawWordAt r.slot r.pc == some w then some r else none

/-- R231, R245: an engine spends the cycles of an instruction, and 2 more to correct a single-bit error that it meets, which is counted (R271, R272). -/
def spend (e cycles : Nat) (s : State) : State :=
  if (s.engine e).flips = 0 then s.modEngine e fun g => { g with used := g.used + cycles }
  else countEvent (16 + e) 3 0xFF (s.modEngine e fun g => { g with
    used := g.used + cycles + 2, flips := g.flips - 1, corrected := satAdd 16 g.corrected 1 })

/-- A law instruction, which asks for no record or message of its own. -/
def quiet (f : State → State) (s : State) : Host.Outcome State Fault Refusal :=
  if s.pwr.undefinedLogic then .fault .supplyUndefined else .next (if s.awake then f s else s)

/-- An instruction of engine `e`: its word, its cycles and the next address, and what it does to the run. -/
def lawRow (e : Fin 8) (w : Nat) (cycles : Run → Nat) (f : State → Run → Run) (s : State) : Host.Outcome State Fault Refusal :=
  quiet (fun s =>
    match s.runAt e w with
    | none => s
    | some r => spend e (cycles r) (s.modEngine e fun g => { g with run := some (f s r) })) s

def one (_ : Run) : Nat := 1
def three (_ : Run) : Nat := 3

/-! ### Operands -/

/-- Xa. -/
def Run.reg (r : Run) (a : BitVec 4) : Half := r.x.getD a.toNat 0
/-- The next address. -/
def Run.next (r : Run) : Run := { r with pc := r.pc + 1 }
def Run.setReg (r : Run) (d : BitVec 4) (v : Half) : Run := { r with x := r.x.set d.toNat v }
def Run.acc (r : Run) (ac : Bool) : Acc := if ac then r.acc1 else r.acc0
def Run.setAcc (r : Run) (ac : Bool) (v : Acc) : Run := if ac then { r with acc1 := v } else { r with acc0 := v }
def Run.state (r : Run) (k : Nat) : Half := r.st.getD k 0
def Run.setState (r : Run) (k : Nat) (v : Half) : Run := { r with st := r.st.set k v }
def Run.modFlags (r : Run) (f : LawFlags → LawFlags) : Run := { r with flags := f r.flags }

/-- A register result that sets N and Z. -/
def Run.toReg (r : Run) (d : BitVec 4) (v : Half) : Run := ((r.setReg d v).modFlags (·.nz v)).next
/-- A register result that sets N, Z and SAT. -/
def Run.toRegSat (r : Run) (d : BitVec 4) (v : Half × Bool) : Run := ((r.setReg d v.1).modFlags fun f => (f.nz v.1).satOr v.2).next
/-- An exact accumulator result under R228. -/
def Run.toAcc (r : Run) (ac : Bool) (v : Int) : Run := ((r.setAcc ac (satAcc v).1).modFlags (·.ovOr (satAcc v).2)).next

def product (x y : Half) : Int := x.toInt * y.toInt

/-- R259: the sample that the injector adds to port k of the run's slot, if any. -/
def State.injected (s : State) (e : Nat) (r : Run) (k : Nat) : Int :=
  match (s.engine e).inj with
  | some i => if i.started && i.slot == r.slot && i.port == k && (i.runs == 0 || i.n ≤ i.runs) then i.y else 0
  | none => 0

/-- R240, R259: IN. -/
def State.portIn (s : State) (e : Nat) (r : Run) (k : Nat) : Half :=
  (satQ15 ((s.latched (srIn (s.lawRec r.slot) k)).toInt + s.injected e r k)).1

/-! ### The instructions (R240) -/

def execLawNop (e : Fin 8) (s : State) : Host.Outcome State Fault Refusal :=
  lawRow e (lawWord 0x00 0 0 0 false 0) one (fun _ r => r.next) s

def execLdc (e : Fin 8) (rd : BitVec 4) (k : Byte) (s : State) : Host.Outcome State Fault Refusal :=
  lawRow e (lawWord 0x01 rd.toNat 0 0 false k.toNat) one (fun s r => (r.setReg rd (s.coef r.slot k.toNat)).next) s

def execLds (e : Fin 8) (rd : BitVec 4) (k : Byte) (s : State) : Host.Outcome State Fault Refusal :=
  lawRow e (lawWord 0x02 rd.toNat 0 0 false k.toNat) one (fun _ r => (r.setReg rd (r.state k.toNat)).next) s

def execSts (e : Fin 8) (ra : BitVec 4) (k : Byte) (s : State) : Host.Outcome State Fault Refusal :=
  lawRow e (lawWord 0x03 0 ra.toNat 0 false k.toNat) one (fun _ r => (r.setState k.toNat (r.reg ra)).next) s

def execLin (e : Fin 8) (rd : BitVec 4) (k : Byte) (s : State) : Host.Outcome State Fault Refusal :=
  lawRow e (lawWord 0x04 rd.toNat 0 0 false k.toNat) one (fun s r => (r.setReg rd (s.portIn e r k.toNat)).next) s

/-- R238: the last write of a port counts. -/
def execLout (e : Fin 8) (ra : BitVec 4) (k : Byte) (s : State) : Host.Outcome State Fault Refusal :=
  lawRow e (lawWord 0x05 0 ra.toNat 0 false k.toNat) one (fun _ r =>
    ({ r with outs := r.outs.filter (fun p => p.1 != k.toNat) ++ [(k.toNat, r.reg ra)] } : Run).next) s

def execLdi (e : Fin 8) (rd : BitVec 4) (imm : Half) (s : State) : Host.Outcome State Fault Refusal :=
  lawRow e (lawWord 0x06 rd.toNat 0 0 false imm.toNat) one (fun _ r => (r.setReg rd imm).next) s

def execMov (e : Fin 8) (rd ra : BitVec 4) (s : State) : Host.Outcome State Fault Refusal :=
  lawRow e (lawWord 0x07 rd.toNat ra.toNat 0 false 0) one (fun _ r => r.toReg rd (r.reg ra)) s

def execClr (e : Fin 8) (ac : Bool) (s : State) : Host.Outcome State Fault Refusal :=
  lawRow e (lawWord 0x08 0 0 0 ac 0) one (fun _ r => (r.setAcc ac 0).next) s

def execMpy (e : Fin 8) (ac : Bool) (ra rb : BitVec 4) (s : State) : Host.Outcome State Fault Refusal :=
  lawRow e (lawWord 0x09 0 ra.toNat rb.toNat ac 0) one (fun _ r => r.toAcc ac (product (r.reg ra) (r.reg rb))) s

def execMac (e : Fin 8) (ac : Bool) (ra rb : BitVec 4) (s : State) : Host.Outcome State Fault Refusal :=
  lawRow e (lawWord 0x0A 0 ra.toNat rb.toNat ac 0) one (fun _ r => r.toAcc ac (accVal (r.acc ac) + product (r.reg ra) (r.reg rb))) s

def execMsu (e : Fin 8) (ac : Bool) (ra rb : BitVec 4) (s : State) : Host.Outcome State Fault Refusal :=
  lawRow e (lawWord 0x0B 0 ra.toNat rb.toNat ac 0) one (fun _ r => r.toAcc ac (accVal (r.acc ac) - product (r.reg ra) (r.reg rb))) s

def execMacc (e : Fin 8) (ac : Bool) (ra : BitVec 4) (k : Byte) (s : State) : Host.Outcome State Fault Refusal :=
  lawRow e (lawWord 0x0C 0 ra.toNat 0 ac k.toNat) one (fun s r =>
    r.toAcc ac (accVal (r.acc ac) + product (r.reg ra) (s.coef r.slot k.toNat))) s

def execMsuc (e : Fin 8) (ac : Bool) (ra : BitVec 4) (k : Byte) (s : State) : Host.Outcome State Fault Refusal :=
  lawRow e (lawWord 0x0D 0 ra.toNat 0 ac k.toNat) one (fun s r =>
    r.toAcc ac (accVal (r.acc ac) - product (r.reg ra) (s.coef r.slot k.toNat))) s

/-- An aligned Q15 operand always fits A40, so LDA sets no flag. -/
def execLda (e : Fin 8) (ac : Bool) (ra : BitVec 4) (s : State) : Host.Outcome State Fault Refusal :=
  lawRow e (lawWord 0x0E 0 ra.toNat 0 ac 0) one (fun _ r => (r.setAcc ac (BitVec.ofInt 40 (aligned (r.reg ra)))).next) s

def execAdda (e : Fin 8) (ac : Bool) (ra : BitVec 4) (s : State) : Host.Outcome State Fault Refusal :=
  lawRow e (lawWord 0x0F 0 ra.toNat 0 ac 0) one (fun _ r => r.toAcc ac (accVal (r.acc ac) + aligned (r.reg ra))) s

def execSuba (e : Fin 8) (ac : Bool) (ra : BitVec 4) (s : State) : Host.Outcome State Fault Refusal :=
  lawRow e (lawWord 0x10 0 ra.toNat 0 ac 0) one (fun _ r => r.toAcc ac (accVal (r.acc ac) - aligned (r.reg ra))) s

def execAccadd (e : Fin 8) (ac : Bool) (s : State) : Host.Outcome State Fault Refusal :=
  lawRow e (lawWord 0x11 0 0 0 ac 0) one (fun _ r => r.toAcc ac (accVal r.acc0 + accVal r.acc1)) s

def execSha (e : Fin 8) (ac : Bool) (sc : BitVec 5) (s : State) : Host.Outcome State Fault Refusal :=
  lawRow e (lawWord 0x12 0 0 0 ac (256 * sc.toNat)) one (fun _ r => r.toAcc ac (shiftExact (accVal (r.acc ac)) sc.toInt)) s

def execAcclim (e : Fin 8) (ac : Bool) (ra rb : BitVec 4) (s : State) : Host.Outcome State Fault Refusal :=
  lawRow e (lawWord 0x13 0 ra.toNat rb.toNat ac 0) one (fun _ r =>
    let c := clampAcc (r.acc ac) (r.reg ra) (r.reg rb)
    ((r.setAcc ac c.1).modFlags fun f => { f with clp := c.2 }).next) s

def execStr (e : Fin 8) (rd : BitVec 4) (ac : Bool) (s : State) : Host.Outcome State Fault Refusal :=
  lawRow e (lawWord 0x14 rd.toNat 0 0 ac 0) one (fun _ r => r.toRegSat rd (accToQ15 (r.acc ac))) s

/-- STAS: the third word is bits [39:32] sign-extended. -/
def execStas (e : Fin 8) (ac : Bool) (k : Byte) (s : State) : Host.Outcome State Fault Refusal :=
  lawRow e (lawWord 0x15 0 0 0 ac k.toNat) three (fun _ r =>
    let a := r.acc ac
    (((r.setState k.toNat (a.extractLsb' 0 16)).setState (k.toNat + 1) (a.extractLsb' 16 16)).setState
      (k.toNat + 2) ((a.extractLsb' 32 8).signExtend 16)).next) s

/-- R241: LDAS ignores bits [15:8] of ST[k+2]. -/
def execLdas (e : Fin 8) (ac : Bool) (k : Byte) (s : State) : Host.Outcome State Fault Refusal :=
  lawRow e (lawWord 0x16 0 0 0 ac k.toNat) three (fun _ r =>
    (r.setAcc ac ((r.state (k.toNat + 2)).extractLsb' 0 8 ++ r.state (k.toNat + 1) ++ r.state k.toNat)).next) s

def execAdd (e : Fin 8) (rd ra rb : BitVec 4) (s : State) : Host.Outcome State Fault Refusal :=
  lawRow e (lawWord 0x18 rd.toNat ra.toNat rb.toNat false 0) one (fun _ r => r.toRegSat rd (satQ15 ((r.reg ra).toInt + (r.reg rb).toInt))) s

def execSub (e : Fin 8) (rd ra rb : BitVec 4) (s : State) : Host.Outcome State Fault Refusal :=
  lawRow e (lawWord 0x19 rd.toNat ra.toNat rb.toNat false 0) one (fun _ r => r.toRegSat rd (satQ15 ((r.reg ra).toInt - (r.reg rb).toInt))) s

def execMul (e : Fin 8) (rd ra rb : BitVec 4) (s : State) : Host.Outcome State Fault Refusal :=
  lawRow e (lawWord 0x1A rd.toNat ra.toNat rb.toNat false 0) one (fun _ r => r.toRegSat rd (mulQ15 (r.reg ra) (r.reg rb))) s

def execMin (e : Fin 8) (rd ra rb : BitVec 4) (s : State) : Host.Outcome State Fault Refusal :=
  lawRow e (lawWord 0x1B rd.toNat ra.toNat rb.toNat false 0) one (fun _ r =>
    r.toReg rd (if (r.reg ra).toInt < (r.reg rb).toInt then r.reg ra else r.reg rb)) s

def execMax (e : Fin 8) (rd ra rb : BitVec 4) (s : State) : Host.Outcome State Fault Refusal :=
  lawRow e (lawWord 0x1C rd.toNat ra.toNat rb.toNat false 0) one (fun _ r =>
    r.toReg rd (if (r.reg ra).toInt < (r.reg rb).toInt then r.reg rb else r.reg ra)) s

def execAbs (e : Fin 8) (rd ra : BitVec 4) (s : State) : Host.Outcome State Fault Refusal :=
  lawRow e (lawWord 0x1D rd.toNat ra.toNat 0 false 0) one (fun _ r => r.toRegSat rd (satQ15 ((r.reg ra).toInt.natAbs : Int))) s

def execNeg (e : Fin 8) (rd ra : BitVec 4) (s : State) : Host.Outcome State Fault Refusal :=
  lawRow e (lawWord 0x1E rd.toNat ra.toNat 0 false 0) one (fun _ r => r.toRegSat rd (satQ15 (-(r.reg ra).toInt))) s

def execShx (e : Fin 8) (rd ra : BitVec 4) (sc : BitVec 5) (s : State) : Host.Outcome State Fault Refusal :=
  lawRow e (lawWord 0x1F rd.toNat ra.toNat 0 false (256 * sc.toNat)) one (fun _ r => r.toRegSat rd (shiftQ15 (r.reg ra) sc)) s

def execAnd (e : Fin 8) (rd ra rb : BitVec 4) (s : State) : Host.Outcome State Fault Refusal :=
  lawRow e (lawWord 0x20 rd.toNat ra.toNat rb.toNat false 0) one (fun _ r => r.toReg rd (r.reg ra &&& r.reg rb)) s

def execOr (e : Fin 8) (rd ra rb : BitVec 4) (s : State) : Host.Outcome State Fault Refusal :=
  lawRow e (lawWord 0x21 rd.toNat ra.toNat rb.toNat false 0) one (fun _ r => r.toReg rd (r.reg ra ||| r.reg rb)) s

def execXor (e : Fin 8) (rd ra rb : BitVec 4) (s : State) : Host.Outcome State Fault Refusal :=
  lawRow e (lawWord 0x22 rd.toNat ra.toNat rb.toNat false 0) one (fun _ r => r.toReg rd (r.reg ra ^^^ r.reg rb)) s

def execCmp (e : Fin 8) (ra rb : BitVec 4) (s : State) : Host.Outcome State Fault Refusal :=
  lawRow e (lawWord 0x23 0 ra.toNat rb.toNat false 0) one (fun _ r => (r.modFlags (·.cmp (r.reg ra) (r.reg rb))).next) s

def execSel (e : Fin 8) (rd ra rb cond : BitVec 4) (s : State) : Host.Outcome State Fault Refusal :=
  lawRow e (lawWord 0x24 rd.toNat ra.toNat rb.toNat false (256 * cond.toNat)) one (fun _ r =>
    (r.setReg rd (if r.flags.holds cond then r.reg ra else r.reg rb)).next) s

def execLut (e : Fin 8) (rd ra : BitVec 4) (k : Byte) (s : State) : Host.Outcome State Fault Refusal :=
  lawRow e (lawWord 0x25 rd.toNat ra.toNat 0 false k.toNat) three (fun s r =>
    let i := lutIndex (r.reg ra)
    r.toRegSat rd (lutMix (s.coef r.slot (k.toNat + i.1)) (s.coef r.slot (k.toNat + i.1 + 1)) i.2)) s

def execBr (e : Fin 8) (cond : BitVec 4) (off : BitVec 10) (s : State) : Host.Outcome State Fault Refusal :=
  lawRow e (lawWord 0x30 cond.toNat 0 0 false off.toNat) (fun r => if r.flags.holds cond then 2 else 1) (fun _ r =>
    if r.flags.holds cond then { r with pc := r.pc + off.toNat } else r.next) s

/-! ### Skips (R257, R263, R273) -/

/-- R257: the owner's state skips the run. -/
def skipRun (s : State) (r : List Byte) : Bool :=
  match srClass r with
  | 1 => !(s.runMask (srOwner r / 4)).getLsbD (srOwner r % 4)
  | 2 => s.stageMode (srOwner r) == 0
  | 3 => (s.path (srOwner r)).state == .idle
  | _ => false

/-- R263: an injection ends with a reason. -/
def endInjection (e reason : Nat) (s : State) : State :=
  match (s.engine e).inj with
  | none => s
  | some i =>
    acqInjectEnd i.capture (raise (16 + e) 6 (i.slot % 256) (toLE 2 i.slot ++ toLE 1 reason)
      (s.modEngine e fun g => { g with inj := none }))

/-- R257, R263, R273: a skip ends a running injection, and one that would start now. -/
def injectSkip (e slot : Nat) (s : State) : State :=
  match (s.engine e).inj with
  | some i => if i.slot = slot ∧ i.wait = 0 then endInjection e 4 s else s
  | none => s

/-- R257: a skipped run publishes 0 and clears the state block, the hold and the consecutive misses. -/
def skipSlot (r : List Byte) (s : State) : State :=
  let outs := (srOutIds r).map fun id => (id, (0 : Half))
  let s1 := s.modLaw fun l => { l with fresh := l.fresh.filter (fun p => !outs.any (·.1 == p.1)) ++ outs }
  injectSkip (srEngine r) (srSlot r) (s1.modLawSlot (srSlot r) fun x =>
    { x with st := List.replicate (srState r) 0, holdBit := false, consec := 0, dueNow := false, skipped := true })

/-- R243, R250, R272: commit state, outputs and sticky flags, with E SATURATION for a bit that turns from 0 to 1. DESIGN CHOICE (log 103): of two ports that bind one signal the one written first is published. -/
def commitRun (e : Nat) (r : Run) (s : State) : State :=
  let rec_ := s.lawRec r.slot
  let old := nth s.law.slots r.slot
  let sat := r.flags.sat && !old.satBit
  let ov := r.flags.ov && !old.ovBit
  let outs := r.outs.filter (fun p => p.1 < srOuts rec_) |>.map fun p => (srOut rec_ p.1, p.2)
  let s1 := s.modLaw fun l => { l with fresh := l.fresh.filter (fun p => !outs.any (·.1 == p.1)) ++ outs }
  let s2 := s1.modLawSlot r.slot fun x => { x with
    st := r.st
    satBit := x.satBit || r.flags.sat
    ovBit := x.ovBit || r.flags.ov
    holdBit := false
    consec := 0
    dueNow := false }
  when (sat || ov) (raise (16 + e) 7 (r.slot % 256) (toLE 2 r.slot ++ toLE 1 (b2n sat + 2 * b2n ov))) s2

/-- R250, R273: END commits when END and the dispatch cycles fall inside the window, unless the owner has stopped, which skips the run; the next due slot starts. -/
def endRunEffect (e : Nat) (s : State) : State :=
  match s.runAt e (lawWord 0x3F 0 0 0 false 0) with
  | none => s
  | some r =>
    let s1 := spend e 1 s
    startRun e (if skipRun s1 (s1.lawRec r.slot) then skipSlot (s1.lawRec r.slot) s1
      else if (s1.engine e).used ≤ s1.law.window then commitRun e r s1 else s1)

def execEndRun (e : Fin 8) (s : State) : Host.Outcome State Fault Refusal := live (endRunEffect e) s

end Sys2Proof.Machine
end

