-- ==== Sys2Proof/Machine/Law.lean ====
section
/-! DEFINITION. Law windows (R247 to R258), the schedule of a profile (R246, R258), memory faults (R256) and the test-signal injector (R259 to R264). -/

namespace Sys2Proof.Machine

/-! ### The injector -/

/-- R261: sintab. -/
def sinTab (i : Nat) : Int := ratRound (ofFix (32767 * sinTurn ((i : Rat) / 4096)))

/-- R261: dphi(f) for a rate in Hz. -/
def dPhi (f : Nat) (rate : Rat) : Nat := (roundRat (((f * 2 ^ 32 : Nat) : Rat) / (1000 * rate))).toNat

/-- R261: the tap of a PRBS order. -/
def prbsTap : Nat → Nat
  | 7 => 6 | 9 => 5 | 11 => 9 | 15 => 14 | 23 => 18 | _ => 28

def prbsShift (order l : Nat) : Nat :=
  let new := b2n (bitOf l (order - 1) != bitOf l (prbsTap order - 1))
  (2 * l + new) % 2 ^ order

def sineSample (amplitude : Int) (phi : Nat) : Int := clampQ15 (divRound (amplitude * sinTab (phi / 2 ^ 20)) 32768)

/-- R261, R262: the sample of the next due run, and the index advances. -/
def Injection.step (rate : Rat) (i : Injection) : Injection :=
  match i.wave with
  | 1 =>
    let l := if 0 < i.n ∧ i.n % i.hold = 0 then prbsShift i.order i.lfsr else i.lfsr
    { i with n := i.n + 1, lfsr := l, y := if bitOf l 0 then i.amplitude else -i.amplitude }
  | 2 => { i with n := i.n + 1, y := sineSample i.amplitude i.phi, phi := (i.phi + dPhi i.f0 rate) % 2 ^ 32 }
  | 3 =>
    let f : Int := i.f0 + ((i.f1 : Int) - i.f0) * i.n / (i.runs : Int)
    { i with n := i.n + 1, y := sineSample i.amplitude i.phi, phi := (i.phi + dPhi f.toNat rate) % 2 ^ 32 }
  | _ => { i with n := i.n + 1, y := i.amplitude }

/-- R262: the injection's part in a due run of its slot on engine `e`. -/
def injectRun (e slot : Nat) (s : State) : State :=
  match (s.engine e).inj with
  | none => s
  | some i =>
    if i.slot ≠ slot ∨ 0 < i.wait then s
    else if s.engineFrozen e || (s.engine e).fault then endInjection e 5 s
    else
      let j := ({ i with started := true } : Injection).step (s.runRate slot)
      let s1 := s.modEngine e fun g => { g with inj := some j }
      let s2 := if i.started then s1
        else acqFirstRun i.capture (raise (16 + e) 5 (slot % 256) (toLE 2 slot ++ toLE 1 i.port ++ toLE 1 i.wave) s1)
      if j.runs = 0 ∨ j.n ≤ j.runs then acqFeed 8 e (lawOpenTime s) (BitVec.ofInt 16 j.y) s2 else s2

/-- R262: an allocation boundary passes. -/
def injectBoundary (s : State) : State :=
  s.modLaw fun l => { l with engines := l.engines.map fun g =>
    { g with inj := g.inj.map fun i => { i with wait := i.wait - 1 } } }

/-- R263: the injections of every engine end with a reason. -/
def endInjections (reason : Nat) (s : State) : State := forAll (List.range 8) (fun e s => endInjection e reason s) s

/-! ### Windows -/

/-- R247: the slot is due in the present control period. -/
def dueNow (s : State) (r : List Byte) : Bool := s.lanes.q.toNat % 2 ^ srDiv r == srOffset r

/-- A due slot that is not skipped waits for its engine. -/
def queueSlot (r : List Byte) (s : State) : State :=
  let e := srEngine r
  let s1 := s.modLawSlot (srSlot r) fun x => { x with dueNow := true }
  injectRun e (srSlot r) (s1.modEngine e fun g => { g with due := g.due ++ [srSlot r] })

/-- R315: the codes of one input whose nominal times lie in the period that ended at B_k. -/
def State.acqCodes (s : State) (i : Nat) : List Int :=
  (s.acq.recent.filter fun p => decide (4 * s.lanes.boundary ≤ 4 * p.1 + s.periodQns ∧ p.1 < s.lanes.boundary)).map
    fun p => (p.2.getD i 0).toInt

/-- R315, R200: ACQ_IN of the period, and the inlet rails. -/
def latchAcq (s : State) : State :=
  let mean := s.acq.mean.mapIdx fun i old =>
    let l := s.acqCodes i
    if l.isEmpty then old else clampQ15 (divRound (l.foldl (· + ·) 0) l.length)
  let s1 := s.modAcq fun a => { a with mean := mean, recent := a.recent.filter (s.lanes.boundary ≤ ·.1) }
  forAll (List.range 8) (fun o s => s.modPath o fun p => { p with inletQ := mean.getD (s1.inletAcq o) 0 }) s1

/-- R234: latch the input signals that a slot binds; capture units see the ones they watch (R313). -/
def latchSignals (s : State) : State :=
  let ids := (s.lawRecs.flatMap srInIds).eraseDups.filter fun id => id / 1024 != 0x30
  let s1 := s.modLaw fun l => { l with inputs := ids.map fun id => (id, s.signal id), fresh := [], openNow := true }
  forAll ((watchedSignals s).filter isInputSignal) (fun id t => acqFeed 7 id (lawOpenTime s) (s.signal id) t) s1

/-- R248: the window opens, with the single-bit errors that each engine meets in it (R231): inputs are latched, runs of stopped owners are skipped, and each engine starts its first due slot. -/
def lawWindowOpenEffect (flips : List Nat) (s : State) : State :=
  if s.law.openNow then s
  else
    let s0 := s.modLaw fun l => { l with engines := l.engines.mapIdx fun e g => { g with flips := flips.getD e 0 } }
    let s1 := latchSignals (watch (latchAcq s0))
    let recs := (s1.lawRecs.filter (dueNow s1)).mergeSort fun a b => srOrder a ≤ srOrder b
    let s2 := forAll recs (fun r s => if skipRun s r then skipSlot r s else queueSlot r s) s1
    forAll (List.range 8) (fun e s => if s.engineFrozen e || (s.engine e).fault then s else startRun e s) s2

def execLawWindowOpen (flips : List Nat) (s : State) : Host.Outcome State Fault Refusal := live (lawWindowOpenEffect flips) s

/-- A current law writes PHASE_DUTY or STAGE_CTRL (R225). -/
def currentLaw (r : List Byte) : Bool := (srOutIds r).any fun id => id / 1024 == 0x20 || id / 1024 == 0x21

/-- R253, R254: what the third consecutive miss of a slot does. -/
def missStop (r : List Byte) (s : State) : State :=
  let note := raise (16 + srEngine r) 2 (srSlot r % 256) (toLE 2 (srSlot r) ++ toLE 1 (srClass r) ++ toLE 1 (srOwner r))
  if srClass r = 3 then stopFast (srOwner r) (some (0x0C, 3)) (note s)
  else if currentLaw r then safeStop (if srClass r = 1 then srOwner r / 4 else srOwner r) (note s)
  else s

/-- R251: one miss. -/
def missSlot (r : List Byte) (s : State) : State :=
  let k := srSlot r
  let e := srEngine r
  let n := satAdd 32 (nth s.law.slots k).consec 1
  let s1 := s.modLawSlot k fun x => { x with
    missed := true
    holdBit := true
    mcnt := satAdd 8 x.mcnt 1
    consec := n
    dueNow := false }
  let s2 := s1.modEngine e fun g => { g with misses := satAdd 16 g.misses 1 }
  let s3 := when (n == 1) (raise (16 + e) 1 (k % 256) (toLE 2 k ++ toLE 4 n)) s2
  when (n == 3) (missStop r) s3

/-- R271: an engine's cycles of the window, which its peak keeps. -/
def closeEngine (w : Nat) (g : Engine) : Engine := { g with peak := max g.peak (min g.used w), run := none, due := [], used := 0, flips := 0 }

/-- R234, R238, R250, R251: the window closes: runs whose owner has stopped are skipped (R273), runs that have not committed are dropped, misses count, and outputs are published. -/
def lawWindowCloseEffect (s : State) : State :=
  if !s.law.openNow then s
  else
    let s0 := forAll (s.lawRecs.filter fun r => (nth s.law.slots (srSlot r)).dueNow && skipRun s r) skipSlot s
    let s1 := s0.modLaw fun l => { l with
      openNow := false
      engines := l.engines.map (closeEngine l.window)
      outputs := l.outputs.filter (fun p => !l.fresh.any (·.1 == p.1)) ++ l.fresh
      fresh := [] }
    let recs := s1.lawRecs.mergeSort fun a b => srOrder a ≤ srOrder b
    let late := recs.filter fun r => (nth s1.law.slots (srSlot r)).dueNow
    let s2 := forAll (late.mergeSort fun a b => srEngine a ≤ srEngine b) missSlot s1
    let s3 := forAll ((watchedSignals s).filter fun id => !isInputSignal id) (fun id t =>
      if s1.lawRecs.any fun r => (srOutIds r).contains id && (nth s1.law.slots (srSlot r)).skipped then acqGap 7 id (lawCloseTime s) t
      else acqFeed 7 id (lawCloseTime s) (t.output id) t) s2
    acqLawFlags (s3.modLaw fun l => { l with slots := l.slots.map fun x => { x with skipped := false } })

def execLawWindowClose (s : State) : Host.Outcome State Fault Refusal := live lawWindowCloseEffect s

/-- R256: an uncorrectable memory error puts the engine into FAULT; its injection ends (R263). -/
def memUncorrectableEffect (e mem : Nat) (s : State) : State :=
  if 8 ≤ e || (s.engine e).fault then s
  else endInjection e 5 (raise (16 + e) 4 0xFF (toLE 1 mem)
    (s.modEngine e fun g => { g with fault := true, run := none, due := [] }))

def execMemUncorrectable (engine mem : Nat) (s : State) : Host.Outcome State Fault Refusal := live (memUncorrectableEffect engine mem) s

/-- R263: RUNS runs have passed. -/
def execInjectionRunsDone (engine : Nat) (s : State) : Host.Outcome State Fault Refusal :=
  live (fun s => match (s.engine engine).inj with
    | some i => if i.started && i.runs != 0 && i.runs ≤ i.n && !s.law.openNow then endInjection engine 0 s else s
    | none => s) s

/-! ### INJECT (R260, R264) -/

def injectInfo : OpInfo :=
  { code := 0x45, cls := some 3, setup := false, safe := false, acc := .authority
    rsvOk := fun d => restZero d [(16, 8), (24, 2)], target := kindBelow 0x0A 8
    range := fun _ d => d.h 24 == 32 && d.q 16 % 8 == 0 }

def icAmplitude (c : List Byte) : Int := i16 c 4

/-- R260, R261: the ranges of the fields of a configuration block for its WAVE. -/
def injectFields (c : List Byte) (rate : Rat) : Bool :=
  let wave := u8 c 0
  let freqOk := fun f : Nat => decide (1 ≤ f ∧ (f : Rat) ≤ 500 * rate)
  wave ≤ 4 && u8 c 1 < 32 && allZero c 0x0A 2 && allZero c 0x18 8
    && (if wave = 1 then [7, 9, 11, 15, 23, 31].contains (u8 c 6) && u16 c 8 != 0 else u8 c 6 == 0 && u16 c 8 == 0)
    && (if wave = 2 ∨ wave = 3 then freqOk (u32 c 0x0C) else true)
    && (if wave = 3 then freqOk (u32 c 0x10) && u32 c 0x14 != 0 else u32 c 0x10 == 0)

/-- R264. -/
def injectOk (s : State) (e : Nat) (c : List Byte) : Bool :=
  let r := s.lawRec (u16 c 2)
  let cap := u8 c 7
  !r.isEmpty && srEngine r == e && u8 c 1 < srIns r && srInjMax r != 0 && (icAmplitude c).natAbs ≤ srInjMax r
    && injectFields c (s.runRate (u16 c 2)) && (cap == 0xFF || (cap < 8 && !(s.unit cap).storing))

/-- The injection that a configuration block starts (R260 to R262). -/
def injectionOf (c : List Byte) : Injection :=
  { wave := u8 c 0, port := u8 c 1, slot := u16 c 2, amplitude := icAmplitude c, order := u8 c 6, capture := u8 c 7
    hold := u16 c 8, f0 := u32 c 0x0C, f1 := u32 c 0x10, runs := u32 c 0x14, lfsr := 2 ^ u8 c 6 - 1 }

/-- R260, R263: INJECT. A row's OPCODE and WAVE must be the row's own. -/
def injectBody (off : Bool) (d : Desc) (s : State) : Answer :=
  match d.input with
  | none => answer stBuffer 0 s
  | some c =>
    if !injectOk s d.ix c || (u8 c 0 == 0) != off then answer stRange 0 s
    else if off then answer stOk 0 (endInjection d.ix 1 s)
    else
      let s1 := endInjection d.ix 2 s
      answer stOk 0 (acqInject (u8 c 7) (if u8 c 0 == 2 then u32 c 0x0C else 0) (s1.modEngine d.ix fun g => { g with inj := some (injectionOf c) }))

def injectOp (d : Desc) (s : State) : Answer := injectBody false d s
def injectOffOp (d : Desc) (s : State) : Answer := injectBody true d s

def execInject (d : Desc) (s : State) : Host.Outcome State Fault Refusal := live (runDesc injectInfo injectOp d) s
def execInjectOff (d : Desc) (s : State) : Host.Outcome State Fault Refusal := live (runDesc injectInfo injectOffOp d) s

/-! ### Schedules (R246, R258) -/

/-- R249: WCET plus dispatch cycles of a slot, from its program entry. -/
def slotCost (prog : List Byte) (r : List Byte) : Nat := ((progEntry prog (srProgram r)).map fun e => u16 e 4 + 6).getD 0

/-- R249: the load of engine `e` in the period k mod 256. -/
def engineLoad (prog : List Byte) (recs : List (List Byte)) (e k : Nat) : Nat :=
  sumOf ((recs.filter fun r => srEngine r == e && k % 2 ^ srDiv r == srOffset r).map (slotCost prog))
where sumOf (l : List Nat) : Nat := l.foldl (· + ·) 0

def highestLoad (prog : List Byte) (recs : List (List Byte)) (e : Nat) : Nat :=
  ((List.range 256).map (engineLoad prog recs e)).foldl max 0

/-- R246: W. -/
def windowCycles (rate : Nat) : Nat := if rate = 0 then 0 else 400000000 / rate - 800

/-- R258, R256: the engines switch to the schedule of the active profile: state 0, no misses across the switch, FAULT left. -/
def loadLaws (s : State) : State :=
  let sec := s.sec 5
  let prog := s.sec 4
  let recs := schedRecs sec
  let s1 := endInjections 6 s
  s1.modLaw fun l => { l with
    running := true, baseRate := u32 sec 0, window := windowCycles (u32 sec 0), margin := u8 sec 6, count := u16 sec 4
    inputs := [], outputs := [], fresh := [], openNow := false
    engines := l.engines.mapIdx fun e g => { g with
      fault := false, planned := highestLoad prog recs e, slots := (recs.filter fun r => srEngine r == e).length
      due := [], run := none, used := 0 }
    slots := l.slots.mapIdx fun k x =>
      let words := ((recs.find? fun r => srSlot r == k).map srState).getD 0
      { x with st := List.replicate words 0, holdBit := false, consec := 0, dueNow := false } }

/-- R271: LAW_STATUS.RUNNING. -/
def lawRunning (s : State) : Nat := if s.law.running then 0xFF else 0

end Sys2Proof.Machine
end

