-- ==== Sys2Proof/Machine/AllocOps.lean ====
section
/-! DEFINITION. The Tarn allocator: inputs (R142, R143), water filling (R152, R153), stage planning (R155 to R159), infeasibility (R161, R162) and publication (R163, R164, R170). Powers in W, voltages in 1/32768 V where a name ends in `vu`. -/

namespace Sys2Proof.Machine

/-! ### The cap (R143) -/

/-- R143: the effective cap in kW, and its source: 0 DEFAULT, 1 HOST, 2 FAST. -/
def effectiveCap (s : State) : Nat × Nat :=
  let base := match s.alloc.hostCap with
    | some (kw, _) => (kw, 1)
    | none => (s.defaultCapKw, 0)
  if s.fastActive && s.fastCapKw < base.1 then (s.fastCapKw, 2) else base

/-- R145: the estimated import in kW. -/
def estimatedImport (s : State) : Nat :=
  let p : Int := ((List.range 32).map fun i => if (s.stage i).outEn then s.stVout i * s.stIout i else 0).foldl (· + ·) 0
  let w := (p * (1600 * 1024)).toNat / (32768 * 32768)
  (if s.effPermille = 0 then 0 else w / s.effPermille) + s.auxLoadKw

/-! ### Latching the inputs (R139) -/

def latchStage (s : State) (i : Nat) : StageLatch :=
  let st := s.stage i
  { outlet := st.outlet, dest := st.dest, xfer := st.xfer, order := st.order
    steadyOn := (List.range 8).find? fun o => st.steadyOn o
    available := s.stageAvailable i, present := s.stPresent i, capW := s.stageCapW i, capDa := s.stageCapDa i
    vMaxV := s.stVMaxV i, iQ := s.stIout i, vQ := s.stVout i
    holdOver := match st.lastEnd with | some t => t + s.moveHoldMs * 1000000 ≤ s.now | none => true
    xferAt := st.xferAt }

def latchOutlet (s : State) (o : Nat) : OutletLatch :=
  let a := s.alcOut o
  { demand := s.demand o, req := s.request o
    tier := match a.policy with | some p => p.1 | none => s.olTier o
    weight := match a.policy with | some p => p.2.1 | none => s.olWeight o
    pCapKw := match a.policy with | some p => p.2.2 | none => 0
    sessionKw := a.sessionLimit, busV := s.busQ o, iMeasQ := s.iMeasQ o
    cable := s.cableCeil o, busStale := s.busStale o, surplusOver := a.surplusOver, paused := a.paused, lastBudget := a.budget }

def latchInputs (s : State) : AlcLatch :=
  let c := effectiveCap s
  { capKw := c.1, capSrc := c.2, trafoKw := s.trafoImport
    stages := (List.range 32).map (latchStage s), outlets := (List.range 8).map (latchOutlet s) }

def AlcLatch.st (l : AlcLatch) (i : Nat) : StageLatch := nth l.stages i
def AlcLatch.out (l : AlcLatch) (o : Nat) : OutletLatch := nth l.outlets o

/-! ### Demand ceilings (R150) -/

/-- R150: V of an outlet. -/
def outletVu (s : State) (l : AlcLatch) (o : Nat) : Nat := max ((l.out o).busV * 1600).toNat (s.vFloorV * 32768)

/-- A current of 0.1 A units at a voltage, in W. -/
def powerAt (da vu : Nat) : Nat := da * vu / 327680

/-- R150: the terms of c(o) in W with their LIMIT codes of R170. -/
def demandTerms (s : State) (l : AlcLatch) (o : Nat) : List (Nat × Nat) :=
  let x := l.out o
  let vu := outletVu s l o
  [(powerAt x.req.iTarget vu, 0), (powerAt x.req.iMax vu, 1)]
    ++ (if x.req.pMax = 0 then [] else [(x.req.pMax * 1000, 1)])
    ++ [(s.olPMaxKw o * 1000, 2), (powerAt (s.olIMaxA o * 10) vu, 2)]
    ++ (if x.pCapKw = 0 then [] else [(x.pCapKw * 1000, 3)])
    ++ (if x.sessionKw = 0 then [] else [(x.sessionKw * 1000, 4)])
    ++ (match x.cable with | some c => [(powerAt c.1 vu, 5)] | none => [])

/-- The lowest value; the lowest code among equal values. -/
def lowestTerm : List (Nat × Nat) → Nat × Nat
  | [] => (0, 0)
  | [t] => t
  | t :: r =>
    let m := lowestTerm r
    if t.1 < m.1 || (t.1 == m.1 && t.2 ≤ m.2) then t else m

/-- R150: c(o) in W and its LIMIT; 0 unless ACTIVE. -/
def demandCeil (s : State) (l : AlcLatch) (o : Nat) : Nat × Nat :=
  if (l.out o).demand == .active then lowestTerm (demandTerms s l o) else (0, 0)

/-! ### Water filling (R152) -/

def sumOver (l : List Nat) (f : Nat → Nat) : Nat := (l.map f).foldl (· + ·) 0

/-- The largest level below 2^k + l with the tier's sum within `rest`, digit by digit. -/
def levelFrom (set : List Nat) (c w : Nat → Nat) (rest : Nat) : Nat → Nat → Nat
  | 0, l => l
  | k + 1, l =>
    let t := l + 2 ^ k
    levelFrom set c w rest k (if sumOver set (fun o => min (c o) (w o * t)) ≤ rest then t else l)

/-- What a filling gives: budgets, and level and tier where rest reached 0. -/
structure Fill where
  b : List Nat := List.replicate 8 0
  level : Option (Nat × Nat) := none

/-- R152: fill the tiers from `tier` upward. -/
def fillTiers (active : Nat → Bool) (c w tierOf : Nat → Nat) : List Nat → Nat → Fill → Fill
  | [], _, f => f
  | t :: ts, rest, f =>
    let set := (List.range 8).filter fun o => active o && tierOf o == t
    let want := sumOver set c
    if want ≤ rest then
      fillTiers active c w tierOf ts (rest - want) { f with b := set.foldl (fun b o => b.set o (c o)) f.b }
    else
      let l := levelFrom set c w rest 33 0
      fillTiers active c w tierOf ts 0
        { b := set.foldl (fun b o => b.set o (min (c o) (w o * l))) f.b
          level := match f.level with | some x => some x | none => some (l, t) }

/-- R152: fill(c, avail) over the ACTIVE outlets that `inc` includes. -/
def fill (l : AlcLatch) (inc : Nat → Bool) (c : Nat → Nat) (avail : Nat) : Fill :=
  fillTiers (fun o => (l.out o).demand == .active && inc o) c (fun o => (l.out o).weight) (fun o => (l.out o).tier)
    [0, 1, 2, 3] avail {}

/-- R148: the falling budget of a STOPPING outlet: the lower of its last budget and its present power. -/
def fallingBudget (l : AlcLatch) (o : Nat) : Nat :=
  let x := l.out o
  min x.lastBudget ((x.iMeasQ * x.busV * (1600 * 1024)).toNat / (32768 * 32768))

/-- R152: avail before the stage-capacity bound. -/
def availBase (s : State) (l : AlcLatch) : Nat :=
  let starting := ((List.range 8).filter fun o => (l.out o).demand == .starting).length
  let lim := match l.trafoKw with | some t => min l.capKw t | none => l.capKw
  (lim * 1000 - s.auxLoadKw * 1000 - starting * s.startReserveKw * 1000) * s.effPermille / 1000

def stageSum (l : AlcLatch) : Nat := sumOver ((List.range 32).filter fun i => (l.st i).available) fun i => (l.st i).capW

/-- R152, R148: the power that filling shares out. -/
def availOf (s : State) (l : AlcLatch) : Nat :=
  let stopping := (List.range 8).filter fun o => (l.out o).demand == .stopping
  min (availBase s l) (stageSum l) - sumOver stopping (fallingBudget l)

/-! ### Stage planning (R154 to R159) -/

/-- R154: `a` ranks before `b`. -/
def rankBefore (l : AlcLatch) (a b : Nat) : Bool :=
  let x := l.out a
  let y := l.out b
  x.tier < y.tier || (x.tier == y.tier && (y.weight < x.weight || (x.weight == y.weight && a ≤ b)))

/-- R154: the outlets in rank order. -/
def ranked (l : AlcLatch) : List Nat := (List.range 8).mergeSort (rankBefore l)

/-- R155: keep order: power capacity from highest, then lower number. -/
def keepBefore (l : AlcLatch) (i j : Nat) : Bool :=
  (l.st j).capW < (l.st i).capW || ((l.st i).capW == (l.st j).capW && i ≤ j)

/-- The plan while orders are chosen: steady stages per outlet in keep order, stages taken, and orders so far. -/
structure Plan where
  keep : List (List Nat) := List.replicate 8 []
  toward : List (List Nat) := List.replicate 8 []
  taken : List Nat := []
  orders : List (StageOrder × Nat × Option Nat) := []
  room : Nat := 0
  noStage : List Nat := []

def Plan.keepOf (p : Plan) (o : Nat) : List Nat := p.keep.getD o []
def Plan.towardOf (p : Plan) (o : Nat) : List Nat := p.toward.getD o []

def startPlan (s : State) (l : AlcLatch) : Plan :=
  let busy := (List.range 32).filter fun i =>
    let x := (l.st i).xfer
    x == .rampDown || x == .opening || x == .tracking || x == .closing
  { keep := (List.range 8).map fun o => ((List.range 32).filter fun i => (l.st i).steadyOn == some o).mergeSort (keepBefore l)
    toward := (List.range 8).map fun o =>
      (busy.filter fun i => (l.st i).dest == some o && (l.st i).order != .release).mergeSort fun i j =>
        (l.st i).xferAt < (l.st j).xferAt || ((l.st i).xferAt == (l.st j).xferAt && i ≤ j)
    taken := busy, room := s.maxTransfers - busy.length }

/-- The stages reach b in power and b / V in current (R155). -/
def reaches (l : AlcLatch) (vu b : Nat) (set : List Nat) : Bool :=
  b ≤ sumOver set (fun i => (l.st i).capW) && b ≤ powerAt (sumOver set fun i => (l.st i).capDa) vu

/-- The smallest prefix of `set` from length `k` upward that reaches b. -/
def prefixNeed (l : AlcLatch) (vu b : Nat) (set : List Nat) : Nat → Nat → Option Nat
  | 0, _ => none
  | f + 1, k => if reaches l vu b (set.take k) then some k else if set.length ≤ k then none else prefixNeed l vu b set f (k + 1)

/-- R155: the need over the stages the plan counts for the outlet; none while more must be claimed. -/
def needOf (s : State) (l : AlcLatch) (b : List Nat) (p : Plan) (o : Nat) : Option Nat :=
  let set := p.keepOf o ++ p.towardOf o
  match (l.out o).demand with
  | .none => some 0
  | .stopping => some set.length
  | .starting | .paused => if set.isEmpty then none else some 1
  | .active =>
    if (l.out o).paused then (if set.isEmpty then none else some 1)
    else if b.getD o 0 = 0 then some 0
    else (prefixNeed l (outletVu s l o) (b.getD o 0) set 33 1)

/-- R151. -/
def eligible (l : AlcLatch) (o i : Nat) : Bool := (l.out o).req.vTarget ≤ 10 * (l.st i).vMaxV

/-- Add an order while the limit of R159 leaves room. -/
def Plan.order (p : Plan) (ord : StageOrder) (i : Nat) (dest : Option Nat) : Plan :=
  if p.room = 0 then p
  else { p with
    room := p.room - 1, taken := i :: p.taken, orders := p.orders ++ [(ord, i, dest)]
    keep := p.keep.map fun k => k.filter (· != i)
    toward := match dest with | some d => upd p.toward d (· ++ [i]) | none => p.toward }

/-- R159: an order may be issued for the stage now. -/
def orderable (l : AlcLatch) (p : Plan) (i : Nat) : Bool := !p.taken.contains i && (l.st i).holdOver

/-- R156: the stage is free, and no order of this plan takes it. -/
def isFree (l : AlcLatch) (p : Plan) (i : Nat) : Bool :=
  let x := l.st i
  x.available && x.outlet.isNone && x.dest.isNone && x.xfer == .steady && !p.taken.contains i

/-- R156: the free eligible stage with the highest power capacity. DESIGN CHOICE (log 99): one that is still within MOVE_HOLD_MS is passed over. -/
def freeStage (l : AlcLatch) (p : Plan) (o : Nat) : Option Nat :=
  (((List.range 32).filter fun i => isFree l p i && eligible l o i && orderable l p i).mergeSort (keepBefore l)).head?

/-- R157: the stage that a donor gives, from the end of its keep order beyond its need; an unavailable one does not qualify. -/
def donorGives (s : State) (l : AlcLatch) (b : List Nat) (p : Plan) (o donor : Nat) : Option Nat :=
  let k := p.keepOf donor
  let need := noneTo k.length (needOf s l b p donor)
  if donor == o || (l.out donor).demand == .stopping || k.length ≤ need then none
  else (k.reverse.find? fun i => (l.st i).available && eligible l o i && orderable l p i)

/-- R157: donors in reverse rank order. -/
def donorStage (s : State) (l : AlcLatch) (b : List Nat) (p : Plan) (o : Nat) : Option Nat :=
  (ranked l).reverse.findSome? (donorGives s l b p o)

/-- R155 to R157: the claims of one outlet, at most `fuel` of them. -/
def claim (s : State) (l : AlcLatch) (b : List Nat) (o : Nat) : Nat → Plan → Plan
  | 0, p => p
  | f + 1, p =>
    match needOf s l b p o with
    | some _ => p
    | none =>
      if p.room = 0 then p
      else match freeStage l p o with
        | some i => claim s l b o f (p.order .attach i (some o))
        | none => match donorStage s l b p o with
          | some i => claim s l b o f (p.order .move i (some o))
          | none => { p with noStage := o :: p.noStage }

/-- R159 steps 1 and 2: releases from outlets in NONE, then from paused outlets, in ascending stage number. -/
def releases (l : AlcLatch) (p : Plan) : Plan :=
  let free1 := fun (p : Plan) (i : Nat) => match (l.st i).steadyOn with
    | some o => if (l.out o).demand == .none && !p.taken.contains i then p.order .release i none else p
    | none => p
  let free2 := fun (p : Plan) (i : Nat) => match (l.st i).steadyOn with
    | some o =>
      let paused := (l.out o).demand == .paused || ((l.out o).demand == .active && (l.out o).paused)
      if paused && (p.keepOf o).head? != some i && orderable l p i then p.order .release i none else p
    | none => p
  (List.range 32).foldl free2 ((List.range 32).foldl free1 p)

/-- R158: the outlet holds more steady stages than its need. -/
def hasSurplus (s : State) (l : AlcLatch) (b : List Nat) (p : Plan) (o : Nat) : Bool :=
  (l.out o).demand != .stopping && noneTo 64 (needOf s l b p o) < (p.keepOf o).length

/-- R159 step 4: one surplus stage of each outlet whose RELEASE_HOLD_MS has elapsed, in rank order of the holders. -/
def surplusReleases (s : State) (l : AlcLatch) (b : List Nat) (p : Plan) : Plan :=
  (ranked l).foldl (fun p o =>
    if hasSurplus s l b p o && (l.out o).surplusOver then
      match (p.keepOf o).reverse.find? (orderable l p) with
      | some i => p.order .release i none
      | none => p
    else p) p

/-- R155 to R159: pass 2. -/
def planStages (s : State) (l : AlcLatch) (b : List Nat) : Plan :=
  surplusReleases s l b ((ranked l).foldl (fun p o => claim s l b o 33 p) (releases l (startPlan s l)))

/-! ### Pass 3 and the pause rule (R160, R161) -/

/-- The capacity of the stages steady on an outlet at V, in W (R152). -/
def steadyCap (s : State) (l : AlcLatch) (steady : List Nat) (o : Nat) : Nat :=
  min (sumOver steady fun i => (l.st i).capW) (powerAt (sumOver steady fun i => (l.st i).capDa) (outletVu s l o))

/-- R161: the lowest-ranked included outlet whose budget lies between 0 and its minimum. -/
def toPause (s : State) (l : AlcLatch) (f : Fill) (inc : Nat → Bool) : Option Nat :=
  (ranked l).reverse.find? fun o =>
    (l.out o).demand == .active && inc o && 0 < f.b.getD o 0 && f.b.getD o 0 * 327680 < (l.out o).req.iMin * outletVu s l o

/-- R161: repeat pass 3 without the paused outlets, at most 8 times. -/
def pausePass (s : State) (l : AlcLatch) (c2 : Nat → Nat) (avail : Nat) : Nat → List Nat → Fill × List Nat
  | 0, paused => (fill l (fun o => !paused.contains o) c2 avail, paused)
  | n + 1, paused =>
    let f := fill l (fun o => !paused.contains o) c2 avail
    match toPause s l f (fun o => !paused.contains o) with
    | none => (f, paused)
    | some o => pausePass s l c2 avail n (o :: paused)

/-! ### Publication (R163, R164, R170) -/

/-- R163: the stages whose limits enter an outlet's ceilings: the steady ones, or the one attached or in transfer toward it. DESIGN CHOICE (log 100): the first ordered, where several are in transfer. -/
def ceilStages (p : Plan) (o : Nat) : List Nat :=
  match p.keepOf o with
  | [] => (p.towardOf o).take 1
  | k => k

/-- R163, R164: I_CEIL in 0.1 A with its CLIP_SRC. -/
def iCeilOf (s : State) (l : AlcLatch) (set : List Nat) (o b : Nat) : Nat × Nat :=
  let x := l.out o
  let common := [(x.req.iMax, 2), (s.olIMaxA o * 10, 3)] ++ (match x.cable with | some c => [(c.1, 4)] | none => [])
    ++ [(sumOver set fun i => (l.st i).capDa, 5)]
  match x.demand with
  | .none => (0, 0)
  | .starting => lowestTerm ((if s.vFloorV = 0 then 0 else s.startReserveKw * 10000 / s.vFloorV, 6) :: common)
  | _ => if b = 0 then (0, 1) else lowestTerm ((b * 327680 / outletVu s l o, 1) :: common)

def minOf (l : List Nat) : Nat := match l with | [] => 0 | x :: r => r.foldl min x

/-- R163: V_CEIL in 0.1 V with its CLIP_SRC. -/
def vCeilOf (s : State) (l : AlcLatch) (set : List Nat) (o : Nat) : Nat × Nat :=
  let x := l.out o
  if x.demand == .none then (0, 0)
  else lowestTerm [(x.req.vMax, 2), (s.olVMaxV o * 10, 3), (10 * minOf (set.map fun i => (l.st i).vMaxV), 5)]

/-- R162: set or clear one E32 cause of an outlet. -/
def setE32 (o cause : Nat) (on : Bool) (s : State) : State :=
  let was := (s.alcOut o).e32.getLsbD cause
  let bit := BitVec.ofNat 6 (2 ^ cause)
  if on && !was then raise 32 cause o [] (s.modAlcOut o fun a => { a with e32 := a.e32 ||| bit })
  else if !on && was then raise 32 0 o (toLE 1 cause) (s.modAlcOut o fun a => { a with e32 := a.e32 &&& ~~~bit })
  else s

/-- R170: ALC_STGs. -/
def stgWord (s : State) (i : Nat) : Word :=
  let st := s.stage i
  let x : Nat := match st.xfer with
    | .steady => 0 | .rampDown => 1 | .opening => 2 | .tracking => 3 | .closing => 4 | .blocked => 5
  BitVec.ofNat 32 (noneTo 15 st.outlet + 16 * noneTo 15 st.dest + 256 * x + 2048 * b2n (s.stageAvailable i)
    + 4096 * min 0x3FF (s.stageCapW i / 1000))

/-- An order is still possible (R159, R168, R173): a unit holds authority, and the stage has not been halted, blocked, moved or made unavailable since the latch. -/
def orderPossible (s : State) (ord : StageOrder) (i : Nat) (dest : Option Nat) : Bool :=
  let st := s.stage i
  let destOk := match dest with | some o => !(s.path o).halted | none => true
  s.stepsMayBegin && st.xfer == .steady && !st.halted && destOk && (match ord with
    | .attach => st.outlet.isNone && s.stageAvailable i
    | .move => st.outlet.isSome && st.outEn && s.stageAvailable i
    | .release => st.outlet.isSome && st.outEn)

def issueOrders (orders : List (StageOrder × Nat × Option Nat)) (s : State) : State :=
  forAll orders (fun q s => if orderPossible s q.1 q.2.1 q.2.2 then issueOrder q.1 q.2.1 q.2.2 s else s) s

/-- R484, R488: the recorder's view of the estimated import and of the headroom. -/
def recordImport (s : State) : State :=
  let est := s.alloc.estKw
  let s1 := recFeed 168 ((est : Nat) : Rat) (recNote 3 0 est s)
  match s.trafoImport with
  | some t => recNote 4 0 ((t : Int) - est) s1
  | none => s1

/-- E33 and E34 at a publication (R172). -/
def capEvents (oldCap : Bool) (src : Nat) (s : State) : State :=
  let a := s.alloc
  let s1 := if a.capBinding && !oldCap then raise 33 1 0xFF (toLE 1 src) s
    else if !a.capBinding && oldCap then raise 33 2 0xFF [] s else s
  match s.trafoImport with
  | none => s1
  | some t =>
    let low := (t : Int) - a.estKw < s.trafoLowKw
    let s2 := s1.modAlloc fun a => { a with trafoLow := decide low }
    if low ∧ !a.trafoLow then raise 34 1 0xFF [] s2 else if ¬ low ∧ a.trafoLow then raise 34 2 0xFF [] s2 else s2

/-- R162: a STARTING or ACTIVE outlet for which no present stage is eligible. -/
def unreachable (l : AlcLatch) (o : Nat) : Bool :=
  ((l.out o).demand == .starting || (l.out o).demand == .active) && (List.range 32).all fun i => !((l.st i).present && eligible l o i)

/-- R162: a STARTING or ACTIVE outlet needs a stage, holds none, and neither an eligible free stage nor a donor exists. -/
def Plan.without (l : AlcLatch) (p : Plan) (o : Nat) : Bool :=
  ((l.out o).demand == .starting || (l.out o).demand == .active) && p.noStage.contains o
    && (p.keepOf o).isEmpty && (p.towardOf o).isEmpty && (List.range 32).all fun i => !(isFree l p i && eligible l o i)

/-- R161: the paused outlets: those of this pass 3, and those paused before that it does not give their minimum. -/
def stillPaused (s : State) (l : AlcLatch) (r : Fill × List Nat) : List Nat :=
  (List.range 8).filter fun o =>
    r.2.contains o || ((l.out o).paused && (l.out o).demand == .active
      && decide (r.1.b.getD o 0 * 327680 < (l.out o).req.iMin * outletVu s l o))

/-- R162: an input of the outlet is in its stale fallback (R142). -/
def OutletLatch.stale (x : OutletLatch) : Bool := x.busStale || (match x.cable with | some c => c.2 | none => false)

/-- R158: since when the outlet has held more stages than its need by the pass 1 budgets, with whether RELEASE_HOLD_MS has elapsed. -/
def noteSurplus (more : Bool) (now : Nat) (a : AlcOutlet) : AlcOutlet :=
  if more then { a with surplusAt := some (noneTo now a.surplusAt) } else { a with surplusAt := none, surplusOver := false }

/-- R163, R164: what one outlet publishes; the budget is 0 under the E32 causes 2 to 4 (R162). -/
def publishOutlet (l : AlcLatch) (p : Plan) (b1 : List Nat) (f : Fill) (paused : List Nat) (o : Nat) (s : State) : State :=
  let x := l.out o
  let set := ceilStages p o
  let b := if availBase s l = 0 || unreachable l o || p.without l o then 0
    else match x.demand with
    | .starting => s.startReserveKw * 1000
    | .active => if paused.contains o then 0 else f.b.getD o 0
    | .stopping => fallingBudget l o
    | _ => 0
  let ic := iCeilOf s l set o b
  let vc := vCeilOf s l set o
  let c := demandCeil s l o
  let s1 := s.modAlcOut o fun a => noteSurplus (hasSurplus s l b1 p o) s.now { a with
    budget := b, iCeil := min 0xFFFF ic.1, iClip := ic.2, vCeil := min 0xFFFF vc.1, vClip := vc.2
    demandW := c.1, limit := c.2, state := x.demand, paused := paused.contains o }
  setE32 o 5 x.stale (setE32 o 4 (unreachable l o) (setE32 o 2 (p.without l o) (setE32 o 1 (paused.contains o) s1)))

/-- R139, R152, R170: compute the allocation from the latched inputs and publish it. -/
def publish (l : AlcLatch) (s : State) : State :=
  let avail := availOf s l
  let f1 := fill l (fun _ => true) (fun o => (demandCeil s l o).1) avail
  let p := planStages s l f1.b
  let c2 := fun o => if unreachable l o then 0 else min (demandCeil s l o).1 (steadyCap s l (p.keepOf o) o)
  let r := pausePass s l c2 avail 8 []
  let below := availBase s l == 0
  let capSet := availBase s l ≤ stageSum l
  let trafoLow := match l.trafoKw with | some t => t < l.capKw | none => false
  let s1 := issueOrders p.orders s
  let s2 := forAll (List.range 8) (publishOutlet l p f1.b r.1 (stillPaused s l r)) s1
  let oldCap := s2.alloc.capBinding
  let s3 := s2.modAlloc fun a => { a with
    running := true
    capBinding := r.1.level.isSome && capSet && !trafoLow
    trafoBinding := r.1.level.isSome && capSet && trafoLow
    fastShown := s.fastActive, hostShown := a.hostCap.isSome
    level := match r.1.level with | some x => x.1 | none => 0xFFFFFFFF
    levelTier := match r.1.level with | some x => x.2 | none => 0
    transfers := ((List.range 32).filter fun i => (s2.stage i).inTransfer).length
    periodCount := a.periodCount + 1
    capKw := l.capKw, availKw := avail / 1000, estKw := estimatedImport s2
    capBelow := below
    outlets := (List.range 8).map fun o => { nth a.outlets o with stages := (s2.steadyStages o).length }
    stgShown := (List.range 32).map (stgWord s2) }
  let s4 := if below && !s2.alloc.capBelow then raise 32 3 0xFF [] s3
    else if !below && s2.alloc.capBelow then raise 32 0 0xFF (toLE 1 3) s3 else s3
  forAll (List.range 8) (applyCeilings s.alcOut) (capEvents oldCap l.capSrc (recordImport s4))

/-- R169: the coil of a stage that does not match its assignment. -/
def planMismatch (st : Stage) : Option Nat :=
  (List.range 8).find? fun k =>
    st.coils.getLsbD k && !st.openWait.getLsbD k
      && !(if st.xfer == .closing then st.dest == some k else st.outlet == some k && st.xfer != .opening && st.xfer != .tracking)

/-- R169: check every stage's plan. -/
def checkPlan (i : Nat) (s : State) : State :=
  match planMismatch (s.stage i) with
  | none => s
  | some k => safeStop i (raise 37 3 i (toLE 1 (noneTo 0xFF (s.stage i).outlet) ++ toLE 1 k) s)

/-- R21: crosspoint k of the stage has differed from its command for longer than XP_OPERATE_MS since the later of the two changes; a command that no DOWNLINK has carried yet does not count. -/
def State.mismatched (s : State) (i k : Nat) : Bool :=
  let st := s.stage i
  let sent := (s.lane (i / 2)).lastAct.getLsbD (8 * (i % 2) + k)
  st.coils.getLsbD k != st.fb.getLsbD k && sent == st.coils.getLsbD k
    && max (st.coilAt.getD k 0) (st.fbAt.getD k 0) + s.xpOperateMs * 1000000 < s.now

/-- R21: a persistent mismatch raises E37, and the stage leaves the allocation until its feedback agrees. -/
def checkFeedback (i : Nat) (s : State) : State :=
  let st := s.stage i
  if st.removed || !(List.range 8).any (s.mismatched i) then s
  else
    let closedOf := fun m : BitVec 8 => noneTo 0xFF ((List.range 8).find? fun k => s.mismatched i k && m.getLsbD k)
    raise 37 2 i (toLE 1 (closedOf st.coils) ++ toLE 1 (closedOf st.fb)) (s.modStage i fun st => { st with removed := true })

/-- R87: the last energised stage has stopped, with crosspoints open and discharge verified. -/
def State.allStopped (s : State) : Bool :=
  s.stages.all (fun st => !st.outEn && st.coils == 0 && st.fb == 0)
    && (List.range 8).all fun o => (s.path o).state == .idle || ((s.path o).state == .faulted && s.faultEnd o)

/-- R87: from Run to Doze, where the sleep-delay timer starts. -/
def restPower (s : State) : State :=
  if s.pwr.opState == .operate && s.pwr.powerState == .run && s.allStopped then
    s.modPwr fun p => { p with powerState := .doze, dozeTimer := true, dozeAt := s.now, e125Raised := false }
  else s

/-- R87: Run while a stage is energised; back to Doze once the last has stopped. -/
def updatePower (s : State) : State :=
  if s.pwr.opState == .operate && s.stages.any (·.outEn) then s.modPwr fun p => { p with powerState := .run, dozeTimer := false }
  else restPower s

/-- R140: the ceilings and budgets stay, no order is issued, and E38 is raised. -/
def overrunBoundary (s : State) : State := raise 38 1 0xFF [] s

/-- R139, R141: the allocator's part of a boundary in Operate. -/
def allocate (overrun : Bool) (s : State) : State :=
  let s1 := forAll (List.range 32) checkPlan (forAll (List.range 32) checkFeedback s)
  let s2 := match s1.alloc.latch with
    | none => s1
    | some l => if overrun then overrunBoundary s1 else publish l s1
  let s3 := recomputeAllShares s2
  updatePower (s3.modAlloc fun a => { a with latch := some (latchInputs s3) })

/-- R141: outside Operate every budget and ceiling is 0 and nothing is latched. -/
def idleAllocator (s : State) : State :=
  s.modAlloc fun a => { a with
    running := false, latch := none
    outlets := a.outlets.map fun x => { x with budget := 0, iCeil := 0, vCeil := 0, paused := false, surplusAt := none, surplusOver := false } }

end Sys2Proof.Machine
end

