-- ==== Sys2Proof/Machine/Sha256.lean ====
section
/-! DEFINITION. SHA-256 (FIPS 180-4), which the digests of the profile, keys and metrology rules name. The words of the hash are held oldest first in lists. -/

namespace Sys2Proof.Machine

/-! ### Constants: fractional parts of roots of primes -/

def shaPrimes : List Nat :=
  (List.range 312).filter fun p => decide (1 < p) && (List.range 18).all fun d => d < 2 || p ≤ d || p % d != 0

/-- The largest x below 2^n, above `lo`, with x^e ≤ t. -/
def rootBits (e t : Nat) : Nat → Nat → Nat
  | 0, lo => lo
  | n + 1, lo => rootBits e t n (if (lo + 2 ^ n) ^ e ≤ t then lo + 2 ^ n else lo)

/-- The first 32 bits of the fractional part of the e-th root of p. -/
def rootFraction (e p : Nat) : Word := BitVec.ofNat 32 (rootBits e (p * 2 ^ (32 * e)) 37 0)

def shaRoundKeys : List Word := shaPrimes.map (rootFraction 3)
def shaInitial : List Word := (shaPrimes.take 8).map (rootFraction 2)

/-! ### Compression -/

/-- Three rotations of a word, joined. -/
def spin (i j k : Nat) (x : Word) : Word := x.rotateRight i ^^^ x.rotateRight j ^^^ x.rotateRight k

/-- Two rotations and a shift of a word, joined. -/
def spinShift (i j k : Nat) (x : Word) : Word := x.rotateRight i ^^^ x.rotateRight j ^^^ x >>> k

/-- Each bit of p chooses a bit of q or of r. -/
def choose (p q r : Word) : Word := r ^^^ p &&& (q ^^^ r)
def majority (p q r : Word) : Word := p &&& q ||| r &&& (p ||| q)

/-- One round with the sum of its message word and round key. -/
def shaRound (input : Word) (v : List Word) : List Word :=
  let at_ := fun i => v.getD i 0
  let feed := input + at_ 7 + spin 6 11 25 (at_ 4) + choose (at_ 4) (at_ 5) (at_ 6)
  let mixed := feed + spin 2 13 22 (at_ 0) + majority (at_ 0) (at_ 1) (at_ 2)
  mixed :: v.take 3 ++ (feed + at_ 3) :: (v.drop 4).take 3

/-- The next message word after a window of 16. -/
def nextWord (win : List Word) : Word :=
  spinShift 17 19 10 (win.getD 14 0) + win.getD 9 0 + spinShift 7 18 3 (win.getD 1 0) + win.getD 0 0

/-- The rounds, with a sliding window over the message schedule. -/
def shaRounds : List Word → List Word → List Word → List Word
  | [], _, v => v
  | key :: keys, win, v => shaRounds keys (win.drop 1 ++ [nextWord win]) (shaRound (win.getD 0 0 + key) v)

/-- The words of a block, most significant byte first. -/
def blockWords (blk : List Byte) : List Word :=
  (List.range 16).map fun i => BitVec.ofNat 32 (((bytesAt blk (4 * i) 4).map BitVec.toNat).foldl (fun n b => 256 * n + b) 0)

def compress (v : List Word) (blk : List Byte) : List Word := List.zipWith (· + ·) v (shaRounds shaRoundKeys (blockWords blk) v)

/-- The message with its padding: 0x80, zeros, and its length in bits. -/
def shaPadded (l : List Byte) : List Byte := l ++ 0x80#8 :: zeros ((119 - l.length % 64) % 64) ++ toBE 8 (8 * l.length)

/-- The SHA-256 digest of a byte string. -/
def sha256 (l : List Byte) : List Byte :=
  let m := shaPadded l
  let v := (List.range (m.length / 64)).foldl (fun v i => compress v (bytesAt m (64 * i) 64)) shaInitial
  v.flatMap fun w => toBE 4 w.toNat

end Sys2Proof.Machine
end

