-- ==== Sys2Proof/Machine/MetOps.lean ====
section
/-! DEFINITION. Caddis (R444 to R473): sampling, registers, records, transactions, the log and the read window. -/

namespace Sys2Proof.Machine

def State.modMet (f : Met → Met) (s : State) : State := { s with met := f s.met }
def State.modCh (o : Nat) (f : MetChan → MetChan) (s : State) : State := { s with met := { s.met with ch := upd s.met.ch o f } }
def State.chan (s : State) (o : Nat) : MetChan := nth s.met.ch o

/-- R465. -/
def State.caddisMs (s : State) : Nat := s.met.samples / 8

/-- R477: an event of Caddis, or one that waits for the module's logic with the Caddis time in its payload. -/
def metRaise (src cause inst : Nat) (payload : List Byte) (s : State) : State :=
  if s.awake && !s.pwr.undefinedLogic then raise src cause inst payload s
  else s.modMet fun m => { m with waiting := m.waiting ++ [(src, cause, inst, payload.take 5 ++ toLE 8 (m.samples / 8))] }

/-- R477: the events that arose meanwhile, once the logic runs. -/
def metFlush (s : State) : State :=
  forAll s.met.waiting (fun e s => raise e.1 e.2.1 e.2.2.1 e.2.2.2 s) (s.modMet fun m => { m with waiting := [] })

/-! ### Identity -/

def optionBytes (n : Nat) (f : Nat → Byte) : List Byte := (List.range n).map f

def caddisKey : List Byte := optionBytes 65 Config.caddisPublicKey

/-- R463: CADDIS_ID. -/
def caddisId : List Byte := (sha256 caddisKey).take 16

def State.metFwVersion (s : State) : Nat := match s.met.firmware with | some f => f.1 | none => Config.caddisFwVersion.toNat
def State.metFwDigest (s : State) : List Byte := match s.met.firmware with | some f => f.2 | none => optionBytes 32 Config.caddisFwDigest

/-- A 64-byte signature under the Caddis key. -/
def caddisSign (i : Nat) (msg : List Byte) : List Byte := optionBytes 64 (Config.ecdsaSign caddisKey i msg)

/-- R451: the parameter block of all 8 channels. -/
def paramBlock (s : State) : List Byte :=
  (List.range 8).flatMap fun o =>
    let c := s.chan o
    toLE 2 c.sensorSet ++ toLE 4 c.uScale ++ toLE 4 c.iScale ++ toLEi 4 c.uOffset ++ toLEi 4 c.iOffset ++ toLE 4 c.rCable ++ toLE 1 c.lossComp

def State.paramCrc (s : State) : Nat := crc32c (paramBlock s)

/-! ### Errors and flags (R464, R472) -/

def State.caddisError (s : State) : Bool := s.met.failed != 0
def State.chanError (s : State) (o : Nat) : Bool := s.caddisError || (s.chan o).modFail || (s.chan o).openFail

/-- R464: the flags that conditions set now. -/
def State.flagsNow (s : State) (o : Nat) : Nat :=
  b2n (!s.met.sealIntact) + 2 * b2n (!s.met.tamperIntact) + 4 * b2n (s.chan o).secondary + 8 * b2n (s.chanError o)
    + 64 * b2n s.met.warmup + 128 * b2n ((s.chan o).lossComp == 1)

def orBits (a b : Nat) : Nat := (BitVec.ofNat 32 a ||| BitVec.ofNat 32 b).toNat

/-- Every open transaction takes the flags of the present conditions. -/
def noteFlags (s : State) : State :=
  forAll (List.range 8) (fun o s =>
    if (s.chan o).isOpen then
      let f := s.flagsNow o
      s.modCh o fun c => { c with flags := orBits c.flags f }
    else s) s

/-! ### Samples (R447, R448) -/

/-- R447: input voltage of a code in V. -/
def codeVolts (c : Int) : Rat := (c : Rat) * 11 / (10 * 8388608)

/-- R448: whole mWh leave a residual in J; the 10^9 bound covers every sample. -/
def carry (register : Nat) (res : Rat) : Nat × Rat :=
  let n := (res * 10 / 36).floor.toNat
  (register + n, res - (n : Rat) * 36 / 10)

/-- R448: one sample pair of a channel. -/
def sampleChan (cu ci : Int) (c : MetChan) : MetChan :=
  let vu := codeVolts cu - (c.uOffset : Rat) / 1000000
  let vi := codeVolts ci - (c.iOffset : Rat) / 1000000
  let iScale : Rat := (c.iScale : Rat) / 1000
  let u := vu * ((c.uScale : Rat) / 1000)
  let i0 := vi * iScale
  let i : Rat := if ratAbs i0 < 2 / 1000 * iScale then 0 else i0
  let r : Rat := if c.lossComp = 1 then (c.rCable : Rat) / 1000000 else 0
  let p := (u - i * r) * i
  let e := p / 8000
  let g := c.regs
  let dl := if 0 ≤ e then carry g.delivered (g.deliveredRes + e) else (g.delivered, g.deliveredRes)
  let rv := if 0 ≤ e then (g.reverse, g.reverseRes) else carry g.reverse (g.reverseRes - e)
  let ls := carry g.loss (g.lossRes + i * i * r / 8000)
  let above := 1 < ratAbs (codeVolts cu) || 1 < ratAbs (codeVolts ci)
  { c with
    regs := { delivered := dl.1, deliveredRes := dl.2, reverse := rv.1, reverseRes := rv.2, loss := ls.1, lossRes := ls.2 }
    above := c.above || above, flags := if above && c.isOpen then orBits c.flags 16 else c.flags
    uSum := c.uSum + u, iSum := c.iSum + i, pSum := c.pSum + p, n := c.n + 1 }

/-! ### The log (R470, R471) -/

def generalCount (s : State) : Nat := (s.met.log.filter fun e => e.1 < 8184).length

/-- Write one log entry at an index, with E83 and E84. -/
def writeLog (index kind outlet param : Nat) (old new : Int) (s : State) : State :=
  let e := toLE 4 index ++ toLE 1 kind ++ toLE 1 outlet ++ toLE 2 param ++ toLE 8 s.caddisMs ++ toLEi 8 old ++ toLEi 8 new
  let s1 := s.modMet fun m => { m with log := m.log ++ [(index, e)] }
  let s2 := when (s1.met.log.length == 7373) (metRaise 83 1 0xFF (toLE 4 7373)) s1
  when (index < 8184 && generalCount s2 == 8184) (metRaise 84 1 0xFF (toLE 4 s2.met.log.length)) s2

/-- A general entry, while one is free. -/
def logGeneral (kind outlet param : Nat) (old new : Int) (s : State) : State :=
  if generalCount s < 8184 then writeLog (generalCount s) kind outlet param old new s else s

/-- R520: what the controller keeps of the IDENTIFY that it issues when Caddis is READY. -/
def takeIdent (s : State) : State :=
  let now : CaddisIdent := { version := s.metFwVersion, digest := s.metFwDigest, id := caddisId, pub := caddisKey, cert := optionBytes Config.caddisCertLen.val Config.caddisCert }
  s.modKey fun k => { k with ident := if s.met.ready then some now else none }

/-! ### Records (R463) -/

/-- R463: a signed record of a channel. -/
def metRecord (s : State) (o kind flags txnDelivered reason : Nat) : List Byte :=
  let c := s.chan o
  let reading := kind = 3 ∧ !c.isOpen
  let body := toLE 4 0x52544B43 ++ toLE 2 1 ++ toLE 1 kind ++ toLE 1 o ++ toLE 4 (if reading then 0 else c.txn) ++ toLE 4 flags
    ++ caddisId ++ s.metFwDigest ++ toLE 4 s.metFwVersion ++ toLE 4 s.paramCrc ++ toLE 8 s.caddisMs ++ toLE 8 s.now
    ++ toLEi 8 s.civil ++ padTo 16 (if reading then [] else c.sessionRef) ++ toLE 8 c.regs.delivered ++ toLE 8 c.regs.reverse ++ toLE 8 c.regs.loss
    ++ toLE 8 txnDelivered ++ toLE 8 (if reading then 0 else c.startMs) ++ toLE 4 c.rCable ++ toLE 4 s.met.log.length ++ toLE 1 reason ++ zeros 3
    ++ toLE 4 (if c.secondary && !reading then c.primaryTxn else 0) ++ (if c.secondary && !reading then padTo 16 c.primaryId else zeros 16) ++ zeros 8
  body ++ caddisSign s.freeIx body

/-- R462: keep a record; the latest 256 transactions stay. -/
def keepRecord (o kind : Nat) (bytes : List Byte) (s : State) : State :=
  useFree (s.modCh o fun c => { c with
    records := c.records.filter (fun r => (c.txn + 2 ^ 32 - r.txn) % 2 ^ 32 < 256) ++ [{ txn := c.txn, kind := kind, bytes := bytes }] })

/-- R445: commit registers and residuals. -/
def commitAll (s : State) : State := s.modMet fun m => { m with ch := m.ch.map fun c => { c with saved := c.regs } }

/-- R461: close the open transaction with a signed STOP record and E80. -/
def metStop (o reason : Nat) (s : State) : State × List Byte :=
  let c := s.chan o
  let flags := orBits c.flags (s.flagsNow o)
  let d := c.regs.delivered - c.startDelivered
  let bytes := metRecord s o 2 flags d reason
  let s1 := keepRecord o 2 bytes s
  let s2 := commitAll (s1.modCh o fun c => { c with isOpen := false, lastDelivered := d })
  (metRaise 80 1 o (toLE 4 c.txn ++ toLE 1 reason ++ toLE 4 flags) s2, bytes)

/-- R460, R461: open a transaction with a signed START record. -/
def metOpen (o : Nat) (ref : List Byte) (primary : Option (Nat × List Byte)) (s : State) : State × List Byte :=
  let s0 := if (s.chan o).isOpen then (metStop o 0x21 s).1 else s
  let txn := ((s0.chan o).txn + 1) % 2 ^ 32
  let s1 := when (txn == 0) (writeLog (8184 + o) 7 o 0 0 0) s0
  let s2 := s1.modCh o fun c => { c with
    isOpen := true, txn := txn, secondary := primary.isSome
    primaryTxn := match primary with | some p => p.1 | none => 0
    primaryId := match primary with | some p => p.2 | none => []
    sessionRef := ref, startDelivered := c.regs.delivered, startMs := s1.caddisMs, flags := 0 }
  let f := s2.flagsNow o
  let s3 := s2.modCh o fun c => { c with flags := f }
  let bytes := metRecord s3 o 1 f 0 0
  (commitAll (keepRecord o 1 bytes s3), bytes)

/-- R467, R472: why a start is refused, or 0. -/
def startRefusal (s : State) (o : Nat) : Nat :=
  if !s.met.ready then 0x0B else if s.personality o = 0 then 0x09
  else if s.chanError o || (s.chan o).sensorSet = 0 then 0x06 else 0

/-- R475: the holder tells its peer of a start; a peer that cannot be reached gets no SECONDARY transaction. -/
def mirrorStart (o : Nat) (s : State) : State :=
  let c := s.chan o
  if !s.member then s
  else if s.pair.linkUp then sendRecord (.caddis o true (padTo 16 c.sessionRef) c.txn caddisId) s
  else if s.plcFallback then queuePlc 0x0A (toLE 1 o ++ toLE 1 1 ++ padTo 16 c.sessionRef ++ toLE 4 c.txn ++ caddisId) s
  else metRaise 81 3 o (toLE 4 (s.chan o).txn) s

/-- R476. -/
def mirrorStop (o : Nat) (s : State) : State :=
  if !s.member then s
  else if s.pair.linkUp then sendRecord (.caddis o false [] 0 []) s
  else if s.plcFallback then queuePlc 0x0A (toLE 1 o ++ toLE 1 0) s
  else s

/-- R475, R476: a start opens a SECONDARY transaction; a stop closes this unit's transaction with PAIR_FORWARDED. -/
def mirroredRequest (o : Nat) (start : Bool) (ref : List Byte) (txn : Nat) (id : List Byte) (s : State) : State :=
  if 8 ≤ o then s
  else if start then (if startRefusal s o = 0 then (metOpen o ref (some (txn, id)) s).1 else s)
  else if s.met.ready && (s.chan o).isOpen then (metStop o 0x22 s).1 else s

/-- R467, R478: requests wait while an installation restarts Caddis. -/
def State.caddisBusy (s : State) : Bool := s.met.installing && !s.met.ready

/-- A mirrored request, at once or once Caddis is READY. -/
def mirroredArrives (o : Nat) (start : Bool) (ref : List Byte) (txn : Nat) (id : List Byte) (s : State) : State :=
  if s.caddisBusy then s.modHost fun h => { h with mailbox := h.mailbox ++ [.mirrored o start ref txn id] }
  else mirroredRequest o start ref txn id s

/-- R458, R459: the start that the vehicle-link engine requests; the reason of a refusal. -/
def engineStart (o : Nat) (ref : List Byte) (s : State) : State × Option Nat :=
  match startRefusal s o with
  | 0 => (mirrorStart o (metOpen o ref none s).1, none)
  | r => (raise 81 2 o (toLE 1 r) s, some r)

/-- R458: the stop that the vehicle-link engine requests. -/
def engineStop (o reason : Nat) (s : State) : State :=
  if s.met.ready && (s.chan o).isOpen then mirrorStop o (metStop o reason s).1 else s

/-! ### The read window (R469) -/

/-- TXN_DELIVERED of the open transaction, or of the last closed one. -/
def State.txnDelivered (s : State) (o : Nat) : Nat :=
  let c := s.chan o
  if c.isOpen then c.regs.delivered - c.startDelivered else c.lastDelivered

def w32 (n : Nat) : Word := BitVec.ofNat 32 n
def wInt (i : Int) : Word := BitVec.ofInt 32 i
def mask8 (f : Nat → Bool) : Nat := ((List.range 8).map fun o => if f o then 2 ^ o else 0).foldl (· + ·) 0

/-- A mean over the samples since the last refresh, rounded. -/
def meanOf (sum : Rat) (n scale : Nat) : Int := if n = 0 then 0 else ratRound (sum * (scale : Nat) / (n : Nat))

def sat16 (v : Int) : Int := max (-32768) (min 32767 v)

/-- R469: the words of one outlet. -/
def metOutWords (s : State) (o : Nat) : List (Nat × Word) :=
  let c := s.chan o
  let g := c.regs
  let b := 0x6900 + 0x40 * o
  [(b, w32 g.delivered), (b + 4, w32 (g.delivered / 2 ^ 32)), (b + 8, w32 g.reverse), (b + 0xC, w32 (g.reverse / 2 ^ 32)),
   (b + 0x10, w32 g.loss), (b + 0x14, w32 (g.loss / 2 ^ 32)), (b + 0x18, w32 c.txn), (b + 0x1C, w32 (s.txnDelivered o)),
   (b + 0x20, w32 (s.txnDelivered o / 2 ^ 32)),
   (b + 0x24, (BitVec.ofInt 16 (sat16 (meanOf c.iSum c.n 10))) ++ (BitVec.ofInt 16 (sat16 (meanOf c.uSum c.n 10)))),
   (b + 0x28, wInt (meanOf c.pSum c.n 1)),
   (b + 0x2C, w32 (b2n c.isOpen + 2 * b2n (c.isOpen && c.secondary) + 4 * b2n (s.chanError o) + 8 * b2n c.above + 16 * b2n (c.lossComp == 1))),
   (b + 0x30, w32 c.rCable)]

/-- R469: the whole window. -/
def metWords (s : State) : List (Nat × Word) :=
  let m := s.met
  let tests := m.failed + 32 * b2n (m.ch.any (·.modFail)) + 64 * b2n (m.ch.any (·.openFail))
  [(0x6800, w32 (b2n m.ready + 2 * b2n m.sealIntact + 4 * b2n m.tamperIntact + 8 * b2n s.caddisError + 16 * b2n (7373 ≤ m.log.length)
      + 32 * b2n (8184 ≤ generalCount s) + 64 * b2n m.warmup + 256 * mask8 (fun o => (s.chan o).isOpen)
      + 65536 * mask8 s.chanError + 16777216 * mask8 (fun o => (s.chan o).isOpen && (s.chan o).secondary))),
   (0x6804, m.seq), (0x6808, w32 m.log.length), (0x680C, w32 s.metFwVersion)]
  ++ (List.range 8).map (fun i => (0x6810 + 4 * i, w32 (u32 s.metFwDigest (4 * i))))
  ++ (List.range 4).map (fun i => (0x6830 + 4 * i, w32 (u32 caddisId (4 * i))))
  ++ [(0x6840, w32 s.paramCrc), (0x6844, w32 tests), (0x6848, w32 s.caddisMs), (0x684C, w32 (s.caddisMs / 2 ^ 32))]
  ++ (List.range 8).flatMap (metOutWords s)

end Sys2Proof.Machine
end

