-- ==== Sys2Proof/Machine/VehicleOps.lean ====
section
/-! DEFINITION. The vehicle-link engine of an outlet (R375 to R394): session state, internal TARGETs, the reaction to the path's answers, and session ends. -/

namespace Sys2Proof.Machine

def State.modVeh (o : Nat) (f : Veh → Veh) (s : State) : State := { s with veh := upd s.veh o f }
def State.modSes (o : Nat) (f : Session → Session) (s : State) : State := s.modVeh o fun v => { v with ses := f v.ses }

def SessState.code : SessState → Nat
  | .idle => 0 | .plugged => 1 | .linked => 2 | .setup => 3 | .authorizing => 4
  | .preparing => 5 | .charging => 6 | .ending => 7 | .ended => 8

/-- R394: no unit holds a current lease. -/
def State.leaseVoid (s : State) : Bool := s.member && !s.pair.held

/-- R393, R394: this unit runs the protocol exchange: it holds the lease, or held the last one. -/
def State.engineHere (s : State) : Bool := !s.member || s.pair.holderB == s.unitB

/-- R393, R539: mirror the session after a message; the pair key of slot 2 wraps its TLS keys. -/
def mirrorSession (o : Nat) (s : State) : State := when s.leaseHere (sendRecord (.session o (s.ses o) (s.slot 2).material)) s

/-- E0 + o with a session cause. -/
def sesEvent (o cause : Nat) (payload : List Byte) (s : State) : State := raise o cause o payload s

/-! ### Internal TARGETs (R174, R387) -/

/-- The 28 bytes of an internal TARGET (R180); a target above its maximum is cut to it. -/
def internalTarget (o : Nat) (seq : Half) (cmd v i k : Nat) (r : Request) : List Byte :=
  let vMax := min 12500 r.vMax
  let iMax := min 30000 r.iMax
  withCrc (toLE 1 1 ++ toLE 1 o ++ toLE 2 seq.toNat ++ toLE 1 cmd ++ zeros 1 ++ toLE 2 (min v vMax) ++ toLE 2 (min i 30000)
    ++ toLE 2 vMax ++ toLE 2 iMax ++ toLE 2 (min r.iMin iMax) ++ toLE 2 (min 3750 r.pMax) ++ toLE 2 k ++ zeros 4)

/-- R23, R174: issue one command on a VEHICLE_LINK outlet. -/
def issue (o cmd v i k : Nat) (s : State) : State :=
  if s.portSource o then s
  else
    let ses := s.ses o
    newTarget o (internalTarget o ses.seq cmd v i k ses.req) (s.modSes o fun x => { x with seq := x.seq + 1 })

/-- Issue PRECHARGE or CHARGE and note what was asked for (R388). -/
def issueLevel (o cmd v i : Nat) (s : State) : State :=
  issue o cmd v i 0 (s.modSes o fun x => { x with issuedV := v, issuedI := i, issuedAt := s.now })

/-- R379, R387: the isolation test begins; on MCS not before PP is LATCHED. -/
def beginIsolation (o : Nat) (s : State) : State :=
  if (s.ses o).isolating || (s.personality o == 2 && (s.vehOf o).ppClass != 2) then s else issue o 1 0 0 0 (s.modSes o fun x => { x with isolating := true, noStage := false })

/-- R387: CHECK after the ACK of CONNECT. -/
def issueCheck (o : Nat) (s : State) : State :=
  issue o 2 (min (s.ses o).req.vMax (10 * s.olVMaxV o)) 0 (s.kMax o) s

/-! ### Starting (R386) -/

/-- R28, R386, R394: a session may start now. -/
def State.mayStart (s : State) (o : Nat) : Bool :=
  (s.ses o).state == .idle && !s.prof.lock && s.pwr.opState != .safe && s.leaseHere

/-- R386: leave IDLE when the conditions of the personality hold. -/
def trySessionStart (o : Nat) (s : State) : State :=
  let v := s.vehOf o
  let go := s.mayStart o && (match s.personality o with
    | 1 => v.pilot == 1
    | 2 => v.pilot == 1 && v.ppClass == 2
    | 3 => v.ses.authorized
    | _ => false)
  if !go then s
  else
    let s1 := s.modSes o fun x => { x with state := .plugged, pluggedAt := s.now, duty := s.personality o == 1, sig1 := s.personality o == 3 }
    mirrorSession o (sesEvent o 1 (toLE 1 (s.personality o)) s1)

/-! ### Ending (R386) -/

/-- States from which a session can still be ended. -/
def SessState.alive : SessState → Bool
  | .plugged | .linked | .setup | .authorizing | .preparing | .charging => true
  | _ => false

/-- R386: the session is ENDING with its reason; `closed` says that no closing message follows. -/
def markEnding (o reason : Nat) (closed : Bool) (s : State) : State :=
  s.modSes o fun x => { x with
    state := .ending, reason := reason, closed := closed || s.personality o == 3, noStage := false
    pilotF := s.personality o == 2 && reason == 0x0D }

/-- A session that is ENDING already keeps its reason. -/
def endingStill (o : Nat) (closed : Bool) (s : State) : State := s.modSes o fun x => { x with closed := x.closed || closed }

/-- R386: the session ends with a reason, and a started path receives STOP. -/
def endSession (o reason : Nat) (closed : Bool) (s : State) : State :=
  let st := (s.ses o).state
  if st.alive then
    let s1 := markEnding o reason closed s
    if (s1.path o).state.started then (if s1.portSource o then stopPath o false (some (0x0C, 2)) s1 else issue o 0 0 0 0 s1) else s1
  else if st == .ending then endingStill o closed s
  else s

/-- R386: the session ends with a reason, and its outlet stops as for OUTLET_HALT with mode FAST. -/
def endSessionFast (o reason : Nat) (closed : Bool) (s : State) : State :=
  let st := (s.ses o).state
  if st.alive then stopFast o (some (0x0C, 2)) (markEnding o reason closed s)
  else if st == .ending then stopFast o none (endingStill o closed s)
  else s

/-- R386: ENDED once the path is at its safe end and the closing messages are done. -/
def tryEnded (o : Nat) (s : State) : State :=
  let ses := s.ses o
  let p := s.path o
  let safeEnd := p.state == .idle || (p.state == .faulted && s.faultEnd o)
  if ses.state == .ending && ses.closed && safeEnd then
    let s1 := s.modSes o fun x => { x with
      state := .ended, sig1 := false, sig2 := false, sig1At := s.now, pilotF := false, stopWaits := s.leaseVoid || !s.met.ready, startWaits := none, authorized := false, starvedSince := none }
    let s2 := if s.leaseVoid then s1 else when s.leaseHere (engineStop o ses.reason) s1
    sesEvent o 6 (toLE 1 ses.reason)
      ((s2.modVeh o fun v => { v with tcpOpen := false }).modAlcOut o fun a => { a with sessionLimit := 0 })
  else s

/-- R386: back to IDLE; the pilot returns to +12 V DC. -/
def sessionUnplugged (o : Nat) (s : State) : State :=
  sesEvent o 7 (toLE 1 0) (s.modVeh o fun v => { v with ses := { seq := v.ses.seq }, t1sUp := false, tcpOpen := false })

/-- R394, R478: a lease is held and Caddis is READY again: the waiting transaction stops are requested. -/
def lateStops (s : State) : State :=
  if !s.leaseHere || !s.met.ready then s
  else forAll (List.range 8) (fun o s =>
    if (s.ses o).stopWaits then engineStop o (s.ses o).reason (s.modSes o fun x => { x with stopWaits := false }) else s) s

/-! ### Reacting to the path (R386, R389) -/

/-- The reason for which a path that stopped by itself ends the session. -/
def stopReason (p : Path) : Nat := if p.halted then 0x04 else 0x0D

/-- R387, R389, R390: one answer of the path to the engine. -/
def reactAnswer (o : Nat) (a : PathAnswer) (s : State) : State :=
  let ses := s.ses o
  if !ses.state.alive || (!a.ack && (a.reason == 8 || a.reason == 3 || a.reason == 4)) then s
  else if a.ack then
    match a.cmd with
    | 1 => issueCheck o (s.modSes o fun x => { x with sig2 := x.sig2 || s.personality o == 3 })
    | 2 => s.modSes o fun x => { x with checked := true }
    | 4 => if ses.state == .preparing then
        sesEvent o 5 (toLE 2 (s.path o).iEff) (s.modSes o fun x => { x with state := .charging })
      else s
    | _ => s
  else if a.cmd = 1 ∧ a.reason = 6 then s.modSes o fun x => { x with noStage := true, noStageAt := s.now, isolating := false }
  else if a.cmd = 1 ∨ a.cmd = 2 ∨ a.cmd = 3 then
    endSession o (if a.reason = 0x0C ∧ a.detail = 1 then 0x04 else 0x0D) false (s.modSes o fun x => { x with isoFault := x.isoFault || a.reason == 9 })
  else s

/-- R386: ENDED back to IDLE by the pilot, and for MCS by PP OPEN too. -/
def tryUnplugged (o : Nat) (s : State) : State :=
  let v := s.vehOf o
  let p := s.personality o
  when (v.ses.state == .ended && v.pilot == 0 && (p == 1 || (p == 2 && v.ppClass == 0))) (sessionUnplugged o) s

/-- R386: PP OPEN with the contactor closed is an unplug; R379: not for CCS_DC. -/
def tryPpOpen (o : Nat) (s : State) : State :=
  when (s.personality o == 2 && (s.vehOf o).ppClass == 0 && (s.path o).closed && (s.ses o).state.alive) (endSessionFast o 2 true) s

/-- The latest answer of the path, the path's own stops, the end of the session, and a start from IDLE. -/
def settleVehicle (o : Nat) (s : State) : State :=
  let vehicle := 1 ≤ s.personality o && s.personality o ≤ 3
  if !vehicle then s
  else
    let s0 := tryPpOpen o s
    let s1 := match (s0.path o).lastAnswer with
      | some a => reactAnswer o a (s0.modPath o fun p => { p with lastAnswer := none })
      | none => s0
    let p := s1.path o
    let st := (s1.ses o).state
    let stopped := p.state == .stopping || p.state == .discharging || p.state == .faulted
    let s2 := if (st == .preparing || st == .charging) && stopped && !(s1.ses o).noStage then endSession o (stopReason p) false s1 else s1
    let s3 := if (s2.ses o).state == .ending && (s2.path o).state == .faulted && (s2.path o).tgt.isNone then issue o 0 0 0 0 s2 else s2
    trySessionStart o (tryUnplugged o (tryEnded o s3))

/-- Every outlet's engine after something acted on its path; twice, so that an answer to a command of the first pass is taken too. -/
def settleVehicles (s : State) : State :=
  if s.isFrozen 0x22 then s else forAll (List.range 8) settleVehicle (forAll (List.range 8) settleVehicle s)

/-! ### Starvation (R390) -/

/-- R390: an outlet starves while its budget is 0 under R161 or R162. -/
def noteStarved (o : Nat) (s : State) : State :=
  let st := (s.ses o).state
  let a := s.alcOut o
  let on := (st == .preparing || st == .charging) && a.budget == 0 && (a.paused || a.e32 != 0)
  s.modSes o fun x => { x with starvedSince := if on then (match x.starvedSince with | some t => some t | none => some s.now) else none }

/-! ### Answers to the vehicle (R389) -/

/-- R389: what every answer reports, in the model's own order: present V and I, maxima, flags, inlet voltage, isolation status (0 Ongoing, 1 Valid, 2 Fault), and the reason of a session that the charger or the vehicle is ending. -/
def vehicleAnswer (o : Nat) (s : State) : List Byte :=
  let a := s.alcOut o
  let p := s.path o
  let ses := s.ses o
  toLE 2 (s.vMeasDv o) ++ toLE 2 (s.iMeasDa o) ++ toLE 2 (if ses.starvedSince.isSome then 0 else a.iCeil) ++ toLE 2 a.vCeil ++ toLE 4 a.budget
    ++ toLE 1 (b2n (decide (p.iEff < ses.req.iTarget)) + 2 * b2n (decide (p.vEff < ses.req.vTarget)))
    ++ toLE 2 (s.inletDv o) ++ toLE 1 (if ses.isoFault then 2 else b2n ses.checked) ++ toLE 1 (if ses.state == .ending then ses.reason else 0)

def answerVehicle (o : Nat) (s : State) : State := emit (.vehicle o (vehicleAnswer o s)) s

/-! ### Re-targets (R388, R394) -/

/-- R388: the vehicle's target differs enough from what was issued last. -/
def State.retargetDue (s : State) (o : Nat) : Bool :=
  let ses := s.ses o
  let far := decide (max 1000 ses.issuedI < 100 * natDist ses.req.iTarget ses.issuedI) || decide (10 < natDist ses.req.vTarget ses.issuedV)
  let raises := ses.issuedI < ses.req.iTarget || ses.issuedV < ses.req.vTarget
  far && decide (ses.issuedAt + 25000000 ≤ s.now) && !(s.leaseVoid && raises)

def retarget (o : Nat) (s : State) : State :=
  let ses := s.ses o
  if ses.state == .charging && !ses.standby && s.retargetDue o then issueLevel o 4 ses.req.vTarget ses.req.iTarget s else s

/-- R388: a re-target that the 25 ms have held back. -/
def dueRetargets (s : State) : State :=
  if s.isFrozen 0x22 then s
  else settleVehicles (forAll ((List.range 8).filter fun o => s.engineHere && 1 ≤ s.personality o && s.personality o ≤ 3) retarget s)

end Sys2Proof.Machine
end

