-- ==== Sys2Proof/Machine/CanOps.lean ====
section
/-! DEFINITION. The CAN controllers (R398 to R415): receive rings, filters, transmit buffers, error confinement, rate detection and restricted operation. -/

namespace Sys2Proof.Machine

def State.modCan (n : Nat) (f : CanCtl → CanCtl) (s : State) : State := { s with can := upd s.can n f }
def State.ctlr (s : State) (n : Nat) : CanCtl := nth s.can n

/-! ### The CAN section (R400, R402) -/

def State.canRec (s : State) (n : Nat) : List Byte := ((s.sec 0x0A).drop (512 * n)).take 512
def State.canEnabled (s : State) (n : Nat) : Bool := u8 (s.canRec n) 0 == 1
/-- FEATURES: 0 FD_EN, 1 XL_EN, 2 TX_ORDER, 3 AUTO_RECOVER, 4 ABORT_ON_BUS_OFF, 5 WAKE_EN, 6 AUTOBAUD_EN. -/
def State.canFeature (s : State) (n b : Nat) : Bool := bitOf (u8 (s.canRec n) 1) b
def State.candCount (s : State) (n : Nat) : Nat := u8 (s.canRec n) 2

/-- R24: the CHADEMO outlet that names the controller. -/
def State.canOwner (s : State) (n : Nat) : Option Nat := (List.range 8).find? fun o => s.personality o == 3 && s.chademoCan o == n

/-- R402: KIND of a frame. -/
def CanFrame.kind (f : CanFrame) : Nat := match f.fmt with | 0 => 1 | 3 => 3 | _ => 2

/-- R402: a frame matches the filter entry at offset `off` of the record. -/
def filterMatch (r : List Byte) (off : Nat) (f : CanFrame) : Bool :=
  let id := u32 r off
  let mask := u32 r (off + 4)
  let kind := id / 2 ^ 30
  (kind == 0 || kind == f.kind)
    && (((id ^^^ f.id) &&& mask) % 2 ^ 29 == 0)
    && (!bitOf mask 29 || bitOf id 29 == f.ide)
    && (f.fmt != 3 || ((byteAt r (off + 9) ^^^ f.vcid) &&& byteAt r (off + 10)) == 0)

/-- R402: what becomes of a frame. -/
inductive Fate
  | prio | accept (filter : Nat) | reject
  deriving DecidableEq, Repr

def filterAt (i : Nat) : Nat := 0x64 + 12 * i

def frameFate (r : List Byte) (f : CanFrame) : Fate :=
  if u8 r (0x58 + 8) ≠ 0 ∧ filterMatch r 0x58 f then .prio
  else match (List.range 32).find? fun i => u8 r (filterAt i + 8) != 0 && filterMatch r (filterAt i) f with
    | some i => if u8 r (filterAt i + 8) = 1 then .accept i else .reject
    | none => if u8 r 0x1E4 = 1 then .accept 0 else .reject

/-! ### Receive rings (R404, R405) -/

def RxRing.addr (q : RxRing) (size : Nat) : Nat := q.baseLo.toNat + 2 ^ 32 * q.baseHi.toNat + size * q.index

/-- R405: the position after one entry. -/
def RxRing.step (q : RxRing) : RxRing :=
  let last := q.index + 1 == 2 ^ q.sizeLog2
  { q with index := if last then 0 else q.index + 1, phase := if last then !q.phase else q.phase }

/-- R413: the message of a written entry, at once or within COALESCE_US. -/
def RxRing.note (now : Nat) (q : RxRing) : RxRing :=
  if q.coalesceUs = 0 then q else { q with unsigAt := match q.unsigAt with | some t => some t | none => some now }

/-- The coalescing interval of the ring has ended. -/
def RxRing.due (q : RxRing) (now : Nat) : Bool := match q.unsigAt with | some t => decide (t + 1000 * q.coalesceUs ≤ now) | none => false

/-- R404: an entry, its byte 0 with PHASE. -/
def canEntry (phase : Bool) (size : Nat) (e : CanRx) : List Byte :=
  let f := e.frame
  padTo size (toLE 1 (f.fmt + 32 * b2n e.overrun + 64 * b2n e.prio + 128 * b2n phase)
    ++ toLE 1 (b2n f.ide + 2 * b2n f.esi + 4 * b2n f.rtr + 8 * e.filter) ++ toLE 2 f.data.length ++ toLE 4 f.id ++ toLE 8 f.time
    ++ (if f.fmt = 3 then [f.sdt, f.vcid, 0, 0] ++ toLE 4 f.af.toNat else zeros 8) ++ zeros 8 ++ f.data)

/-- R404: the next entry, the priority buffer first, and the buffers after it leaves. -/
def CanCtl.takeRx (c : CanCtl) : Option (CanRx × CanCtl) :=
  match c.prio, c.fifo with
  | some e, _ => some (e, { c with prio := none })
  | none, e :: r => some (e, { c with fifo := r })
  | none, [] => none

/-! ### Bit times (R401) -/

/-- R401: quanta of 12.5 ns in one bit of a timing word. -/
def timingQuanta (w : Nat) : Nat := (w % 32 + 1) * (3 + w / 2 ^ 5 % 2 ^ 8 + w / 2 ^ 13 % 2 ^ 7)

/-- R411: the offset of the nominal timing that the controller uses: its own, or that of a candidate with AUTOBAUD_EN. -/
def State.canTimingAt (s : State) (n : Nat) : Nat :=
  let c := s.ctlr n
  if s.canFeature n 6 then 0x18 + 8 * (if c.mode == .detecting then c.candidate else c.rateIndex) else 4

/-- `k` nominal bit times in ns, rounded up. -/
def State.canBitsNs (s : State) (n k : Nat) : Nat := (25 * k * timingQuanta (u32 (s.canRec n) (s.canTimingAt n)) + 1) / 2

def canEntrySize (s : State) (n : Nat) : Nat := if s.canFeature n 1 then 2080 else 96

/-- R404, R405: one entry is written to the enabled ring. -/
def canRingWrite (n : Nat) (s : State) : State :=
  let c := s.ctlr n
  match c.takeRx with
  | none => s
  | some (e, c1) =>
    if !(c.rx.enable && s.domainUp 6) then s
    else
      let size := canEntrySize s n
      let s1 := toHost (.hostWrite (c.rx.addr size) (canEntry c.rx.phase size e))
        (s.modCan n fun _ => { c1 with rx := (c.rx.step).note s.now })
      if c.rx.coalesceUs = 0 then askMsix (17 + n) c.rx.vector s1 else s1

/-- R413: the coalesced messages whose interval has ended. -/
def canCoalesce (s : State) : State :=
  forAll (List.range 8) (fun n s =>
    let q := (s.ctlr n).rx
    if q.due s.now then askMsix (17 + n) q.vector (s.modCan n fun c => { c with rx := { c.rx with unsigAt := none } }) else s) s

/-! ### Events and counters (R408, R414) -/

def canEvent (n cause : Nat) (payload : List Byte) (s : State) : State := raise (64 + n) cause n payload s

def CanCtl.warning (c : CanCtl) : Bool := decide (96 ≤ c.tec) || decide (96 ≤ c.recc)
def CanCtl.passive (c : CanCtl) : Bool := decide (127 < c.tec) || decide (127 < c.recc)
/-- R413: TX_PENDING. -/
def CanCtl.pendingMask (c : CanCtl) : Nat :=
  ((List.range 3).map fun b => if (nth c.tx b).isSome then 2 ^ b else 0).foldl (· + ·) 0
def CanCtl.collidingMask (c : CanCtl) : Nat :=
  ((List.range 3).map fun b => if ((nth c.tx b).map (·.colliding)) == some true then 2 ^ b else 0).foldl (· + ·) 0
/-- R413: CONFINE. -/
def CanCtl.confine (c : CanCtl) : Nat := if !c.running then 0 else if c.busOff then 3 else if c.passive then 2 else 1

def errPayload (c : CanCtl) : List Byte := toLE 2 c.tec ++ toLE 1 c.recc

/-- R414: the events that a change of the counters raises. -/
def confineEvents (n : Nat) (old : CanCtl) (s : State) : State :=
  let c := s.ctlr n
  let s1 := when (c.warning && !old.warning) (canEvent n 1 (errPayload c)) s
  let s2 := when (c.passive && !old.passive && !c.busOff) (canEvent n 2 (errPayload c)) s1
  when (!c.passive && old.passive) (canEvent n 3 (errPayload c)) s2

/-- Change the counters of a controller. REC saturates at 255 (R408). -/
def canCount (n : Nat) (f : CanCtl → CanCtl) (s : State) : State :=
  let old := s.ctlr n
  confineEvents n old (s.modCan n fun c => let c := f c; { c with recc := min 255 c.recc, tec := min 511 c.tec })

/-! ### Transmit buffers (R406, R407) -/

/-- The order in which frames win arbitration: a base identifier before an extended one of equal high bits. -/
def CanFrame.arbKey (f : CanFrame) : Nat :=
  if f.ide then f.id / 2 ^ 18 * 2 ^ 20 + 2 ^ 19 + f.id % 2 ^ 18 else f.id % 2 ^ 11 * 2 ^ 20

/-- R407: the pending buffer that is offered next. -/
def CanCtl.first (c : CanCtl) (byNumber : Bool) : Option Nat :=
  let l := (List.range 3).filter fun b => (nth c.tx b).isSome
  let key : Nat → Nat := fun b => match nth c.tx b with | some t => t.frame.arbKey | none => 0
  if byNumber then l.head?
  else l.foldl (fun (best : Option Nat) b => match best with | some a => if key b < key a then some b else some a | none => some b) none

/-- The controller may put a frame on its bus. -/
def CanCtl.canSend (c : CanCtl) : Bool := c.running && c.mode == .normal && !c.busOff

/-- R407: offer the pending buffers at bus idle. -/
def canOffer (n : Nat) (s : State) : State :=
  s.modCan n fun c => { c with onWire := if c.canSend then c.first (s.canFeature n 2) else none }

/-- Offer only when no frame is on the wire. -/
def canIdleOffer (n : Nat) (s : State) : State := if (s.ctlr n).onWire.isSome then s else canOffer n s

/-- R406: abort the buffers that `p` selects: each descriptor completes with STATE_INVALID and the reason. -/
def canAbort (n reason : Nat) (p : Nat → Bool) (s : State) : State :=
  let s1 := s.modCan n fun c => { c with
    tx := (List.range 3).map fun b => if p b then none else nth c.tx b
    onWire := match c.onWire with | some b => if p b then none else some b | none => none }
  endOps (fun k => match k with | .canSend m b => m == n && p b | _ => false) 0x12 reason s1

def canAbortAll (n reason : Nat) (s : State) : State := canAbort n reason (fun _ => true) s

/-- Abort every buffer but the one on the wire. -/
def canAbortOthers (n reason : Nat) (s : State) : State :=
  let w := (s.ctlr n).onWire
  canAbort n reason (fun b => w != some b) s

/-! ### Modes (R399, R411, R412) -/

/-- R399: only the holder of a current lease transmits. -/
def listenMode (s : State) : CanMode := if s.leaseHere then .normal else .restricted

/-- R411: detection starts with candidate 0. -/
def detectStart (n : Nat) (s : State) : State :=
  if (s.ctlr n).running && s.canFeature n 6 then
    s.modCan n fun c => { c with
      mode := .detecting, candidate := 0, good := 0, candAt := s.now, accepted := false, dataVerified := false, onWire := none }
  else s

/-- R411: reject the candidate and take the next; E64 + n AUTOBAUD_FAILED after a full pass. -/
def nextCandidate (n : Nat) (s : State) : State :=
  let c := s.ctlr n
  let wrap := decide (s.candCount n ≤ c.candidate + 1)
  let s1 := s.modCan n fun c => { c with
    candidate := if wrap then 0 else c.candidate + 1, good := 0, candAt := s.now, dataVerified := false }
  when wrap (canEvent n 0x0A []) s1

/-- R412, R413: a controller starts with its record; the counters since reset and the receive ring stay. -/
def canFresh (n : Nat) (s : State) : State :=
  let s1 := s.modCan n fun c =>
    { running := s.canEnabled n, mode := listenMode s, busOffs := c.busOffs, overruns := c.overruns
      rxFrames := c.rxFrames, txFrames := c.txFrames, rx := c.rx }
  when (s.pwr.opState == .operate) (detectStart n) s1

/-- R412, R415: a profile takes effect: buffers abort with PROFILE, the receive buffers empty, and the controller restarts once the frame on the wire is complete. -/
def canRestart (n : Nat) (s : State) : State :=
  let s1 := (canAbortOthers n 5 s).modCan n fun c => { c with fifo := [], prio := none, dropping := false }
  if (s1.ctlr n).onWire.isSome then s1.modCan n fun c => { c with leaving := 5 } else canFresh n s1

def canProfile (s : State) : State := forAll (List.range 8) canRestart s

/-- R399: the lease is lost: the frame on the wire completes, the others abort with LEASE_LOST. -/
def canLeaseLost (s : State) : State :=
  forAll (List.range 8) (fun n s =>
    let s1 := canAbortOthers n 4 s
    if (s1.ctlr n).onWire.isSome then s1.modCan n fun c => { c with leaving := 4 }
    else s1.modCan n fun c => if c.mode == .normal then { c with mode := .restricted } else c) s

/-- R399: the lease is gained: a controller in restricted operation waits for 11 recessive bits. -/
def canLeaseGained (s : State) : State := forAll (List.range 8) (fun n s => s.modCan n fun c => { c with quietAt := s.now }) s

/-- R411: detection at entry to Operate and after every wake; the pending buffers stay (R412). -/
def canDetectAll (s : State) : State := forAll (List.range 8) detectStart s

/-- The frame on the wire has left it, and the controller leaves for its noted reason. -/
def canLeave (n : Nat) (s : State) : State :=
  let c := s.ctlr n
  if c.leaving = 5 then canFresh n (canAbortAll n 5 s)
  else if c.leaving = 4 then (canAbortAll n 4 s).modCan n fun c => { c with leaving := 0, mode := listenMode s }
  else canOffer n s

/-! ### Bus-off (R409) -/

/-- R409: entry to BUS_OFF. -/
def enterBusOff (n : Nat) (s : State) : State :=
  let mask := (s.ctlr n).pendingMask
  let s1 := s.modCan n fun c => { c with
    busOff := true, recovering := s.canFeature n 3, recoverAt := s.now, onWire := none, busOffs := satAdd 16 c.busOffs 1 }
  let s2 := canEvent n 4 (toLE 1 mask) s1
  let s3 := when (s.canFeature n 4) (canAbortAll n 1) s2
  if (s3.ctlr n).leaving ≠ 0 then canLeave n s3 else s3

/-- R409: the end of recovery. -/
def busOffRecovered (n : Nat) (s : State) : State :=
  let c := s.ctlr n
  let s1 := canCount n (fun c => { c with tec := 0, recc := 0, busOff := false, recovering := false }) s
  canIdleOffer n (canEvent n 5 (toLE 1 c.pendingMask) s1)

end Sys2Proof.Machine
end

