-- ==== Sys2Proof/Machine/PlcOps.lean ====
section
/-! DEFINITION. The site mains network (R416 to R443): frame control, blocks, tone maps, links and paths, the message queue, contention, reception and delivery. Times of frames are counted in thirds of a nanosecond. -/

namespace Sys2Proof.Machine

/-! ### The PLC section (R440) -/

def State.plcEnable (s : State) : Bool := u8 (s.sec 0x0B) 0 == 1
/-- FLAGS: 0 COORD_CAPABLE, 1 STRIDER_EN, 2 STATIC_ADDR_EN, 3 PAIR_FALLBACK_EN. -/
def State.plcFlag (s : State) (b : Nat) : Bool := bitOf (u8 (s.sec 0x0B) 1) b
def State.plcStatic (s : State) : Nat := u8 (s.sec 0x0B) 2
def State.coordRank (s : State) : Nat := u8 (s.sec 0x0B) 3
def State.plcNid (s : State) : Nat := u16 (s.sec 0x0B) 4
def State.nominalHz (s : State) : Nat := u8 (s.sec 0x0B) 6
def State.siteKeySlot (s : State) : Nat := u8 (s.sec 0x0B) 8
def State.peerAddr (s : State) : Nat := u8 (s.sec 0x0B) 9
def State.resendLimit (s : State) : Nat := u8 (s.sec 0x0B) 0x0A
def State.txLevelDb (s : State) : Nat := u8 (s.sec 0x0B) 7
def State.minRateMbps (s : State) : Nat := u8 (s.sec 0x0B) 0x0B
def State.plcTimeoutMs (s : State) : Nat := u16 (s.sec 0x0B) 0x0C
def State.assocHoldS (s : State) : Nat := u16 (s.sec 0x0B) 0x0E

/-- R417: carrier `c` lies in a notch. -/
def State.notched (s : State) (c : Nat) : Bool :=
  (List.range 4).any fun k =>
    let a := u16 (s.sec 0x0B) (0x10 + 4 * k)
    a != 0 && a ≤ c && c ≤ u16 (s.sec 0x0B) (0x12 + 4 * k)

/-- R416: carriers 28 to 382. -/
def carriers : List Nat := (List.range 355).map (· + 28)

/-- R518: the network is on while the site key's slot is READY. -/
def State.plcOn (s : State) : Bool := s.plcEnable && (s.slot s.siteKeySlot).state == .ready

/-- R422: this node may send: it holds beacon lock, or coordinates. -/
def State.plcSynced (s : State) : Bool := s.plc.lock || s.plc.role == 3

/-- R433, R506: the public half of the identity key, and the NODE_ID. -/
def State.identityPub (s : State) : List Byte := (List.range 65).map (Config.publicKey 3 (s.slot 0).material)
def State.nodeId (s : State) : List Byte := (sha256 s.identityPub).take 8

/-! ### Tone maps (R416, R429) -/

/-- R429: one step down the ladder. -/
def ladderDown : Nat → Nat
  | 10 => 8 | 8 => 6 | 6 => 4 | 4 => 3 | 3 => 2 | 2 => 1 | n => n

def downBy : Nat → Nat → Nat
  | 0, n => n
  | k + 1, n => downBy k (ladderDown n)

/-- R416: information bits per symbol in robust mode. -/
def robustBits (s : State) : Nat := (carriers.filter fun c => !s.notched c).length

/-- Information bits per symbol of a tone map after `down` steps. -/
def mapBits (s : State) (m : ToneMap) (down : Nat) : Nat :=
  let total := (carriers.map fun c => if s.notched c then 0 else downBy down (m.load.getD (c - 28) 0)).foldl (· + ·) 0
  match m.rate with | 0 => total / 2 | 1 => total * 2 / 3 | _ => total * 4 / 5

/-- R429: the bits per symbol that a link uses in a region, and whether that is robust mode. -/
def PlcRegion.bits (g : PlcRegion) (s : State) : Nat × Bool :=
  match g.map with
  | some m => if 4 ≤ g.down || mapBits s m g.down == 0 then (robustBits s, true) else (mapBits s m g.down, false)
  | none => (robustBits s, true)

/-- Mbit/s of a number of bits per symbol: a symbol lasts 56800 / 3 ns. -/
def mbps (bits : Nat) : Rat := ((bits * 15 : Nat) : Rat) / 284

/-- R441: units of 10 Mbit/s, rounded down. -/
def rateUnits (bits : Nat) : Nat := min 15 (bits * 15 / 2840)

/-! ### Known nodes (R434, R441) -/

def State.plcNode (s : State) (a : Nat) : PlcNode := (s.plc.known.find? fun n => n.addr == a).getD { addr := a }

/-- Change what is known of a node. -/
def modNode (a : Nat) (f : PlcNode → PlcNode) (s : State) : State :=
  s.modPlc fun p =>
    if p.known.any fun n => n.addr == a then { p with known := p.known.map fun n => if n.addr == a then f n else n }
    else { p with known := p.known ++ [f { addr := a }] }

def PlcNode.region (n : PlcNode) (r : Nat) : PlcRegion := nth n.regions r

/-- R441: PLC_NBa.RATE. -/
def State.nbRate (s : State) (a : Nat) : Nat :=
  let n := s.plcNode a
  if !n.direct then 0 else ((List.range 8).map fun r => rateUnits ((n.region r).bits s).1 * 16 ^ r).foldl (· + ·) 0

/-- R434: the direct link is degraded in a region. -/
def regionDegraded (s : State) (g : PlcRegion) : Bool :=
  (g.map.isSome && 0 < g.down) || decide (mbps (g.bits s).1 < ((s.minRateMbps : Nat) : Rat))

/-- Change one region of a link, with the events of R442. -/
def setRegion (a r : Nat) (f : PlcRegion → PlcRegion) (s : State) : State :=
  let old := (s.plcNode a).region r
  let g := f old
  let d := regionDegraded s g
  let g1 := { g with degraded := d, since := if d == old.degraded then old.since else s.now }
  let s1 := modNode a (fun n => { n with regions := n.regions.set r g1 }) s
  if d && !old.degraded then raise 72 5 a (toLE 1 r) s1 else if !d && old.degraded then raise 72 6 a (toLE 1 r) s1 else s1

/-- T_m in ns, of the beacons or nominal (R419). -/
def State.mainsNs (s : State) : Nat :=
  if s.plc.periodNs ≠ 0 then s.plc.periodNs else if s.nominalHz = 0 then 20000000 else 1000000000 / s.nominalHz

/-- R442: the regions in which a link has a rate. -/
def rateMask (s : State) (a : Nat) : Nat := ((List.range 8).map fun r => if rateUnits (((s.plcNode a).region r).bits s).1 = 0 then 0 else 2 ^ r).foldl (· + ·) 0

/-- A frame of node `a` has been heard: over its own link when it sent this hop. -/
def heardNode (a : Nat) (link : Bool) (s : State) : State :=
  if a = 0 ∨ 255 ≤ a then s
  else
    let up := link && !(s.plcNode a).direct
    let s1 := modNode a (fun n => { n with lastHeard := s.now, direct := n.direct || link }) s
    let s2 := s1.modPlc fun p => { p with
      table := p.table.map (fun t => if t.1 == a then (t.1, t.2.1, s.now) else t)
      msgs := p.msgs.map fun m => if m.final == a then { m with held := false } else m }
    when up (raise 72 3 a (toLE 1 (rateMask s2 a))) s2

/-! ### Paths (R434) -/

/-- A path toward a destination from one node: its cost in µs per Mbit, hops, and next hop. -/
structure PlcPath where
  node : Nat := 0
  cost : Rat := 0
  hops : Nat := 0
  next : Nat := 0
  deriving DecidableEq, Repr, Inhabited

/-- R434: higher rate, then fewer hops, then the lower next hop. -/
def betterPath (a b : PlcPath) : Bool :=
  decide (a.cost < b.cost) || (decide (a.cost = b.cost) && (decide (a.hops < b.hops) || (a.hops == b.hops && decide (a.next < b.next))))

def bestOf : List PlcPath → Option PlcPath
  | [] => none
  | p :: r => match bestOf r with | some q => if betterPath q p then some q else some p | none => some p

/-- Paths of node `n` over its links of ROUTE in region r, through nodes that already have one. -/
def viaLinks (tbl : List PlcPath) (n : PlcNode) (r : Nat) : List PlcPath :=
  tbl.filterMap fun q =>
    match n.links.find? fun l => l.1 == q.node with
    | some l =>
      let u := bits l.2.toNat (4 * r) 4
      if u = 0 || q.node == n.addr then none else some { node := n.addr, cost := q.cost + 1 / ((10 * u : Nat) : Rat), hops := q.hops + 1, next := q.node }
    | none => none

/-- One more hop through Striders that are awake. -/
def pathStep (s : State) (dest r : Nat) (tbl : List PlcPath) : List PlcPath :=
  let more := s.plc.known.filterMap fun n =>
    if n.strider && !n.asleep && n.addr != dest && n.addr != s.plc.addr then bestOf (viaLinks tbl n r ++ tbl.filter fun q => q.node == n.addr) else none
  more ++ tbl.filter fun q => !(more.any fun m => m.node == q.node)

/-- The paths of this node to a destination in a region, the best of each first hop. -/
def pathsTo (s : State) (dest r : Nat) : List PlcPath :=
  let tbl := pathStep s dest r (pathStep s dest r (pathStep s dest r [{ node := dest }]))
  tbl.filterMap fun q =>
    let n := s.plcNode q.node
    let b := ((n.region r).bits s).1
    if n.direct && 0 < b then some { node := s.plc.addr, cost := q.cost + 1 / mbps b, hops := q.hops + 1, next := q.node } else none

/-- R435: a path exists in some region. -/
def hasRoute (s : State) (dest : Nat) : Bool := (List.range 8).any fun r => !(pathsTo s dest r).isEmpty

/-- R434: a condition of a region has lasted 8 cycles. -/
def lasted (s : State) (g : PlcRegion) : Bool := decide (g.since + 8 * s.mainsNs ≤ s.now)

def nextOf (p : Option PlcPath) : Nat := match p with | some q => q.next | none => 0

/-- R434: the next hop toward a destination in a region, 0 for none: the direct link until it has been degraded for 8 cycles, then the path of highest rate, and the direct link again once it has not been degraded for 8 cycles and is no slower than the path in use. -/
def chooseHop (s : State) (dest r : Nat) : Nat :=
  let g := (s.plcNode dest).region r
  let cur := nth (s.plcNode dest).via r
  let ps := pathsTo s dest r
  if dest = 255 then 255
  else match ps.find? fun p => p.next == dest with
    | none => nextOf (bestOf ps)
    | some d =>
      if cur = 0 ∨ cur = dest then (if g.degraded && lasted s g then nextOf (bestOf ps) else dest)
      else match bestOf (ps.filter fun p => p.next != dest) with
        | none => dest
        | some p =>
          let used := (bestOf (ps.filter fun q => q.next == cur)).getD p
          if !g.degraded && lasted s g && decide (d.cost ≤ used.cost) then dest else p.next

/-- Take the hop, with E73 when the path changes (R442). -/
def takeHop (dest r : Nat) (s : State) : State :=
  let hop := chooseHop s dest r
  let old := nth (s.plcNode dest).via r
  if dest = 255 ∨ hop = old then s
  else
    let s1 := modNode dest (fun n => { n with via := n.via.set r hop }) s
    if hop = 0 then raise 73 2 dest (toLE 1 r) s1
    else if old = 0 then s1
    else raise 73 1 dest (toLE 1 r ++ toLE 1 old ++ toLE 1 hop) s1

/-- R434: look at every path again. -/
def refreshPaths (s : State) : State :=
  forAll ((s.plc.known.filter fun n => n.addr != s.plc.addr).map (·.addr)) (fun a s => forAll (List.range 8) (takeHop a) s) s

/-! ### Frames (R425, R427) -/

/-- R425. -/
structure FrameControl where
  type : Nat := 0
  prio : Nat := 0
  robust : Bool := true
  downrate : Nat := 0
  resend : Bool := false
  tmReq : Bool := false
  nid : Nat := 0
  src : Nat := 0
  dst : Nat := 0
  orig : Nat := 0
  final : Nat := 0
  hopsLeft : Nat := 4
  region : Nat := 0
  tmVersion : Nat := 0
  seq : Half := 0
  msgBlocks : Nat := 0
  symbols : Nat := 0
  blockMap : Nat := 0
  deriving DecidableEq, Repr, Inhabited

def FrameControl.bytes (c : FrameControl) : List Byte :=
  let body := toLE 1 c.type
    ++ toLE 1 (c.prio + 4 * b2n c.robust + 8 * c.downrate + 32 * b2n c.resend + 64 * b2n c.tmReq)
    ++ toLE 2 c.nid ++ toLE 1 c.src ++ toLE 1 c.dst ++ toLE 1 c.orig ++ toLE 1 c.final ++ toLE 1 c.hopsLeft
    ++ toLE 1 (c.region + 8 * c.tmVersion) ++ toLE 2 c.seq.toNat ++ toLE 1 c.msgBlocks ++ toLE 1 c.symbols ++ toLE 2 c.blockMap ++ zeros 12
  withCrc body

/-- The fields of 32 received bytes. -/
def FrameControl.ofBytes (l : List Byte) : FrameControl :=
  { type := u8 l 0, prio := u8 l 1 % 4, robust := bitOf (u8 l 1) 2, downrate := bits (u8 l 1) 3 2, resend := bitOf (u8 l 1) 5
    tmReq := bitOf (u8 l 1) 6, nid := u16 l 2, src := u8 l 4, dst := u8 l 5, orig := u8 l 6, final := u8 l 7
    hopsLeft := u8 l 8 % 8, region := u8 l 9 % 8, tmVersion := bits (u8 l 9) 3 4, seq := BitVec.ofNat 16 (u16 l 10)
    msgBlocks := u8 l 12, symbols := u8 l 13, blockMap := u16 l 14 }

/-- R425: the receiver keeps the frame. -/
def fcAccepted (s : State) (l : List Byte) : Bool :=
  let c := FrameControl.ofBytes l
  l.length == 32 && u32 l 28 == crc32c (l.take 28) && c.nid == s.plc.nid && ((c.dst == s.plc.addr && c.dst != 0) || c.dst == 255)

/-- R427: coded block `i` of a message. -/
def codedBlock (m : PlcMsg) (i : Nat) : List Byte :=
  let d := (m.bytes.drop (120 * i)).take 120
  withCrc (toLE 1 i ++ toLE 1 d.length ++ toLE 2 m.seq.toNat ++ padTo 120 d)

/-- R431: the payload with its tag; BEACON (1) and ROUTE (8) are authenticated and not encrypted. -/
def sealPayload (key : List Byte) (type orig nid now : Nat) (payload : List Byte) : List Byte :=
  let nonce := toLE 1 orig ++ toLE 1 type ++ toLE 2 nid ++ toLE 8 now
  if type = 1 ∨ type = 8 then payload ++ (List.range 16).map (Config.gcmSeal key nonce payload [])
  else (List.range (payload.length + 16)).map (Config.gcmSeal key nonce [] payload)

/-- R431: the pair key for a PAIR frame, the site key for every other. -/
def plcKey (s : State) (type : Nat) : List Byte := if type = 0x0A then (s.slot 2).material else (s.slot s.siteKeySlot).material

/-! ### The queue (R435, R443) -/

/-- R431: the device time of the next nonce, above the one before it. -/
def State.nonceTime (s : State) : Nat := max s.now (s.plc.nonceAt + 1)

/-- Queue a message of this node. -/
def queueMsg (type prio final : Nat) (payload : List Byte) (own robust held : Bool) (s : State) : State :=
  let bytes := sealPayload (plcKey s type) type s.plc.addr s.plc.nid s.nonceTime payload
  s.modPlc fun p => { p with
    nonceAt := s.nonceTime, nextNum := p.nextNum + 1, nextSeq := p.nextSeq + 1
    msgs := p.msgs ++ [{ num := p.nextNum, type := type, prio := prio, orig := p.addr, final := final, seq := p.nextSeq, bytes := bytes
                         blocks := List.replicate (ceilDiv bytes.length 120) .pending, queuedAt := s.now, own := own, robust := robust, held := held }] }

/-- R443: control frames, then PAIR, then DATA by priority. -/
def PlcMsg.rank (m : PlcMsg) : Nat := if m.type = 2 then 2 + m.prio else if m.type = 0x0A then 1 else 0

/-- R430: the blocks that are re-sent in region r now. -/
def PlcMsg.resendNow (m : PlcMsg) (r now : Nat) : List Nat :=
  (List.range m.blocks.length).filter fun i => match nth' m.blocks i with | .bad g t _ => g == r && decide (t ≤ now) | _ => false
where nth' (l : List PlcBlock) (i : Nat) : PlcBlock := l.getD i .good

def PlcMsg.pendingNow (m : PlcMsg) : List Nat := (List.range m.blocks.length).filter fun i => m.blocks.getD i .good == .pending

def modMsg (num : Nat) (f : PlcMsg → PlcMsg) (s : State) : State :=
  s.modPlc fun p => { p with msgs := p.msgs.map fun m => if m.num == num then f m else m }

def dropMsg (num : Nat) (s : State) : State := s.modPlc fun p => { p with msgs := p.msgs.filter fun m => m.num != num }

/-- R435: end the messages that `p` selects; a PLC_SEND completes with STATE_INVALID and the reason. -/
def failMsgs (p : PlcMsg → Bool) (reason : Nat) (s : State) : State :=
  let gone := s.plc.msgs.filter p
  let nums := (gone.filter (·.own)).map (·.num)
  let s1 := s.modPlc fun q => { q with
    msgs := q.msgs.filter fun m => !p m
    failed := satAdd 16 q.failed nums.length
    await := match q.await with | some a => if gone.any fun m => m.num == a.num then none else some a | none => none }
  endOps (fun k => match k with | .plcSend n => nums.contains n | _ => false) 0x12 reason s1

/-- R435: a message has reached its destination. -/
def msgDone (num : Nat) (s : State) : State := endOps (fun k => k == .plcSend num) 0 0 (dropMsg num s)

/-- R435: the lease is lost: queued messages that have not started end with LEASE_LOST. -/
def plcLeaseLost (s : State) : State := failMsgs (fun m => m.own && !m.started) 5 s

/-- R417: put a frame on the mains. -/
def emitPlc (type dst : Nat) (frame : List Byte) (s : State) : State := emit (.plc type dst s.txLevelDb frame) s

/-! ### Regions in time (R420) -/

/-- The region index now, and the thirds of a ns left in the region. -/
def State.regionNow (s : State) : Nat × Nat :=
  let t := s.mainsNs
  let x := (s.now - s.plc.cycleStart) % t
  let g := x * 16 / t
  (g % 8, ((g + 1) * t - 16 * x) * 3 / 16)

/-- A count of the half-cycle, to compare instants. -/
def State.halfCycle (s : State) : Nat := (s.now - s.plc.cycleStart) * 2 / s.mainsNs

/-- R421: the first 200 µs of a region with index 0, in which only beacons run. -/
def State.inBeaconWindow (s : State) : Bool :=
  let q := s.regionNow
  q.1 == 0 && decide (3 * s.mainsNs < 16 * (q.2 + 600000))

/-- Payload symbols for k blocks. -/
def symbolsFor (bits k : Nat) : Nat := if bits = 0 then 256 else ceilDiv (1024 * k) bits

/-- R428: thirds of a ns of a frame of n symbols, with its SACK 20 µs after it. -/
def frameThirds (n : Nat) (broadcast : Bool) : Nat := 163840 + 56800 + 56800 * n + (if broadcast then 0 else 60000 + 220640)

/-- R428: a frame of k blocks and its SACK fit into `left`. -/
def frameFits (bits k left : Nat) (broadcast : Bool) : Bool :=
  let n := symbolsFor bits k
  n ≤ 255 && decide (frameThirds n broadcast ≤ left)

/-- The largest number of blocks that fits. -/
def fitBlocks (bits left : Nat) (broadcast : Bool) : Nat → Nat
  | 0 => 0
  | k + 1 => if frameFits bits (k + 1) left broadcast then k + 1 else fitBlocks bits left broadcast k

/-- The message may go now: an ASSOC_REQ that is owed goes first (R422), and a PAIR frame is dropped after 25 ms (R438). -/
def PlcMsg.mayGo (m : PlcMsg) (s : State) : Bool :=
  !m.held && !m.waitAck && (s.plc.ask == 0 || m.type == 5) && (m.type != 0x0A || decide (s.now < m.queuedAt + 25000000))

/-- R428, R443: the message that this node sends in region r, with the blocks it would send. -/
def nextMsg (s : State) (r : Nat) : Option (PlcMsg × List Nat × Bool) :=
  let ready := s.plc.msgs.filterMap fun m =>
    let re := m.resendNow r s.now
    let blocks := if re.isEmpty then m.pendingNow else re
    if !m.mayGo s || blocks.isEmpty || chooseHop s m.final r == 0 then none else some (m, blocks, !re.isEmpty)
  ready.foldl (fun best q =>
    match best with
    | none => some q
    | some b =>
      if q.1.rank < b.1.rank || (q.1.rank == b.1.rank && ((q.2.2 && !b.2.2) || (q.2.2 == b.2.2 && decide (q.1.num < b.1.num)))) then some q else some b) none

/-- R428: transmit one frame, `wait` symbol times after the contention began. -/
def plcTransmit (wait : Nat) (s : State) : State :=
  let (r, left0) := s.regionNow
  match nextMsg s r with
  | none => s
  | some (m, want, re) =>
    let s0 := takeHop m.final r s
    let hop := chooseHop s0 m.final r
    let g := (s0.plcNode hop).region r
    let broadcast := hop == 255
    let b := if re || m.robust || broadcast then (robustBits s0, true) else g.bits s0
    let k := fitBlocks b.1 (left0 - 56800 * (2 + wait)) broadcast (min 16 want.length)
    if k = 0 then s0
    else
      let send := want.take k
      let map := (send.map fun i => 2 ^ i).foldl (· + ·) 0
      let fc : FrameControl :=
        { type := m.type, prio := m.prio, robust := b.2, downrate := if b.2 then 0 else g.down, resend := re
          tmReq := !broadcast && g.map.isNone, nid := s0.plc.nid, src := s0.plc.addr, dst := hop, orig := m.orig, final := m.final
          hopsLeft := m.hopsLeft, region := r, tmVersion := match g.map with | some t => t.version | none => 0
          seq := m.seq, msgBlocks := m.blocks.length, symbols := symbolsFor b.1 k, blockMap := map }
      let s1 := emitPlc m.type hop (fc.bytes ++ send.flatMap (codedBlock m)) s0
      let mark := fun (x : PlcBlock) => match x with | .bad g t n => PlcBlock.bad g t (n + 1) | y => y
      let s2 := modMsg m.num (fun x => { x with
        started := true
        blocks := if broadcast then send.foldl (fun l i => l.set i .good) x.blocks
                  else if re then send.foldl (fun l i => upd l i mark) x.blocks else x.blocks }) s1
      let s3 := s2.modPlc fun p => { p with
        resent := if re then satAdd 16 p.resent k else p.resent
        collided := false
        ask := if m.type = 5 then 0 else p.ask
        busyUntil := s.now + ceilDiv (56800 * (2 + wait) + frameThirds (symbolsFor b.1 k) broadcast) 3
        await := if broadcast then none else some { num := m.num, dst := hop, region := r, map := map } }
      if broadcast && k == want.length then dropMsg m.num s3 else s3

/-! ### Receiving (R425, R427, R431, R437) -/

/-- R442: bad blocks in 3 or more regions of one half-cycle. -/
def noteBad (r n : Nat) (s : State) : State :=
  if n = 0 then s
  else
    let h := s.halfCycle
    let mask : Byte := (if s.plc.hitHalf = h then s.plc.hitMask else 0) ||| BitVec.ofNat 8 (2 ^ r)
    let s1 := s.modPlc fun p => { p with bad := satAdd 16 p.bad n, hitHalf := h, hitMask := mask }
    when (3 ≤ popCount4 (mask.extractLsb' 0 4) + popCount4 (mask.extractLsb' 4 4)) (raiseOnce 75 1 0xFF (toLE 1 mask.toNat)) s1

/-- R437: an entry of the receive ring without its PHASE. -/
def plcEntry (c : FrameControl) (now : Nat) (d : List Byte) : List Byte :=
  padTo 1536 (toLE 1 c.prio ++ toLE 1 c.orig ++ toLE 1 (5 - c.hopsLeft) ++ toLE 1 c.region ++ toLE 2 d.length ++ zeros 2 ++ toLE 8 now ++ zeros 16 ++ d)

/-- R437: write one entry into the enabled ring. -/
def plcRingWrite (e : List Byte) (s : State) : State :=
  let q := s.plc.rx
  let s1 := toHost (.hostWrite (q.addr 1536) (toLE 1 (u8 e 0 + 128 * b2n q.phase) ++ e.drop 1))
    (s.modPlc fun p => { p with rx := (p.rx.step).note s.now })
  if q.coalesceUs = 0 then askMsix 25 q.vector s1 else s1

/-- R437: the messages that waited are written once the ring is enabled. -/
def plcDrain (s : State) : State :=
  if s.plc.rx.enable then forAll s.plc.waiting plcRingWrite (s.modPlc fun p => { p with waiting := [] }) else s

def plcCoalesce (s : State) : State :=
  let q := s.plc.rx
  if q.due s.now then askMsix 25 q.vector (s.modPlc fun p => { p with rx := { p.rx with unsigAt := none } }) else s

/-- R437: hand a message to the host, or keep it until the ring is enabled. -/
def plcDeliver (c : FrameControl) (d : List Byte) (s : State) : State :=
  plcDrain (s.modPlc fun p => { p with waiting := p.waiting ++ [plcEntry c s.now d] })

/-- R428: the acknowledgement of a frame, with its bad blocks. -/
def sendSack (c : FrameControl) (badMap : Nat) (s : State) : State :=
  let fc : FrameControl :=
    { type := 3, prio := c.prio, nid := s.plc.nid, src := s.plc.addr, dst := c.src, orig := c.orig, final := c.final
      hopsLeft := c.hopsLeft, region := c.region, tmVersion := c.tmVersion, seq := c.seq, msgBlocks := c.msgBlocks, blockMap := badMap }
  emitPlc 3 c.src fc.bytes s

/-- The tone map as a TONEMAP payload (R426). -/
def toneBytes (r : Nat) (m : ToneMap) : List Byte :=
  toLE 1 r ++ toLE 1 m.version ++ toLE 1 m.rate ++ (List.range 178).map fun k => BitVec.ofNat 8 (m.load.getD (2 * k) 0 % 16 + 16 * (m.load.getD (2 * k + 1) 0 % 16))

/-- R429: the receiver's map of a region, sent when asked for, when its rate differs by 10 % or more, or after 256 cycles. -/
def answerTone (c : FrameControl) (est : Option ToneMap) (s : State) : State :=
  match est with
  | none => s
  | some e =>
    let g := (s.plcNode c.src).region c.region
    let used := match g.sent with | some m => mapBits s m 0 | none => robustBits s
    let b := mapBits s e 0
    let far := decide (used ≤ 10 * ((b - used) + (used - b)))
    if c.src = 0 ∨ !(c.tmReq || far || decide (g.sentAt + 256 * s.mainsNs ≤ s.now)) then s
    else
      let v := match g.sent with | some m => (m.version + 1) % 16 | none => 1
      let e1 := { e with version := v }
      let s1 := modNode c.src (fun n => { n with regions := upd n.regions c.region fun g => { g with sent := some e1, sentAt := s.now } }) s
      queueMsg 7 0 c.src (toneBytes c.region e1) false false false s1

/-- Take the blocks of a frame; the whole message once every block is good. -/
def assembleMsg (c : FrameControl) (blocks : List (Nat × Option (List Byte))) (s : State) : State × Option (List Byte) :=
  let isOf := fun p : PlcPartial => p.orig == c.orig && p.seq == c.seq && p.type == c.type
  let old := (s.plc.parts.find? isOf).getD { orig := c.orig, seq := c.seq, type := c.type, count := c.msgBlocks }
  let add := fun (got : List (Nat × List Byte)) (b : Nat × Option (List Byte)) => match b.2 with
    | some d => if got.any fun g => g.1 == b.1 then got else got ++ [(b.1, d)]
    | none => got
  let got := blocks.foldl add old.got
  let rest := s.plc.parts.filter fun p => !isOf p
  if got.length = old.count then
    (s.modPlc fun p => { p with parts := rest },
     some ((List.range old.count).flatMap fun i => match got.find? fun g => g.1 == i with | some g => g.2 | none => []))
  else (s.modPlc fun p => { p with parts := rest ++ [{ old with got := got }] }, none)

/-- R434: a Strider forwards a message that is for another node. -/
def relayMsg (c : FrameControl) (raw : List Byte) (s : State) : State :=
  if !s.plcFlag 1 || c.hopsLeft == 0 then s
  else s.modPlc fun p => { p with
    nextNum := p.nextNum + 1
    msgs := p.msgs ++ [{ num := p.nextNum, type := c.type, prio := c.prio, orig := c.orig, final := c.final, seq := c.seq, hopsLeft := c.hopsLeft - 1
                         bytes := raw, blocks := List.replicate (ceilDiv raw.length 120) .pending, queuedAt := s.now }] }

/-- R539: for 1 s after the boundary of a profile change the pair key before it still opens. -/
def State.prevKeyOpens (s : State) : Bool := decide (s.now < s.pair.prevKeyAt + 1000000000)

/-- R431: the message verifies under the key of its TYPE and is newer than the last of its originator and TYPE; the frame names the device time of its nonce and its plaintext. -/
def authPayload (c : FrameControl) (raw : List Byte) (auth : Option (Nat × List Byte)) (s : State) : State × Option (List Byte) :=
  match auth with
  | none => (s, none)
  | some (t, d) =>
    let isOf := fun x : Nat × Nat × Nat => x.1 == c.orig && x.2.1 == c.type
    let under := fun k => sealPayload k c.type c.orig c.nid t d == raw
    if !(under (plcKey s c.type) || (c.type == 0x0A && s.prevKeyOpens && s.pair.prevKey.any under)) || s.plc.times.any (fun x => isOf x && t ≤ x.2.2) then (s, none)
    else (s.modPlc fun p => { p with times := p.times.filter (fun x => !isOf x) ++ [(c.orig, c.type, t)] }, some d)

/-- R425, R427, R428: one frame of a given TYPE; its plaintext when it completes a message for this node. -/
def takeFrame (type : Nat) (f : PlcFrame) (s : State) : State × Option (List Byte) :=
  let c := FrameControl.ofBytes f.fc
  if !s.plcSynced || !fcAccepted s f.fc || c.type ≠ type then (s, none)
  else
    let badBlocks := f.blocks.filter fun b => b.2.isNone
    let badMap := (badBlocks.map fun b => 2 ^ b.1).foldl (· + ·) 0
    let s1 := noteBad c.region badBlocks.length (heardNode c.orig false (heardNode c.src true s))
    let (s2, whole) := assembleMsg c f.blocks s1
    let mine := c.final == s.plc.addr || c.final == 255
    if type == 2 && mine && whole.isSome && !s.plc.rx.enable && 16 ≤ s.plc.waiting.length then (s1, none)
    else
      let s3 := answerTone c f.est (if c.dst == 255 || s.plc.ask != 0 then s2 else sendSack c badMap s2)
      match whole with
      | none => (s3, none)
      | some raw => if mine then authPayload c raw f.auth s3 else (relayMsg c raw s3, none)

/-! ### Beacons (R421, R423, R424) -/

/-- R424: relays chosen greedily: of the Striders already reached, the one that reaches most further nodes, then the lowest address. -/
def pickRelays (s : State) : Nat → List Nat → List Nat
  | 0, _ => []
  | k + 1, reached =>
    let new := fun n : PlcNode => (n.links.filter fun l => l.2 != 0 && !reached.contains l.1).map (·.1)
    let cand := s.plc.known.filter fun n => n.strider && reached.contains n.addr && !(new n).isEmpty
    match cand.foldl (fun (best : Option PlcNode) n => match best with
        | none => some n
        | some b => if (new b).length < (new n).length || ((new b).length == (new n).length && n.addr < b.addr) then some n else some b) none with
    | none => []
    | some n => n.addr :: pickRelays s k (reached ++ new n)

def chosenRelays (s : State) : List Nat :=
  (pickRelays s 3 (s.plc.addr :: (s.plc.known.filter fun n : PlcNode => n.direct).map fun n : PlcNode => n.addr) ++ [0, 0, 0]).take 3

/-- R423: the beacon's payload. -/
def beaconPayload (p : Plc) (depth : Nat) (wake : List Nat) : List Byte :=
  toLE 1 p.coordAddr ++ toLE 1 depth ++ toLE 1 (b2n p.assocOpen + 2 * b2n p.synthetic) ++ toLE 1 p.nodes ++ toLE 4 p.cycle.toNat
    ++ toLE 4 p.periodNs ++ (p.relays.flatMap (toLE 1)) ++ zeros 1 ++ (padTo 8 (wake.flatMap (toLE 1))) ++ zeros 8

/-- Send the beacon. -/
def sendBeacon (depth : Nat) (wake : List Nat) (s : State) : State :=
  let p := s.plc
  let body := sealPayload (plcKey s 1) 1 p.addr p.nid s.nonceTime (beaconPayload p depth wake)
  let m : PlcMsg := { type := 1, orig := p.addr, final := 255, seq := p.nextSeq, bytes := body, blocks := [.pending] }
  let fc : FrameControl := { type := 1, nid := p.nid, src := p.addr, dst := 255, orig := p.addr, final := 255, seq := p.nextSeq, msgBlocks := 1, symbols := symbolsFor (robustBits s) 1, blockMap := 1 }
  emitPlc 1 255 (fc.bytes ++ codedBlock m 0) (s.modPlc fun p => { p with nextSeq := p.nextSeq + 1, nonceAt := s.nonceTime })

/-! ### Association and ROUTE (R432, R434) -/

/-- R432: ask the coordinator for an address. -/
def askAddress (want : Nat) (s : State) : State :=
  queueMsg 5 0 s.plc.coordAddr (s.nodeId ++ toLE 1 want) false true false (s.modPlc fun p => { p with ask := 2, askedAt := s.now })

def wantedAddress (s : State) : Nat := if s.plcFlag 2 then s.plcStatic else 0

/-- R422, R432: an ASSOC_REQ that is owed is queued while ASSOC_OPEN is set, for the kept address or a new one. -/
def askOwed (s : State) : State :=
  when (s.plc.ask == 1 && s.plc.assocOpen) (askAddress (if s.plc.addr = 0 then wantedAddress s else s.plc.addr)) s

/-- R426, R434: broadcast a ROUTE frame. -/
def sendRoute (sleeping : Bool) (s : State) : State :=
  let links := (s.plc.known.filter (·.direct)).flatMap fun n => toLE 1 n.addr ++ toLE 4 (s.nbRate n.addr)
  queueMsg 8 0 255 (toLE 1 (b2n (s.plcFlag 1) + 2 * b2n sleeping) ++ s.nodeId ++ links) false true false (s.modPlc fun p => { p with routeAt := s.now })

/-! ### Starting, stopping and profile changes (R424, R439) -/

/-- The network starts at entry to Operate. -/
def plcStart (s : State) : State :=
  if s.plcOn then
    s.modPlc fun p => { p with role := if p.role = 0 then 1 else p.role, heardAt := s.now, nid := s.plcNid, keySlot := s.siteKeySlot, staticAddr := s.plcStatic }
  else s

/-- R439: a new profile: every queued message ends, and the association stays only with the same NID, STATIC_ADDR and SITE_KEY_SLOT. -/
def plcProfile (s : State) : State :=
  let s1 := failMsgs (fun m => m.own) 6 s
  let s2 := s1.modPlc fun p => { p with msgs := [], await := none }
  let same := s2.plcOn && s2.plc.nid == s2.plcNid && s2.plc.staticAddr == s2.plcStatic && s2.plc.keySlot == s2.siteKeySlot
  if same then s2
  else
    let s3 := when (s2.plc.addr != 0) (raise 72 2 s2.plc.addr (toLE 1 2)) s2
    let s4 := s3.modPlc fun p =>
      { rx := p.rx, waiting := p.waiting, bad := p.bad, resent := p.resent, failed := p.failed, refused := p.refused
        zc := p.zc, zcRun := p.zcRun, zcValid := p.zcValid, zcFault := p.zcFault, zcBad := p.zcBad, zcPeriod := p.zcPeriod
        nextNum := p.nextNum, nextSeq := p.nextSeq, times := p.times, cycleStart := p.cycleStart, nonceAt := p.nonceAt, busyUntil := p.busyUntil }
    when (s4.pwr.opState == .operate || s4.pwr.opState == .safe) plcStart s4

/-- R436, R434: a node sends a ROUTE frame before it sleeps. -/
def plcBeforeSleep (s : State) : State := when (s.plcOn && s.plcSynced) (sendRoute true) s

end Sys2Proof.Machine
end

