-- ==== Sys2Proof/Machine/KeyOps.lean ====
section
/-! DEFINITION. Wellspring, the measurement chain, key derivation and the key slots (R499 to R513). -/

namespace Sys2Proof.Machine

/-- The bytes of an ASCII text. -/
def ascii (t : String) : List Byte := t.toList.map fun c => BitVec.ofNat 8 c.toNat

/-- A big-endian number. -/
def beNat (l : List Byte) : Nat := l.foldl (fun n b => 256 * n + b.toNat) 0

/-! ### HKDF with SHA-256 (RFC 5869, R504) -/

def hmac (key msg : List Byte) : List Byte :=
  let k := padTo 64 (if 64 < key.length then sha256 key else key)
  sha256 (k.map (· ^^^ 0x5C) ++ sha256 (k.map (· ^^^ 0x36) ++ msg))

/-- Blocks T(i) from block number `i`, `n` of them. -/
def hkdfBlocks (prk info : List Byte) : Nat → Nat → List Byte → List Byte
  | 0, _, _ => []
  | n + 1, i, prev =>
    let t := hmac prk (prev ++ info ++ toLE 1 i)
    t ++ hkdfBlocks prk info n (i + 1) t

def hkdf (salt ikm info : List Byte) (len : Nat) : List Byte := (hkdfBlocks (hmac salt ikm) info (ceilDiv len 32) 1 []).take len

/-! ### Types (R505) -/

/-- l(type), 0 for a type without an OKM. -/
def typeLen : Nat → Nat
  | 1 => 32 | 2 => 32 | 3 => 40 | 4 => 56 | 5 => 74 | 6 => 57 | _ => 0

/-- R505: the uses that USAGE may grant. -/
def typeUses : Nat → Nat
  | 1 => 0x04 | 2 => 0x30 | 3 => 0x0B | 4 => 0x0B | 5 => 0x0B | 6 => 0x01
  | 0x11 => 0xC0 | 0x12 => 0xC0 | 0x13 => 0xC0 | 0x14 => 0xC0 | _ => 0

def privateType (t : Nat) : Bool := 1 ≤ t && t ≤ 6
def publicType (t : Nat) : Bool := 0x11 ≤ t && t ≤ 0x14
def ecType (t : Nat) : Bool := 3 ≤ t && t ≤ 5

/-- The order of the curve of an EC type. -/
def curveOrder : Nat → Nat
  | 3 => 0xFFFFFFFF00000000FFFFFFFFFFFFFFFFBCE6FAADA7179E84F3B9CAC2FC632551
  | 4 => 0xFFFFFFFFFFFFFFFFFFFFFFFFFFFFFFFFFFFFFFFFFFFFFFFFC7634D81F4372DDF581A0DB248B0A77AECEC196ACCC52973
  | _ => 0x1FFFFFFFFFFFFFFFFFFFFFFFFFFFFFFFFFFFFFFFFFFFFFFFFFFFFFFFFFFFFFFFFFFFA51868783BF2F966B7FCC0148F709A5D03BB5C9B8899C47AEBB6FB71E91386409

/-- Bytes of a private key: a scalar, or the OKM itself. -/
def privLen : Nat → Nat
  | 3 => 32 | 4 => 48 | 5 => 66 | 6 => 57 | _ => 32

/-- Bytes of a public key of a type: SEC1 uncompressed, or Ed448. -/
def pubLen : Nat → Nat
  | 3 | 0x11 => 65 | 4 | 0x12 => 97 | 5 | 0x13 => 133 | 6 | 0x14 => 57 | _ => 0

/-- R504: the key that an OKM gives. -/
def keyOfOkm (type : Nat) (okm : List Byte) : List Byte :=
  if ecType type then toBE (privLen type) (beNat okm % (curveOrder type - 1) + 1) else okm

/-- R504: a derived key. -/
def deriveKey (type slot : Nat) (label ikm salt : List Byte) : List Byte :=
  keyOfOkm type (hkdf salt ikm (ascii "CK832-KDF1" ++ toLE 1 type ++ toLE 1 slot ++ toLE 1 label.length ++ label) (typeLen type))

/-! ### Measurement (R502, R503) -/

def measStep (m : List Byte) (i : Nat) (d : List Byte) : List Byte := sha256 (m ++ toLE 1 i ++ d)

def digestD0 : List Byte := (List.range 32).map Config.romDigest
def digestD1 : List Byte := (List.range 32).map Config.loaderDigest
def State.bank (s : State) (b : Nat) : List Byte := nth s.key.banks b
def State.digestD2 (s : State) : List Byte := sha256 (s.bank s.key.active)
def State.digestD3 (s : State) : List Byte := match s.prof.active with | some p => sha256 p.image | none => zeros 32

/-- R502: M after stage 2 with a firmware package. -/
def stage2 (package : List Byte) : List Byte := measStep (measStep (measStep (zeros 32) 0 digestD0) 1 digestD1) 2 (sha256 package)

/-- R502: MEAS with a profile image. -/
def measWith (m2 image : List Byte) : List Byte := measStep m2 3 (sha256 image)

/-- The running site firmware's version. -/
def State.fwVersion (s : State) : Nat := (Config.fwVersion (s.bank s.key.active)).toNat

/-! ### Deriving the slots (R504, R506) -/

def KeySlot.bind (k : KeySlot) : Bool := bitOf k.flags 0
def KeySlot.isVolatile (k : KeySlot) : Bool := bitOf k.flags 1

/-- R504: the key of slot `i`; a derived one follows its chain of parents. -/
def materialOf (well meas : List Byte) (slots : List KeySlot) : Nat → Nat → List Byte
  | 0, _ => []
  | f + 1, i =>
    let k := nth slots i
    if k.origin != .derived then k.material
    else
      let ikm := if k.parent = 0xFF then well else materialOf well meas slots f k.parent
      deriveKey k.type i k.label ikm (if k.bind then meas else zeros 32)

/-- R503: every derived READY slot holds its key under the present MEAS. -/
def rederive (s : State) : State :=
  s.modKey fun k => { k with slots := (List.range 64).map fun i =>
    let x := nth k.slots i
    if x.state == .ready && x.origin == .derived then { x with material := materialOf k.well.root k.meas k.slots 64 i } else x }

/-- R503: the measurement of the active profile and the keys bound to it. -/
def measure (s : State) : State :=
  rederive (s.modKey fun k => { k with meas := match s.prof.active with | some p => measWith k.m2 p.image | none => k.m2 })

/-- R506: the system slots at a start. -/
def systemSlots (owner : KeySlot) : List KeySlot :=
  [{ state := .ready, type := 3, usage := 1, flags := 0, label := ascii "IDENTITY" },
   { state := .ready, type := 3, usage := 2, flags := 1, label := ascii "TRANSPORT" },
   {}, owner]

/-- R512: the key of slot `i` can be recovered: it and every parent up to the root is held. -/
def recoverable (slots : List KeySlot) : Nat → Nat → Bool
  | 0, _ => false
  | f + 1, i =>
    let k := nth slots i
    k.state == .ready && (k.origin != .derived || k.parent == 0xFF || recoverable slots f k.parent)

/-- R512: the slots recovered from the store at a start: recipes are derived again, public values are kept, private material opens only with the wrap of this MEAS, and a slot whose key cannot be recovered starts EMPTY. -/
def restoreKeys (s : State) : State :=
  let st := s.key.store
  let opened := st.wraps.any fun w => w.2 == s.key.meas
  let back := fun k : KeySlot => if k.origin == .placed && !opened then ({} : KeySlot) else k
  let all := systemSlots (nth st.saved 3) ++ (st.saved.drop 4).map back
  rederive (s.modKey fun k => { k with slots := (List.range 64).map fun i => if recoverable all 64 i then nth all i else {} })

/-! ### Changes (R508, R511, R512) -/

/-- R510, R511, R512: what the store holds of a slot: an orphan's entry stays until the pass that zeroises it, and an INVALID slot's until DELETE. -/
def savedOf (k old : KeySlot) : KeySlot :=
  match k.state with
  | .ready => if k.isVolatile then {} else k
  | .orphaned => if k.zeroised then {} else old
  | .invalid => old
  | .empty => {}

/-- R512: every change to a persistent key rewrites every wrap. No flash write starts while a thermal halt is pending (R364). -/
def persist (s : State) : State :=
  if s.thm.halting.isSome then s else s.modKey fun k => { k with store := { k.store with
    saved := (List.range 64).map fun i => savedOf (nth k.slots i) (nth k.store.saved i) } }

/-- R511: slot `j` descends from slot `i`. -/
def descends (slots : List KeySlot) (i : Nat) : Nat → Nat → Bool
  | 0, _ => false
  | f + 1, j =>
    let k := nth slots j
    k.state != .empty && k.origin == .derived && k.parent != 0xFF && (k.parent == i || descends slots i f k.parent)

def liveDescendants (s : State) (i : Nat) : List Nat :=
  (List.range 64).filter fun j => (s.slot j).state == .ready && descends s.key.slots i 64 j

/-- R511: orphan every live descendant, with E94; the caller has changed slot `i`. -/
def orphan (i : Nat) (desc : List Nat) (s : State) : State :=
  let s1 := forAll desc (fun j s => s.modSlot j fun k => { k with state := .orphaned, zeroised := false }) s
  raise 94 1 i (toLE 1 desc.length) (s1.modKey fun k => { k with orphaning := k.orphaning ++ [(i, desc.length)] })

/-- R508, R509: a wrong integrity tag. -/
def tagFailed (i cause : Nat) (s : State) : State :=
  let desc := liveDescendants s i
  let s1 := raise 92 cause i (toLE 1 (s.slot i).type) (s.modSlot i fun k => { k with state := .invalid })
  persist (orphan i desc s1)

/-- R507, R508: the status with which a use of slot `i` fails, and the state it leaves; none when it may be used. -/
def slotUse (i : Nat) (s : State) : State × Option Nat :=
  match (s.slot i).state with
  | .empty => (s, some 0x08)
  | .orphaned => (s, some 0x14)
  | .invalid => (s, some 0x16)
  | .ready => if (s.slot i).tagOk then (s, none) else (tagFailed i 1 s, some 0x16)

/-- R518: the slot that a placement takes. -/
def placeSlot (s : State) (i : Nat) : Option Nat :=
  if (s.slot i).state == .empty then some i
  else ((List.range 60).map (· + 4)).find? fun j => (s.slot j).state == .empty

/-- The public key of a slot's key. -/
def slotPublic (k : KeySlot) : List Byte :=
  if publicType k.type then k.material else (List.range (pubLen k.type)).map (Config.publicKey k.type k.material)

/-- R506, R533: the enrolled owner key. -/
def State.ownerKey (s : State) : Option (List Byte) := if (s.slot 3).state == .ready then some (s.slot 3).material else none

/-- R34: OWNER_KEY_ID. -/
def ownerKeyId (key : List Byte) : List Byte := (sha256 key).take 16

end Sys2Proof.Machine
end

