-- ==== Sys2Proof/Machine/Key.lean ====
section
/-! DEFINITION. Meanings of the KEY_OP operations, ATTEST and the re-masking pass (R508 to R520). -/

namespace Sys2Proof.Machine

/-! ### KEY_OP (R516 to R518) -/

/-- Step 11 and 12 of R118 for one operation: its slots, its code and its buffers. -/
def keyOpInfo (code : Nat) (slots : Nat → Bool) : OpInfo :=
  { code := 0x33, cls := some 2
    rsvOk := fun d => restZero d [(8, 1), (16, 10), (32, 10)]
    target := fun s d => kindBelow 8 64 s d && slots d.ix
    range := fun _ d => d.b 8 == code && decide (d.h 24 ≤ 4096) && decide (d.h 40 ≤ 4096) && d.q 16 % 8 == 0 && d.q 32 % 8 == 0 }

def generalSlot (i : Nat) : Bool := 4 ≤ i
def certSlot (i : Nat) : Bool := i == 1 || 3 ≤ i
def publicSlot (i : Nat) : Bool := i != 2

/-- Give the output, or FIELD_RANGE when it does not fit (R518). -/
def keyAnswer (d : Desc) (out : List Byte) (s : State) : Answer :=
  answer stOk out.length (if out.isEmpty then s else writeBuffer (d.q 32) out s)

/-- The IN buffer of the descriptor. -/
def keyInput (d : Desc) : Option (List Byte) := d.input.map (padTo (d.h 24))

/-- R523, R584: KEY_OP and ATTEST wait while the crypto engine is frozen. -/
def cryptoRow (op : OpInfo) (eff : Desc → State → Answer) (d : Desc) (s : State) : Host.Outcome State Fault Refusal :=
  live (fun s => if s.isFrozen 0x23 then s else runDesc op eff d s) s

/-- R364: an operation that writes the key store waits, as every flash write does, while a thermal halt is pending. -/
def storeRow (op : OpInfo) (eff : Desc → State → Answer) (d : Desc) (s : State) : Host.Outcome State Fault Refusal :=
  live (fun s => if s.isFrozen 0x23 || s.thm.halting.isSome then s else runDesc op eff d s) s

/-- R516: the parameter block of IN. -/
structure KeyParams where
  type : Nat
  usage : Nat
  flags : Nat
  parent : Nat
  labelLen : Nat
  rsvOk : Bool
  data : List Byte

def keyParams (l : List Byte) : KeyParams :=
  { type := u8 l 0, usage := u8 l 1, flags := u8 l 2, parent := u8 l 3, labelLen := u8 l 4, rsvOk := allZero l 5 11, data := l.drop 16 }

/-- R516: the block is well formed apart from its PARENT and label. -/
def paramsOk (p : KeyParams) : Bool :=
  (privateType p.type || publicType p.type) && p.usage &&& typeUses p.type == p.usage && decide (p.flags < 4) && p.rsvOk

/-- Fields without a parent and a label. -/
def noParent (p : KeyParams) : Bool := p.parent == 0xFF && p.labelLen == 0

/-- A slot filled with a new key. -/
def newSlot (p : KeyParams) (origin : KeyOrigin) (material : List Byte) (s : State) : KeySlot :=
  { state := .ready, type := p.type, usage := p.usage, flags := p.flags, parent := p.parent, label := p.data.take p.labelLen
    origin := origin, material := material, mask := s.freeIx }

/-- Place a key, answer its slot and what follows it. -/
def placeKey (d : Desc) (p : KeyParams) (origin : KeyOrigin) (material : Nat → List Byte) (withPub : Bool) (s : State) : Answer :=
  match placeSlot s d.ix with
  | none => answer stSlotsFull 0 s
  | some i =>
    let k := newSlot p origin (material i) s
    let out := toLE 1 i ++ (if withPub then slotPublic k else [])
    if d.h 40 < out.length then answer stRange 0 s
    else keyAnswer d out (persist (useFree (s.modSlot i fun _ => k)))

/-- R504, R518: DERIVE. -/
def deriveOp (d : Desc) (s : State) : Answer :=
  match keyInput d with
  | none => answer stBuffer 0 s
  | some l =>
    let p := keyParams l
    let parentOk := p.parent == 0xFF || (p.parent < 64 && (s.slot p.parent).state == .ready && (s.slot p.parent).type == 1)
    if l.length < 16 then answer stRange 0 s
    else if publicType p.type || !parentOk then answer stTarget 0 s
    else if !paramsOk p || p.labelLen = 0 || 32 < p.labelLen || l.length ≠ 16 + p.labelLen || p.data.any (fun b => 128 ≤ b.toNat) then answer stRange 0 s
    else
      let u := if p.parent = 0xFF then (s, none) else slotUse p.parent s
      match u.2 with
      | some st => answer st 0 u.1
      | none =>
        let salt := if bitOf p.flags 0 then s.key.meas else zeros 32
        let ikm := if p.parent = 0xFF then s.key.well.root else (s.slot p.parent).material
        placeKey d p .derived (fun i => deriveKey p.type i p.data ikm salt) (ecType p.type) u.1

def execDerive (d : Desc) (s : State) : Host.Outcome State Fault Refusal := storeRow (keyOpInfo 1 generalSlot) deriveOp d s

/-- R517: a random key: the bytes of a free value. -/
def randomKey (type : Nat) (s : State) : List Byte := keyOfOkm type ((List.range (typeLen type)).map (Config.freeByte s.freeIx))

/-- R517: GENERATE. -/
def generateOp (d : Desc) (s : State) : Answer :=
  match keyInput d with
  | none => answer stBuffer 0 s
  | some l =>
    let p := keyParams l
    if l.length < 16 then answer stRange 0 s
    else if publicType p.type then answer stTarget 0 s
    else if !paramsOk p || !noParent p || l.length ≠ 16 then answer stRange 0 s
    else placeKey d p .placed (fun _ => randomKey p.type s) (3 ≤ p.type) s

def execGenerate (d : Desc) (s : State) : Host.Outcome State Fault Refusal := storeRow (keyOpInfo 2 generalSlot) generateOp d s

/-- R517: the key under which an import is wrapped. -/
def importKey (s : State) (ephemeral : List Byte) (type : Nat) : List Byte :=
  hkdf (zeros 32) ((List.range 32).map (Config.ecdh (s.slot 1).material ephemeral)) (ascii "CK832-IMP1" ++ toLE 1 type ++ [0]) 32

/-- R517, R518: IMPORT_WRAPPED. -/
def importWrappedOp (d : Desc) (s : State) : Answer :=
  match keyInput d with
  | none => answer stBuffer 0 s
  | some l =>
    let p := keyParams l
    if l.length < 16 then answer stRange 0 s
    else if publicType p.type then answer stTarget 0 s
    else if !paramsOk p || !noParent p || l.length ≠ 16 + 65 + 12 + privLen p.type + 16 then answer stRange 0 s
    else
      match slotUse 1 s with
      | (s1, some st) => answer st 0 s1
      | (s1, none) =>
        match Config.gcmOpen (importKey s (p.data.take 65) p.type) (bytesAt p.data 65 12) [] (p.data.drop 77) with
        | none => answer stRange 0 s1
        | some key => placeKey d p .placed (fun _ => key) false s1

def execImportWrapped (d : Desc) (s : State) : Host.Outcome State Fault Refusal := storeRow (keyOpInfo 3 generalSlot) importWrappedOp d s

/-- R517: IMPORT_PUBLIC. -/
def importPublicOp (d : Desc) (s : State) : Answer :=
  match keyInput d with
  | none => answer stBuffer 0 s
  | some l =>
    let p := keyParams l
    if l.length < 16 then answer stRange 0 s
    else if privateType p.type then answer stTarget 0 s
    else if !paramsOk p || !noParent p || l.length ≠ 16 + pubLen p.type || (p.type != 0x14 && u8 p.data 0 != 4) then answer stRange 0 s
    else placeKey d p .pub (fun _ => p.data) false s

def execImportPublic (d : Desc) (s : State) : Host.Outcome State Fault Refusal := storeRow (keyOpInfo 4 generalSlot) importPublicOp d s

/-- An operation that uses the key of its target slot. -/
def withSlot (d : Desc) (fits : KeySlot → Bool) (f : KeySlot → State → Answer) (s : State) : Answer :=
  if (s.slot d.ix).state == .ready && !fits (s.slot d.ix) then answer stTarget 0 s
  else match slotUse d.ix s with
    | (s1, some st) => answer st 0 s1
    | (s1, none) => f (s1.slot d.ix) s1

/-- R517: READ_PUBLIC. -/
def readPublicOp (d : Desc) (s : State) : Answer :=
  withSlot d (fun k => 3 ≤ k.type) (fun k s =>
    if d.h 24 ≠ 0 ∨ d.h 40 < pubLen k.type then answer stRange 0 s else keyAnswer d (slotPublic k) s) s

def execReadPublic (d : Desc) (s : State) : Host.Outcome State Fault Refusal := cryptoRow (keyOpInfo 5 publicSlot) readPublicOp d s

/-- R505: digest and signature lengths of an ECDSA type. -/
def digestLen : Nat → Nat
  | 3 => 32 | 4 => 48 | _ => 64
def sigLen : Nat → Nat
  | 3 => 64 | 4 => 96 | 5 => 132 | _ => 114

/-- R517: SIGN. -/
def signOp (d : Desc) (s : State) : Answer :=
  match keyInput d with
  | none => answer stBuffer 0 s
  | some l =>
    withSlot d (fun k => 3 ≤ k.type && k.type ≤ 6 && bitOf k.usage 0) (fun k s =>
      let n := sigLen k.type
      let lenOk := if k.type = 6 then decide (1 ≤ l.length) else l.length == digestLen k.type
      if !lenOk || d.h 40 < n then answer stRange 0 s
      else if k.type = 6 then keyAnswer d ((List.range n).map (Config.ed448Sign k.material l)) s
      else keyAnswer d ((List.range n).map (Config.ecdsaSign k.material s.freeIx l)) (useFree s)) s

def execSign (d : Desc) (s : State) : Host.Outcome State Fault Refusal := cryptoRow (keyOpInfo 6 generalSlot) signOp d s

def SlotState.code : SlotState → Nat
  | .empty => 0 | .ready => 1 | .orphaned => 2 | .invalid => 3

/-- R517: INFO. -/
def infoOp (d : Desc) (s : State) : Answer :=
  let k := s.slot d.ix
  if d.h 24 ≠ 0 ∨ d.h 40 < 40 then answer stRange 0 s
  else keyAnswer d (toLE 1 k.state.code ++ toLE 1 k.type ++ toLE 1 k.usage ++ toLE 1 k.flags ++ toLE 1 k.parent ++ toLE 1 k.label.length ++ zeros 2 ++ padTo 32 k.label) s

def execInfo (d : Desc) (s : State) : Host.Outcome State Fault Refusal := cryptoRow (keyOpInfo 7 (fun _ => true)) infoOp d s

/-- R511: REVOKE (the slot becomes ORPHANED) and DELETE (it becomes EMPTY). -/
def revokeEffect (i : Nat) (delete : Bool) (s : State) : State :=
  let desc := liveDescendants s i
  let s1 := s.modSlot i fun k => if delete then {} else if k.state == .ready then { k with state := .orphaned, zeroised := false } else k
  let s2 := when delete (fun s => s.modKey fun k => { k with certs := k.certs.set i [] }) s1
  persist (when (!desc.isEmpty) (orphan i desc) s2)

def revokeOp (delete : Bool) (d : Desc) (s : State) : Answer :=
  if (s.slot d.ix).state == .empty then answer stTarget 0 s
  else if d.h 24 ≠ 0 then answer stRange 0 s
  else answer stOk 0 (revokeEffect d.ix delete s)

def execRevoke (d : Desc) (s : State) : Host.Outcome State Fault Refusal := storeRow (keyOpInfo 8 generalSlot) (revokeOp false) d s
def execDelete (d : Desc) (s : State) : Host.Outcome State Fault Refusal := storeRow (keyOpInfo 9 generalSlot) (revokeOp true) d s

/-- R513, R517: CERT_WRITE. -/
def certWriteOp (d : Desc) (s : State) : Answer :=
  match keyInput d with
  | none => answer stBuffer 0 s
  | some l => if l.isEmpty then answer stRange 0 s else answer stOk 0 (s.modKey fun k => { k with certs := k.certs.set d.ix l })

def execCertWrite (d : Desc) (s : State) : Host.Outcome State Fault Refusal := storeRow (keyOpInfo 0x0A certSlot) certWriteOp d s

/-- R506: the manufacturing certificate of slot 0, or the stored chain of another slot. -/
def certOf (s : State) (i : Nat) : List Byte :=
  if i = 0 then (List.range Config.identityCertLen.val).map Config.identityCert else nth s.key.certs i

/-- R517: CERT_READ. -/
def certReadOp (d : Desc) (s : State) : Answer :=
  let c := certOf s d.ix
  if d.ix ≠ 0 ∧ c.isEmpty then answer stTarget 0 s
  else if d.h 24 ≠ 0 ∨ d.h 40 < c.length then answer stRange 0 s
  else keyAnswer d c s

def execCertRead (d : Desc) (s : State) : Host.Outcome State Fault Refusal := cryptoRow (keyOpInfo 0x0B publicSlot) certReadOp d s

/-- R506: a SEC1 uncompressed P-256 or P-384 key. -/
def ownerKeyOk (l : List Byte) : Bool := (l.length == 65 || l.length == 97) && u8 l 0 == 4

/-- R506, R519: the owner key takes slot 3. -/
def setOwner (key : List Byte) (s : State) : State :=
  persist (useFree (s.modSlot 3 fun _ =>
    { state := .ready, type := if key.length = 65 then 0x11 else 0x12, usage := 0x40, origin := .pub, material := key, mask := s.freeIx }))

/-- R519: ENROLL_OWNER. -/
def enrollOwnerOp (d : Desc) (s : State) : Answer :=
  match keyInput d with
  | none => answer stBuffer 0 s
  | some l =>
    match s.ownerKey with
    | none => if s.pwr.opState != .setup then answer stState 0 s else if ownerKeyOk l then answer stOk 0 (setOwner l s) else answer stRange 0 s
    | some old =>
      match slotUse 3 s with
      | (s1, some st) => answer st 0 s1
      | (s1, none) =>
      let sig := if old.length = 65 then 64 else 96
      let key := l.take (l.length - sig)
      if l.length ≤ sig ∨ !ownerKeyOk key then answer stRange 0 s1
      else if Config.ecdsaVerify old (ascii "CK832-OWNER1" ++ key ++ s.nodeId) (l.drop (l.length - sig)) then answer stOk 0 (setOwner key s1)
      else answer stKeyInvalid 0 s1

def execEnrollOwner (d : Desc) (s : State) : Host.Outcome State Fault Refusal := storeRow (keyOpInfo 0x0C (· == 3)) enrollOwnerOp d s

/-! ### Re-masking (R509) -/

/-- R509: the visit of one slot. -/
def visitSlot (bad old : List Nat) (i : Nat) (s : State) : State :=
  let k := s.slot i
  match k.state with
  | .ready => if bad.contains i || !k.tagOk then tagFailed i 2 s else useFree (s.modSlot i fun k => { k with mask := s.freeIx })
  | .orphaned => if old.contains i then s.modSlot i fun k => { k with material := [], zeroised := true } else s
  | _ => s

/-- R509, R511: one pass; the orphans from before it are zeroised and leave the store, with E94. -/
def remaskEffect (bad : List Nat) (s : State) : State :=
  let waiting := s.key.orphaning
  let old := (List.range 64).filter fun i => (s.slot i).state == .orphaned && !(s.slot i).zeroised
  let s1 := forAll (List.range 64) (visitSlot bad old) (s.modKey fun k => { k with orphaning := [], passes := k.passes + 1 })
  forAll waiting (fun w s => raise 94 2 w.1 (toLE 1 w.2) s) (when (!old.isEmpty) persist s1)

/-- R509: the whole multiple of 250 ms of device time that has passed last. -/
def State.quarter (s : State) : Nat := s.now / 250000000

/-- R509, R523: a pass starts at each whole 250 ms; a frozen crypto engine runs none. -/
def execRemaskPass (bad : List Nat) (s : State) : Host.Outcome State Fault Refusal :=
  live (fun s => if s.quarter ≤ s.key.passAt then s
    else
      let s1 := s.modKey fun k => { k with passAt := s.quarter }
      if s.isFrozen 0x23 then s1 else remaskEffect bad s1) s

/-! ### ATTEST (R520) -/

/-- R103: HIF_ID. -/
def hifIdWord : Nat := 0x0832 + 65536 * Config.siliconRevision.toNat + 2 ^ 24 * 1

/-- R501. -/
def State.pufMargin (s : State) : Nat := 24 - s.key.well.maxErrors

def attestFlags (s : State) : Nat :=
  b2n (decide (s.pufMargin < 6)) + 2 * b2n s.key.ident.isNone + 4 * b2n s.ownerKey.isSome + 8 * b2n ((s.slot 2).state == .ready)

/-- R520: LEN. -/
def attestLen (s : State) : Nat := 0x210 + Config.identityCertLen.val + (s.key.ident.getD {}).cert.length + 64

/-- R520: the statement without its signature. -/
def attestBody (nonce : List Byte) (s : State) : List Byte :=
  let c := s.key.ident.getD {}
  let prof := s.prof.active
  ascii "CKAT" ++ toLE 2 1 ++ toLE 2 (attestLen s) ++ toLE 1 s.deviceAddr ++ toLE 1 (attestFlags s)
    ++ toLE 1 (match prof with | some p => p.slot | none => 0) ++ toLE 1 s.key.active ++ toLE 4 hifIdWord ++ padTo 32 nonce ++ toLE 8 s.now
    ++ padTo 72 s.identityPub ++ padTo 72 (slotPublic (s.slot 1)) ++ padTo 32 s.key.meas
    ++ digestD0 ++ digestD1 ++ s.digestD2 ++ s.digestD3
    ++ toLE 4 Config.bootRomVersion.toNat ++ toLE 4 Config.loaderVersion.toNat ++ toLE 4 s.fwVersion
    ++ toLE 4 (match prof with | some p => profileVersion p.image | none => 0)
    ++ toLE 1 s.pufMargin ++ zeros 3 ++ (match s.ownerKey with | some k => ownerKeyId k | none => zeros 16)
    ++ toLE 4 c.version ++ padTo 32 c.digest ++ padTo 16 c.id ++ padTo 72 c.pub
    ++ toLE 2 Config.identityCertLen.val ++ toLE 2 c.cert.length ++ zeros 4 ++ certOf s 0 ++ c.cert

def attestInfo : OpInfo :=
  { code := 0x34, cls := some 2, rsvOk := fun d => restZero d [(8, 42)], target := kindNone
    range := fun _ d => decide (d.h 48 ≤ 4096) && d.q 40 % 8 == 0 }

/-- R520: E93, and FIELD_RANGE with LEN when the buffer is too small. -/
def attestOp (d : Desc) (s : State) : Answer :=
  let n := attestLen s
  if d.h 48 < n then answer stRange n s
  else
    match slotUse 0 s with
    | (s1, some st) => answer st 0 s1
    | (s1, none) =>
      let body := attestBody (bytesAt d.body 0 32) s1
      let sig := (List.range 64).map (Config.ecdsaSign (s1.slot 0).material s1.freeIx body)
      answer stOk n (raise 93 1 0xFF (toLE 4 n) (useFree (writeBuffer (d.q 40) (body ++ sig) s1)))

def execAttest (d : Desc) (s : State) : Host.Outcome State Fault Refusal := cryptoRow attestInfo attestOp d s

end Sys2Proof.Machine
end

