-- ==== Sys2Proof/Machine/LaneOps.lean ====
section
/-! DEFINITION. Frames of the phase lanes (R274 to R285, R288, R289): building DOWNLINK, HOLD and TRAIN_REQ, and checking what arrives. -/

namespace Sys2Proof.Machine

def laneDown : Nat := 0x01
def laneUp : Nat := 0x02
def laneTrainReq : Nat := 0x03
def laneTrainAck : Nat := 0x04
def laneHold : Nat := 0x05

/-- R275: the bytes of blocks in transmission order. -/
def blockBytes (l : List Block) : List Byte := l.flatMap fun b => toLE 8 b.toNat

/-- R276: the closing block of a frame. -/
def crcBlock (l : List Block) : Block := BitVec.ofNat 64 (crc32c (blockBytes l))
def withCrcBlock (l : List Block) : List Block := l ++ [crcBlock l]

/-- R277, R278: block 0 of a frame that the CK832 sends. -/
def headBlock (s : State) (type : Nat) (a : Bool) (lane more : Nat) : Block :=
  BitVec.ofNat 64 (type + 256 * b2n a + 512 * b2n s.unitB + 1024 * s.host.pairId.toNat + 2 ^ 16 * lane + 2 ^ 24 * s.lanes.q.toNat + more)

/-- The rank of phase k among the running phases of a stage. -/
def phaseRank (m : BitVec 4) (k : Nat) : Nat := ((List.range k).filter fun j => m.getLsbD j).length

/-- R278, R16, R212: the carrier offset of a running phase. -/
def phaseOffset (m : BitVec 4) (k : Nat) : Nat :=
  (divRound ((65536 * phaseRank m k : Nat) : Int) (popCount4 m)).toNat % 65536

/-- R252: the writer of PHASE_DUTY of a global phase missed its last due run. -/
def State.dutyHeld (s : State) (p : Nat) : Bool :=
  s.lawRecs.any fun r => (srOutIds r).contains (sigId 0x20 p) && (nth s.law.slots (srSlot r)).holdBit

/-- R278: the control block of a global phase; a negative duty is sent as 0 (R237). -/
def phaseBlock (s : State) (p : Nat) : Block :=
  let i := p / 4
  let m := s.runMask i
  let run := m.getLsbD (p % 4)
  let duty := (s.output (sigId 0x20 p)).toInt.toNat
  BitVec.ofNat 64 (duty + 2 ^ 16 * (if run then phaseOffset m (p % 4) else 0) + 2 ^ 32 * b2n run + 2 ^ 33 * b2n (s.dutyHeld p))

/-- R278: the actuation block of a lane; the enables are 0 until the lane is ACTIVE (R290). -/
def actBlock (s : State) (n : Nat) : Block :=
  let active := (s.lane n).state == .active
  let xp := (s.stage (2 * n)).coils.toNat + 256 * (s.stage (2 * n + 1)).coils.toNat
  BitVec.ofNat 64 (xp + 2 ^ 16 * b2n (active && (s.stage (2 * n)).outEn) + 2 ^ 17 * b2n (active && (s.stage (2 * n + 1)).outEn))

/-- R278: data blocks of a DOWNLINK. -/
def downlink (s : State) (n : Nat) : List Block :=
  withCrcBlock ([headBlock s laneDown s.aBit n 0] ++ (List.range 8).map (fun j => phaseBlock s (8 * n + j)) ++ [actBlock s n])

/-- R281: data blocks of a HOLD frame, with the actuation fields last sent. -/
def holdFrame (s : State) (n : Nat) : List Block := withCrcBlock [headBlock s laneHold s.aBit n 0, (s.lane n).lastAct]

/-- R288: data blocks of a TRAIN_REQ that leaves now. -/
def trainReq (s : State) (n round latency ph0 ph1 : Nat) : List Block :=
  withCrcBlock [headBlock s laneTrainReq false n (2 ^ 40 * round),
    BitVec.ofNat 64 (s.now % 2 ^ 32 + 2 ^ 32 * s.law.baseRate),
    BitVec.ofNat 64 (latency + 2 ^ 10 * ph0 + 2 ^ 13 * ph1)]

/-! ### Received frames -/

def blk (l : List Block) (i : Nat) : Nat := (l.getD i 0).toNat
def frSeq (l : List Block) : Half := BitVec.ofNat 16 (bits (blk l 0) 24 16)

/-- R276: TYPE, block count, CRC, LANE and the TYPE of the first block. -/
def frameOk (type : Byte) (want count lane : Nat) (l : List Block) : Bool :=
  type.toNat == want && l.length == count && bits (blk l 0) 0 8 == want && bits (blk l 0) 16 4 == lane
    && (l.getLast?.getD 0) == crcBlock l.dropLast

/-- R276, R282: a valid UPLINK of lane n. -/
def uplinkOk (n : Nat) (type : Byte) (l : List Block) : Bool :=
  frameOk type laneUp 33 n l && bits (blk l 0) 10 6 == 0 && bits (blk l 0) 20 4 == 0 && bits (blk l 31) 44 20 == 0

/-- R276, R289: a valid TRAIN_ACK of lane n. -/
def trainAckOk (n : Nat) (type : Byte) (l : List Block) : Bool :=
  frameOk type laneTrainAck 4 n l && bits (blk l 0) 9 7 == 0 && bits (blk l 0) 20 4 == 0 && bits (blk l 0) 48 16 == 0
    && bits (blk l 1) 43 21 == 0 && bits (blk l 2) 35 1 == 0 && bits (blk l 2) 39 1 == 0 && bits (blk l 2) 44 20 == 0

/-- R290: the spread of the round trips of one training, and their mean halved. -/
def rttSpread (l : List Int) : Int := maxInt l - minInt l
def rttLatency (l : List Int) : Int := divRound (sumInt l) (2 * l.length)

/-- The lane event source of R311. -/
def laneSrc (n : Nat) : Nat := 24 + n / 2

end Sys2Proof.Machine
end

