-- ==== Sys2Proof/Machine/PairOps.lean ====
section
/-! DEFINITION. The redundant pair: authority (R529, R530), events (R558), the lease (R546 to R551), the digest (R541), records (R536, R537), the pair key (R538) and snapshots (R544). -/

namespace Sys2Proof.Machine

def PairState.code : PairState → Nat
  | .alone => 0 | .forming => 1 | .refused => 2 | .active => 3 | .hot => 4 | .resync => 5 | .isolated => 6

def IlkClass.code : IlkClass → Nat
  | .low => 0 | .high => 1 | .invalid => 2 | .standby => 3 | .active => 4

def IlkClass.good (c : IlkClass) : Bool := c == .standby || c == .active
def IlkClass.broken (c : IlkClass) : Bool := c == .high || c == .invalid

/-- A command of the pair logic; a standalone module has none. -/
def pairRow (f : State → State) (s : State) : Host.Outcome State Fault Refusal := live (fun s => if s.member then f s else s) s

def State.running (s : State) : Bool := s.pwr.opState == .setup || s.pwr.opState == .operate

/-! ### Authority (R529, R530, R554) -/

/-- R558: an E98 event: the state before the change and PERIOD_COUNT bits [31:0]. -/
def authEvent (cause : Nat) (before : PairState) (s : State) : State :=
  raise 98 cause 0xFF (toLE 1 before.code ++ toLE 4 s.pair.periodCount.toNat) s

/-- R554: the states from which a unit that sets AUTH continues no output. -/
def Pair.stale (p : Pair) : Bool :=
  p.state == .resync || p.state == .refused || ((p.state == .alone || p.state == .forming) && !p.everResynced)

/-- R530, R543, R554, R575: AUTH is set with its E98 cause. -/
def setAuth (cause : Nat) (s : State) : State :=
  if s.pair.auth || !s.running || s.pair.state == .refused then s
  else
    let before := s.pair.state
    let stop := s.pair.stale
    let s1 := s.modPair fun p => { p with
      auth := true
      state := if p.state == .forming then .forming else .active
      takeovers := if cause == 3 then p.takeovers else satAdd 16 p.takeovers 1
      handovers := if cause == 3 then satAdd 16 p.handovers 1 else p.handovers }
    let s2 := authEvent cause before s1
    let s3 := when stop (forAll ((List.range 32).filter fun i => (s.stage i).outEn) safeStop) s2
    driveAll (s3.modSw fun w => { w with preDrive := false })

/-- R575, R530: a running unit clears AUTH: it first drives every switch channel off. -/
def clearAuth (cause : Option Nat) (s : State) : State :=
  if !s.pair.auth then s
  else
    let before := s.pair.state
    let s1 := (driveAllOff s).modPair fun p => { p with
      auth := false
      state := if p.state == .active then .hot else p.state
      handovers := if cause == some 2 then satAdd 16 p.handovers 1 else p.handovers }
    match cause with
    | some c => authEvent c before s1
    | none => s1

/-- R552: when the handover instant falls: the boundary of the period that the record names. -/
def State.handoverTime (s : State) (h : Handover) : Nat :=
  let count := s.pair.periodCount.toNat
  let gap := fun n => n * s.periodQns / 4
  if count ≤ h.atCount then s.lanes.boundary + gap (h.atCount - count) else s.lanes.boundary - gap (count - h.atCount)

/-- R530: the handover window lasts from 0.5 µs before the instant until 8 µs after it. -/
def State.inHandoverWindow (s : State) : Bool :=
  s.pair.handover.any fun h => decide (s.handoverTime h ≤ s.now + 500) && decide (s.now ≤ s.handoverTime h + 8000)

/-- R530: when the latest handover window ended. -/
def State.windowEnd (s : State) : Nat :=
  match s.pair.handover with
  | some h => if s.handoverTime h + 8000 < s.now then s.handoverTime h + 8000 else s.pair.windowEndAt
  | none => s.pair.windowEndAt

/-- R530: ILK_IN has been ACTIVE for `d` ns outside a handover window. -/
def State.sawActive (s : State) (d : Nat) : Bool :=
  s.pair.ilk == .active && !s.inHandoverWindow && decide (max s.pair.ilkAt s.windowEnd + d ≤ s.now)

/-- R530, first two rows. -/
def settleAuth (s : State) : State :=
  if !s.member || s.pair.auth || !s.running then s
  else if s.unitB then (if s.pair.ilk == .low then setAuth 1 s else s)
  else
    let giving := s.inHandoverWindow && s.pair.handover.any fun h => !h.taking
    let free := s.pair.ilk == .standby || s.pair.ilk == .low || (s.pair.linkUp && !s.pair.peerAuth)
    if !giving && free then setAuth 1 s else s

/-! ### The lease (R546 to R551) -/

def State.leaseNs (s : State) : Nat := s.leaseMs * 1000000
/-- R546: the guard. -/
def State.guardNs (s : State) : Nat := s.leaseMs * 1000

def leaseEvent (ev cause : Nat) (more : List Byte) (s : State) : State := raise ev cause 0xFF (toLE 4 s.pair.term.toNat ++ more) s

/-- R399, R435: what a unit without a lease stops. -/
def leaseGone (s : State) : State := plcLeaseLost (canLeaseLost s)

/-- R549: the unit acquires a term; E100 with the witness mask. -/
def acquireLease (cause mask : Nat) (term : Word) (s : State) : State :=
  let s1 := s.modPair fun p => { p with
    term := term, holderB := s.unitB, held := true, expiresAt := s.now + s.leaseNs
    renewCount := 0, renewAt := s.now, lapsed := false, granted := none, grantedPlc := none, proposed := none
    witnessOk := BitVec.ofNat 3 mask, witnessedAt := if mask = 0 then none else some s.now }
  canLeaseGained (lateStops (leaseEvent 100 cause (toLE 1 mask) s1))

/-- R546, R548: the unit learns of a lease of its peer, or observes a renewal of it. -/
def peerLease (term : Word) (held : Bool) (s : State) : State :=
  if term.toNat < s.pair.term.toNat then s
  else
    let mine := s.leaseHere
    let higher := s.pair.term.toNat < term.toNat
    if mine && !higher then s
    else
      let s1 := s.modPair fun p => { p with
        term := term, holderB := !s.unitB, held := held, expiresAt := s.now + s.leaseNs
        lapsed := p.lapsed && !higher, proposed := none }
      if mine then leaseGone (leaseEvent 99 3 [] s1) else s1

/-- R548: a renewal is witnessed by witness `i` (0 LINK, 1 PLC, 2 HOST). -/
def witnessed (i : Nat) (s : State) : State :=
  let bit : BitVec 3 := BitVec.ofNat 3 (2 ^ i)
  if s.pair.lapsed then acquireLease 4 (2 ^ i) (s.pair.term + 1) s
  else if s.leaseHere then
    s.modPair fun p => { p with
      witnessOk := p.witnessOk ||| bit, witnessedAt := some p.renewAt, expiresAt := max p.expiresAt (p.renewAt + s.leaseNs) }
  else s

/-- R547: a LEASE record. -/
def leaseBody (s : State) (op : Nat) (term : Word) (count : Nat) : List Byte :=
  toLE 1 op ++ toLE 1 (b2n s.unitB) ++ zeros 2 ++ toLE 4 term.toNat ++ toLE 4 count ++ toLE 2 s.leaseMs ++ zeros 2

/-- Witness `i` is enabled and available (R548). -/
def State.witness (s : State) (i : Nat) : Bool :=
  bitOf s.witnesses i && (match i with
    | 0 => s.pair.linkUp
    | 1 => s.plcFallback
    | _ => s.pair.witEnable)

/-- R550: a word of the host board. -/
def hostBoardWord (term : Word) (unitB held : Bool) (count : Nat) : BitVec 64 :=
  BitVec.ofNat 64 (term.toNat + 2 ^ 32 * b2n unitB + 2 ^ 33 * b2n held + 2 ^ 34 * (count % 2 ^ 30))

def hbTerm (w : BitVec 64) : Word := w.extractLsb' 0 32
def hbHolder (w : BitVec 64) : Bool := w.getLsbD 32
def hbHeld (w : BitVec 64) : Bool := w.getLsbD 33
def hbCount (w : BitVec 64) : Nat := (w.extractLsb' 34 30).toNat

def State.boardAddr (s : State) : Nat := s.pair.witBaseLo.toNat + 2 ^ 32 * s.pair.witBaseHi.toNat

/-- R550: issue a CompareAndSwap against the word last read. -/
def issueCas (new : BitVec 64) (claims : Bool) (s : State) : State :=
  toHost (.cas s.boardAddr s.pair.hostWord.toNat new.toNat) (s.modPair fun p => { p with cas := some (new, claims) })

/-- R549: the time from which a unit may claim: after entry to Setup when no term is known, else after the expiry, plus the guard. -/
def State.claimFrom (s : State) : Nat :=
  s.guardNs + (if s.pair.term = 0 then s.pair.startAt + s.leaseNs else s.pair.expiresAt)

/-- R531: a witness has answered since the double fault began. -/
def State.witnessAnswered (s : State) : Bool :=
  match s.pair.answeredAt with
  | some t => decide (s.pair.doubleAt ≤ t)
  | none => false

/-- A witness answers now. -/
def noteAnswer (s : State) : State := s.modPair fun p => { p with answeredAt := some s.now }

/-- R531: this unit holds a lease that a witness has renewed within LEASE_MS. -/
def State.leaseWitnessed (s : State) : Bool :=
  s.leaseHere && (match s.pair.witnessedAt with | some t => decide (s.now < t + s.leaseNs) | none => false)

/-- R531: what the double-fault rules make of AUTH now. -/
def settleDouble (s : State) : State :=
  if !s.pair.doubleFault then s
  else if s.unitB then
    (if s.leaseWitnessed then setAuth 5 s else clearAuth none s)
  else if s.leaseHere then setAuth 5 s
  else if s.pair.held then clearAuth none s
  else if !s.witnessAnswered && decide (s.claimFrom ≤ s.now) then setAuth 5 s
  else s

/-! ### Records (R536, R537) -/

/-- R536: a complete record arrives: it is acknowledged, and acted on unless it has been acknowledged before. -/
def takeRecord (seq : Word) (f : State → State) (s : State) : State :=
  if !s.pair.linkUp then s
  else
    let seen := s.pair.ackedSeqs.contains seq
    let s1 := sendRecord (.ack seq) s
    if seen then s1 else f (s1.modPair fun p => { p with ackedSeqs := (seq :: p.ackedSeqs).take 256 })

/-- R537: lane states of R306 for lanes 0 to 15. -/
def sendLanes (s : State) : State := sendRecord (.lane ((List.range 16).map fun n => (s.lane n).state)) s

/-- R34: PAYLOAD_DIGEST of the active profile. -/
def State.payloadDigest (s : State) : List Byte := match s.prof.active with | some p => bytesAt p.image 0x30 32 | none => zeros 32

/-- R538: the bytes that the signature of a HELLO covers. -/
def Hello.signed (h : Hello) : List Byte :=
  toLE 1 h.pairId.toNat ++ toLE 1 (b2n h.unitB) ++ toLE 4 h.firmware ++ padTo 16 h.ownerKeyId ++ padTo 32 h.digest
    ++ toLE 8 h.nodeId ++ h.publicKey ++ h.certificate

/-- R538, check 1: the certificate chains to the manufacturing CA, and the signature verifies under the key it certifies. -/
def Hello.identityOk (h : Hello) : Bool :=
  Config.certVerify h.certificate && Config.ecdsaVerify ((List.range 65).map (Config.certKey h.certificate)) h.signed h.signature

/-- R538: the own HELLO, not yet signed. -/
def State.ownHello (s : State) : Hello :=
  { certificate := (List.range Config.identityCertLen.val).map Config.identityCert
    unitB := s.unitB, pairId := s.host.pairId, ownerKeyId := padTo 16 (ownerKeyId (s.ownerKey.getD [])), firmware := s.fwVersion
    digest := s.payloadDigest, meas := s.key.meas, nodeId := u64 s.nodeId 0, publicKey := slotPublic (s.slot 1) }

/-- R538: send the HELLO, signed under slot 0. -/
def sendHello (s : State) : State :=
  let h := s.ownHello
  let sig := (List.range 64).map (Config.ecdsaSign (s.slot 0).material s.freeIx h.signed)
  sendRecord (.hello { h with signature := sig }) (useFree s)

/-- R538: HKDF inputs of the pair key. -/
def pairKey (s : State) : List Byte :=
  let x := (List.range 32).map (Config.ecdh (s.slot 1).material s.pair.peerPublic)
  let peer := toLE 8 s.pair.peerNode
  let ids := if s.unitB then peer ++ s.nodeId else s.nodeId ++ peer
  hkdf s.key.meas x (ascii "CK832-PAIR1" ++ toLE 1 s.host.pairId.toNat ++ ids) 32

/-- R538: the pair key enters slot 2 as a VOLATILE AES256 key with PAIR usage. -/
def placePairKey (s : State) : State :=
  s.modSlot 2 fun _ => { state := .ready, type := 2, usage := 0x20, flags := 2, material := pairKey s, origin := .placed }

/-- R539: at the boundary of a profile change the key of slot 2 is derived anew; the one before it opens for 1 s what was sealed before. -/
def renewPairKey (s : State) : State :=
  placePairKey (s.modPair fun p => { p with prevKey := some (s.slot 2).material, prevKeyAt := s.now })

/-- R539: a record wrapped under a key of the pair can be opened. -/
def State.pairKeyOpens (s : State) (key : List Byte) : Bool :=
  key == (s.slot 2).material || (s.prevKeyOpens && s.pair.prevKey == some key)

/-- R544: a snapshot is requested of the ACTIVE peer. -/
def requestSnapshot (s : State) : State :=
  sendRecord .snapshotRequest
    (s.modPair fun p => { p with snapWanted := true, snapApplied := false, hotRun := 0, snapParts := [], resyncAt := none })

/-- Enter RESYNC and request a snapshot (R543). -/
def enterResync (s : State) : State := requestSnapshot (s.modPair fun p => { p with state := .resync })

/-! ### Period counting and the digest (R540 to R542) -/

/-- R552, R553: control periods between a HANDOVER record and its instant, at least `least`. -/
def State.handoverPeriods (s : State) (least : Nat) : Nat := max least (ceilDiv 220000 s.periodQns + 1)

/-- R552: at the handover instant the taking side holds the granted term. -/
def handoverInstant (s : State) : State :=
  match s.pair.handover, s.pair.granted with
  | some h, some t =>
    if h.taking && h.kind == 1 && s.pair.auth && decide (h.atCount ≤ s.pair.periodCount.toNat) then acquireLease 2 1 t s else s
  | _, _ => s

/-- R542: the unit sends DIGEST_VALID = 1. -/
def State.digestValid (s : State) : Bool :=
  !(s.pair.state == .forming || s.pair.state == .resync || s.pair.state == .refused) || s.pair.snapApplied

/-- R558: INPUT_LOSS of this unit and of its peer. -/
def lossBytes (s : State) (peerLoss : Bool) : List Byte := toLE 1 (b2n s.pair.inputLoss) ++ toLE 1 (b2n peerLoss)

/-- R543: a counted match; after HOT_PERIODS of them the unit is HOT. -/
def digestMatch (peerLoss : Bool) (s : State) : State :=
  if s.pair.state != .resync || !s.pair.snapApplied then s
  else if s.pair.hotRun + 1 < s.hotPeriods then s.modPair fun p => { p with hotRun := p.hotRun + 1 }
  else raise 101 7 0xFF (lossBytes s peerLoss) (s.modPair fun p => { p with
    state := .hot, hotRun := 0, everResynced := true, resyncs := satAdd 16 p.resyncs 1 })

/-- R559: a handover that began in this control period ends. -/
def dropNewHandover (s : State) : State :=
  if s.pair.handover.any fun h => h.since == s.pair.periodCount.toNat then
    (s.modPair fun p => { p with handover := none, granted := none }).modSw fun w => { w with preDrive := false }
  else s

/-- R542, R559: a counted mismatch: the unit without AUTH, which is no longer HOT, resyncs. -/
def digestMismatch (peerLoss : Bool) (s : State) : State :=
  let s1 := dropNewHandover (s.modPair fun p => { p with mismatches := satAdd 16 p.mismatches 1, hotRun := 0 })
  if s.pair.auth then s1.modPair fun p => { p with peerState := .resync }
  else
    let s2 := raise 101 1 0xFF (lossBytes s peerLoss) s1
    when (s.pair.state != .refused) enterResync s2

/-- R542: compare the digests of one period when both count. -/
def compareDigest (l : List Block) (s : State) : State :=
  let loss := bits (blk l 2) 33 1 == 1
  if !(bits (blk l 2) 32 1 == 1 && s.pair.digestOk) then s
  else if bits (blk l 2) 0 32 = s.pair.digest.toNat then digestMatch loss s
  else digestMismatch loss s

/-- R542: a PERIOD frame meets the own digest of its period, now or at the boundary of that period. -/
def takeDigest (l : List Block) (s : State) : State :=
  if frSeq l == s.lanes.q then compareDigest l s
  else if frSeq l == s.lanes.q + 1 then s.modPair fun p => { p with early := l } else s

/-- R535: the data blocks of a PERIOD frame. -/
def periodFrame (s : State) : List Block :=
  let p := s.pair
  withCrcBlock [BitVec.ofNat 64 (0x10 + 256 * b2n p.auth + 512 * b2n s.unitB + 1024 * s.host.pairId.toNat
      + 2 ^ 16 * p.state.code + 2 ^ 24 * s.lanes.q.toNat),
    BitVec.ofNat 64 (p.periodCount.toNat + 2 ^ 48 * p.ilk.code),
    BitVec.ofNat 64 (p.digest.toNat + 2 ^ 32 * b2n p.digestOk + 2 ^ 33 * b2n p.inputLoss),
    BitVec.ofNat 64 (p.term.toNat + 2 ^ 32 * b2n p.holderB + 2 ^ 33 * b2n p.held)]

/-- R535: at a boundary the digest of the period before is closed and the PERIOD frame leaves. -/
def pairBoundary (s : State) : State :=
  let s1 := handoverInstant (s.modPair fun p => { p with
    periodCount := p.periodCount + 1
    digest := BitVec.ofNat 32 (crc32c p.digestBytes), digestBytes := [], digestOk := s.digestValid
    inputLoss := p.lossNow, lossNow := false, early := [] })
  let s2 := if s1.member && s1.pair.lanes.any (·.blockLock) then emit (.pairFrame (periodFrame s1)) s1 else s1
  if s.pair.early.isEmpty then s2 else takeDigest s.pair.early s2

/-- R541: bytes that the digest of the present period covers. -/
def digestAdd (l : List Byte) (s : State) : State :=
  if s.member then s.modPair fun p => { p with digestBytes := p.digestBytes ++ l } else s

/-! ### Link state (R533, R543) -/

/-- R533, R543: the pair link goes down; one that is declared down waits for a new PERIOD frame. -/
def linkDown (declared : Bool) (s : State) : State :=
  if !s.pair.linkUp then s
  else
    let s1 := raise 97 1 0xFF [] (s.modPair fun p => { p with
      linkUp := false, linkDownAt := s.now, helloOk := false, unacked := [], periodAt := if declared then none else p.periodAt })
    let st := s1.pair.state
    if (st == .hot || st == .resync) && s1.pair.ilk.good then
      raise 102 1 0xFF (toLE 1 st.code) (s1.modPair fun p => { p with state := .isolated })
    else if st != .refused && s1.pair.ilk == .low then
      s1.modPair fun p => { p with state := if p.auth then .active else .alone }
    else s1

/-- R558: an E103 event with the ILK_IN class. -/
def pairFault (cause : Nat) (s : State) : State := raise 103 cause 0xFF (toLE 1 s.pair.ilk.code) s

/-- R533, R538, R543: the pair link comes up: HELLO is sent. R530: over a broken ILK_IN with E103 OPEN. -/
def linkUp (s : State) : State :=
  if s.pair.linkUp then s
  else
    let st := s.pair.state
    let s1 := raise 97 2 0xFF [] (s.modPair fun p => { p with
      linkUp := true, doubleFault := false, ackedSeqs := [], snapApplied := p.snapApplied && p.state == .active
      state := if st == .alone || st == .isolated then .forming else st })
    let s2 := when (st == .isolated) (raise 102 0 0xFF (toLE 1 st.code)) s1
    sendHello (when s.pair.ilk.broken (pairFault 1) s2)

/-- R533: a valid PERIOD frame has arrived within the last 32 control periods. -/
def State.peerHeard (s : State) : Bool :=
  match s.pair.periodAt with
  | some t => decide ((s.now - t) * 4 ≤ 32 * s.periodQns)
  | none => false

/-! ### ILK_IN (R527, R530, R543) -/

/-- R527: E96 when ILK_IN leaves STANDBY and ACTIVE, and when it returns. -/
def ilkEvents (cls : IlkClass) (s : State) : State :=
  let code := toLE 1 cls.code
  if s.pair.ilk.good && !cls.good then
    raise 96 (match cls with | .low => 1 | .high => 2 | _ => 3) 0xFF code (s.modPair fun p => { p with ilkLost := true })
  else if cls.good && s.pair.ilkLost then raise 96 0 0xFF code (s.modPair fun p => { p with ilkLost := false })
  else s

/-- R530, R543, R559: with LOW a handover ends and the survivor takes AUTH; with the link down too the unit is alone. -/
def ilkLow (s : State) : State :=
  let s1 := settleAuth (s.modPair fun p => { p with handover := none, granted := none })
  if s1.pair.linkUp || s1.pair.state == .refused then s1
  else s1.modPair fun p => { p with state := if p.auth then .active else .alone }

/-- ILK_IN has had class `cls` since `at_`. -/
def ilkEffect (cls : IlkClass) (at_ : Nat) (s : State) : State :=
  if cls == s.pair.ilk then s
  else
    let was := s.pair.ilk
    let s1 := (ilkEvents cls s).modPair fun p => { p with ilk := cls, ilkAt := at_, doubleFault := p.doubleFault && cls.broken }
    let s2 := when (cls.broken && !was.broken && s1.pair.linkUp) (pairFault 1) s1
    settleVehicles (if cls == .low then ilkLow s2 else settleAuth s2)

/-- R527: a change of ILK_IN that came in Sleep is taken up by the wake. -/
def ilkWake (s : State) : State :=
  match s.pair.ilkAsleep with
  | some (c, t) => ilkEffect c t (s.modPair fun p => { p with ilkAsleep := none })
  | none => s

/-! ### Snapshots (R544) -/

/-- R544: PERIOD_COUNT of an allocation boundary at least 1 ms ahead. -/
def State.resyncPoint (s : State) : Nat :=
  let ahead := s.pair.periodCount.toNat + ceilDiv 4000000 s.periodQns
  ceilDiv ahead s.allocPeriods * s.allocPeriods

/-- R544: one part of the image enters the state. -/
def loadPart (part : SnapPart) (s : State) : State :=
  match part with
  | .law k st => s.modLawSlot k fun x => { x with st := st }
  | .stage i r => s.modStage i fun _ => r
  | .outlet i r => s.modAlcOut i fun _ => r
  | .path i r => s.modPath i fun _ => r
  | .thermal i t => s.modObj i fun o => { o with theta := t }
  | .session i r => s.modSes i fun _ => r
  | .point c => s.modPair fun p => { p with resyncAt := some c }

/-- R544: the image that the ACTIVE unit sends, for the resync point `c`. -/
def snapshotParts (c : Nat) (s : State) : List SnapPart :=
  (s.lawRecs.map fun r => .law (srSlot r) (nth s.law.slots (srSlot r)).st)
    ++ (List.range 32).map (fun i => .stage i (s.stage i)) ++ (List.range 8).map (fun o => .outlet o (s.alcOut o))
    ++ (List.range 8).map (fun o => .path o (s.path o)) ++ (s.thm.objs.mapIdx fun j o => .thermal j o.theta)
    ++ (List.range 8).map (fun o => .session o (s.ses o)) ++ [.point c]

end Sys2Proof.Machine
end

