-- ==== Sys2Proof/Machine/Record.lean ====
section
/-! DEFINITION. Meanings of the recorder commands (R484 to R495), RECORD_READ and SET_CIVIL_TIME. -/

namespace Sys2Proof.Machine

/-- R484: a slot is present. -/
def State.recPresent (s : State) (i : Nat) : Bool :=
  let k := slotKind i
  match k.1 with
  | 1 | 2 => s.outActive k.2
  | 3 => s.stPresent k.2
  | 4 => decide (k.2 < s.thm.objs.length)
  | 5 => s.rtdEnabled k.2
  | 7 => s.loopB k.2 0 != 0xFF
  | _ => true

def State.recSlots (s : State) : List Nat := (List.range 178).filter s.recPresent

/-- R364: no recorder write starts while a thermal halt is pending. -/
def recWrite (f : Recorder → Recorder) (s : State) : State := if s.thm.halting.isSome then s else raiseWraps (s.modRec f)

/-! ### Samples and pages (R484 to R487) -/

/-- R486: close the pages whose boundaries civil time reached by device time `t`, each at its boundary. -/
def closeReached (t : Nat) (s : State) : State :=
  recWrite (fun r => (List.range 178).foldl (fun r i => match nth r.data.opens i with
    | some p => r.closeAt s.civil (s.recPresent i) i (p.passed s.civil t)
    | none => r) r) s

/-- R484, R498: a whole second that has not been sampled yet; a boundary in it comes first, one at its end after it. -/
def sampleSecond (s : State) : State :=
  if s.second ≤ s.rcd.secondAt then s
  else recWrite (fun r => { (s.recSlots.foldl (fun r i => r.sample s.now s.civil i) r).peaks with secondAt := s.second })
    (closeReached (s.second * 10 ^ 9 - 1) s)

def execRecorderSecond (s : State) : Host.Outcome State Fault Refusal := live sampleSecond s

/-- R486: the pages whose boundary civil time has reached close. -/
def execPageClose (s : State) : Host.Outcome State Fault Refusal := live (fun s => closeReached s.now (sampleSecond s)) s

/-- R491: a forward step closes the pages whose boundary it crosses. -/
def closeStepped (s : State) : State :=
  recWrite (fun r => (List.range 178).foldl (fun r i => match nth r.data.opens i with
    | some p => if p.boundary s.civil ≤ s.now then r.closePage s.now s.civil true false (s.recPresent i) i else r
    | none => r) r) s

/-- R486, R490: a profile takes effect: every open page closes with PROFILE, and every open excursion ends. -/
def recProfile (s : State) : State :=
  recWrite (fun r => ((List.range 178).foldl (fun r i => r.closePage s.now s.civil false true (s.recPresent i) i) r).endExcursions s.now) s

/-! ### Failure (R493, R494) -/

/-- REC_FAULT as an event payload. -/
def recFaultWord (r : Recorder) : Nat := r.faultCause + 256 * (r.faultAddr % 2 ^ 22)

/-- R493, R494. -/
def framFailureEffect (cause addr : Nat) (s : State) : State :=
  if s.rcd.isVolatile then s
  else
    let s1 := s.modRec fun r => { r with faultCause := cause, faultAddr := addr, marked := true }
    let s2 := raise 88 cause 0xFF (toLE 4 (recFaultWord s1.rcd)) s1
    raise 90 1 0xFF [] (s2.modRec fun r => r.toVolatile r.data)

def execFramFailure (cause addr : Nat) (s : State) : Host.Outcome State Fault Refusal := live (framFailureEffect cause addr) s

/-- R494: every start with the flash marker enters volatile mode before the first sample. -/
def recStart (s : State) : State :=
  if s.rcd.marked then
    raise 90 1 0xFF [] (raise 88 3 0xFF (toLE 4 (recFaultWord s.rcd)) (s.modRec fun r => r.toVolatile r.base))
  else s

/-- R492, R494: what a reset of the controller logic leaves of the recorder. -/
def Recorder.atReset (r : Recorder) : Recorder :=
  { data := r.data, base := r.base, secondAt := r.secondAt, marked := r.marked, faultCause := r.faultCause, faultAddr := r.faultAddr
    rings := r.rings.map fun _ => {} }

/-! ### Civil time (R491) -/

/-- R491: a step of civil time from a source (1 HOST, 2 PTP). -/
def civilStep (source : Nat) (new : Int) (s : State) : State :=
  let old := s.civil
  let s1 := recWrite (·.pushStep { time := s.now, civil := new, old := old, source := source }) { s with civil := new }
  if new < old then
    recWrite (fun r => (List.range 178).foldl (fun r i => r.closePage s.now new true false (s.recPresent i) i) r) s1
  else closeStepped s1

def setCivilInfo : OpInfo :=
  { code := 0x32, cls := some 2, rsvOk := fun d => restZero d [(8, 8)], target := kindNone }

/-- R101: not while PTP steers civil time. -/
def setCivilOp (d : Desc) (s : State) : Answer :=
  if s.ptpSteers then answer stState 0 s else answer stOk 0 (civilStep 1 (signed 64 (d.q 8)) s)

def execSetCivilTime (d : Desc) (s : State) : Host.Outcome State Fault Refusal := live (runDesc setCivilInfo setCivilOp d) s

/-! ### RECORD_READ (R495) -/

/-- R495: bytes of one record of a region; 0 for an undefined region. -/
def regionSize : Nat → Nat
  | 1 | 2 => 512 | 3 | 5 => 64 | 4 => 128 | _ => 0

/-- R495: the records from NUMBER `start` of a ring whose oldest record is `old`, all of them for a START older than that. -/
def fromNumber {α : Type} (start old : Nat) (l : List α) : List α :=
  let d := (start + 2 ^ 32 - old) % 2 ^ 32
  if d < 2 ^ 31 then l.drop d else l

/-- R495: the records of a region from START, in order. -/
def regionRecords (s : State) (region start : Nat) : List (List Byte) :=
  let d := s.rcd.data
  match region with
  | 1 => (fromNumber start (d.pages.headD {}).number d.pages).map (·.bytes)
  | 2 => ((List.range 178).drop start).map fun i => match nth d.opens i with | some p => p.bytes | none => zeros 512
  | 3 => ((List.range 178).drop start).map fun i => match nth d.extremes i with | some e => e.bytes i | none => zeros 64
  | 4 => (fromNumber start (d.excursions.headD {}).number d.excursions).map (·.bytes)
  | 5 => (fromNumber start (d.steps.headD {}).number d.steps).map (·.bytes)
  | _ => []

def recordReadInfo : OpInfo :=
  { code := 0x31, cls := some 2, rsvOk := fun d => restZero d [(8, 1), (12, 16)], target := kindNone
    range := fun _ d =>
      let n := regionSize (d.b 8)
      n != 0 && decide (n ≤ d.w 24) && decide (32 ≤ d.w 24 ∧ d.w 24 ≤ 16777216) && d.q 16 % 8 == 0
        && !((d.b 8 == 2 || d.b 8 == 3) && decide (177 < d.w 12)) }

/-- R483, R495: whole records; PARTIAL when the read reaches the newest record first. -/
def recordReadOp (d : Desc) (s : State) : Answer :=
  let room := d.w 24 / regionSize (d.b 8)
  let all := regionRecords s (d.b 8) (d.w 12)
  let out := (all.take room).flatten
  answer (if all.length < room then stPartial else stOk) out.length (writeBuffer (d.q 16) out s)

def execRecordRead (d : Desc) (s : State) : Host.Outcome State Fault Refusal := live (runDesc recordReadInfo recordReadOp d) s

end Sys2Proof.Machine
end

