-- ==== Sys2Proof/Machine/Registers.lean ====
section
/-! DEFINITION. The register file of BAR0 as a read returns it: one function for each block, of the offset within BAR0. Reserved bits, write-only fields and offsets that no table lists read 0 (R10). -/

namespace Sys2Proof.Machine


/-- A mask of `n` bits. -/
def maskOf (n : Nat) (f : Nat → Bool) : Nat := ((List.range n).map fun i => if f i then 2 ^ i else 0).foldl (· + ·) 0

/-- The index of an offset within a family of registers of `size` bytes each from `base`, and its offset there; none outside. -/
def regIndex (base size count off : Nat) : Option (Nat × Nat) :=
  if base ≤ off ∧ off < base + size * count then some ((off - base) / size, (off - base) % size) else none

/-! ### HIF (R103) -/

def hifAddrWord (s : State) : Nat := s.deviceAddr + fld 7 1 (b2n s.member)

def sqWord (s : State) (n k : Nat) : Nat :=
  let q := s.sq n
  match k with
  | 0 => q.baseLo.toNat
  | 4 => q.baseHi.toNat
  | 8 => fld 0 4 q.sizeLog2 + fld 4 4 q.cq + fld 8 1 (b2n q.enable)
  | 12 => if n < 4 then fld 0 8 q.rate + fld 8 8 q.burst else 0
  | _ => 0

/-- The CFG layout of completion rings, and of the event ring with its coalescing. -/
def ringCfg (size vector : Nat) (enable : Bool) (coalesce : Nat) : Nat :=
  fld 0 5 size + fld 8 5 vector + fld 16 1 (b2n enable) + fld 24 8 coalesce

def cqWord (s : State) (m k : Nat) : Nat :=
  let c := s.cq m
  match k with
  | 0 => c.baseLo.toNat
  | 4 => c.baseHi.toNat
  | 8 => ringCfg c.sizeLog2 c.vector c.enable 0
  | _ => 0

def ethWord (s : State) (n : Nat) : Nat :=
  let e := nth s.host.eth n
  fld 0 3 e.mode + fld 3 1 (b2n e.ptpEn) + fld 4 1 (b2n e.civilFromPtp)

def msixWord (s : State) (v k : Nat) : Nat :=
  let e := nth s.host.msix v
  match k with
  | 0 => e.addrLo.toNat
  | 4 => e.addrHi.toNat
  | 8 => e.data.toNat
  | _ => b2n e.masked

def hifReg (s : State) (off : Nat) : Nat :=
  let h := s.host
  match off with
  | 0x00 => hifIdWord
  | 0x04 => hifAddrWord s
  | 0x08 => fld 0 3 h.linkGen + fld 3 3 h.linkWidth
  | 0x10 => b2n h.ringsRunning + fld 1 1 (b2n h.hifOpen) + fld 8 8 h.c0Tags
  | 0x18 => h.dbBaseLo.toNat
  | 0x1C => h.dbBaseHi.toNat
  | 0x20 => h.evq.baseLo.toNat
  | 0x24 => h.evq.baseHi.toNat
  | 0x28 => ringCfg h.evq.sizeLog2 h.evq.vector h.evq.enable h.evq.coalesceUs
  | 0x2C => h.evq.lost
  | 0x30 => ethWord s 0
  | 0x34 => ethWord s 1
  | 0x38 => h.ptpLimitNs
  | 0xA00 => maskOf 32 fun v => (nth h.msix v).pendingBit
  | _ =>
    match regIndex 0x100 0x10 16 off, regIndex 0x200 0x10 16 off, regIndex 0x800 0x10 32 off with
    | some p, _, _ => sqWord s p.1 p.2
    | _, some p, _ => cqWord s p.1 p.2
    | _, _, some p => msixWord s p.1 p.2
    | _, _, _ => 0

/-! ### CLK/PWR (R96) -/

def OpState.code : OpState → Nat
  | .boot => 0 | .setup => 1 | .operate => 2 | .safe => 3

/-- R96: a read always wakes the module, so that it never returns Sleep. -/
def PowerState.code : PowerState → Nat
  | .run => 2
  | .doze | .sleep => 1

/-- R96: PWR_STATUS. -/
def pwrStatus (p : Pwr) : Nat :=
  fld 0 2 p.powerState.code + fld 2 2 p.opState.code + fld 4 1 (b2n p.refExt) + fld 5 1 (b2n (!p.sleepN)) + fld 6 3 p.operateBlock

def pwrReg (s : State) (off : Nat) : Nat :=
  let p := s.pwr
  match off with
  | 0x1000 => pwrStatus p
  | 0x1008 => fld 0 20 p.slowPollUs
  | 0x100C => fld 0 16 p.sleepDelayMs
  | 0x1010 => p.wakeEn.toNat
  | 0x1014 => p.wakeCause.toNat
  | 0x1018 => fld 0 8 p.resetCause
  | 0x101C => p.locked.toNat
  | _ => 0

/-! ### ALC (R170) -/

def alcStatus (s : State) : Nat :=
  let a := s.alloc
  b2n a.running + fld 1 1 (b2n a.capBinding) + fld 2 1 (b2n a.trafoBinding) + fld 3 1 (b2n a.fastShown)
    + fld 4 1 (b2n a.hostShown) + fld 6 2 a.levelTier + fld 8 4 a.transfers

/-- ALC_OUTo_BUDGET, ALC_OUTo_CEIL and ALC_OUTo_DEMAND. -/
def alcOutWord (s : State) (o k : Nat) : Nat :=
  let a := s.alcOut o
  match k with
  | 0 => fld 0 16 (min 0xFFFF (a.budget / 100)) + fld 16 6 a.stages + fld 22 3 a.state.code
  | 4 => fld 0 16 a.iCeil + fld 16 16 a.vCeil
  | 8 => fld 0 16 (min 0xFFFF (a.demandW / 100)) + fld 16 3 a.limit
  | _ => 0

def alcReg (s : State) (off : Nat) : Nat :=
  let a := s.alloc
  match off with
  | 0x2000 => alcStatus s
  | 0x2004 => a.periodCount.toNat
  | 0x2008 => a.capKw
  | 0x200C => a.availKw
  | 0x2010 => a.level
  | 0x2014 => a.estKw
  | 0x2018 => maskOf 8 (fun o => (s.alcOut o).paused) + 256 * maskOf 8 (fun o => (s.alcOut o).e32.getLsbD 2)
  | _ =>
    match regIndex 0x2100 0x10 8 off, regIndex 0x2200 4 32 off with
    | some p, _ => alcOutWord s p.1 p.2
    | _, some p => (a.stgShown.getD p.1 0).toNat
    | _, _ => 0

/-! ### SPP (R221) -/

def sppReg (s : State) (off : Nat) : Nat :=
  match regIndex 0x2800 0x20 8 off, regIndex 0x2900 4 32 off with
  | some p, _ => ((s.path p.1).shown.getD (p.2 / 4) 0).toNat
  | _, some p => (s.stage p.1).shown.toNat
  | _, _ => 0

/-! ### LAW (R271) -/

def lawEngWord (s : State) (e k : Nat) : Nat :=
  let g := s.engine e
  match k with
  | 0 => fld 0 16 g.planned + fld 16 11 g.slots
  | 4 => fld 0 16 g.peak
  | 8 => fld 0 16 g.misses + fld 16 16 g.corrected
  | _ =>
    match g.inj with
    | some i => b2n i.started + fld 1 3 i.wave + fld 4 10 i.slot + fld 14 5 i.port
    | none => 0

def lawFlagWord (s : State) (f : LawSlot → Bool) (j : Nat) : Nat := maskOf 32 fun i => f (nth s.law.slots (32 * j + i))

def lawReg (s : State) (off : Nat) : Nat :=
  let l := s.law
  match off with
  | 0x3000 => maskOf 8 (fun e => l.running && (s.engine e).slots != 0 && !(s.engine e).fault) + 256 * maskOf 8 (fun e => s.engineFrozen e)
      + 65536 * maskOf 8 (fun e => (s.engine e).fault)
  | 0x3004 => fld 0 18 l.baseRate
  | 0x3008 => fld 0 16 l.window + fld 16 8 l.margin
  | 0x300C => fld 0 11 l.count
  | _ =>
    match regIndex 0x3010 0x10 8 off, regIndex 0x3100 4 32 off, regIndex 0x3180 4 32 off, regIndex 0x3200 4 32 off,
      regIndex 0x3280 4 32 off, regIndex 0x3400 4 256 off with
    | some p, _, _, _, _, _ => lawEngWord s p.1 p.2
    | _, some p, _, _, _, _ => lawFlagWord s (·.missed) p.1
    | _, _, some p, _, _, _ => lawFlagWord s (·.satBit) p.1
    | _, _, _, some p, _, _ => lawFlagWord s (·.ovBit) p.1
    | _, _, _, _, some p, _ => lawFlagWord s (·.holdBit) p.1
    | _, _, _, _, _, some p => ((List.range 4).map fun i => fld (8 * i) 8 (nth l.slots (4 * p.1 + i)).mcnt).foldl (· + ·) 0
    | _, _, _, _, _, _ => 0

/-! ### PLN (R310) -/

def LaneState.code : LaneState → Nat
  | .unused => 0 | .down => 1 | .active => 2 | .refused => 3

def plnWord (s : State) (n k : Nat) : Nat :=
  let l := s.lane n
  match k with
  | 0 => l.state.code + fld 3 1 (b2n l.aSent) + fld 4 2 l.refuse + fld 6 10 l.latencyNs
  | 4 => l.nodeType.toNat + fld 16 16 l.nodeVersion.toNat
  | 8 => fld 0 3 l.ph0 + fld 4 3 l.ph1 + fld 8 4 l.sensors
  | 12 => fld 0 16 l.crcErrors + fld 16 16 l.seqErrors
  | 16 => fld 0 16 l.missing + fld 16 16 l.holdFrames
  | 20 => l.xpFb.toNat + fld 16 8 l.limit.toNat + fld 24 4 l.stop0 + fld 28 4 l.stop1
  | 24 => fld 0 16 l.losses
  | _ => 0

def plnReg (s : State) (off : Nat) : Nat :=
  match off with
  | 0x3800 => maskOf 16 s.laneInUse + 65536 * maskOf 16 fun n => (s.lane n).state == .active
  | 0x3804 => s.lanes.q.toNat
  | _ => match regIndex 0x3900 0x20 16 off with
    | some p => plnWord s p.1 p.2
    | none => 0

/-! ### ACQ (R339) -/

def CapState.code : CapState → Nat
  | .idle => 0 | .parked => 1 | .armed => 2 | .triggered => 3 | .done => 4 | .calibrating => 5

def acqUnitWord (s : State) (u k : Nat) : Nat :=
  let x := s.unit u
  match k with
  | 0 => x.state.code + fld 3 1 (b2n (cfMode x.cfg == 1)) + fld 4 4 (cfTrigType x.cfg) + fld 8 5 (cfCount x.cfg)
      + fld 13 1 (b2n (x.record.isSome && x.recordCal))
  | 4 => x.number.toNat
  | 8 => match x.record with | some r => r.length | none => 0
  | _ => fld 0 9 (if s.prof.active.isSome then s.unitMib u else 0)

def acqReg (s : State) (off : Nat) : Nat :=
  match off with
  | 0x4000 => (if s.prof.active.isSome then fld 0 9 s.captureMib else 0) + fld 16 16 s.skewCount
  | 0x4004 => s.acq.ovr.toNat
  | 0x4008 => s.acq.edges.toNat
  | _ =>
    match regIndex 0x4040 4 16 off, regIndex 0x4100 0x10 8 off with
    | some p, _ => (s.acq.last.getD p.1 0).toNat
    | _, some p => acqUnitWord s p.1 p.2
    | _, _ => 0

/-! ### THM (R371) -/

def thmObjWord (s : State) (j k : Nat) : Nat := ((s.obj j).shown.getD (k / 4) 0).toNat

def thmLoopWord (s : State) (l : Nat) : Nat :=
  let c := s.loop l
  fld 0 16 c.flow + fld 16 8 c.duty + fld 24 1 (b2n c.pumpOn) + fld 25 1 (b2n c.fanOn)

def thmReg (s : State) (off : Nat) : Nat :=
  let t := s.thm
  match off with
  | 0x4800 => fld 0 7 t.objs.length + fld 7 1 (b2n t.dieWarm) + fld 8 8 (maskOf 8 fun l => (s.loop l).flowLow)
  | 0x4804 => fldI 0 16 t.dieDc + fldI 16 16 (t.peakDc.getD 0)
  | 0x4808 => maskOf 24 fun i => (nth t.rtd i).fault
  | 0x480C => maskOf 24 fun i => (nth t.rtd i).alarm
  | 0x4810 => t.seq.toNat
  | _ =>
    match regIndex 0x4840 4 24 off, regIndex 0x48A0 4 8 off, regIndex 0x4900 0x10 96 off with
    | some p, _, _ => tempField (nth t.rtd p.1).reading
    | _, some p, _ => thmLoopWord s p.1
    | _, _, some p => if p.1 < t.objs.length then thmObjWord s p.1 p.2
        else (match p.2 with | 0 => 0x80000000 | 4 => 0xFFFF | _ => 0)
    | _, _, _ => 0

/-! ### VEH (R395) -/

def vehOutWord (s : State) (o k : Nat) : Nat :=
  let v := s.vehOf o
  let x := v.ses
  match k with
  | 0 => x.state.code + fld 4 4 x.protocol + fld 8 1 (b2n x.tls) + fld 9 1 (b2n x.pnc)
      + fld 10 1 (b2n (x.starvedSince.isSome || x.noStage)) + fld 12 3 v.pilot + fld 16 2 v.ppClass
  | 4 => fldI 0 16 v.highMv + fldI 16 16 v.lowMv
  | 8 => fld 0 16 v.ppOhm
  | 12 => fld 0 16 x.req.iTarget + fld 16 16 x.req.vTarget
  | 16 => fld 0 16 x.req.iMax + fld 16 16 x.req.vMax
  | 20 => fld 0 16 x.req.pMax + fld 16 16 x.req.iMin
  | 24 => v.sessions.toNat
  | _ => 0

def vehReg (s : State) (off : Nat) : Nat :=
  match off with
  | 0x5000 => maskOf 8 (fun o => (s.ses o).state != .idle) + 256 * maskOf 8 fun o => s.leaseVoid && (s.ses o).state != .idle
  | _ => match regIndex 0x5100 0x20 8 off with
    | some p => vehOutWord s p.1 p.2
    | none => 0

/-! ### CAN (R413) and PLC (R441) -/

def CanMode.code : CanMode → Nat
  | .normal => 0 | .restricted => 1 | .detecting => 2

def rxRingWord (q : RxRing) (k : Nat) : Nat :=
  match k with
  | 0 => q.baseLo.toNat
  | 4 => q.baseHi.toNat
  | 8 => ringCfg q.sizeLog2 q.vector q.enable q.coalesceUs
  | _ => 0

def canCtlWord (s : State) (n k : Nat) : Nat :=
  let c := s.ctlr n
  match k with
  | 0 => c.confine + fld 2 1 (b2n c.warning) + fld 3 1 (b2n c.recovering) + fld 4 2 (if c.running then c.mode.code else 3)
      + fld 6 3 c.rateIndex + fld 9 1 (b2n c.dataVerified) + fld 10 3 c.pendingMask + fld 13 3 c.collidingMask
      + fld 16 1 (b2n c.prio.isSome) + fld 17 7 c.fifo.length
  | 4 => fld 0 9 c.tec + fld 16 8 c.recc + fld 24 3 c.lastError + fld 27 1 (b2n c.lastInData)
  | 8 => fld 0 16 c.busOffs + fld 16 16 c.overruns
  | 12 => c.rxFrames.toNat
  | 16 => c.txFrames.toNat
  | _ => 0

def canReg (s : State) (off : Nat) : Nat :=
  match off with
  | 0x5800 => maskOf 8 s.canEnabled + 256 * maskOf 8 (fun n => (s.ctlr n).busOff)
      + 65536 * maskOf 8 (fun n => (s.ctlr n).running && (s.ctlr n).mode == .restricted)
      + 16777216 * maskOf 8 (fun n => (s.ctlr n).running && (s.ctlr n).mode == .detecting)
  | _ =>
    match regIndex 0x5900 0x20 8 off, regIndex 0x5A00 0x10 8 off with
    | some p, _ => canCtlWord s p.1 p.2
    | _, some p => rxRingWord (s.ctlr p.1).rx p.2
    | _, _ => 0

/-- R434: this node relays. -/
def State.strider (s : State) : Bool := s.plc.addr != 0 && s.plc.relays.contains s.plc.addr

def plcReg (s : State) (off : Nat) : Nat :=
  let p := s.plc
  match off with
  | 0x6000 => fld 0 2 p.role + fld 2 1 (b2n s.strider) + fld 3 1 (b2n p.zcValid) + fld 4 1 (b2n p.synthetic)
      + fld 5 1 (b2n p.lock) + fld 8 8 p.addr + fld 16 16 p.nid
  | 0x6004 => fld 0 8 p.coordAddr + fld 8 8 p.nodes + fld 16 2 p.depth
  | 0x6008 => if p.zcValid then p.zcPeriod else 0
  | 0x600C => p.cycle.toNat
  | 0x6010 => p.zcOffset.toNat
  | 0x6014 => fld 0 16 p.bad + fld 16 16 p.resent
  | 0x6018 => fld 0 16 p.failed + fld 16 16 p.refused
  | _ =>
    match regIndex 0x6040 0x10 1 off, regIndex 0x6400 4 255 off with
    | some q, _ => rxRingWord p.rx q.2
    | _, some q => if q.1 = 0 then 0 else s.nbRate q.1
    | _, _ => 0

/-! ### MET (R472), REC (R495), KEY (R523) -/

/-- R472: the read window shows the latest refresh. -/
def metReg (s : State) (off : Nat) : Nat :=
  match s.met.shown.find? fun p => p.1 == off with
  | some p => p.2.toNat
  | none => 0

def firstLast (l : List Nat) : Nat × Nat := (l.headD 0, l.getLastD 0)

def recReg (s : State) (off : Nat) : Nat :=
  let r := s.rcd
  let pages := firstLast (r.data.pages.map (·.number))
  let exc := firstLast (r.data.excursions.map (·.number))
  let steps := firstLast (r.data.steps.map (·.number))
  match off with
  | 0x7000 => b2n r.isVolatile + fld 1 1 (b2n r.marked) + fld 2 1 (b2n (r.faultCause != 0)) + fld 3 8 s.recSlots.length
  | 0x7004 => b2n r.day
  | 0x7008 => pages.2
  | 0x700C => pages.1
  | 0x7010 => exc.2
  | 0x7014 => exc.1
  | 0x7018 => steps.2
  | 0x701C => steps.1
  | 0x7020 => fld 0 8 r.faultCause + fld 8 22 r.faultAddr
  | 0x7024 => fld 0 16 (nth r.rings 0).wraps + fld 16 16 (nth r.rings 1).wraps
  | _ => 0

/-- R523: four bytes from an offset of a string. -/
def bytesWord (l : List Byte) (i : Nat) : Nat := u32 l (4 * i)

def keyReg (s : State) (off : Nat) : Nat :=
  let k := s.key
  match off with
  | 0x7800 => b2n s.ownerKey.isSome + fld 1 1 (b2n k.prev.isSome) + fld 8 8 k.passes.toNat
  | 0x7804 => fld 0 5 (min 24 k.well.maxErrors) + fld 5 5 s.pufMargin + fld 10 1 (b2n k.failed)
  | 0x7808 => k.floor
  | 0x780C => fld 0 1 k.active
  | 0x7C00 => k.rcvLo.toNat
  | 0x7C04 => k.rcvHi.toNat
  | 0x7C08 => k.rcvLen.toNat
  | 0x7C10 => fld 0 3 k.rcvStatus
  | _ =>
    match regIndex 0x7810 4 4 off, regIndex 0x7840 4 8 off with
    | some p, _ => ((List.range 16).map fun i => fld (2 * i) 2 (s.slot (16 * p.1 + i)).state.code).foldl (· + ·) 0
    | _, some p => bytesWord k.meas p.1
    | _, _ => 0

/-! ### PAIR (R557), SWC (R580), FLT (R595) -/

def pairStatus (s : State) : Nat :=
  let p := s.pair
  b2n s.member + fld 1 1 (b2n s.unitB) + fld 2 1 (b2n p.auth) + fld 3 1 (b2n (s.member && s.leaseHere)) + fld 4 3 p.state.code
    + fld 8 3 p.ilk.code + fld 11 1 (b2n p.readbackOk) + fld 12 1 (b2n (nth p.lanes 0).blockLock) + fld 13 1 (b2n (nth p.lanes 1).blockLock)
    + fld 14 1 (b2n p.linkUp) + fld 15 1 (b2n p.doubleFault) + fld 16 3 p.witnessOk.toNat

def pairReg (s : State) (off : Nat) : Nat :=
  let p := s.pair
  match off with
  | 0x8000 => pairStatus s
  | 0x8004 => p.term.toNat
  | 0x8008 => fld 0 16 (min 0xFFFF (ceilDiv (p.expiresAt - s.now) 1000000)) + fld 16 1 (b2n p.holderB) + fld 17 1 (b2n p.held)
  | 0x800C => p.periodCount.toNat % 2 ^ 32
  | 0x8010 => p.periodCount.toNat / 2 ^ 32
  | 0x8014 => fld 0 16 p.mismatches + fld 16 16 p.resyncs
  | 0x8018 => fld 0 16 p.takeovers + fld 16 16 p.handovers
  | 0x801C => fld 0 10 (nth p.lanes 0).latencyNs + fld 16 10 (nth p.lanes 1).latencyNs
  | 0x8040 => p.witBaseLo.toNat
  | 0x8044 => p.witBaseHi.toNat
  | 0x8048 => b2n p.witEnable
  | _ => 0

def swChWord (s : State) (n k : Nat) : Nat :=
  let c := s.swCh n
  match k with
  | 0 => b2n c.commanded + fld 1 1 (b2n c.enabled) + fld 2 1 (b2n c.inrush) + fld 3 1 (b2n c.short) + fld 4 1 (b2n c.latch)
      + fld 5 1 (b2n c.exhausted) + fld 6 1 (b2n c.openLoad) + fld 7 1 (b2n (s.loopOwned n)) + fld 8 4 c.retries + fld 12 4 (s.swProfile n)
  | 4 => fld 0 12 c.code + fld 12 1 (b2n c.fine) + fld 16 16 c.peakDa
  | 8 => fldI 0 16 c.tjDc
  | _ => 0

def swcReg (s : State) (off : Nat) : Nat :=
  match off with
  | 0x8800 => maskOf 12 s.conducts + fld 12 1 (b2n s.sw.vauxLow) + fld 13 1 (b2n s.swFlt) + fld 14 1 (b2n s.sw.frozen)
  | 0x8804 => fld 0 16 s.sw.vauxMv
  | 0x8808 => fld 0 16 s.sw.ignored
  | _ => match regIndex 0x8900 0x10 12 off with
    | some p => swChWord s p.1 p.2
    | none => 0

def fltReg (s : State) (off : Nat) : Nat :=
  let f := s.flt
  match off with
  | 0x9000 => f.frozen.toNat % 2 ^ 32
  | 0x9004 => f.frozen.toNat / 2 ^ 32
  | 0x9008 => f.safeCause.toNat
  | 0x900C => fld 0 6 f.violMaster + fld 8 2 f.violKind + fld 16 16 f.violCount
  | 0x9010 => f.violAddr % 2 ^ 32
  | 0x9014 => f.violAddr / 2 ^ 32 % 2 ^ 32
  | 0x9018 => f.evSeq.toNat
  | 0x901C => fld 0 16 f.evWraps
  | _ => 0

/-! ### BAR0 -/

/-- The 32-bit word that a read of a BAR0 offset returns. -/
def State.reg (s : State) (off : Nat) : Word :=
  let a := off / 4 * 4
  BitVec.ofNat 32 (
    if a < 0x1000 then hifReg s a else if a < 0x2000 then pwrReg s a else if a < 0x2800 then alcReg s a
    else if a < 0x3000 then sppReg s a else if a < 0x3800 then lawReg s a else if a < 0x4000 then plnReg s a
    else if a < 0x4800 then acqReg s a else if a < 0x5000 then thmReg s a else if a < 0x5800 then vehReg s a
    else if a < 0x6000 then canReg s a else if a < 0x6800 then plcReg s a else if a < 0x7000 then metReg s a
    else if a < 0x7800 then recReg s a else if a < 0x8000 then keyReg s a else if a < 0x8800 then pairReg s a
    else if a < 0x9000 then swcReg s a else if a < 0x9800 then fltReg s a else 0)

/-- The bytes of `n` registers from an offset, each word little-endian. -/
def regImage (s : State) (off n : Nat) : List Byte := (List.range n).flatMap fun k => toLE 4 (s.reg (off + 4 * k)).toNat

end Sys2Proof.Machine
end

