-- ==== Sys2Proof/Machine/SafeOps.lean ====
section
/-! DEFINITION. Safe (R86, R586 to R588) and the Safe causes. -/

namespace Sys2Proof.Machine

/-- R86, R587: the actions of entry to Safe, in the order of R273 and R223: injections, paths, sessions (R386), stages and transfers, then the interlock. Switch channels keep their state (R575). -/
def safeActions (s : State) : State :=
  let s1 := forAll (List.range 8) pathSafe (endInjections 3 s)
  let s2 := forAll (List.range 8) (fun o s => endSession o 0x0E false s) s1
  let s3 := forAll ((List.range 32).filter s.stPresent) safeStopStage s2
  idleAllocator (s3.modPwr fun p => { p with
    opState := .safe, powerState := .doze, safeFromOperate := s.pwr.opState == .operate
    ilkOut := false, modFaultLow := true, dozeTimer := false })

/-- R530: AUTH is clear in Safe. -/
def safePair (s : State) : State :=
  s.modPair fun p => { p with
    auth := false, state := if p.state == .active then .hot else p.state, handover := none, readbackOk := false }

/-- R586: a Safe cause sets its bit, and a running unit enters Safe. -/
def enterSafe (bit : Nat) (s : State) : State :=
  let s1 := s.modFlt fun f => { f with
    safeCause := f.safeCause ||| BitVec.ofNat 7 (2 ^ bit), causeAt := f.causeAt.filter (fun c => c.1 != bit) ++ [(bit, s.now)] }
  if s.running then settleVehicles (safePair (safeActions s1)) else s1

/-- R588: every path is IDLE or FAULTED at its safe end. -/
def State.pathsSafe (s : State) : Bool :=
  (List.range 8).all fun o => (s.path o).state == .idle || ((s.path o).state == .faulted && s.faultEnd o)

/-- R141, R170: on entry to Operate the allocator starts anew. -/
def startAllocator (s : State) : State := s.modAlloc fun a => { a with latch := none, periodCount := 0 }

/-- R526, R528: ILK_OUT pulses from now on. -/
def pulsesOn (s : State) : State := s.modPair fun p => { p with readbackOk := true, pulsesAt := s.now }

/-- R575: a standalone module that leaves Safe drives its commanded states again; a member does so when it sets AUTH. -/
def driveOwn (s : State) : State := when (!s.member) driveAll s

/-- The number of the lowest set bit. -/
def lowestBit (w n : Nat) : Nat := ((List.range n).find? fun i => bitOf w i).getD n

/-- R594: a Safe cause that has come at this instant. -/
def State.causeNow (s : State) (bit : Nat) : Bool := s.flt.causeAt.any fun c => c.1 == bit && c.2 == s.now

/-- R588, R594: SAFE_EXIT clears bits 0, 3 and 4, except a cause of the same instant. -/
def clearExitCauses (s : State) : State :=
  let clears := BitVec.ofNat 7 (b2n (!s.causeNow 0) + 8 * b2n (!s.causeNow 3) + 16 * b2n (!s.causeNow 4))
  s.modFlt fun f => { f with safeCause := f.safeCause &&& ~~~clears }

/-- R86, R588: SAFE_EXIT: the unit leaves Safe or the reason it stays is given. -/
def leaveSafe (s : State) : State × Option Nat :=
  let s1 := clearExitCauses s
  let cause := s1.flt.safeCause.toNat
  if cause ≠ 0 then (s1, some (lowestBit cause 7 + 1))
  else if !s1.pathsSafe then (s1, some 8)
  else (driveOwn (settleAuth ((pulsesOn (when s1.pwr.safeFromOperate startAllocator s1)).modPwr fun p => { p with
      opState := if p.safeFromOperate then .operate else .setup
      powerState := .doze, dozeTimer := p.safeFromOperate, dozeAt := s.now, e125Raised := false
      ilkOut := true, modFaultLow := false })), none)

/-! ### The profile lock (R28) -/

/-- R28: the sessions and CONNECTs that waited for the end of the lock, and the lock ends. -/
def endLock (s : State) : State :=
  let waiting := s.prof.waiting
  let s1 := s.modProf fun p => { p with lock := false, change := none, waiting := [], lockLanes := [] }
  let s2 := forAll waiting (fun w s => newTarget w.1 w.2 s) s1
  settleVehicles (forAll (List.range 8) trySessionStart s2)

/-- R28, R308: the lock lasts until the lanes that the change made train have trained, and 250 ms at most. -/
def State.lockDone (s : State) : Bool :=
  s.prof.lock && s.prof.change.isNone
    && (s.prof.lockLanes.all (fun n => (s.lane n).state != .down) || decide (s.prof.lockAt + 250000000 ≤ s.now))

def settleLock (s : State) : State := when s.lockDone endLock s

/-- R586: bit 1 clears while bits 2 to 5 of CLK_LOCK are 1, and bit 2 while no application core is frozen. -/
def clearSafeCauses (s : State) : State :=
  let locked := s.pwr.locked.extractLsb' 2 4 == 0xF#4
  let cores := (List.range 4).any fun c => s.isFrozen (0x10 + c)
  s.modFlt fun f => { f with safeCause :=
    (if cores then f.safeCause else f.safeCause &&& ~~~(4 : BitVec 7)) &&& (if locked then ~~~(2 : BitVec 7) else 0x7F#7) }

/-! ### Frozen masters (R583 to R585) -/

/-- R581: the numbers of the bus masters. -/
def masterExists (m : Nat) : Bool := m ≤ 0x13 || (0x18 ≤ m && m ≤ 0x23)

/-- R584: a session of the vehicle-link engine that its freeze stops. -/
def vehicleMaster : Nat := 0x22

end Sys2Proof.Machine
end

