-- ==== Sys2Proof/Machine/Vehicle.lean ====
section
/-! DEFINITION. Meanings of the vehicle-link commands (R377 to R394), SESSION_AUTHORIZE and SESSION_END. -/

namespace Sys2Proof.Machine

/-- What follows every happening of one outlet's engine. -/
def afterVehicle (o : Nat) (s : State) : State :=
  mirrorSession o (settleVehicle o (settleVehicle o s))

/-- A happening of an outlet's engine, on an outlet with one of the given personalities; a frozen engine does nothing (R584). -/
def vehicleRow (o : Nat) (ps : List Nat) (f : State → State) (s : State) : Host.Outcome State Fault Refusal :=
  live (fun s => if o < 8 && ps.contains (s.personality o) && !s.isFrozen 0x22 then afterVehicle o (f s) else s) s

/-- E56 + o. -/
def linkEvent (o cause : Nat) (payload : List Byte) (s : State) : State := raise (56 + o) cause o payload s

/-! ### Pilot and proximity (R377 to R379) -/

/-- R377: the state that the plateaus in mV show; the low one counts while PWM runs. -/
def pilotClass (pwm : Bool) (hi lo : Int) : Nat :=
  let on := fun (a b : Int) => decide (a ≤ hi ∧ hi ≤ b)
  let low := fun (a b : Int) => !pwm || decide (a ≤ lo ∧ lo ≤ b)
  if on 11000 13000 then 0
  else if on 8000 10000 && low (-13000) (-11000) then 1
  else if on 5000 7000 && low (-13000) (-11000) then 2
  else if on 2000 4000 && low (-13000) (-11000) then 3
  else if on (-1000) 1000 && low (-1000) 1000 then 4
  else 6

/-- R377, R378: the pilot state of an outlet; F while the CK832 drives −12 V. -/
def State.pilotNow (s : State) (o : Nat) (hi lo : Int) : Nat :=
  if (s.ses o).pilotF then 5 else pilotClass ((s.ses o).duty && s.personality o == 1) hi lo

/-- R377, R386: a new pilot state. -/
def pilotEffect (o : Nat) (hi lo : Int) (s : State) : State :=
  let st := s.pilotNow o hi lo
  let s1 := s.modVeh o fun v => { v with pilot := st, highMv := hi, lowMv := lo }
  match st with
  | 6 => endSession o 0x10 true (linkEvent o 8 (toLEi 2 hi) s1)
  | 0 | 4 => if (s1.ses o).state == .ended then s1 else endSessionFast o 2 true s1
  | _ => s1

def execPilotStateChange (outlet : Nat) (highMv lowMv : Int) (s : State) : Host.Outcome State Fault Refusal :=
  vehicleRow outlet [1, 2] (pilotEffect outlet highMv lowMv) s

/-- R379: the class of a PP resistance in Ω: OPEN, PRESENT, LATCHED or SHORT. -/
def ppClassOf (ohm : Nat) : Nat := if 5000 < ohm then 0 else if 1200 ≤ ohm then 1 else if 100 ≤ ohm then 2 else 3

/-- R379, R386. -/
def ppClassEffect (o ohm : Nat) (s : State) : State :=
  s.modVeh o fun v => { v with
    ppClass := ppClassOf ohm, ppOhm := min 0xFFFF ohm, ppBadAt := if v.ppClass == 2 then s.now else v.ppBadAt }

def execPpClassChange (outlet ohm : Nat) (s : State) : Host.Outcome State Fault Refusal :=
  vehicleRow outlet [1, 2] (ppClassEffect outlet ohm) s

/-- R379: PP has not been LATCHED for 10 ms with the contactor closed. -/
def ppFaultEffect (o : Nat) (s : State) : State :=
  let v := s.vehOf o
  when ((s.path o).closed && v.ppClass != 2 && decide (v.ppBadAt + 10000000 ≤ s.now))
    (fun s => stopFast o (some (0x0C, 3)) (linkEvent o 9 (toLE 1 v.ppClass) s)) s

def execPpFault (outlet : Nat) (s : State) : Host.Outcome State Fault Refusal := vehicleRow outlet [2] (ppFaultEffect outlet) s

/-! ### Links (R380 to R382) -/

/-- R386: PLUGGED becomes LINKED over a medium. -/
def linked (o medium : Nat) (s : State) : State :=
  if (s.ses o).state == .plugged then linkEvent o 1 (toLE 1 medium) (s.modSes o fun x => { x with state := .linked }) else s

def execSlacMatched (outlet : Nat) (s : State) : Host.Outcome State Fault Refusal := vehicleRow outlet [1] (linked outlet 1) s

/-- R380: no CM_SLAC_PARAM.REQ within 50 s of the 5 % duty (1), or a failed matching (2). -/
def slacFailedEffect (o detail : Nat) (s : State) : State :=
  if (s.ses o).state == .plugged && (detail != 1 || decide ((s.ses o).pluggedAt + 50000000000 ≤ s.now)) then
    endSession o 7 true (linkEvent o 3 (toLE 1 detail) (s.modSes o fun x => { x with duty := false }))
  else s

def execSlacFailed (outlet detail : Nat) (s : State) : Host.Outcome State Fault Refusal :=
  vehicleRow outlet [1] (slacFailedEffect outlet detail) s

/-- R381: the first valid frame brings the link up. -/
def t1sFrameEffect (o : Nat) (s : State) : State :=
  if s.domainUp 11 then linked o 2 (s.modVeh o fun v => { v with t1sUp := true, t1sAt := s.now }) else s

def execT1sFrameReceive (outlet : Nat) (s : State) : Host.Outcome State Fault Refusal := vehicleRow outlet [2] (t1sFrameEffect outlet) s

/-- R381: 2 s without a valid frame while a session runs. -/
def t1sDownEffect (o : Nat) (s : State) : State :=
  if (s.vehOf o).t1sUp && (s.ses o).state != .idle && decide ((s.vehOf o).t1sAt + 2000000000 ≤ s.now) then
    endSession o 8 true (linkEvent o 2 (toLE 1 2) (s.modVeh o fun v => { v with t1sUp := false, tcpOpen := false }))
  else s

def execT1sLinkDown (outlet : Nat) (s : State) : Host.Outcome State Fault Refusal := vehicleRow outlet [2] (t1sDownEffect outlet) s

/-- R382: a session that serves TCP. -/
def SessState.talks : SessState → Bool
  | .linked | .setup | .authorizing | .preparing | .charging | .ending => true
  | _ => false

/-- R382: one connection at a time; a second one is refused while the first is open. -/
def tcpEffect (o : Nat) (s : State) : State :=
  if !s.engineHere then s
  else
    let served := (s.ses o).state.talks && !(s.vehOf o).tcpOpen
    emit (.tcp o served) (s.modVeh o fun v => { v with tcpOpen := v.tcpOpen || served })

def execTcpConnectRequest (outlet : Nat) (s : State) : Host.Outcome State Fault Refusal := vehicleRow outlet [1, 2] (tcpEffect outlet) s

/-! ### Protocol messages (R375, R386, R387) -/

/-- R375: the TLS versions as the wire numbers them; 0 stands for none. -/
def tls12 : Nat := 0x0303
def tls13 : Nat := 0x0304

/-- R374, R375: the protocol belongs to the personality, with TLS as the rule says. -/
def protocolOk (personality protocol tls : Nat) (pnc anchor : Bool) : Bool :=
  (if personality == 1 then 1 ≤ protocol && protocol ≤ 3 else protocol == 4)
    && (match protocol with | 1 => tls == 0 | 2 => tls == 0 || tls == tls12 | _ => tls == tls13)
    && (!pnc || (anchor && protocol != 1))

/-- R396: a protocol error ends the session. -/
def protocolError (o code : Nat) (s : State) : State := endSession o 0x0A true (linkEvent o 7 (toLE 1 code) s)

/-- R386: LINKED becomes SETUP; what R374 and R375 do not support is a protocol error, whose response code is the standard's. -/
def sessionSetup (o protocol tls : Nat) (pnc : Bool) (s : State) : State :=
  if (s.ses o).state != .linked then s
  else if !protocolOk (s.personality o) protocol tls pnc s.contractAnchor then
    useFree (protocolError o (Config.freeByte s.freeIx 0).toNat s)
  else
    let s1 := when (tls != 0) (linkEvent o 4 (toLE 2 tls)) s
    sesEvent o 2 (toLE 1 protocol) (s1.modVeh o fun v => { v with
      sessions := v.sessions + 1
      ses := { v.ses with state := .setup, protocol := protocol, tls := tls != 0, pnc := pnc } })

/-- R387: the effect of one protocol step on the session and its path. -/
def v2gEffect (o : Nat) (step : V2gStep) (s : State) : State :=
  let ses := s.ses o
  let st := ses.state
  match step with
  | .setup p tls pnc => sessionSetup o p tls pnc s
  | .tlsFailed a => endSession o 0x0F true (linkEvent o 5 (toLE 1 a) s)
  | .authRequest t ident =>
    if st == .setup then sesEvent o 3 (toLE 1 t ++ ident.take 12) (s.modSes o fun x => { x with state := .authorizing, authAt := s.now }) else s
  | .parameters | .weldingDetection => s
  | .cableCheck => if st == .preparing then beginIsolation o s else s
  | .preCharge =>
    if st == .preparing && ses.checked && (!ses.precharging || ses.issuedV != ses.req.vTarget) then
      issueLevel o 3 ses.req.vTarget ses.req.iTarget (s.modSes o fun x => { x with precharging := true })
    else s
  | .powerStart =>
    if st == .preparing && ses.precharging && !ses.delivering then
      issueLevel o 4 ses.req.vTarget ses.req.iTarget (s.modSes o fun x => { x with delivering := true })
    else s
  | .demand => retarget o s
  | .standby => if st == .charging && 3 ≤ ses.protocol then issue o 5 0 0 0 (s.modSes o fun x => { x with standby := true }) else s
  | .resume =>
    if st == .charging && ses.standby then issueLevel o 4 ses.req.vTarget ses.req.iTarget (s.modSes o fun x => { x with standby := false }) else s
  | .stop => endSession o 1 false s
  | .sessionStop => if st == .ending then s.modSes o fun x => { x with closed := true } else endSession o 1 true s
  | .protocolError c => protocolError o c s

/-- R387, R389, R393: a message reaches the engine over the open connection; the engine answers. -/
def v2gMessageEffect (o : Nat) (step : V2gStep) (req : Request) (s : State) : State :=
  let v := s.vehOf o
  if !s.engineHere || !v.tcpOpen || v.ses.state == .idle || v.ses.state == .ended then s
  else answerVehicle o (v2gEffect o step (s.modSes o fun x => { x with req := req }))

def execV2gMessageReceive (outlet : Nat) (step : V2gStep) (req : Request) (s : State) : Host.Outcome State Fault Refusal :=
  vehicleRow outlet [1, 2] (v2gMessageEffect outlet step req) s

/-! ### Authorization and ends (R386, R391) -/

/-- R386, R391, R459: an accepted authorization: limits, SESSION_REF, PREPARING and the transaction start. -/
def authorize (o limitKw energyWh : Nat) (ref : List Byte) (s : State) : State :=
  let s1 := (s.modSes o fun x => { x with state := .preparing, energyLimitWh := energyWh, sessionRef := ref }).modAlcOut o
    fun a => { a with sessionLimit := limitKw }
  match (if s1.leaseHere then engineStart o ref s1 else (s1, none)) with
  | (s2, some _) => endSession o 0x0D false s2
  | (s2, none) => sesEvent o 4 (toLE 4 (s2.chan o).txn) s2

/-- R478: an authorization that comes during an installation waits, in AUTHORIZING, until Caddis is READY. -/
def authorizeOrWait (o limitKw energyWh : Nat) (ref : List Byte) (s : State) : State :=
  if s.caddisBusy then s.modSes o fun x => { x with startWaits := some (limitKw, energyWh, ref) }
  else authorize o limitKw energyWh ref s

/-- R478: Caddis is READY: the waiting authorizations go on. -/
def lateStarts (s : State) : State :=
  forAll (List.range 8) (fun o s =>
    match (s.ses o).startWaits with
    | some w =>
      let s1 := s.modSes o fun x => { x with startWaits := none }
      when ((s.ses o).state == .authorizing) (authorize o w.1 w.2.1 w.2.2) s1
    | none => s) s

/-- R385, R386: the first 0x100 carries a CHADEMO session to PREPARING, since its authorization is recorded. -/
def chademoLinked (o : Nat) (s : State) : State :=
  if (s.ses o).state != .plugged then s
  else
    let s1 := linked o 3 s
    let s2 := sesEvent o 2 (toLE 1 5) (s1.modVeh o fun v => { v with sessions := v.sessions + 1, ses := { v.ses with state := .setup, protocol := 5 } })
    let s3 := sesEvent o 3 (toLE 1 0) (s2.modSes o fun x => { x with state := .authorizing })
    authorizeOrWait o (s3.alcOut o).sessionLimit (s3.ses o).energyLimitWh (s3.ses o).sessionRef s3

/-- R387: the CHAdeMO column. -/
def chademoSteps (o : Nat) (r : ChademoReport) (s : State) : State :=
  let ses := s.ses o
  let v := s.vehOf o
  if r.stop then endSession o 1 true s
  else if ses.state == .preparing && ses.ready && v.permission && !ses.isolating && !ses.noStage then beginIsolation o s
  else if ses.state == .preparing && ses.checked && ses.sig2 && r.contactorClosed && !ses.precharging then
    issueLevel o 3 (s.inletDv o) r.req.iTarget (s.modSes o fun x => { x with precharging := true })
  else if ses.state == .preparing && ses.precharging && r.enabled && !ses.delivering then
    issueLevel o 4 r.req.vTarget r.req.iTarget (s.modSes o fun x => { x with delivering := true })
  else retarget o s

/-- R385, R387. -/
def chademoMessageEffect (o id : Nat) (r : ChademoReport) (s : State) : State :=
  if !s.engineHere || (s.ses o).state == .idle || (s.ses o).state == .ended || id < 0x100 || 0x102 < id then s
  else
    let s0 := s.modVeh o fun v => { v with canAt := s.now }
    let s1 := if id = 0x100 then chademoLinked o s0 else s0
    if id = 0x102 then chademoSteps o r (s1.modSes o fun x => { x with req := r.req, ready := r.ready }) else s1

def execChademoMessageReceive (outlet id : Nat) (report : ChademoReport) (s : State) : Host.Outcome State Fault Refusal :=
  vehicleRow outlet [3] (chademoMessageEffect outlet id report) s

/-- R385: the content of the charger messages is the CHAdeMO standard's; its bytes are free here. -/
def chademoTxEffect (o : Nat) (s : State) : State :=
  if s.leaseHere && (s.ses o).state != .idle && decide ((s.vehOf o).canTxAt + 100000000 ≤ s.now) then
    let bytes := fun k => (List.range 8).map fun b => Config.freeByte s.freeIx (8 * k + b)
    let c := s.chademoCan o
    useFree (emit (.can c 0 0x109 false [] (bytes 1)) (emit (.can c 0 0x108 false [] (bytes 0)) (s.modVeh o fun v => { v with canTxAt := s.now })))
  else s

def execChademoTxTick (outlet : Nat) (s : State) : Host.Outcome State Fault Refusal := vehicleRow outlet [3] (chademoTxEffect outlet) s

/-- R385: 1 for a timeout, 2 for bus-off. -/
def canLost (o detail : Nat) (s : State) : State :=
  if (s.ses o).state.alive then endSessionFast o 8 true (linkEvent o 0x0A (toLE 1 detail) s) else s

/-- R385: 1 s without a vehicle message. -/
def canLossEffect (o : Nat) (s : State) : State :=
  when (decide (max (s.vehOf o).canAt (s.ses o).pluggedAt + 1000000000 ≤ s.now)) (canLost o 1) s

def execCanLoss (outlet : Nat) (s : State) : Host.Outcome State Fault Refusal := vehicleRow outlet [3] (canLossEffect outlet) s

/-- R386: 55 s without an answer. -/
def authTimeoutEffect (o : Nat) (s : State) : State :=
  when ((s.ses o).state == .authorizing && (s.ses o).startWaits.isNone && decide ((s.ses o).authAt + 55000000000 ≤ s.now)) (endSession o 6 false) s

def execAuthTimeout (outlet : Nat) (s : State) : Host.Outcome State Fault Refusal := vehicleRow outlet [1, 2] (authTimeoutEffect outlet) s

/-- R386: 2 s after signal 1 was released. -/
def execChademoUnplugTimer (outlet : Nat) (s : State) : Host.Outcome State Fault Refusal :=
  vehicleRow outlet [3] (fun s =>
    let x := s.ses outlet
    if x.state == .ended && decide (x.sig1At + 2000000000 ≤ s.now) then sessionUnplugged outlet s else s) s

/-- R392. -/
def execMsgTimeout (outlet code : Nat) (s : State) : Host.Outcome State Fault Refusal :=
  vehicleRow outlet [1, 2, 3] (fun s =>
    let st := (s.ses outlet).state
    if st.alive || st == .ending then endSession outlet 9 true (linkEvent outlet 6 (toLE 1 code) s) else s) s

/-- R390. -/
def execStarved (outlet : Nat) (s : State) : Host.Outcome State Fault Refusal :=
  vehicleRow outlet [1, 2, 3] (fun s =>
    match (s.ses outlet).starvedSince with
    | some t => if t + 300000000000 ≤ s.now then endSession outlet 0x0B false s else s
    | none => s) s

/-- R390: a CONNECT that failed with NO_STAGE is issued again after 5 s. -/
def execNoStageRetry (outlet : Nat) (s : State) : Host.Outcome State Fault Refusal :=
  vehicleRow outlet [1, 2, 3] (fun s =>
    let x := s.ses outlet
    if x.state == .preparing && x.noStage && (s.path outlet).state == .idle && decide (x.noStageAt + 5000000000 ≤ s.now) then beginIsolation outlet s else s) s

/-- R391: the transaction energy of the read window, in mWh. -/
def State.windowEnergy (s : State) (o : Nat) : Nat :=
  let at_ := fun off => match s.met.shown.find? fun w => w.1 == off with | some w => w.2.toNat | none => 0
  at_ (0x691C + 0x40 * o) + 2 ^ 32 * at_ (0x6920 + 0x40 * o)

def execEnergyLimitPoll (outlet : Nat) (s : State) : Host.Outcome State Fault Refusal :=
  vehicleRow outlet [1, 2, 3] (fun s =>
    let x := s.ses outlet
    if x.energyLimitWh != 0 && (x.state == .preparing || x.state == .charging) && (s.chan outlet).isOpen
      && decide (x.energyLimitWh * 1000 ≤ s.windowEnergy outlet) then endSession outlet 0x0C false s else s) s

/-- R387: permission high starts the isolation test once 0x102 has reported ready; low stops the session. -/
def permissionEffect (o : Nat) (high : Bool) (s : State) : State :=
  let s1 := s.modVeh o fun v => { v with permission := high }
  let x := s1.ses o
  if !s1.engineHere then s1
  else if high then (if x.state == .preparing && x.ready && !x.noStage then beginIsolation o s1 else s1)
  else if x.state == .preparing || x.state == .charging then endSession o 1 true s1 else s1

def execChargePermissionChange (outlet : Nat) (high : Bool) (s : State) : Host.Outcome State Fault Refusal :=
  vehicleRow outlet [3] (permissionEffect outlet high) s

/-! ### Descriptors -/

def sessionInfo (code : Nat) (fields : List (Nat × Nat)) : OpInfo :=
  { code := code, cls := some 1, setup := false, safe := false, acc := .token
    rsvOk := fun d => restZero d fields, target := kindOutlet
    range := fun _ d => code != 0x20 || d.b 8 ≤ 1 }

/-- R386. -/
def sessionAuthorizeOp (d : Desc) (s : State) : Answer :=
  let o := d.ix
  let accept := d.b 8 == 1
  let st := (s.ses o).state
  if st == .authorizing then
    answer stOk 0 (afterVehicle o (if accept then authorizeOrWait o (d.h 10) (d.w 12) (bytesAt d.body 8 16) s else endSession o 5 false s))
  else if st == .idle && s.personality o == 3 then
    if accept then
      answer stOk 0 (afterVehicle o ((s.modSes o fun x => { x with
        authorized := true, energyLimitWh := d.w 12, sessionRef := bytesAt d.body 8 16 }).modAlcOut o fun a => { a with sessionLimit := d.h 10 }))
    else answer stOk 0 s
  else answer stState 0 s

def execSessionAuthorize (d : Desc) (s : State) : Host.Outcome State Fault Refusal :=
  live (runDesc (sessionInfo 0x20 [(8, 1), (10, 22)]) sessionAuthorizeOp d) s

/-- R386. -/
def sessionEndOp (d : Desc) (s : State) : Answer :=
  if (s.ses d.ix).state == .idle then answer stState 0 s
  else answer stOk 0 (afterVehicle d.ix (endSession d.ix 3 false s))

def execSessionEnd (d : Desc) (s : State) : Host.Outcome State Fault Refusal :=
  live (runDesc (sessionInfo 0x21 [(8, 1)]) sessionEndOp d) s

end Sys2Proof.Machine
end

