-- ==== Sys2Proof/Machine/Allocator.lean ====
section
/-! DEFINITION. The allocator's events (R139 to R169): boundaries, caps, stage transfers, crosspoint commands and feedback; and GRID_CAP, OUTLET_POLICY and the halts and resumes of outlets and stages (R214 to R216, R616). -/

namespace Sys2Proof.Machine

/-! ### Boundaries (R139 to R141) -/

/-- R541: the words of an allocation that the digest of a period covers. -/
def publishedWords (s : State) : List Byte :=
  (List.range 8).flatMap (fun o => toLE 4 (alcOutWord s o 0) ++ toLE 4 (alcOutWord s o 4))
    ++ s.alloc.stgShown.flatMap fun w => toLE 4 w.toNat

/-- R139: the allocator's part of a boundary, in Operate only (R141). -/
def allocateRow (overrun : Bool) (s : State) : State :=
  if s.pwr.opState != .operate then s
  else
    let published := s.alloc.latch.isSome && !overrun
    let s1 := allocate overrun s
    let newly := (List.range 32).any fun i => (s1.stage i).outEn && !(s.stage i).outEn
    when newly acqEnergised (when published (digestAdd (publishedWords s1)) s1)

/-- R138: an allocation boundary: the allocation, the injections that wait for it (R262), and what the outlets' engines make of it. -/
def allocationBoundaryEffect (overrun : Bool) (s : State) : State :=
  if !s.atAllocBoundary then s
  else settleVehicles (updateLoops (forAll (List.range 8) noteStarved (injectBoundary (allocateRow overrun s))))

def execAllocationBoundary (overrun : Bool) (s : State) : Host.Outcome State Fault Refusal :=
  live (allocationBoundaryEffect overrun) s

/-- R142, R144: a GPIO contact stands at a new level after its debounce; the fast cap follows the contact that FAST_CAP_GPIO names. -/
def contactLevel (contact : Nat) (level : Bool) (s : State) : State :=
  s.modAlloc fun a => { a with gpio := a.gpio &&& ~~~(BitVec.ofNat 24 (2 ^ contact)) ||| BitVec.ofNat 24 (b2n level * 2 ^ contact) }

def execFastCapChange (contact : Nat) (level : Bool) (s : State) : Host.Outcome State Fault Refusal :=
  ctl (contactLevel contact level) s

/-- R143: HOLD_MS lapses. -/
def gridCapHoldEffect (s : State) : State :=
  s.modAlloc fun a => { a with hostCap := match a.hostCap with
    | some (kw, true) => if a.holdUntil ≤ s.now then none else some (kw, true)
    | c => c }

def execGridCapHoldExpiry (s : State) : Host.Outcome State Fault Refusal := live gridCapHoldEffect s

/-- R158: the outlet's need has stayed lower for RELEASE_HOLD_MS. -/
def releaseHoldEffect (o : Nat) (s : State) : State :=
  s.modAlcOut o fun a => { a with surplusOver := match a.surplusAt with
    | some t => decide (t + s.releaseHoldMs * 1000000 ≤ s.now)
    | none => false }

def execReleaseHoldExpiry (outlet : Nat) (s : State) : Host.Outcome State Fault Refusal := live (releaseHoldEffect outlet) s

/-! ### Transfers (R165, R166) -/

/-- An event of one stage. -/
def stageRow (i : Nat) (f : State → State) (s : State) : Host.Outcome State Fault Refusal :=
  live (fun s => if i < 32 then restPower (settleVehicles (f s)) else s) s

/-- The outlet that a transfer leaves, 8 when it leaves none. -/
def Stage.leaves (st : Stage) : Nat := st.src.getD 8

def transferRampDoneEffect (i : Nat) (s : State) : State :=
  let st := s.stage i
  if st.xfer == .rampDown && s.lowCurrent i && s.stepsMayBegin then
    mirrorTransfer i (openCoils i (coilBit st.leaves) (disableOut i (stepTo .opening i s)))
  else s

def execTransferRampDone (stage : Nat) (s : State) : Host.Outcome State Fault Refusal := stageRow stage (transferRampDoneEffect stage) s

/-- The stage has been in a transfer state for a time in ms. -/
def State.inStepFor (s : State) (x : Xfer) (i ms : Nat) : Bool :=
  (s.stage i).xfer == x && decide ((s.stage i).stepAt + ms * 1000000 ≤ s.now)

/-- The time limit of one transfer state ends the transfer in BLOCKED. -/
def failIn (x : Xfer) (i ms cause : Nat) (s : State) : State := if s.inStepFor x i ms then failXfer i cause s else s

def execTransferRampTimeout (stage : Nat) (s : State) : Host.Outcome State Fault Refusal := stageRow stage (fun s => failIn .rampDown stage s.tDownMs 1 s) s

/-- RELEASE ends here; MOVE goes on to track toward its destination. -/
def xpOpenVerifiedEffect (i : Nat) (s : State) : State :=
  let st := s.stage i
  if st.xfer != .opening || st.fb.getLsbD st.leaves || st.coils.getLsbD st.leaves then s
  else if st.order == .release then endUnassigned i (raiseXfer 35 3 i s)
  else if s.stepsMayBegin then
    acqEnergised (mirrorTransfer i (startTracking i (s.modStage i fun st => { st with outlet := none })))
  else s

def execXpOpenVerified (stage : Nat) (s : State) : Host.Outcome State Fault Refusal := stageRow stage (xpOpenVerifiedEffect stage) s
def execXpOpenTimeout (stage : Nat) (s : State) : Host.Outcome State Fault Refusal := stageRow stage (fun s => failIn .opening stage (s.xpOperateMs + 1) 2 s) s

/-- R165, R166: the output has stayed within 5 V of the reference for 1 ms, and the current is 2 A or less. -/
def trackingDoneEffect (i : Nat) (s : State) : State :=
  match (s.stage i).dest with
  | some o =>
    if (s.stage i).xfer == .tracking && s.tracked i && heldFor (s.stage i).nearAt 1000000 s.now && s.lowCurrent i && s.stepsMayBegin then
      mirrorTransfer i (closeCoil i o (stepTo .closing i s))
    else s
  | none => s

def execTrackingDone (stage : Nat) (s : State) : Host.Outcome State Fault Refusal := stageRow stage (trackingDoneEffect stage) s

/-- R166: a second consecutive TRACK_TIMEOUT blocks the stage. -/
def trackTimeoutEffect (i : Nat) (s : State) : State :=
  let st := s.stage i
  if !s.inStepFor .tracking i s.trackTimeoutMs then s
  else
    let s1 := (disableOut i s).modStage i fun st => { st with trackTimeouts := st.trackTimeouts + 1 }
    if 1 ≤ st.trackTimeouts then failXfer i 3 s1 else endUnassigned i (raiseXfer 36 3 i s1)

def execTrackTimeout (stage : Nat) (s : State) : Host.Outcome State Fault Refusal := stageRow stage (trackTimeoutEffect stage) s

/-- The stage joins its destination and ramps up to its share (R203). -/
def xpCloseVerifiedEffect (i : Nat) (s : State) : State :=
  let st := s.stage i
  match st.dest with
  | some o =>
    if st.xfer == .closing && st.coils.getLsbD o && st.fb.getLsbD o then
      let s1 := raiseXfer 35 (if st.order == .move then 1 else 2) i s
      recomputeShares o (mirrorTransfer i (s1.modStage i fun st => { st with
        xfer := .steady, outlet := some o, dest := none, src := none, lastEnd := some s.now, trackTimeouts := 0
        ramping := true, rampUp := true, rampFrom := 0, rampAt := s.now }))
    else s
  | none => s

def execXpCloseVerified (stage : Nat) (s : State) : Host.Outcome State Fault Refusal := stageRow stage (xpCloseVerifiedEffect stage) s
def execXpCloseTimeout (stage : Nat) (s : State) : Host.Outcome State Fault Refusal := stageRow stage (fun s => failIn .closing stage (s.xpOperateMs + 1) 4 s) s

/-- R166: the transfer timer reaches 40 ms. -/
def transferTimeoutEffect (i : Nat) (s : State) : State :=
  if (s.stage i).inTransfer && decide ((s.stage i).xferAt + 40000000 ≤ s.now) then failXfer i 5 s else s

def execTransferTimeout (stage : Nat) (s : State) : Host.Outcome State Fault Refusal := stageRow stage (transferTimeoutEffect stage) s

/-! ### Crosspoint commands and feedback (R19, R21) -/

/-- R19: the open commands that waited take effect at 2 A or less; a stage that ramped down for a halt is then disabled. -/
def xpReleaseEffect (i : Nat) (s : State) : State :=
  let st := s.stage i
  if st.openWait == 0 || !s.lowCurrent i then s
  else
    let s1 := when (st.ramping && !st.rampUp && !st.inTransfer) (disableOut i) s
    settleStage i (openCoils i st.openWait s1)

def execXpCommandRelease (stage : Nat) (s : State) : Host.Outcome State Fault Refusal := stageRow stage (xpReleaseEffect stage) s

/-- R172: a command outside a transfer has waited beyond 40 ms. -/
def xpCurrentEffect (i : Nat) (s : State) : State :=
  let st := s.stage i
  if st.openWait == 0 || st.inTransfer || st.waitRaised || decide (s.now ≤ st.waitAt + 40000000) then s
  else
    let o := noneTo 0xFF ((List.range 8).find? fun k => st.openWait.getLsbD k)
    raise 36 8 i (toLE 1 o ++ [0xFF] ++ toLE 4 ((s.now - st.waitAt) / 1000)) (s.modStage i fun st => { st with waitRaised := true })

def execXpCurrent (stage : Nat) (s : State) : Host.Outcome State Fault Refusal := stageRow stage (xpCurrentEffect stage) s

def execFeedbackMismatch (stage : Nat) (s : State) : Host.Outcome State Fault Refusal := stageRow stage (checkFeedback stage) s

/-! ### GRID_CAP and OUTLET_POLICY (R142, R143) -/

def gridCapInfo : OpInfo :=
  { code := 0x06, cls := some 0, setup := false, acc := .authority
    rsvOk := fun d => restZero d [(8, 4), (12, 4)], target := kindNone, range := fun _ d => d.w 8 ≤ 100000 }

/-- R143: RESULT is the effective cap at execution. -/
def gridCapOp (d : Desc) (s : State) : Answer :=
  let s1 := s.modAlloc fun a => { a with hostCap := some (d.w 8, d.w 12 != 0), holdUntil := s.now + d.w 12 * 1000000 }
  answer stOk (effectiveCap s1).1 s1

def execGridCap (d : Desc) (s : State) : Host.Outcome State Fault Refusal := live (runDesc gridCapInfo gridCapOp d) s

def outletPolicyInfo : OpInfo :=
  { code := 0x22, cls := some 1, setup := false, safe := false, acc := .token
    rsvOk := fun d => restZero d [(8, 4)], target := kindOutlet
    range := fun _ d => d.b 8 ≤ 3 && 1 ≤ d.b 9 && d.h 10 ≤ 3750 }

def outletPolicyOp (d : Desc) (s : State) : Answer :=
  answer stOk 0 (s.modAlcOut d.ix fun a => { a with policy := some (d.b 8, d.b 9, d.h 10) })

def execOutletPolicy (d : Desc) (s : State) : Host.Outcome State Fault Refusal := live (runDesc outletPolicyInfo outletPolicyOp d) s

/-! ### Halts and resumes (R214 to R216, R616) -/

def haltInfo (code : Nat) (stage : Bool) : OpInfo :=
  { code := code, cls := some 0, setup := false, acc := .authority
    rsvOk := fun d => restZero d [(8, 2)], target := if stage then kindStage else kindOutlet, range := fun _ d => d.b 8 ≤ 1 }

/-- The path has reached its safe end (R191). -/
def State.pathSafeEnd (s : State) (o : Nat) : Bool :=
  (s.path o).state == .idle || ((s.path o).state == .faulted && s.faultEnd o)

/-- R214, R216: OUTLET_HALT stops the outlet in its mode, answers a held CONNECT, and aborts the transfers toward it. -/
def outletHaltOp (d : Desc) (s : State) : Answer :=
  let o := d.ix
  let fast := d.b 8 == 1
  let s1 := when (s.path o).heldConnect (nakOpen o 7 0) s
  let s2 := s1.modPath o fun p => { p with halted := true, haltReason := d.b 9, resumeDeferred := false }
  answer stOk 0 (settleVehicles (abortToward o fast (stopPath o fast (some (0x0C, 1)) s2)))

def execOutletHalt (d : Desc) (s : State) : Host.Outcome State Fault Refusal := live (runDesc (haltInfo 0x07 false) outletHaltOp d) s

def resumeInfo (code : Nat) (stage : Bool) : OpInfo :=
  { code := code, cls := some 0, setup := false, safe := false, acc := .authority
    rsvOk := fun d => restZero d [], target := if stage then kindStage else kindOutlet }

/-- R545: of the halts and resumes of a target that wait for their effect tick, the last is the halt. -/
def State.haltWaits (s : State) (halt ix : Nat) : Bool :=
  match s.pair.effects.reverse.find? fun e => e.2.ix == ix && (e.2.opcode.toNat == halt || e.2.opcode.toNat == halt + 1) with
  | some e => e.2.opcode.toNat == halt
  | none => false

/-- R215: the halt clears at once, or at the safe end. -/
def outletResumeOp (d : Desc) (s : State) : Answer :=
  let o := d.ix
  if !(s.path o).halted && !s.haltWaits 7 o then answer stOk 0 s
  else if s.pathSafeEnd o then answer stOk 0 (s.modPath o fun p => { p with halted := false, resumeDeferred := false })
  else answer stDeferred 0 (s.modPath o fun p => { p with resumeDeferred := true })

def execOutletResume (d : Desc) (s : State) : Host.Outcome State Fault Refusal := live (runDesc (resumeInfo 0x08 false) outletResumeOp d) s

/-- R214, R166: STAGE_HALT stops the stage in its mode and makes it unavailable; a transfer aborts. -/
def stageHaltOp (d : Desc) (s : State) : Answer :=
  let i := d.ix
  let fast := d.b 8 == 1
  let st := s.stage i
  let s1 := s.modStage i fun st => { st with halted := true, haltSeen := true, resumeDeferred := false }
  answer stOk 0 (settleVehicles (
    if st.inTransfer then abortHalt i fast s1
    else if st.xfer == .blocked then s1
    else afterStageLoss st.outlet (haltStage i fast s1)))

def execStageHalt (d : Desc) (s : State) : Host.Outcome State Fault Refusal := live (runDesc (haltInfo 0x09 true) stageHaltOp d) s

/-- R616. -/
def stageResumeOp (d : Desc) (s : State) : Answer :=
  let i := d.ix
  if s.stageHot i then answer stState 0 s
  else if !(s.stage i).stopped && !s.haltWaits 9 i then answer stOk 0 s
  else if s.stageSafeEnd i then answer stOk 0 (takeResume i s)
  else answer stDeferred 0 (s.modStage i fun st => { st with resumeDeferred := true })

def execStageResume (d : Desc) (s : State) : Host.Outcome State Fault Refusal := live (runDesc (resumeInfo 0x0A true) stageResumeOp d) s

/-- R616: a deferred resume takes effect when every condition holds. -/
def execStageResumeTakeEffect (stage : Nat) (s : State) : Host.Outcome State Fault Refusal :=
  stageRow stage (fun s =>
    if (s.stage stage).resumeDeferred && (s.stage stage).stopped && s.stageSafeEnd stage then takeResume stage s else s) s

end Sys2Proof.Machine
end

