-- ==== Sys2Proof/Machine/HostOps.lean ====
section
/-! DEFINITION. Shared operations of the host interface: rings starting and stopping (R115, R128), the doorbell block (R107, R110, R114, R116), the internal event queue (R114), posted receive buffers (R102) and the PCIe reset (R136). -/

namespace Sys2Proof.Machine

/-! ### Rings (R115) -/

/-- R115, R127: a ring becomes Enabled from Disabled: empty, with sequence 0 and a full bucket. -/
def enableRing (now : Nat) (q : Sq) : Sq :=
  { q with
    state := .enabled, head := {}, tail := {}, expSeq := 0, hold := none, claim := none, bucket := q.burst * million, filledAt := now }

/-- R115: a ring becomes Disabled; it is disarmed and waits for no tag. An admitted descriptor that waits for its BARRIER runs on. -/
def disableRing (q : Sq) : Sq := { q with state := .disabled, hold := none, claim := none }

/-- R112: a completion ring starts at entry 0 with PHASE 1. -/
def restartCq (c : Cq) : Cq := { c with index := 0, phase := true }

/-- R128: C0_TAGS. -/
def c0TagsOf (l : List Sq) : Nat :=
  ((l.take 4).map fun q => if q.enable then q.burst + ceilDiv (q.rate * 16) 1000 else 0).foldl (· + ·) 0

/-- R115, R128, R136: RINGS_GO starts every enabled ring, computes C0_TAGS and closes the reopened registers. -/
def startRings (s : State) : State :=
  s.modHost fun h => { h with
    ringsRunning := true, hifOpen := false, c0Tags := c0TagsOf h.sq, fetching := false, failRun := false
    sq := h.sq.map fun q => if q.enable then enableRing s.now q else disableRing q
    cq := h.cq.map restartCq
    evq := { h.evq with started := h.evq.enable, tail := 0, head := 0, sinceHead := 0, badRun := false, unsignalled := false } }

/-- Some C0 ring is Armed. -/
def State.anyArmed (s : State) : Bool := (s.host.sq.take 4).any fun q => q.state == .armed

/-! ### The doorbell block (R107) -/

def doorbellAddr (h : HostIf) : Nat := h.dbBaseLo.toNat + 2 ^ 32 * h.dbBaseHi.toNat

/-- R107: SQn_TAIL of a block: the position, and whether its reserved bits are 0. -/
def tailOf (block : List Byte) (n : Nat) : RingPos × Bool :=
  let w := u16 block (2 * n)
  ({ index := bits w 0 12, wrap := bitOf w 12 }, w < 2 ^ 13)

/-- R108: entries from head to tail, with INDEX and WRAP together. -/
def ringDistance (size : Nat) (head tail : RingPos) : Nat := (tail.lin size + 2 * size - head.lin size) % (2 * size)

/-- R116: the tail lies at most the ring size beyond the head. -/
def tailOk (q : Sq) (t : RingPos × Bool) : Bool :=
  t.2 && decide (t.1.index < ringSize q) && decide (ringDistance (ringSize q) q.head t.1 ≤ ringSize q)

/-- R97, R109: the reads of the descriptors from one position to another, at most 8 each. -/
def descReads (base size fuel : Nat) (p q : RingPos) (s : State) : State :=
  match fuel with
  | 0 => s
  | fuel + 1 =>
    if p == q then s
    else
      let room := if p.wrap == q.wrap then q.index - p.index else size - p.index
      let n := min 8 room
      let p' : RingPos := if p.index + n < size then { p with index := p.index + n } else { index := 0, wrap := !p.wrap }
      descReads base size fuel p' q (hostReads (base + 64 * p.index) (64 * n) s)

/-- R109, R116: one ring takes its tail and reads the descriptors up to it; a frozen fetcher fetches nothing. -/
def takeTail (block : List Byte) (n : Nat) (s : State) : State :=
  let q := s.sq n
  if !(q.state == .enabled || q.state == .armed) || s.isFrozen n then s
  else if tailOk q (tailOf block n) then
    let t := (tailOf block n).1
    let more := decide (ringDistance (ringSize q) q.head q.tail < ringDistance (ringSize q) q.head t)
    when more (descReads (q.baseLo.toNat + 2 ^ 32 * q.baseHi.toNat) (ringSize q) (ringSize q) q.tail t)
      (s.modSq n fun q => { q with tail := t })
  else ringError n 2 s

/-- R114: EVQ_HEAD of a block. -/
def takeEvHead (block : List Byte) (s : State) : State :=
  let q := s.host.evq
  let w := u32 block 32
  let pos := bits w 0 16 + (if bitOf w 16 then q.size else 0)
  let dist := (pos + 2 * q.size - q.head) % (2 * q.size)
  if !q.started then s
  else if w < 2 ^ 17 ∧ bits w 0 16 < q.size ∧ dist ≤ q.sinceHead then
    s.modEvq fun q => { q with head := pos, sinceHead := q.sinceHead - dist, badRun := false }
  else
    let s1 := s.modEvq fun q => { q with badRun := true }
    if q.badRun then s1 else raise 113 4 0xFF (toLE 4 w) s1

/-- R110, R116: a doorbell block has arrived. -/
def takeDoorbell (block : List Byte) (s : State) : State :=
  let s1 := s.modHost fun h => { h with fetching := false, failRun := false }
  forAll (List.range 16) (takeTail block) (takeEvHead block s1)

/-- R110: a fetch has failed (1 ERROR, 2 TIMEOUT): E116 once for each run of failures. R97: a completion that does not come sets its bit of Advanced Error Reporting (PRESUMED: bit 14 of the uncorrectable error status, as the PCIe specification has it). -/
def fetchFailed (how : Nat) (s : State) : State :=
  let s1 := s.modHost fun h => { h with
    fetching := false, failRun := true, aer := if how = 2 then h.aer ||| 0x4000 else h.aer }
  if s.host.failRun then s1 else raise 116 1 0xFF (toLE 1 how) s1

/-- R94: some tail of the block differs from the one fetched last. -/
def tailsChanged (block : List Byte) (s : State) : Bool :=
  (List.range 16).any fun n =>
    let q := s.sq n
    (q.state == .enabled || q.state == .armed) && (tailOf block n).1 != q.tail

/-! ### The internal event queue (R114) -/

/-- Write the oldest held record. -/
def drainOne (s : State) : State :=
  match s.host.evq.heldRecs with
  | [] => s
  | e :: rest => signalEvent (bitOf (u8 e 4) 7) (writeEvent e (s.modEvq fun q => { q with heldRecs := rest }))

/-- R114: when space returns after a loss, E113 EVQ_OVERFLOW with the count of the episode is written first. -/
def writeOverflow (s : State) : State :=
  if s.host.evq.lostNow = 0 then s
  else
    let e := eventRecord s { src := 113, cause := 3, inst := 0xFF, payload := toLE 4 s.host.evq.lostNow, at_ := s.now }
    signalEvent false (writeEvent e ((nextEvSeq s).modEvq fun q => { q with lostNow := 0 }))

/-- Write held records, oldest first, while the ring can take them. -/
def drainHeld : Nat → State → State
  | 0, s => s
  | n + 1, s => if s.host.evq.canTake then drainHeld n (drainOne s) else s

def drainEvents (s : State) : State := if s.host.evq.canTake then drainHeld 256 (writeOverflow s) else s

/-! ### Operations in flight -/

/-- End the oldest operation in flight that `p` selects. -/
def endOldest (p : OpKind → Bool) (status result : Nat) (s : State) : State :=
  match s.host.inflight.find? fun i => p i.op with
  | none => s
  | some i =>
    let s1 := s.modHost fun h => { h with inflight := h.inflight.eraseP fun i => p i.op }
    if i.discard then s1 else complete i.ring i.tag i.seq i.silent i.startedAt status result s1

def isReceive (port : Nat) : OpKind → Bool
  | .ethReceive p _ _ => p == port
  | _ => false

/-- R102: receive buffers posted on a port. -/
def State.posted (s : State) (port : Nat) : Nat := (s.host.inflight.filter fun i => isReceive port i.op).length

def State.modEth (n : Nat) (f : EthPort → EthPort) (s : State) : State := s.modHost fun h => { h with eth := upd h.eth n f }

/-! ### The PCIe reset (R136) -/

/-- R136, R413, R441: the registers of a receive ring return to their reset values. -/
def resetRx (_ : RxRing) : RxRing := {}

/-- R136: a submission ring through a PCIe reset: its registers and state go; what it has in flight and the refusals that no E112 has reported stay (DEDUCED). -/
def resetSq (q : Sq) : Sq := { waiting := q.waiting, refusals := q.refusals, reportedAt := q.reportedAt }

/-- R136: what a PCIe reset does to the host interface. The tag range, the identity, Ethernet, PTP, the lost count, the link and the MSI-X table stay. -/
def resetHostRings (s : State) : State :=
  let s1 := s.modHost fun h => { h with
    ringsRunning := false, hifOpen := true, dbBaseLo := 0, dbBaseHi := 0, fetching := false, failRun := false
    endpointReady := false, perstAt := s.now, maxRead := 512, aer := 0, aspmL1 := false
    evq := { lost := h.evq.lost, lostNow := h.evq.lostNow, heldRecs := h.evq.heldRecs }
    sq := h.sq.map resetSq
    cq := List.replicate 16 {}
    inflight := h.inflight.map fun i => { i with discard := true } }
  let s2 := { s1 with can := s1.can.map fun (c : CanCtl) => { c with rx := resetRx c.rx } }
  s2.modPlc fun p => { p with rx := resetRx p.rx }

end Sys2Proof.Machine
end

