-- ==== Sys2Proof/Machine/Snapshot.lean ====
section
/-! DEFINITION. SNAPSHOT (R124): the record of an outlet, stage or lane, captured at one control period boundary. -/

namespace Sys2Proof.Machine

/-- R124: LEN of a record. -/
def snapLen (kind : Nat) : Nat := match kind with | 1 => 144 | 2 => 72 | _ => 416

/-- R124: the words of a register group read by a word function, each little-endian. -/
def wordImage (w : Nat → Nat) (n : Nat) : List Byte := (List.range n).flatMap fun k => toLE 4 (w (4 * k))

/-- R124: the body of an outlet. -/
def snapOutlet (s : State) (o : Nat) : List Byte :=
  wordImage (sppOutWord s o) 8 ++ wordImage (alcOutWord s o) 3 ++ zeros 4 ++ wordImage (vehOutWord s o) 7 ++ zeros 4
    ++ padTo 28 (match (s.path o).tgt with | some t => t.bytes | none => []) ++ zeros 4

/-- R124: the body of a stage. -/
def snapStage (s : State) (i : Nat) : List Byte :=
  let st := s.stage i
  let word := fun h : Half => toLE 2 h.toNat
  toLE 4 (nth s.alloc.stgShown i).toNat ++ toLE 4 (sppStgWord s i)
    ++ [3, 4, 5, 6].flatMap (fun k => word (s.signal (sigId k i)))
    ++ (List.range 4).flatMap (fun k => if k < s.stPhases i then word (s.signal (sigId 1 (4 * i + k))) else word 0x8000)
    ++ (List.range 4).flatMap (fun k => word (s.output (sigId 0x20 (4 * i + k))))
    ++ toLE 4 (if st.inTransfer then (s.now - st.xferAt) / 1000 else 0) ++ toLE 2 (s.stageMode i) ++ zeros 2

/-- R124: the body of a lane. -/
def snapLane (s : State) (n : Nat) : List Byte :=
  let l := s.lane n
  let blocks := fun (b : List Block) k => (List.range k).flatMap fun j => toLE 8 (b.getD j 0).toNat
  wordImage (plnWord s n) 7 ++ zeros 4 ++ blocks l.lastDown 11 ++ blocks l.lastUp 33

/-- R124: the record captured now. -/
def snapRecord (s : State) (kind index : Nat) : List Byte :=
  [0x43, 0x4B, 0x53, 0x4E] ++ toLE 2 1 ++ toLE 2 (snapLen kind) ++ toLE 1 kind ++ toLE 1 index ++ toLE 1 s.deviceAddr ++ zeros 1
    ++ toLE 2 s.lanes.q.toNat ++ zeros 2 ++ toLE 8 s.lanes.boundary ++ toLE 4 s.alloc.periodCount.toNat ++ zeros 4
    ++ (match kind with | 1 => snapOutlet s index | 2 => snapStage s index | _ => snapLane s index)

/-- R124: at a boundary every waiting snapshot is captured, written and completed. -/
def completeSnapshots (s : State) : State :=
  forAll s.host.inflight (fun f t =>
    match f.op with
    | .snapshot k i a _ => endOps (· == f.op) stOk (snapLen k) (when (!f.discard) (writeBuffer a (snapRecord s k i)) t)
    | _ => t) s

def snapshotInfo : OpInfo :=
  { code := 0x0B, cls := some 0
    rsvOk := fun d => restZero d [(8, 8), (16, 2)]
    target := fun s d => kindOutlet s d || kindStage s d || kindBelow 3 16 s d
    range := fun _ d => snapLen d.kind.toNat ≤ d.h 16 && d.h 16 ≤ 4096 && d.q 8 % 8 == 0
    rangeResult := fun d => if d.h 16 < snapLen d.kind.toNat then snapLen d.kind.toNat else 0 }

/-- R124: the record follows at the next control period boundary. -/
def snapshotOp (d : Desc) (s : State) : Answer := (startOp d (.snapshot d.kind.toNat d.ix (d.q 8) (d.h 16)) s, none)

def execSnapshot (d : Desc) (s : State) : Host.Outcome State Fault Refusal := live (runDesc snapshotInfo snapshotOp d) s

end Sys2Proof.Machine
end

