-- ==== Sys2Proof/Machine/Thermal.lean ====
section
/-! DEFINITION. Meanings of the thermal commands (R344 to R363), with the stop actions of R355. The halt of R364 stands with the resets. -/

namespace Sys2Proof.Machine

/-- R344: at a millisecond boundary of device time; the UPLINKs of that millisecond have been latched. -/
def execLossTick (s : State) : Host.Outcome State Fault Refusal :=
  live (fun s => forAll (List.range s.thm.objs.length) lossTickObj s) s

/-- R254, R355: an outlet stops FAST without a halt, with NAK STOPPED, STAGE_FAULT. -/
def stopOutletFault (o : Nat) (s : State) : State := stopFast o (some (0x0C, 3)) s

/-- R355: the stop action of an object's binding. -/
def stopAction (r : List Byte) (s : State) : State :=
  match orBindKind r with
  | 1 => disablePhase (orBindIndex r / 4) (orBindIndex r % 4) id s
  | 2 => safeStop (orBindIndex r) s
  | 3 => stopOutletFault (orBindIndex r) s
  | 4 => forAll (List.range 8) stopOutletFault s
  | _ => s

def dcOf (t : Rat) : Int := ratRound (t * 10)

/-- R353, R354: the limit flags of an object at a sample. -/
def judgeObj (r : List Byte) (now : Nat) (o : ThmObj) : ThmObj :=
  let t1 := ratAt o.theta 0
  let m := fsub (orTLim r) t1
  let rate := rateOf now o
  let above := if o.above then decide (fsub (orTLim r) (orHyst r) ≤ t1) else decide (orTLim r ≤ t1)
  let near := if o.near then decide (m ≤ 6) else decide (m ≤ 5)
  let rOver := match rate with | some q => decide (orRateLim r < q) | none => false
  let rStop := bitOf (orFlags r) 1 && match rate with | some q => decide (2 * orRateLim r < q) | none => false
  nextStep now m { o with
    rate := rate, above := above, near := near, rateOver := rOver, rateStop := rStop
    hist := ((now, t1) :: o.hist).take 2048 }

/-- R353, R354, R372: the events of a sample, in event-number order. -/
def objEvents (j : Nat) (old new : ThmObj) (stop : Bool) (s : State) : State :=
  let r2 : List Byte := toLEi 2 (ratRound ((new.rate.getD 0) * 100))
  let t2 : List Byte := toLEi 2 (dcOf (ratAt new.theta 0))
  let s1 := if new.rateOver && !old.rateOver then raise 48 1 j r2 s else if !new.rateOver && old.rateOver then raise 48 0 j r2 s else s
  let s2 := when (new.rateStop && !old.rateStop) (raise 48 2 j r2) s1
  let s3 := if new.near && !old.near then raise 49 1 j t2 s2 else if !new.near && old.near then raise 49 0 j t2 s2 else s2
  if new.above && !old.above then raise 50 1 j (t2 ++ toLE 1 (b2n stop)) s3
  else if !new.above && old.above then raise 50 0 j (t2 ++ toLE 1 0) s3 else s3

/-- R371: the registers of an object. -/
def objWords (flowLow : Bool) (o : ThmObj) : List Word :=
  [fldI 0 16 (ratRound (ratAt o.theta 0 * 10)) + 65536 * tempField o.meas,
   fld 0 16 o.ttl + fld 16 16 (min 0xFFFF o.cap.floor.toNat),
   fld 0 2 o.step + fld 2 1 (b2n o.near) + fld 3 1 (b2n o.above) + fld 4 1 (b2n o.rateOver) + fld 5 1 (b2n o.openLoop)
     + fld 6 1 (b2n o.diverged) + fld 7 1 (b2n flowLow) + fldI 8 16 (clampQ15 (ratRound (o.rate.getD 0 * 100))),
   (ratRound o.loss).toNat].map (BitVec.ofNat 32)

/-- R353, R354, R356, R357: forecast and publish; an open-loop object with REQUIRE_SENSOR publishes no capacity (R350). -/
def publishObj (j at_ : Nat) (meanSq : Rat) (s : State) : State :=
  let r := s.objRec j
  let o := s.obj j
  let x := xNow r meanSq
  let ttl := match s.forecastOf j x with
    | none => 0xFFFF
    | some n => min 0xFFFF (n * orHorizon r * 10 / 256)
  let c0 := s.capacityOf j
  let c1 := if o.above then 0 else if o.rateOver then Min.min c0 (fmul (rnd (9 / 10)) x) else c0
  let mute := o.openLoop && bitOf (orFlags r) 2
  let flowLow := orLoop r < 8 && (s.loop (orLoop r)).flowLow
  let done : ThmObj := { o with
    ttl := ttl, cap := if mute then o.cap else c1, capAt := if mute then o.capAt else s.now
    lossSum := 0, sqSum := 0, ticks := 0, lastSample := at_ }
  (s.modThm fun t => { t with seq := t.seq + 1 }).modObj j fun _ => { done with shown := objWords flowLow done }

/-- R352: samples fall on whole multiples of the object's interval: the latest one, in ns of device time. -/
def sampleInstant (now : Nat) (o : ThmObj) : Nat := now / (stepMs o.step * 1000000) * (stepMs o.step * 1000000)

/-- R353, R354, R355: the stop action that a sample asks for. -/
def stopAsked (r : List Byte) (old new : ThmObj) : Bool :=
  orBindKind r != 0 && ((new.above && !old.above && bitOf (orFlags r) 0) || (new.rateStop && !old.rateStop))

/-- R345, R349 to R357: one sample of an object. -/
def thermalSampleEffect (j : Nat) (s : State) : State :=
  let o := s.obj j
  let at_ := sampleInstant s.now o
  if s.thm.objs.length ≤ j || at_ ≤ o.lastSample then s
  else
    let r := s.objRec j
    let h := fdiv ((at_ - o.lastSample : Nat) : Rat) 1000000000
    let p := if o.ticks = 0 then o.loss else fdiv o.lossSum (o.ticks : Nat)
    let sq := if o.ticks = 0 then o.meanSq else fdiv o.sqSum (o.ticks : Nat)
    let s1 := correctObj j h (advanceObj j h p s)
    let s2 := s1.modObj j (judgeObj r at_)
    let new := s2.obj j
    let hot := dcOf (ratAt new.theta 0)
    let s2 := recFeed (48 + j) (hot : Rat) (recNote 1 j hot (recNote 2 j (ratRound ((new.rate.getD 0) * 100)) s2))
    let stop := stopAsked r o new
    let s3 := publishObj j at_ sq (objEvents j o new stop s2)
    updateLoops (when stop (stopAction r) s3)

def execThermalSample (object : Nat) (s : State) : Host.Outcome State Fault Refusal := live (thermalSampleEffect object) s

/-- R348: a member sends what it has just queued to its peer: the time of conversion, and pairs of sensor ID and value. -/
def sendReadings (ids : List Nat) (s : State) : State :=
  let mine := s.thm.queue.filter fun q => q.2.2 == s.now && ids.contains q.1
  if mine.isEmpty then s
  else sendRecord (.sensor s.now (mine.map fun q => (q.1, q.2.1))) s

/-- R346, R362: RTDs are converted in Sleep too; `leads` are the resistances that the two loops of RTD_EXCg measure. -/
def rtdConversionEffect (readings : List (Nat × Nat)) (leads : List Nat) (s : State) : State :=
  if s.pwr.held || s.pwr.opState == .boot then s
  else sendReadings ((readings.filter fun p => s.rtdEnabled p.1).map fun p => s.rtdId p.1)
    (forAll readings (fun p s => convertRtd p.1 (lessLead leads p.1 p.2) s) s)

def execRtdConversion (readings : List (Nat × Nat)) (leads : List Nat) (s : State) : Host.Outcome State Fault Refusal :=
  ctl (rtdConversionEffect readings leads) s

/-- R348: a flow reading of loop l travels as ID 0x8000 + l. -/
def flowId (l : Nat) : Nat := 0x8000 + l

/-- R348: at a 10 ms boundary, apply what was converted at least 5 ms before; a reading that has not come counts as invalid for this boundary. -/
def applyReadings (at_ : Nat) (s : State) : State :=
  let due := s.thm.queue.filter fun q => q.2.2 + 5000000 ≤ at_
  let s1 := s.modThm fun t => { t with appliedAt := at_, queue := t.queue.filter fun q => at_ < q.2.2 + 5000000 }
  let ids := ((List.range 24).filter s.rtdEnabled).flatMap fun i => [0x1000 + i, 0x1800 + i]
  let latest := fun id => (due.reverse.find? fun q => q.1 == id)
  let s2 := forAll ids (fun id s => applyReading id (match latest id with | some q => q.2.1 | none => none) at_ s) s1
  forAll (List.range 8) (fun l s => match latest (flowId l) with | some (_, some v, _) => setFlow l v.toNat s | _ => s) s2

def readingApplyEffect (s : State) : State :=
  let at_ := s.now / 10000000 * 10000000
  if s.thm.appliedAt < at_ then applyReadings at_ s else s

def execReadingApply (s : State) : Host.Outcome State Fault Refusal := live (fun s => when s.member readingApplyEffect s) s

/-- R351. -/
def divergedEffect (j : Nat) (s : State) : State :=
  match (s.obj j).divergeSince with
  | some t =>
    if s.now < t + 10000000000 || (s.obj j).diverged then s
    else raise 55 1 j (toLEi 2 (s.obj j).err) (s.modObj j fun o => { o with diverged := true })
  | none => s

def execDiverged (object : Nat) (s : State) : Host.Outcome State Fault Refusal := live (divergedEffect object) s

/-- R359: the flow of a loop from its pulses, in 0.1 L/min. -/
def flowOf (pulses perLitre : Nat) : Nat := if perLitre = 0 then 0 else (divRound ((pulses * 600 : Nat) : Int) perLitre).toNat

/-- R359: the pulses of each FLOW input over the last second, 100 ms at a time. -/
def notePulses (counts : List Nat) (s : State) : State :=
  s.modThm fun t => { t with pulses := t.pulses.mapIdx fun i l => (counts.getD i 0 :: l).take 10 }

/-- R359, R360: the loops whose flow input is on this unit; a member of a pair sends and queues its readings (R348). -/
def flowUpdateEffect (counts : List Nat) (s : State) : State :=
  updateLoops <| sendReadings ((List.range 8).map flowId) <| forAll (List.range 8) (fun l s =>
    let inp := s.loopB l 0
    if inp == 0xFF || bitOf inp 6 != s.unitB then s
    else
      let f := flowOf ((s.thm.pulses.getD (inp % 8) []).foldl (· + ·) 0) (s.loopH l 4)
      if s.member then s.modThm fun t => { t with queue := t.queue ++ [(flowId l, some (f : Int), s.now)] } else setFlow l f s)
    (notePulses counts s)

def execFlowUpdate (counts : List Nat) (s : State) : Host.Outcome State Fault Refusal := live (flowUpdateEffect counts) s

/-- R361: a time has passed since an instant that is set. -/
def flowLasted (ns : Nat) (since : Option Nat) (s : State) : Bool := match since with | some t => decide (t + ns ≤ s.now) | none => false

/-- R361: the flow has stayed low for 2 s with the pump on for 5 s. -/
def flowLowEffect (l : Nat) (s : State) : State :=
  let c := s.loop l
  when (c.pumpOn && c.pumpAt + 5000000000 ≤ s.now && flowLasted 2000000000 c.lowSince s) (enterFlowLow l) s

def execFlowLow (loop : Nat) (s : State) : Host.Outcome State Fault Refusal := live (flowLowEffect loop) s

/-- R361: the flow has stayed at or above the minimum for 2 s. -/
def flowRecoveredEffect (l : Nat) (s : State) : State :=
  let c := s.loop l
  if c.flowLow && flowLasted 2000000000 c.okSince s then raise 54 0 l (toLE 2 c.flow) (s.modLoop l fun c => { c with flowLow := false }) else s

def execFlowRecovered (loop : Nat) (s : State) : Host.Outcome State Fault Refusal := live (flowRecoveredEffect loop) s

/-- R360: RUNON_S after the last need the channels are commanded off. -/
def runonEffect (l : Nat) (s : State) : State :=
  when (!s.loopNeed l && decide ((s.loop l).neededAt + s.loopH l 12 * 1000000000 ≤ s.now)) (commandLoop l false) s

def execRunonExpiry (loop : Nat) (s : State) : Host.Outcome State Fault Refusal := live (runonEffect loop) s

/-- R363: the hottest die sensor and which it is. -/
def hottest (temps : List Int) : Int × Nat :=
  let m := maxInt temps
  (m, (temps.findIdx? (· == m)).getD 0)

/-- R363, R364. -/
def dieTempReadEffect (temps : List Int) (s : State) : State :=
  let h := hottest temps
  let s1 := recFeed 177 (h.1 : Rat) (recNote 6 0 h.1 (s.modThm fun t => { t with dieDc := h.1, peakDc := some (match t.peakDc with | some p => Max.max p h.1 | none => h.1) }))
  let s2 := if 1050 ≤ h.1 && !s1.thm.dieWarm then raise 51 1 h.2 (toLEi 2 h.1) (s1.modThm fun t => { t with dieWarm := true })
    else if h.1 < 1000 && s1.thm.dieWarm then raise 51 0 h.2 (toLEi 2 h.1) (s1.modThm fun t => { t with dieWarm := false })
    else s1
  if 1180 ≤ h.1 && s2.thm.halting.isNone then
    raise 52 1 h.2 (toLEi 2 h.1) (s2.modThm fun t => { t with halting := some s.now, haltSensor := h.2 })
  else s2

def execDieTempRead (temps : List Int) (s : State) : Host.Outcome State Fault Refusal := live (dieTempReadEffect temps) s

end Sys2Proof.Machine
end

