-- ==== Sys2Proof/Machine/Lane.lean ====
section
/-! DEFINITION. Phase lanes (R274 to R311) and the training of the pair lanes (R533): periods, UPLINKs, loss and training. -/

namespace Sys2Proof.Machine

/-! ### Period boundaries (R277, R281, R286) -/

/-- R290: DOWNLINKs run on the lane. -/
def Lane.sends (l : Lane) : Bool :=
  l.state == .active || (l.state == .down && (match l.train with | .running _ => true | _ => false))

/-- R21: a DOWNLINK carries the changes of a stage's coils since the last one. -/
def noteCoils (was new : Block) (i : Nat) (s : State) : State :=
  let kept := fun k => was.getLsbD (8 * (i % 2) + k) == new.getLsbD (8 * (i % 2) + k)
  s.modStage i fun st => { st with coilAt := st.coilAt.mapIdx fun k t => if kept k then t else s.lanes.boundary }

/-- Send the DOWNLINK or HOLD frame of one lane. -/
def sendDownlink (incomplete : Half) (n : Nat) (s : State) : State :=
  if !(s.lane n).sends then s
  else
    let hold := incomplete.getLsbD n
    let l := if hold then holdFrame s n else downlink s n
    let act := actBlock s n
    let cover := if hold then [l.getD 1 0] else (l.drop 1).take 9
    let sent := when (!hold) (fun s => noteCoils (s.lane n).lastAct act (2 * n + 1) (noteCoils (s.lane n).lastAct act (2 * n) s)) s
    let s1 := sent.modLane n fun x => { x with
      aSent := s.aBit
      lastDown := l
      lastAct := if hold then x.lastAct else act
      holdFrames := if hold then satAdd 16 x.holdFrames 1 else x.holdFrames }
    let s2 := emit (.lane n (if hold then laneHold else laneDown) l) (digestAdd (blockBytes cover) s1)
    when hold (countEvent (laneSrc n) 8 n) s2

/-- R364: one control period after the 118 °C reading every stage is disabled in a downlink that still carries the A bit. -/
def haltNow (s : State) : Bool := s.thm.halting.isSome && s.running

/-- R484: the outlet quantities of the recorder in this period. -/
def feedOutlets (s : State) : State :=
  forAll (List.range 8) (fun o s =>
    recFeed (8 + o) ((s.vMeasDv o : Rat) / 10) (recFeed o ((s.iMeasDa o : Rat) / 10) s)) s

/-- R286: the boundary B_k, at which the waiting snapshots are captured (R124). -/
def downlinkSendEffect (incomplete : Half) (s : State) : State :=
  let s1 := pairBoundary { s with lanes := { s.lanes with
    q := if s.lanes.ticking then s.lanes.q + 1 else s.lanes.q
    ticking := true
    boundary := s.now } }
  let s2 := when (haltNow s1) (forAll (List.range 32) disableOut) s1
  let s3 := feedOutlets (forAll (List.range 16) (sendDownlink incomplete) s2)
  when (haltNow s1) (enterSafe 5) (completeSnapshots s3)

def execDownlinkSend (incomplete : Half) (s : State) : Host.Outcome State Fault Refusal :=
  live (fun s => settleLock (downlinkSendEffect incomplete s)) s

/-! ### UPLINKs (R276, R282, R291, R309) -/

/-- R276, R291: a frame arrives whole: it waits for the next latch, or is discarded and counted. -/
def uplinkReceiveEffect (n : Nat) (type : Byte) (blocks : List Block) (s : State) : State :=
  if 16 ≤ n || (s.lane n).state == .unused then s
  else if uplinkOk n type blocks then s.modLane n fun l => { l with arrived := l.arrived ++ [blocks] }
  else countEvent (laneSrc n) 7 n (s.modLane n fun l => { l with crcErrors := satAdd 16 l.crcErrors 1 })

def execUplinkReceive (lane : Nat) (type : Byte) (blocks : List Block) (s : State) : Host.Outcome State Fault Refusal :=
  live (uplinkReceiveEffect lane type blocks) s

/-- R209: the run of identical samples of one phase over a latched UPLINK. -/
def frozenStep (r : Half × Nat) (x : Half) : Half × Nat :=
  if x == 0x8000#16 then (0, 0) else if 0 < r.2 && r.1 == x then (x, r.2 + 1) else (x, 1)

/-- R210: the loop output of a phase stands at an end of Q15 (R229). -/
def State.saturated (s : State) (p : Nat) : Bool :=
  let d := s.output (sigId 0x20 p)
  d == 0x7FFF#16 || d == 0x8000#16

/-- R210: the current of a running phase is below OPEN_PCT % of its part of the stage output current, with its loop output saturated. -/
def State.phaseLow (s : State) (i k : Nat) : Bool :=
  (s.runMask i).getLsbD k && s.saturated (4 * i + k)
    && decide ((s.phaseI (4 * i + k)).natAbs * 100 * s.nRun i < 2 * s.openPct * (s.stIout i).natAbs)

def maskOf4 (p : Nat → Bool) : BitVec 4 := BitVec.ofNat 4 (b2n (p 0) + 2 * b2n (p 1) + 4 * b2n (p 2) + 8 * b2n (p 3))

/-- R208 to R210: one latched UPLINK enters the running check window of a stage. -/
def noteWindow (i : Nat) (s : State) : State :=
  let running := (List.range 4).filter fun k => (s.runMask i).getLsbD k
  let sum := running.foldl (fun a k => a + s.phaseI (4 * i + k)) 0
  let out := maskOf4 fun k => (phaseSamples (s.lane (i / 2)).lastUp (4 * (i % 2) + k)).any (· == 0x8000#16)
  s.modStage i fun st => { st with win := {
    periods := st.win.periods + 1, phases := st.win.phases + sum, output := st.win.output + s.stIout i
    low := st.win.low &&& maskOf4 (s.phaseLow i), bad := st.win.bad ||| out } }

/-- R209: the runs of a stage's phases; they end while STAGE_IOUT is 5 A or less. -/
def countFrozen (i : Nat) (s : State) : State :=
  let low := decide (s.stIout i ≤ 160)
  s.modStage i fun st => { st with frozenRun := st.frozenRun.mapIdx fun k r =>
    if low then (0, 0) else (phaseSamples (s.lane (i / 2)).lastUp (4 * (i % 2) + k)).foldl frozenStep r }

/-- R18, R21, R284: XP_FB reaches a stage; a removed stage returns once its feedback matches its coils. -/
def takeFeedback (i : Nat) (s : State) : State :=
  let fb := (s.lane (i / 2)).xpFb.extractLsb' (8 * (i % 2)) 8
  settleStage i (s.modStage i fun st => { st with
    fb := fb, removed := st.removed && fb != st.coils
    fbAt := st.fbAt.mapIdx fun k t => if fb.getLsbD k == st.fb.getLsbD k then t else s.now })

/-- R142: the bus voltage of the outlets whose lowest-numbered steady stage is on lane n. -/
def takeBus (n : Nat) (s : State) : State :=
  forAll (List.range 8) (fun o s =>
    match s.steadyStages o with
    | i :: _ => if i / 2 = n then s.modAlcOut o fun a => { a with busV := s.stVout i } else s
    | [] => s) s

/-- R309: a gate fault disables its phase. -/
def gateFault (p : Nat) (s : State) : State :=
  disablePhase (p / 4) (p % 4) (fun s => raise (laneSrc (p / 8)) 0x23 (p / 8) (toLE 1 p ++ toLE 4 (s.nRun (p / 4))) s) s

/-- R309: a node stop that begins. -/
def nodeStop (n m old new : Nat) (s : State) : State :=
  when (old == 0 && new != 0) (fun s => safeStop (2 * n + m) (raise (laneSrc n) 6 n (toLE 1 (2 * n + m) ++ toLE 1 new) s)) s

/-- R309: the reactions to the status block of a latched UPLINK. -/
def nodeStatus (n old0 old1 : Nat) (s : State) : State :=
  let l := s.lane n
  let s1 := nodeStop n 1 old1 l.stop1 (nodeStop n 0 old0 l.stop0 s)
  let s2 := forAll (List.range 8) (fun j s => when (l.gate.getLsbD j) (gateFault (8 * n + j)) s) s1
  let s3 := forAll (List.range 8) (fun j s =>
    when (l.limit.getLsbD j) (raiseOnceFor (256 + 8 * n + j) (laneSrc n) 0x0A n (toLE 1 (8 * n + j))) s) s2
  forAll [0, 1] (fun m s => when (l.refused.getLsbD m) (raise (laneSrc n) 9 n (toLE 1 (2 * n + m))) s) s3

/-- R291: latch a usable UPLINK of an ACTIVE lane. -/
def latchUplink (n : Nat) (blocks : List Block) (s : State) : State :=
  let old := s.lane n
  let w := blk blocks 31
  let s1 := s.modLane n fun l => { l with
    lastUp := blocks, missRun := 0
    xpFb := BitVec.ofNat 16 (bits w 0 16), limit := BitVec.ofNat 8 (bits w 16 8), gate := BitVec.ofNat 8 (bits w 24 8)
    stop0 := bits w 32 4, stop1 := bits w 36 4, refused := BitVec.ofNat 2 (bits w 42 2) }
  let s2 := takeFeedback (2 * n + 1) (takeFeedback (2 * n) s1)
  let s3 := takeBus n (forAll [2 * n, 2 * n + 1] (fun i s => noteWindow i (countFrozen i s)) s2)
  let s4 := nodeStatus n old.stop0 old.stop1 s3
  let s5 := thmNodeTemps n (thmLane n blocks (acqLane n blocks s4))
  forAll [2 * n, 2 * n + 1] (fun i s => recFeed (16 + i) ((s.stIout i : Rat) * 1024 / 32768) s) s5

/-- R209: a period without a usable UPLINK ends the runs of a stage. -/
def endFrozen (i : Nat) (s : State) : State := s.modStage i fun st => { st with frozenRun := List.replicate 4 (0, 0) }

/-- R291, R316: an ACTIVE lane has no usable UPLINK for the period. -/
def missUplink (n : Nat) (s : State) : State :=
  let first := (s.lane n).missRun == 0
  let s1 := s.modLane n fun l => { l with missing := satAdd 16 l.missing 1, missRun := l.missRun + 1 }
  let s2 := forAll [2 * n, 2 * n + 1] endFrozen s1
  let s3 := acqLaneGap n s2
  when first (raise (laneSrc n) 0x0B n (toLE 2 s.lanes.q.toNat)) s3

/-- R306: the lane becomes ACTIVE. -/
def laneActive (n : Nat) (s : State) : State :=
  let s1 := s.modLane n fun l => { l with state := .active, refuse := 0, refuseRaised := 0, trainFailRun := false, missRun := 0 }
  sendLanes (acqRetrained n (raise (laneSrc n) 1 n (toLE 4 (s.lane n).latencyNs) s1))

/-- R290, R291: one period of a lane in training: 16 consecutive usable UPLINKs make it ACTIVE. -/
def trainPeriod (n usable : Nat) (found : Option (List Block)) (s : State) : State :=
  match found with
  | none => s.modLane n fun l => { l with train := .running 0 }
  | some b =>
    let s1 := s.modLane n fun l => { l with train := .running (usable + 1) }
    if 16 ≤ usable + 1 then latchUplink n b (laneActive n s1) else s1

/-- R291: the valid UPLINKs that have arrived meet this latch: a SEQUENCE that is neither due nor late is an error. -/
def matchArrived (n : Nat) (s : State) : State :=
  let q := s.lanes.q
  let wrong := ((s.lane n).arrived.filter fun b => frSeq b != q && frSeq b != q - 1).length
  s.modLane n fun x => { x with seqErrors := satAdd 16 x.seqErrors wrong, arrived := [] }

/-- R535: INPUT_LOSS notes a period in which a lane in use latched no usable UPLINK. -/
def noteLoss (n : Nat) (found : Option (List Block)) (s : State) : State :=
  when (s.laneInUse n && found.isNone) (fun s => s.modPair fun p => { p with lossNow := true }) s

/-- R291: the latch at B_k + 1 µs. -/
def uplinkLatchEffect (n : Nat) (s : State) : State :=
  let l := s.lane n
  if 16 ≤ n then s
  else
    let found := l.arrived.find? fun b => frSeq b == s.lanes.q
    let s1 := noteLoss n found (matchArrived n s)
    match l.state, l.train with
    | .active, _ => (match found with | some b => latchUplink n b s1 | none => missUplink n s1)
    | .down, .running u =>
      let s2 := trainPeriod n u found s1
      when ((s2.lane n).state != .active) (acqLaneGap n) s2
    | _, _ => acqLaneGap n s1

def execUplinkLatch (lane : Nat) (s : State) : Host.Outcome State Fault Refusal :=
  live (fun s => settleLock (restPower (settleVehicles (watch (uplinkLatchEffect lane s))))) s

/-! ### Loss (R306, R307, R553) -/

/-- R553: the ACTIVE unit may hand actuation to a HOT peer that holds every lane. -/
def laneHandoverOk (s : State) (n : Nat) : Bool :=
  let mine := (List.range 16).filter fun k => (s.lane k).state == .active
  s.laneHandoverEn && s.pair.state == .active && s.pair.auth && s.pair.linkUp && s.pair.peerState == .hot
    && s.pair.handover.isNone && s.pair.peerLanes.getLsbD n && mine.all fun k => s.pair.peerLanes.getLsbD k

/-- R552, R553: send a HANDOVER record that names its instant. -/
def startHandover (kind least : Nat) (s : State) : State :=
  let at_ := s.pair.periodCount.toNat + s.handoverPeriods least
  sendRecord (.handover at_ kind)
    (s.modPair fun p => { p with handover := some { atCount := at_, kind := kind, since := s.pair.periodCount.toNat } })

/-- R307, R553: what the loss of an ACTIVE lane does to its stages: the unit that acts hands over or safe-stops them; one whose peer holds the lane stops nothing. -/
def laneLossStops (n : Nat) (s : State) : State :=
  if laneHandoverOk s n then startHandover 2 4 s
  else if s.member && !s.pair.auth && s.pair.linkUp && s.pair.peerLanes.getLsbD n then s
  else safeStop (2 * n + 1) (safeStop (2 * n) s)

/-- R306: an ACTIVE lane goes DOWN with LANE_LOST. -/
def loseLane (n payload : Nat) (s : State) : State :=
  let s1 := s.modLane n fun l => { l with state := .down, train := .idle, trainAt := s.now, losses := satAdd 16 l.losses 1, arrived := [] }
  let s1 := forAll [2 * n, 2 * n + 1] endFrozen s1
  laneLossStops n (sendLanes (raise (laneSrc n) 2 n (toLE 1 payload) s1))

def execLaneLost (lane : Nat) (s : State) : Host.Outcome State Fault Refusal :=
  live (fun s =>
    if lane < 16 && (s.lane lane).state == .active && 3 ≤ (s.lane lane).missRun then settleVehicles (loseLane lane 1 s) else s) s

/-! ### Block lock and training (R274, R289, R290, R533) -/

def State.pairLane (s : State) (k : Nat) : PairLane := nth s.pair.lanes k
def State.modPairLane (k : Nat) (f : PairLane → PairLane) (s : State) : State := s.modPair fun p => { p with lanes := upd p.lanes k f }

/-- R533: a pair lane gains or loses block lock; the link goes down with the last of them, and is up again with the first while the peer has been heard. -/
def pairLaneLock (k : Nat) (lock : Bool) (s : State) : State :=
  if !s.member || (s.pairLane k).blockLock == lock then s
  else
    let s1 := s.modPairLane k fun l => { l with blockLock := lock, train := .idle }
    if (s1.pairLane (1 - k)).blockLock then raise 97 (if lock then 4 else 3) k [] s1
    else if !lock then linkDown false s1
    else if s1.peerHeard then settleVehicles (settleAuth (linkUp s1)) else s1

def blockLockLossEffect (n : Nat) (s : State) : State :=
  if n = 16 ∨ n = 17 then pairLaneLock (n - 16) false s
  else if 16 ≤ n then s
  else
    let l := s.lane n
    let s1 := s.modLane n fun l => { l with blockLock := false }
    match l.state with
    | .active => settleVehicles (loseLane n 2 s1)
    | .down => s1.modLane n fun l => { l with train := .idle }
    | _ => s1

def execBlockLockLoss (lane : Nat) (s : State) : Host.Outcome State Fault Refusal := live (blockLockLossEffect lane) s

def blockLockEffect (n : Nat) (s : State) : State :=
  if n = 16 ∨ n = 17 then pairLaneLock (n - 16) true s
  else if 16 ≤ n then s
  else if (s.lane n).state == .unused then s else s.modLane n fun l => { l with blockLock := true }

def execBlockLock (lane : Nat) (s : State) : Host.Outcome State Fault Refusal := live (blockLockEffect lane) s

/-- The round that a training sends next: `none` when it sends nothing. -/
def Train.request : Train → Option Nat
  | .idle => some 0
  | .rounds next rtts => if next ≤ 15 then some next else if rtts.length < 16 then some 0 else none
  | .final => some 0xFF
  | .running _ => none

/-- The training once that round has left. -/
def Train.sent : Train → Train
  | .idle => .rounds 1 []
  | .rounds next rtts => if next ≤ 15 then .rounds (next + 1) rtts else .rounds 1 []
  | t => t

/-- R290: send the next TRAIN_REQ of a phase lane. -/
def laneTrainReqEffect (n : Nat) (s : State) : State :=
  let l := s.lane n
  match l.state == .down && l.blockLock && decide (l.trainAt ≤ s.now), l.train.request with
  | true, some r =>
    let fr := trainReq s n r (if r = 0xFF then l.latencyNs else 0) (s.stPhases (2 * n)) (s.stPhases (2 * n + 1))
    emit (.lane n laneTrainReq fr) (s.modLane n fun l => { l with train := l.train.sent, t1 := s.now, round := r })
  | _, _ => s

/-- R533: unit A trains the pair lanes. -/
def pairTrainReqEffect (k : Nat) (s : State) : State :=
  let l := s.pairLane k
  match s.member && !s.unitB && l.blockLock && !l.refused, l.train.request with
  | true, some r =>
    let fr := trainReq s k r (if r = 0xFF then l.latencyNs else 0) 0 0
    emit (.pairFrame fr) (s.modPairLane k fun l => { l with
      train := if r = 0xFF then .running 0 else l.train.sent, t1 := s.now, round := r })
  | _, _ => s

def execTrainReqSend (lane : Nat) (s : State) : Host.Outcome State Fault Refusal :=
  live (fun s => if lane = 16 ∨ lane = 17 then pairTrainReqEffect (lane - 16) s else if lane < 16 then laneTrainReqEffect lane s else s) s

/-- R306: a refusal with its event unless the cause stays the same: cause 1 LATENCY, 2 NODE_MISMATCH. -/
def refuseLane (n cause : Nat) (payload : List Byte) (s : State) : State :=
  let again := (s.lane n).refuseRaised == cause
  let s1 := s.modLane n fun l => { l with state := .refused, refuse := cause, refuseRaised := cause, train := .idle, trainAt := s.now }
  sendLanes (when (!again) (raise (laneSrc n) (cause + 2) n payload) s1)

/-- R290 step 3: one round trip; with the sixteenth the result, or the rounds again. -/
def roundTrip (next : Nat) (rtts : List Int) (rtt : Int) : Train × Option Int :=
  let all := rtts ++ [rtt]
  if all.length < 16 then (.rounds next all, none)
  else if 20 < rttSpread all then (.rounds 0 [], none)
  else (.final, some (rttLatency all))

/-- R290 step 6: the first present stage that the node cannot run as declared. -/
def mismatch (s : State) (n p0 p1 : Nat) : Option (Nat × Nat) :=
  if s.stPresent (2 * n) && p0 < s.stPhases (2 * n) then some (0, p0)
  else if s.stPresent (2 * n + 1) && p1 < s.stPhases (2 * n + 1) then some (1, p1) else none

/-- R290: a TRAIN_ACK of a phase lane in training. -/
def phaseTrainAck (n : Nat) (blocks : List Block) (arrivedAt : Nat) (s : State) : State :=
  let l := s.lane n
  if l.state != .down || bits (blk blocks 0) 40 8 != l.round || bits (blk blocks 1) 0 32 != l.t1 % 2 ^ 32 then s
  else match l.train with
    | .rounds next rtts =>
      let r := roundTrip next rtts ((arrivedAt : Int) - l.t1 - (bits (blk blocks 1) 32 11 : Nat))
      (match r.2 with
        | none => s.modLane n fun l => { l with train := r.1 }
        | some lat =>
          let s1 := s.modLane n fun l => { l with train := r.1, latencyNs := lat.toNat }
          if 700 < lat then refuseLane n 1 (toLE 4 (min 0xFFFFFFFF lat.toNat)) s1 else s1)
    | .final =>
      let w := blk blocks 2
      let s1 := s.modLane n fun l => { l with
        nodeType := BitVec.ofNat 16 (bits w 0 16), nodeVersion := BitVec.ofNat 16 (bits w 16 16)
        ph0 := bits w 32 3, ph1 := bits w 36 3, sensors := bits w 40 4 }
      (match mismatch s n (bits w 32 3) (bits w 36 3) with
        | some p => refuseLane n 2 (toLE 1 p.1 ++ toLE 4 p.2) s1
        | none => s1.modLane n fun l => { l with train := .running 0 })
    | _ => s

/-- R533: a TRAIN_ACK of a pair lane. -/
def pairTrainAck (k : Nat) (blocks : List Block) (arrivedAt : Nat) (s : State) : State :=
  let l := s.pairLane k
  match l.train with
  | .rounds next rtts =>
    if bits (blk blocks 0) 40 8 != l.round || bits (blk blocks 1) 0 32 != l.t1 % 2 ^ 32 then s
    else
      let r := roundTrip next rtts ((arrivedAt : Int) - l.t1 - (bits (blk blocks 1) 32 11 : Nat))
      s.modPairLane k fun l => match r.2 with
        | none => { l with train := r.1 }
        | some lat => { l with latencyNs := lat.toNat, refused := decide (700 < lat), refusedAt := s.now, train := if 700 < lat then .idle else .final }
  | _ => s

/-- R276: an invalid frame counts as a CRC error of a phase lane. -/
def trainAckEffect (n : Nat) (type : Byte) (blocks : List Block) (arrivedAt : Nat) (s : State) : State :=
  if n = 16 ∨ n = 17 then
    (if s.member && !s.unitB && trainAckOk (n - 16) type blocks then pairTrainAck (n - 16) blocks arrivedAt s else s)
  else if 16 ≤ n || (s.lane n).state == .unused then s
  else if trainAckOk n type blocks then phaseTrainAck n blocks arrivedAt s
  else countEvent (laneSrc n) 7 n (s.modLane n fun l => { l with crcErrors := satAdd 16 l.crcErrors 1 })

def execTrainAck (lane : Nat) (type : Byte) (blocks : List Block) (arrivedAt : Nat) (s : State) : Host.Outcome State Fault Refusal :=
  live (fun s => settleLock (trainAckEffect lane type blocks arrivedAt s)) s

/-- R306: 2 ms without completing training; it restarts after 10 ms. -/
def trainTimeoutEffect (n : Nat) (s : State) : State :=
  let l := s.lane n
  if 16 ≤ n || l.state != .down || decide (s.now < l.trainAt + 2000000) then s
  else when (!l.trainFailRun) (raise (laneSrc n) 5 n (toLE 1 0))
    (s.modLane n fun l => { l with train := .idle, trainAt := s.now + 10000000, trainFailRun := true })

def execTrainTimeout (lane : Nat) (s : State) : Host.Outcome State Fault Refusal := live (trainTimeoutEffect lane) s

/-- R306: 1 s after its refusal a lane trains again. -/
def refusedRetryEffect (n : Nat) (s : State) : State :=
  let l := s.lane n
  if l.state == .refused && decide (l.trainAt + 1000000000 ≤ s.now) then
    sendLanes (s.modLane n fun l => { l with state := .down, train := .idle, trainAt := s.now })
  else s

/-- R533: the same of a pair lane. -/
def pairRetryEffect (k : Nat) (s : State) : State :=
  let l := s.pairLane k
  if l.refused && decide (l.refusedAt + 1000000000 ≤ s.now) then s.modPairLane k fun l => { l with refused := false, train := .idle } else s

def execRefusedRetry (lane : Nat) (s : State) : Host.Outcome State Fault Refusal :=
  live (fun s => if lane = 16 ∨ lane = 17 then pairRetryEffect (lane - 16) s else if lane < 16 then refusedRetryEffect lane s else s) s

/-! ### Lanes at other rows (R306, R308) -/

/-- R308: a lane trains again. -/
def retrain (n : Nat) (s : State) : State :=
  s.modLane n fun l => { l with state := .down, train := .idle, trainAt := s.now, trainFailRun := false }

/-- R306: the lanes that the active profile uses, when a profile takes effect: unused ones stop, new ones begin, and those in `again` retrain. -/
def lanesForProfile (again : Nat → Bool) (s : State) : State :=
  forAll (List.range 16) (fun n s =>
    if !s.laneInUse n then s.modLane n fun l => { l with state := .unused, train := .idle, arrived := [] }
    else if (s.lane n).state == .unused || again n then retrain n s else s) s

/-- R306: entry to Sleep takes every lane in use DOWN; what the lanes were is kept for an entry that is abandoned (R92). -/
def lanesSleep (s : State) : State :=
  let s1 := { s with lanes := { s.lanes with before := s.lanes.lane } }
  forAll (List.range 16) (fun n s =>
    if (s.lane n).state == .unused then s
    else s.modLane n fun l => { l with state := .down, train := .idle, blockLock := false, arrived := [] }) s1

/-- R92: the lanes of an abandoned entry to Sleep. -/
def lanesAwake (s : State) : State := { s with lanes := { s.lanes with lane := s.lanes.before, before := [] } }

/-- R308: after a wake every lane in use trains again. -/
def lanesWake (s : State) : State :=
  { s with lanes := { s.lanes with before := [], lane := s.lanes.lane.map fun l => { l with trainAt := s.now } } }

end Sys2Proof.Machine
end

