-- ==== Sys2Proof/Machine/Path.lean ====
section
/-! DEFINITION. The events of the set-point path and its port: frames (R178 to R188), the generator (R196), answers (R195), start and stop (R190, R200, R204), and the stage faults of R207 to R213. -/

namespace Sys2Proof.Machine

/-- A command of one outlet's path; the vehicle engines then take what the path answered. -/
def pathRow (o : Nat) (f : State → State) (s : State) : Host.Outcome State Fault Refusal :=
  live (fun s => if o < 8 then restPower (settleVehicles (f s)) else s) s

/-! ### The port (R178, R179, R184, R188) -/

/-- R178, R184: at link-up the last new SEQUENCE and the answer held for repeats are forgotten. -/
def portUp (o : Nat) (s : State) : State :=
  if (s.path o).linkUp then s
  else raise (8 + o) 1 o [] (s.modPath o fun p => { p with linkUp := true, lastNew := none, held := none })

def execSpLinkUp (outlet : Nat) (s : State) : Host.Outcome State Fault Refusal := pathRow outlet (portUp outlet) s

def portDown (o : Nat) (s : State) : State :=
  if (s.path o).linkUp then raise (8 + o) 2 o [] (s.modPath o fun p => { p with linkUp := false }) else s

def execSpLinkDown (outlet : Nat) (s : State) : Host.Outcome State Fault Refusal := pathRow outlet (portDown outlet) s

/-- R179: a frame that is discarded and counted. -/
def discardFrame (o : Nat) (s : State) : State :=
  countEvent (8 + o) 4 o (s.modPath o fun p => { p with frameErrors := satAdd 16 p.frameErrors 1 })

/-- R179: CRC, length, TYPE and OUTLET. -/
def frameValid (o : Nat) (f : List Byte) : Bool :=
  f.length == 28 && u8 f 0 == 1 && u8 f 1 % 8 == o && u32 f 24 == crc32c (f.take 24)

/-- R184: (SEQUENCE − last new SEQUENCE) modulo 65536 lies in 1 to 32767, or no TARGET has come since link-up. -/
def isNew (p : Path) (t : List Byte) : Bool :=
  match p.lastNew with
  | none => true
  | some q => let d := (tSeq t - q).toNat; decide (1 ≤ d ∧ d ≤ 32767)

/-- R185: a CONNECT that waits for the end of the profile lock is answered SUPERSEDED by the next one. -/
def supersedeWaiting (o : Nat) (t : List Byte) (s : State) : State :=
  match s.prof.waiting.find? (·.1 == o) with
  | some w => sendNak o w.2 0x03 (tSeq t).toNat (s.modProf fun p => { p with waiting := p.waiting.filter (·.1 != o) })
  | none => s

/-- R28, R175, R186: a new TARGET: check 1, the profile lock, then the other checks. -/
def takeNew (o : Nat) (t : List Byte) (s : State) : State :=
  let s1 := s.modPath o fun p => { p with lastNew := some (tSeq t), held := none }
  if !s1.portSource o then refusePort o t s1
  else if s1.prof.lock && tCmd t == 1 && (s1.path o).state == .idle then
    (supersedeWaiting o t s1).modProf fun p => { p with waiting := p.waiting ++ [(o, t)] }
  else newTarget o t s1

/-- R184: a new TARGET, a repeat, or one that is discarded. -/
def takeTarget (o : Nat) (f : List Byte) (s : State) : State :=
  if isNew (s.path o) f then takeNew o f s
  else if (s.path o).lastNew == some (tSeq f) then
    match (s.path o).held with
    | some a => if s.leaseHere then emit (.sp o a) s else s
    | none => s
  else discardFrame o s

/-- R175, R179, R184: one frame on set-point port o. A DISABLED outlet ignores it, and so does a link that is down. -/
def portFrame (o : Nat) (f : List Byte) (s : State) : State :=
  if !s.outActive o || !(s.path o).linkUp then s
  else if !frameValid o f then discardFrame o s
  else takeTarget o f (s.modPath o fun p => { p with frameAt := s.now })

def execTargetStop (outlet : Nat) (frame : List Byte) (s : State) : Host.Outcome State Fault Refusal := pathRow outlet (portFrame outlet frame) s
def execTargetConnect (outlet : Nat) (frame : List Byte) (s : State) : Host.Outcome State Fault Refusal := pathRow outlet (portFrame outlet frame) s
def execTargetCheck (outlet : Nat) (frame : List Byte) (s : State) : Host.Outcome State Fault Refusal := pathRow outlet (portFrame outlet frame) s
def execTargetPrecharge (outlet : Nat) (frame : List Byte) (s : State) : Host.Outcome State Fault Refusal := pathRow outlet (portFrame outlet frame) s
def execTargetCharge (outlet : Nat) (frame : List Byte) (s : State) : Host.Outcome State Fault Refusal := pathRow outlet (portFrame outlet frame) s
def execTargetPause (outlet : Nat) (frame : List Byte) (s : State) : Host.Outcome State Fault Refusal := pathRow outlet (portFrame outlet frame) s

/-- R183, R175: a STATUS frame of an active outlet. -/
def execStatusPeriod (outlet : Nat) (s : State) : Host.Outcome State Fault Refusal :=
  live (fun s => if outlet < 8 && s.outActive outlet then emit (.sp outlet (statusFrame outlet s)) s else s) s

/-- R188: the outlet stops as for STOP, and its open TARGET receives NAK PORT_TIMEOUT. -/
def portTimeoutEffect (o : Nat) (s : State) : State :=
  if (s.path o).state == .idle || !s.portSource o || decide (s.now < (s.path o).frameAt + s.portTimeoutMs * 1000000) then s
  else raise (8 + o) 3 o [] (stopPath o false none (nakOpen o 0x0A 0 s))

def execPortTimeout (outlet : Nat) (s : State) : Host.Outcome State Fault Refusal := pathRow outlet (portTimeoutEffect outlet) s

/-! ### The generator (R196, R199, R201) -/

/-- R199: RATE ends once the count over the last 1000 ms is 32 or less. -/
def leaveRate (o : Nat) (s : State) : State :=
  if (s.path o).fallback = 3 ∧ ((s.path o).recent s.now).length ≤ 32 then setFallback o 0 s else s

/-- R201: the coincident reference that follows the inlet rail; it waits at 0 V until a stage is steady. -/
def followInlet (o : Nat) (s : State) : State :=
  if (s.path o).state != .connecting then s
  else
    let ref := if (s.steadyStages o).isEmpty then 0 else s.inletRef o
    s.modPath o fun p => { p with matchFrom := ref, matchAt := s.now }

/-- R195, R196: one 100 µs tick of one outlet: a trajectory that an accepted TARGET began starts here. -/
def tickOutlet (o : Nat) (s : State) : State :=
  followInlet o ((leaveRate o s).modPath o fun p => { p with
    retargets := p.recent s.now
    tgt := p.tgt.map fun t => { t with startAt := some (noneTo s.now t.startAt) }
    iAxis := p.iAxis.tick (p.slew false)
    vAxis := p.vAxis.tick (p.slew true) })

def execGeneratorTick (s : State) : Host.Outcome State Fault Refusal := live (fun s => showSpp (watch (forAll (List.range 8) tickOutlet s))) s

/-! ### Answers (R195) -/

/-- ACK_HOLD of an outlet in ns. -/
def State.ackHoldNs (s : State) (o : Nat) : Nat := u8 (s.sec 8) (16 + 64 * o + 0x15) * 100000

/-- R195: the in-band condition has held for ACK_HOLD. -/
def ackDecisionEffect (o : Nat) (s : State) : State :=
  match openCmd (s.path o) with
  | some c => if inBand s o c && heldFor (s.path o).bandAt (s.ackHoldNs o) s.now then ackOpen o s else s
  | none => s

def execAckDecision (outlet : Nat) (s : State) : Host.Outcome State Fault Refusal := pathRow outlet (ackDecisionEffect outlet) s

/-- R195: the plan duration and ACK_MARGIN_MS have passed since the trajectory started. -/
def State.overdue (s : State) (o : Nat) (t : OpenTarget) : Bool :=
  match t.startAt with
  | some a => decide (((a : Nat) : Rat) + (t.planMs + s.ackMarginMs o) * 1000000 ≤ s.now)
  | none => false

/-- R195: the deadline of CHECK, PRECHARGE, CHARGE or PAUSE has passed; regulation goes on. -/
def notReachedEffect (o : Nat) (s : State) : State :=
  match (s.path o).tgt with
  | some t => if 2 ≤ tCmd t.bytes && tCmd t.bytes ≤ 5 && s.overdue o t then nakOpen o 0x04 0 s else s
  | none => s

def execNotReached (outlet : Nat) (s : State) : Host.Outcome State Fault Refusal := pathRow outlet (notReachedEffect outlet) s

/-! ### Starting (R190) -/

/-- R190, R201: a match within 5 V of the inlet rail for 1 ms asserts the contactor drive. -/
def connectMatchEffect (o : Nat) (s : State) : State :=
  if s.inletMatched o && heldFor (s.path o).nearAt 1000000 s.now then setDrive o true s else s

def execConnectMatch (outlet : Nat) (s : State) : Host.Outcome State Fault Refusal := pathRow outlet (connectMatchEffect outlet) s

/-- A time in ms has passed since the contactor drive last changed. -/
def State.driveHeld (s : State) (o ms : Nat) : Bool := decide ((s.path o).driveAt + ms * 1000000 ≤ s.now)

/-- R190: the contactor is verified by its feedback contact, or OUTLET_OPERATE_MS after the drive changed where none is declared. -/
def State.mayVerify (s : State) (o : Nat) : Bool := s.contactorFbGpio o != 0xFF || s.driveHeld o (s.outletOperateMs o)

/-- R190: CONNECTED: the outlet holds the inlet voltage at zero current. -/
def verifiedClosedEffect (o : Nat) (s : State) : State :=
  if (s.path o).state == .connecting && (s.path o).drive && s.mayVerify o then
    ackOpen o (setPathState o .connected (s.modPath o fun p => { p with
      closed := true, iAxis := p.iAxis.setTo 0, vAxis := p.vAxis.setTo (tenths (s.inletDv o)) }))
  else s

def execContactorVerifiedClosed (outlet : Nat) (s : State) : Host.Outcome State Fault Refusal := pathRow outlet (verifiedClosedEffect outlet) s

def connectTimeoutEffect (o : Nat) (s : State) : State :=
  if (s.path o).state == .connecting && decide ((s.path o).since + s.connectTimeoutMs o * 1000000 ≤ s.now) then
    stopPath o false (some (if (s.steadyStages o).isEmpty then 0x06 else 0x04, 0)) s
  else s

def execConnectTimeout (outlet : Nat) (s : State) : Host.Outcome State Fault Refusal := pathRow outlet (connectTimeoutEffect outlet) s

/-- R190: the drive is released, and the path faults with detail 0x0001. -/
def closeTimeoutEffect (o : Nat) (s : State) : State :=
  if (s.path o).state == .connecting && (s.path o).drive && !(s.path o).closed && s.driveHeld o (s.outletOperateMs o + 1) then
    faultPath o 0x44 [] 0x09 1 (setDrive o false s)
  else s

def execContactorCloseTimeout (outlet : Nat) (s : State) : Host.Outcome State Fault Refusal := pathRow outlet (closeTimeoutEffect outlet) s

/-! ### Stopping (R190, R200, R204) -/

/-- R200: the discharge rail starts from the bus voltage. -/
def startDischarge (o : Nat) (s : State) : State := s.modPath o fun p => { p with discharge := some (s.now, s.busQ o) }

/-- R190: outlet current of 2 A or less; the rail starts at once where the contactor was never driven. -/
def currentLowEffect (o : Nat) (s : State) : State :=
  if (s.path o).state == .stopping && decide ((s.iMeasQ o).natAbs ≤ 64) then
    let s1 := setPathState o .discharging (setDrive o false s)
    when (s1.path o).opened (startDischarge o) s1
  else s

def execOutletCurrentLow (outlet : Nat) (s : State) : Host.Outcome State Fault Refusal := pathRow outlet (currentLowEffect outlet) s

def verifiedOpenEffect (o : Nat) (s : State) : State :=
  if (s.path o).drive || !s.mayVerify o then s
  else
    let s1 := s.modPath o fun p => { p with closed := false, opened := true }
    when ((s.path o).state == .discharging && (s.path o).discharge.isNone) (startDischarge o) s1

def execContactorVerifiedOpen (outlet : Nat) (s : State) : Host.Outcome State Fault Refusal := pathRow outlet (verifiedOpenEffect outlet) s

def openTimeoutEffect (o : Nat) (s : State) : State :=
  if (s.path o).state == .discharging && !(s.path o).opened && s.driveHeld o (s.outletOperateMs o + 1) then faultPath o 0x44 [] 0x09 2 (safeStopOutlet o s) else s

def execContactorOpenTimeout (outlet : Nat) (s : State) : Host.Outcome State Fault Refusal := pathRow outlet (openTimeoutEffect outlet) s

/-- R190, R204: discharge is verified once the bus has stayed low for 1 ms, so that demand becomes NONE; without a steady stage the row itself says so (log 46). -/
def dischargeReachedEffect (o : Nat) (s : State) : State :=
  if (s.path o).state == .discharging
      && ((s.steadyStages o).isEmpty || (s.busLow o && heldFor (s.path o).lowAt 1000000 s.now)) then
    s.modPath o fun p => { p with dischargeDone := true }
  else s

def execDischargeReached (outlet : Nat) (s : State) : Host.Outcome State Fault Refusal := pathRow outlet (dischargeReachedEffect outlet) s

/-- R190, R191, R215: the safe end: IDLE with the ACK of an open STOP; in FAULTED a deferred resume clears the halt. -/
def dischargeCompleteEffect (o : Nat) (s : State) : State :=
  let p := s.path o
  let stop := openCmd p == some 0
  if p.state == .discharging && s.outletOpen o then enterIdle o (when stop (ackOpen o) s)
  else if p.state == .faulted && s.faultEnd o then
    (if stop then enterIdle o (ackOpen o s)
    else s.modPath o fun p => { p with halted := p.halted && !p.resumeDeferred, resumeDeferred := false })
  else s

def execDischargeComplete (outlet : Nat) (s : State) : Host.Outcome State Fault Refusal := pathRow outlet (dischargeCompleteEffect outlet) s

/-- R190: STOP_TIMEOUT_MS since entry to STOPPING. -/
def stopTimeoutEffect (o : Nat) (s : State) : State :=
  if s.now < (s.path o).since + s.stopTimeoutMs o * 1000000 then s
  else match (s.path o).state with
  | .stopping => faultPath o 0x43 [] 0x0D 0 (safeStopOutlet o (setDrive o false s))
  | .discharging => faultPath o 0x43 [] 0x0D 0 s
  | _ => s

def execStopTimeout (outlet : Nat) (s : State) : Host.Outcome State Fault Refusal := pathRow outlet (stopTimeoutEffect outlet) s

/-! ### Shorts and phases (R207 to R213) -/

/-- R207: an outlet start that is shorted. -/
def shortStart (o i : Nat) (s : State) : State :=
  let s1 := forAll (s.heldStages o) (haltStage · true) (setDrive o false s)
  faultPath o 0x42 (toLE 1 i) 0x05 i s1

/-- R207: the short condition has held for 2 ms: the transfer that tracks, or the outlet that starts. -/
def shortEffect (i : Nat) (s : State) : State :=
  let st := s.stage i
  if !s.shorted i || !heldFor st.shortAt 2000000 s.now then s
  else if st.xfer == .tracking then failXfer i 9 s
  else match st.outlet with
    | none => s
    | some o => shortStart o i s

def execShortAtStart (stage : Nat) (s : State) : Host.Outcome State Fault Refusal :=
  live (fun s => if stage < 32 then restPower (settleVehicles (shortEffect stage s)) else s) s

/-- R208: over the window the phase sum differs from the output sensor by more than the tolerance; in units of 100 × 512 A / 32768. -/
def sumImplausible (s : State) (i : Nat) : Bool :=
  let w := (s.stage i).win
  decide (max (6400 * s.psumTolA * w.periods) (s.psumTolPct * (2 * w.output).natAbs) < 100 * (w.phases - 2 * w.output).natAbs)

/-- R209: the sense of a running phase has failed: a sample out of range in the window, or FROZEN_SAMPLES identical ones. -/
def senseFailed (s : State) (i k : Nat) : Bool :=
  let st := s.stage i
  (s.runMask i).getLsbD k && (st.win.bad.getLsbD k || decide (s.frozenSamples ≤ (st.frozenRun.getD k (0, 0)).2))

/-- R210: the phase was low and saturated in every UPLINK of the window. -/
def senseLow (s : State) (i k : Nat) : Bool := let w := (s.stage i).win; w.periods != 0 && w.low.getLsbD k

/-- R208 to R213: the checks at the end of one window; the next one begins. -/
def phaseCheckEffect (i : Nat) (s : State) : State :=
  if !s.stPresent i then s
  else
    let bad := sumImplausible s i
    let failed := (List.range 4).filter (senseFailed s i)
    let fresh := fun t : State => t.modStage i fun st => { st with win := {} }
    if bad && failed.isEmpty then safeStop i (raise (24 + i / 4) 0x22 i [] (fresh s))
    else forAll (List.range 4) (fun k t =>
      if failed.contains k then dropPhase i k 0x21 t
      else if !bad && senseLow s i k then dropPhase i k 0x20 t else t) (fresh s)

def execPhaseCheckWindow (stage : Nat) (s : State) : Host.Outcome State Fault Refusal :=
  live (fun s => if stage < 32 then restPower (settleVehicles (phaseCheckEffect stage s)) else s) s

/-- R209: a run of FROZEN_SAMPLES is complete. -/
def execPhaseSenseFailed (stage phase : Nat) (s : State) : Host.Outcome State Fault Refusal :=
  live (fun s => if stage < 32 && phase < 4 && senseFailed s stage phase then restPower (settleVehicles (dropPhase stage phase 0x21 s)) else s) s

end Sys2Proof.Machine
end

