-- ==== Sys2Proof/Machine/ProfileCheck.lean ====
section
/-! DEFINITION. The checks of a profile image (R40): header, owner, signature, digest, firmware, sections with their field ranges, and resources. Section checks are made on a candidate state, whose active profile is the image. -/

namespace Sys2Proof.Machine

/-- A value lies in lo to hi. -/
def within (lo hi v : Nat) : Bool := decide (lo ≤ v) && decide (v ≤ hi)

def allOf (n : Nat) (f : Nat → Bool) : Bool := (List.range n).all f

/-- No value twice. -/
def distinct (l : List Nat) : Bool := decide l.Nodup

/-- The candidate state: the state as if the image were active. -/
def State.withImage (s : State) (img : List Byte) : State := { s with prof := { s.prof with active := some { image := img } } }

/-! ### Header, signature and table (R34 to R36) -/

def imageSigLen (img : List Byte) : Nat := if u8 img 0x12 = 1 then 64 else 96
def sigStart (img : List Byte) : Nat := img.length - imageSigLen img

/-- Check 2 of R40. -/
def headerOk (img : List Byte) : Bool :=
  bytesAt img 0 4 == [0x43, 0x4B, 0x53, 0x50] && u16 img 4 == 1 && u16 img 6 == 128
    && u32 img 8 == img.length && within 256 2097152 img.length && within 1 13 (u16 img 0x10)
    && within 1 2 (u8 img 0x12) && u8 img 0x13 ≤ 1 && allZero img 0x60 28 && u32 img 0x7C == crc32c (img.take 0x7C)

/-- Check 7: one entry of the section table. -/
def entryOk (img : List Byte) (i : Nat) : Bool :=
  let e := tableEntry img i
  within 1 13 e.1 && u16 img (130 + 16 * i) == 1 && e.2.1 % 8 == 0 && decide (128 + 16 * u16 img 0x10 ≤ e.2.1)
    && decide (e.2.1 + e.2.2 ≤ sigStart img) && u32 img (140 + 16 * i) == crc32c ((img.drop e.2.1).take e.2.2)

/-- Check 7: the section table, the section CRCs, and the mandatory sections. -/
def tableOk (img : List Byte) : Bool :=
  let n := u16 img 0x10
  allOf n (entryOk img) && distinct ((List.range n).map fun i => (tableEntry img i).1)
    && [1, 2, 3, 5].all fun t => (imageSection? img t).isSome

/-! ### SITE, OUTLETS and ALLOCATOR (R22 to R24, R37 to R39, R146, R147) -/

def siteRecOk (sec : List Byte) (i : Nat) : Bool :=
  let r := bytesAt sec (8 + 16 * i) 16
  if u8 r 0 = 0 then allZero r 0 16
  else u8 r 0 == 1 && within 1 4 (u8 r 1) && within 1 600 (u16 r 2) && within 1 1250 (u16 r 4) && within 1 800 (u16 r 6) && allZero r 8 8

def siteOk (c : State) : Bool :=
  let sec := c.sec 1
  sec.length == 520 && within 1 30 (u16 sec 0) && within 500 10000 (u16 sec 2) && allZero sec 4 4 && allOf 32 (siteRecOk sec)

/-- The outlets that satisfy a condition. -/
def outletsWith (p : Nat → Bool) : List Nat := (List.range 8).filter p

def outletRecOk (c : State) (o : Nat) : Bool :=
  let r := bytesAt (c.sec 2) (32 * o) 32
  if u8 r 0 = 0 then allZero r 0 12 && u8 r 12 == 0xFF && u8 r 13 == 0xFF && allZero r 14 18
  else u8 r 0 ≤ 4 && u8 r 1 ≤ 1 && (u8 r 0 != 4 || u8 r 1 == 1) && u8 r 2 ≤ 3 && 1 ≤ u8 r 3
    && within 1 3000 (u16 r 4) && within 1 1250 (u16 r 6) && u16 r 8 ≤ u16 r 6 && within 1 3750 (u16 r 10)
    && (if u8 r 0 = 3 then decide (u8 r 12 ≤ 7) else u8 r 12 == 0xFF) && u8 r 13 ≤ 23 && allZero r 14 18

def outletsOk (c : State) : Bool :=
  (c.sec 2).length == 256 && allOf 8 (outletRecOk c)
    && distinct ((outletsWith c.outActive).map c.contactorGpio)
    && distinct ((outletsWith fun o => c.personality o == 3).map c.chademoCan)

/-- R147: the transfer budget in ms. -/
def transferBudget (c : State) : Nat :=
  let iMax := ((List.range 32).filter c.stPresent).map c.stIMaxA |>.foldl max 0
  ceilDiv iMax c.rampAPerMs + 1 + 2 * (c.xpOperateMs + 1) + c.trackTimeoutMs

def allocatorOk (c : State) : Bool :=
  let sec := c.sec 3
  sec.length == 64 && u32 sec 0 ≤ 100000 && u32 sec 4 ≤ 100000 && (u8 sec 8 ≤ 23 || u8 sec 8 == 0xFF) && u8 sec 9 ≤ 1
    && u16 sec 0x0A ≤ 5000 && within 800 1000 (u16 sec 0x0C) && within 50 1250 (u16 sec 0x0E) && within 10 1000 (u16 sec 0x10)
    && within 10 500 (u16 sec 0x12) && within 2 30 (u8 sec 0x14) && within 1 8 (u8 sec 0x15) && u16 sec 0x16 ≤ 60000
    && u16 sec 0x18 ≤ 60000 && u16 sec 0x1A ≤ 200 && allZero sec 0x1E 2 && u32 sec 0x20 ≤ 100000
    && allOf 8 (fun o => c.cableFallbackA o ≤ 3000) && allZero sec 0x34 12
    && (outletsWith c.outActive).all (fun o => c.contactorGpio o != c.fastCapGpio)
    && transferBudget c ≤ 40

/-! ### SETPOINT (R218 to R220) and the contacts of R384 -/

def setpointRecOk (c : State) (o : Nat) : Bool :=
  let r := bytesAt (c.sec 8) (16 + 64 * o) 64
  let h := fun off lo hi => within lo hi (u16 r off)
  if !c.outActive o then allZero r 0 0x29 && u8 r 0x29 == 0xFF && allZero r 0x2A 22
  else h 0 1 1000 && h 2 1 1000 && h 4 1 1000 && h 6 1 500 && h 8 1 500 && h 0x0A 1 500 && h 0x0C 1 1000 && h 0x0E 1 500
    && h 0x10 1 100 && h 0x12 1 50 && u8 r 0x14 ≤ 100 && within 1 100 (u8 r 0x15) && h 0x16 1 10000
    && u16 r 0x1A ≤ 0x7FFF && u16 r 0x18 ≤ u16 r 0x1A && h 0x1C 1 200 && h 0x1E 1 50 && h 0x20 10 120 && h 0x22 1 500
    && h 0x24 100 10000 && h 0x26 100 60000 && u8 r 0x28 ≤ 15 && (u8 r 0x29 ≤ 23 || u8 r 0x29 == 0xFF)
    && h 0x2A 1 100 && h 0x2C 100 2000 && allZero r 0x2E 18
    && decide (max (u16 r 0x1C) (u16 r 0x1E) * c.vFloorV ≤ c.startReserveKw * 1000)

/-- GPIO contacts in use: outlet contactors, declared feedback contacts, the fast cap, and the fans' PWM outputs. -/
def contactorGpios (c : State) : List Nat := (outletsWith c.outActive).map c.contactorGpio
def feedbackGpios (c : State) : List Nat :=
  if c.hasSec 8 then ((outletsWith c.outActive).map c.contactorFbGpio).filter (· != 0xFF) else []
def fastGpios (c : State) : List Nat := [c.fastCapGpio].filter (· != 0xFF)
def pwmGpios (c : State) : List Nat := ((List.range 8).map fun l => c.loopB l 3).filter (· != 0xFF)

def setpointOk (c : State) : Bool :=
  !c.hasSec 8 ||
    (let sec := c.sec 8
     sec.length == 528 && within 100 10000 (u16 sec 0) && within 10 1000 (u16 sec 2) && within 5 200 (u16 sec 4) && within 2 100 (u16 sec 6)
      && within 1 20 (u8 sec 8) && within 5 50 (u8 sec 9) && within 16 1024 (u16 sec 0x0A) && within 20 200 (u16 sec 0x0C) && allZero sec 0x0E 2
      && allOf 8 (setpointRecOk c)
      && distinct ((outletsWith c.outActive).map c.inletAcq)
      && distinct (feedbackGpios c) && (feedbackGpios c).all (fun g => !(contactorGpios c ++ fastGpios c).contains g))

/-- R384. -/
def vehicleContactsOk (c : State) : Bool :=
  let used := contactorGpios c ++ feedbackGpios c ++ fastGpios c ++ pwmGpios c
  allOf 8 fun o =>
    match c.personality o with
    | 3 => !used.contains (3 * o) && !used.contains (3 * o + 1) && !used.contains (3 * o + 2)
    | 1 | 2 => !c.hasSec 8 || c.contactorFbGpio o != 0xFF
    | _ => true

/-! ### Law sections (R225, R232, R236, R244 to R249, R265 to R270) -/

/-- R245: w[a] for every address of a program, the first word first. -/
def wcets : List Nat → List Nat
  | [] => []
  | w :: rest =>
    let t := wcets rest
    let next := t.getD 0 0
    let jump := 2 + t.getD (lwOff w - 1) 0
    let here :=
      if lwOp w = 0x3F then 1
      else if lwOp w = 0x30 then (if lwRd w = 9 then jump else max (1 + next) jump)
      else ((lawForm (lwOp w)).map (·.cycles)).getD 1 + next
    here :: t

/-- R244: forward branches inside the program. -/
def branchesOk : List Nat → Bool
  | [] => true
  | w :: rest => (lwOp w != 0x30 || (1 ≤ lwOff w && lwOff w ≤ rest.length)) && branchesOk rest

/-- 1 + the highest value that a word shows, or 0. -/
def usedMax (l : List Nat) (f : Nat → Option Nat) : Nat := (l.filterMap f).foldl (fun m v => max m (v + 1)) 0

/-- R266: the values that the code defines. -/
def inUsed (l : List Nat) : Nat := usedMax l fun w => if lwOp w = 4 then some (lwK w) else none
def outUsed (l : List Nat) : Nat := usedMax l fun w => if lwOp w = 5 then some (lwK w) else none
def coefUsed (l : List Nat) : Nat := usedMax l fun w =>
  if lwOp w = 1 ∨ lwOp w = 0x0C ∨ lwOp w = 0x0D then some (lwK w) else if lwOp w = 0x25 then some (lwK w + 32) else none
def stateUsed (l : List Nat) : Nat := usedMax l fun w =>
  if lwOp w = 2 ∨ lwOp w = 3 then some (lwK w) else if lwOp w = 0x15 ∨ lwOp w = 0x16 then some (lwK w + 2) else none

/-- The words of a program entry. -/
def progWords (sec e : List Byte) : List Nat := (List.range (u16 e 2)).map fun k => u32 sec (u32 e 0x0C + 4 * k)

/-- R266: the directory entry of a program. -/
def progEntryOk (sec e : List Byte) : Bool :=
  u16 e 0 ≤ 0xFFFE && within 1 4096 (u16 e 2) && u32 e 0x0C % 4 == 0 && u32 e 0x0C + 4 * u16 e 2 ≤ sec.length

/-- R266, R244, R245, R270: the code of one program. -/
def programOk (sec e : List Byte) : Bool :=
  let ws := progWords sec e
  ws.all lawWordOk && branchesOk ws && lwOp (ws.getLastD 0) == 0x3F && u16 e 4 == (wcets ws).getD 0 0
    && u8 e 6 == inUsed ws && u8 e 7 == outUsed ws && u16 e 8 == coefUsed ws && u16 e 8 ≤ 256 && u16 e 0x0A == stateUsed ws && u16 e 0x0A ≤ 256

def progEntries (sec : List Byte) : List (List Byte) := (List.range (u16 sec 0)).map fun k => bytesAt sec (16 + 16 * k) 16
def coefEntries (sec : List Byte) : List (List Byte) := (List.range (u16 sec 2)).map fun k => bytesAt sec (16 + 16 * u16 sec 0 + 8 * k) 8

def coefBlockOk (sec e : List Byte) : Bool :=
  u16 e 0 ≤ 0xFFFE && within 1 256 (u16 e 2) && u32 e 4 % 2 == 0 && u32 e 4 + 2 * u16 e 2 ≤ sec.length

/-- R265 to R267: the header and the directory of LAW_PROGRAMS. -/
def programDirOk (sec : List Byte) : Bool :=
  within 1 1024 (u16 sec 0) && u16 sec 2 ≤ 1024 && allZero sec 4 12 && 16 + 16 * u16 sec 0 + 8 * u16 sec 2 ≤ sec.length
    && distinct ((progEntries sec).map (u16 · 0)) && distinct ((coefEntries sec).map (u16 · 0))
    && (progEntries sec).all (progEntryOk sec) && (coefEntries sec).all (coefBlockOk sec)

/-- R232: the numbers of signals of a kind. -/
def kindCount (k : Nat) : Nat :=
  match k with
  | 1 | 2 | 9 | 0x20 => 128
  | 3 | 4 | 5 | 6 | 7 | 8 | 0x21 => 32
  | 0x0A | 0x0B | 0x0C | 0x0D | 0x0E | 0x0F | 0x10 | 0x22 => 8
  | 0x11 => 16
  | 0x30 => 256
  | _ => 0

def signalExists (id : Nat) : Bool := id % 1024 < kindCount (id / 1024)
def inBindOk (id : Nat) : Bool := signalExists id && (id / 1024 < 0x20 || id / 1024 == 0x30)

/-- R225: the signals that a class may write. -/
def outBindOk (cls owner id : Nat) : Bool :=
  signalExists id && (id / 1024 == 0x30 || (match cls with
    | 1 => id == sigId 0x20 owner
    | 2 => id == sigId 0x21 owner
    | 3 => id == sigId 0x22 owner
    | _ => false))

/-- R225: owner and rate of a class. -/
def classOk (rate : Nat) (r : List Byte) : Bool :=
  match srClass r with
  | 0 => srOwner r == 0xFF
  | 1 => srOwner r < 128 && srDiv r == 0
  | 2 => srOwner r < 32 && decide (rate ≤ 50000 * 2 ^ srDiv r)
  | 3 => srOwner r < 8 && decide (rate ≤ 10000 * 2 ^ srDiv r)
  | _ => false

/-- R269: the fields of a slot record lie in range, and its reserved bytes and unused bindings are 0. -/
def slotFieldsOk (r : List Byte) : Bool :=
  srSlot r ≤ 1023 && srEngine r ≤ 7 && srDiv r ≤ 8 && srOffset r < 2 ^ srDiv r && srOrder r ≤ 1023 && srState r ≤ 256
    && srIns r ≤ 32 && srOuts r ≤ 16 && u8 r 0x11 == 0 && srInjMax r ≤ 0x7FFF && allZero r 0x14 12
    && allZero r (0x20 + 2 * srIns r) (64 - 2 * srIns r) && allZero r (0x60 + 2 * srOuts r) (32 - 2 * srOuts r)

/-- R225, R232, R270: what one slot record names. -/
def slotRecOk (c : State) (rate : Nat) (r : List Byte) : Bool :=
  let prog := progEntry (c.sec 4) (srProgram r)
  let coef := if srCoef r = 0xFFFF then some (0 : Nat) else (coefEntry (c.sec 4) (srCoef r)).map (u16 · 2)
  classOk rate r && (srInIds r).all inBindOk && (srOutIds r).all (outBindOk (srClass r) (srOwner r))
    && (match prog, coef with
      | some e, some w => u8 e 6 ≤ srIns r && u8 e 7 ≤ srOuts r && u16 e 8 ≤ w && u16 e 0x0A ≤ srState r
      | _, _ => false)

/-- R236: one writer for each output, and the writers that the site needs. -/
def writersOk (c : State) (recs : List (List Byte)) : Bool :=
  let outs := recs.flatMap fun r => (srOutIds r).eraseDups
  distinct outs
    && allOf 32 (fun i => !c.stPresent i || (outs.contains (sigId 0x21 i) && allOf (c.stPhases i) fun k => outs.contains (sigId 0x20 (4 * i + k))))
    && allOf 8 (fun o => !c.outActive o || outs.contains (sigId 0x22 o))

/-- R268, R246: the header of LAW_SCHEDULE. -/
def scheduleHeaderOk (sec : List Byte) : Bool :=
  within 20000 200000 (u32 sec 0) && 25000000 % u32 sec 0 == 0 && 1 ≤ u16 sec 4 && u8 sec 6 ≤ 50 && allZero sec 7 9

/-- R270, first row: headers, directories, offsets and lengths, unique IDs and reserved bytes of both law sections. -/
def lawLayoutOk (c : State) : Bool :=
  let sec := c.sec 5
  let recs := schedRecs sec
  scheduleHeaderOk sec && sec.length == 16 + 128 * u16 sec 4 && programDirOk (c.sec 4) && recs.all slotFieldsOk
    && distinct (recs.map srSlot) && distinct (recs.map fun r => 1024 * srEngine r + srOrder r)

/-- R270: the other rows with the cause SECTION_BAD. -/
def lawsOk (c : State) : Bool :=
  let recs := schedRecs (c.sec 5)
  (progEntries (c.sec 4)).all (programOk (c.sec 4)) && recs.all (slotRecOk c (u32 (c.sec 5) 0)) && writersOk c recs

def sumNat (l : List Nat) : Nat := l.foldl (· + ·) 0

/-- R230: what one engine stores. -/
def engineFits (c : State) (recs : List (List Byte)) (e : Nat) : Bool :=
  let mine := recs.filter fun r => srEngine r == e
  let size := fun (entry : List Byte → Nat → Option (List Byte)) (ids : List Nat) =>
    sumNat (ids.eraseDups.map fun id => ((entry (c.sec 4) id).map (u16 · 2)).getD 0)
  decide (size progEntry (mine.map srProgram) ≤ 8192) && decide (size coefEntry (mine.map srCoef) ≤ 8192)
    && decide (sumNat (mine.map srState) ≤ 8192)

/-- R249. -/
def loadFits (c : State) (recs : List (List Byte)) (e : Nat) : Bool :=
  let sec := c.sec 5
  decide (highestLoad (c.sec 4) recs e ≤ windowCycles (u32 sec 0) * (100 - u8 sec 6) / 100)

/-! ### THERMAL and TABLES (R342, R343, R366 to R370) -/

def c8 (c : State) (l i : Nat) : Nat := u8 (c.sec 6) (0x70 + 16 * l + i)

/-- R367: an unused loop. -/
def loopUnused (c : State) (l : Nat) : Bool :=
  c8 c l 0 == 0xFF && c8 c l 1 == 0xFF && c8 c l 2 == 0xFF && c8 c l 3 == 0xFF && allZero (c.sec 6) (0x74 + 16 * l) 12

def loopOk (c : State) (l : Nat) : Bool :=
  let flow := c8 c l 0
  loopUnused c l ||
    ((flow == 0xFF || (flow &&& 0xB8) == 0) && (c8 c l 1 ≤ 11 || c8 c l 1 == 0xFF) && (c8 c l 2 ≤ 11 || c8 c l 2 == 0xFF)
      && (c8 c l 3 ≤ 23 || c8 c l 3 == 0xFF) && within 1 10000 (c.loopH l 4) && c.loopH l 6 ≤ 10000 && within 2 100 (c8 c l 8)
      && c8 c l 9 < c8 c l 8 && c8 c l 10 ≤ c8 c l 11 && c8 c l 11 ≤ 100 && c.loopH l 12 ≤ 3600 && within 1 500 (c.loopH l 14))

def phaseExists (c : State) (p : Nat) : Bool := p < 128 && c.stPresent (p / 4) && p % 4 < c.stPhases (p / 4)
def stageExists (c : State) (i : Nat) : Bool := i < 32 && c.stPresent i
def outletExists (c : State) (o : Nat) : Bool := o < 8 && c.outActive o

/-- R343: the quantity exists. -/
def qtyOk (c : State) (kind index : Nat) : Bool :=
  match kind with
  | 1 => phaseExists c index
  | 2 => stageExists c index
  | 3 => outletExists c index
  | 4 => index < 256 && stageExists c (index / 8) && outletExists c (index % 8)
  | 5 => index == 0
  | _ => false

/-- R343: the binding matches the quantity. -/
def bindOk (c : State) (r : List Byte) : Bool :=
  let i := orBindIndex r
  let q := orQtyKind r
  match orBindKind r with
  | 0 => i == 0
  | 1 => phaseExists c i && q == 1 && orQtyIndex r == i
  | 2 => stageExists c i && ((q == 2 && orQtyIndex r == i) || (q == 4 && orQtyIndex r / 8 == i))
  | 3 => outletExists c i && q == 3 && orQtyIndex r == i
  | 4 => i == 0 && q == 5 && u8 r 0 == 7
  | _ => false

/-- R348, R370: a sensor ID. -/
def sensorOk (c : State) (id : Nat) : Bool :=
  let i := id % 2048
  match id / 4096 with
  | 0 => true
  | 1 => i < 24 && c.rtdEnabled i && (id / 2048 % 2 == 0 || c.member)
  | 2 => i < 128 && c.laneInUse (i / 8)
  | _ => false

/-- R368: R_1 to R_4, or C_1 to C_4. -/
def ladderOk (r : List Byte) (off hi : Nat) : Bool :=
  allOf 4 fun k => let v := u32 r (off + 4 * k); if k < orOrder r then within 1 hi v else v == 0

def tableIds (c : State) : List Nat := (List.range (u16 (c.sec 7) 0)).map fun k => u16 (c.sec 7) (16 + 136 * k)

def objectOk (c : State) (j : Nat) : Bool :=
  let r := c.objRec j
  within 1 7 (u8 r 0) && within 1 4 (orOrder r) && bindOk c r && qtyOk c (orQtyKind r) (orQtyIndex r) && orFlags r < 8
    && decide (-400 ≤ i16 r 8 ∧ i16 r 8 ≤ 2500) && within 1 10000 (u16 r 0x0A) && within 1 120 (orHorizon r)
    && (orLoop r == 0xFF || (orLoop r < 8 && !loopUnused c (orLoop r))) && within 5 200 (u8 r 0x0E) && within 1 (orOrder r) (orSenseNode r)
    && sensorOk c (orSensor0 r) && sensorOk c (orSensor1 r) && sensorOk c (orRef r)
    && ladderOk r 0x18 100000000 && ladderOk r 0x28 4000000000 && u32 r 0x38 ≤ 1000000 && u16 r 0x40 ≤ 10000
    && (orLut r == 0xFFFF || (tableIds c).contains (orLut r)) && orVRef r ≤ 1600
    && (!(orQtyKind r == 3 || orQtyKind r == 5) || orVRef r == 0) && 1 ≤ orXMax r && orObsTau r ≤ 60000
    && allOf 4 (fun k => u16 r (0x4A + 2 * k) ≤ 0x7FFF) && 256 ≤ orNoflow r && allZero r 0x56 10

def rtdEntryOk (c : State) (i : Nat) : Bool := u8 (c.sec 6) (0x12 + 4 * i) ≤ 1 && u8 (c.sec 6) (0x13 + 4 * i) == 0

/-- The switch channels that the loops name. -/
def loopChannels (c : State) : List Nat := ((List.range 8).flatMap fun l => [c.loopB l 1, c.loopB l 2]).filter (· != 0xFF)

def thermalOk (c : State) : Bool :=
  !c.hasSec 6 ||
    ((c.sec 6).length == 240 + 96 * c.objCount && allZero (c.sec 6) 1 15 && allOf 24 (rtdEntryOk c) && allOf 8 (loopOk c)
      && allOf c.objCount (objectOk c) && distinct (loopChannels c)
      && (pwmGpios c).all fun g => !(contactorGpios c ++ feedbackGpios c ++ fastGpios c).contains g)

def tablesOk (c : State) : Bool :=
  let sec := c.sec 7
  !c.hasSec 7 ||
    (u16 sec 0 ≤ 128 && sec.length == 16 + 136 * u16 sec 0 && allZero sec 2 14 && distinct (tableIds c)
      && allOf (u16 sec 0) fun k => u16 sec (16 + 136 * k) ≤ 0xFFFE && allZero sec (18 + 136 * k) 2)

/-! ### SWITCH (R577) -/

/-- The byte of channel n at offset i of its entry. -/
def swB (c : State) (n i : Nat) : Nat := u8 (c.sec 9) (0x10 + 8 * n + i)
def swH (c : State) (n i : Nat) : Nat := u16 (c.sec 9) (0x10 + 8 * n + i)

def switchRecOk (c : State) (n : Nat) : Bool :=
  let openUa := u16 (c.sec 9) (0x78 + 16 * (swB c n 0 - 7))
  swB c n 0 ≤ 8 && swB c n 1 < 4 && swB c n 2 ≤ 15 && swB c n 3 == 0 && within 100 60000 (swH c n 4) && swH c n 6 == 0
    && (swB c n 0 < 7 || bitOf (swB c n 1) 1 || !(within 1 7999 openUa))

def userOk (c : State) (u : Nat) : Bool :=
  let h := fun i lo hi => within lo hi (u16 (c.sec 9) (0x70 + 16 * u + i))
  h 0 5 120 && h 2 1 2000 && h 4 5 60 && h 6 10 5000 && h 8 0 60000 && h 10 10 60000 && h 12 1 1000 && h 14 0 0

def gangOk (c : State) (g : Nat) : Bool :=
  !bitOf (u8 (c.sec 9) 0) g || (swB c (2 * g) 0 == swB c (2 * g + 1) 0 && swB c (2 * g) 1 == swB c (2 * g + 1) 1
    && swB c (2 * g) 2 == swB c (2 * g + 1) 2 && swH c (2 * g) 4 == swH c (2 * g + 1) 4)

def switchOk (c : State) : Bool :=
  (!c.hasSec 9 ||
    ((c.sec 9).length == 144 && u8 (c.sec 9) 0 < 64 && allZero (c.sec 9) 1 15 && allOf 12 (switchRecOk c) && allOf 2 (userOk c) && allOf 6 (gangOk c)))
    && (loopChannels c).all fun n => c.hasSec 9 && swB c n 0 != 0 && !(n % 2 == 1 && bitOf (u8 (c.sec 9) 0) (n / 2))

/-! ### CAN (R400 to R402) -/

/-- R401: BRP × (1 + TSEG1 + TSEG2). -/
def timingDiv (w : Nat) : Nat := (bits w 0 5 + 1) * (1 + (bits w 5 8 + 1) + (bits w 13 7 + 1))

/-- R401, R398: a timing word with its rate limits in bit/s. -/
def timingOk (nominal : Bool) (lo hi w : Nat) : Bool :=
  let t1 := bits w 5 8 + 1
  let t2 := bits w 13 7 + 1
  bits w 27 5 == 0 && (if nominal then decide (2 ≤ t1) && decide (t2 ≤ 128) else decide (t1 ≤ 32) && decide (t2 ≤ 16))
    && decide (bits w 20 7 + 1 ≤ t2) && decide (lo * timingDiv w ≤ 80000000) && decide (80000000 ≤ hi * timingDiv w)

def nominalOk (w : Nat) : Bool := timingOk true 10000 1000000 w
def dataOk (w : Nat) : Bool := timingOk false 0 8000000 w
def xlOk (w : Nat) : Bool := timingOk false 0 20000000 w

/-- R402: one filter entry. -/
def filterEntryOk (r : List Byte) (off last : Nat) : Bool :=
  u32 r (off + 4) < 2 ^ 30 && u8 r (off + 8) ≤ last && u8 r (off + 11) == 0
    && (bits (u32 r off) 30 2 == 3 || allZero r (off + 9) 2)

def canRecOk (r : List Byte) : Bool :=
  let feature := bitOf (u8 r 1)
  let n := u8 r 2
  if u8 r 0 = 0 then allZero r 0 512
  else u8 r 0 == 1 && n ≤ 8 && (!feature 6 || 1 ≤ n) && u8 r 3 == 0 && nominalOk (u32 r 4)
    && (u32 r 8 == 0 || dataOk (u32 r 8)) && (u32 r 0x0C == 0 || xlOk (u32 r 0x0C))
    && (!feature 0 || u32 r 8 != 0) && (!feature 1 || u32 r 0x0C != 0)
    && (if feature 7 then allOf 3 (fun k => within 1 63 (u8 r (0x11 + k))) else allZero r 0x11 3)
    && (if feature 6 then within 10 10000 (u16 r 0x14) else u16 r 0x14 == 0) && allZero r 0x16 2
    && allOf 8 (fun k => if k < n then nominalOk (u32 r (0x18 + 8 * k)) && (u32 r (0x1C + 8 * k) == 0 || dataOk (u32 r (0x1C + 8 * k)))
        else allZero r (0x18 + 8 * k) 8)
    && filterEntryOk r 0x58 1 && allOf 32 (fun k => filterEntryOk r (0x64 + 12 * k) 2) && u8 r 0x1E4 ≤ 1 && allZero r 0x1E5 27

/-- R24, R401: the controller of a CHADEMO outlet. -/
def chademoCanOk (c : State) (o : Nat) : Bool :=
  let r := c.canRec (c.chademoCan o)
  c.personality o != 3 || (u8 r 0 == 1 && timingDiv (u32 r 4) == 160 && !bitOf (u8 r 1) 0 && !bitOf (u8 r 1) 1 && !bitOf (u8 r 1) 6)

def canOk (c : State) : Bool :=
  (!c.hasSec 0x0A || ((c.sec 0x0A).length == 4096 && allOf 8 (fun n => canRecOk (c.canRec n)))) && allOf 8 (chademoCanOk c)

/-! ### PLC, PAIR and ACQUISITION (R440, R556, R338) -/

def plcOk (c : State) : Bool :=
  let p := c.sec 0x0B
  let fallback := bitOf (u8 p 1) 3
  !c.hasSec 0x0B ||
    (p.length == 48 && u8 p 0 ≤ 1 && u8 p 1 < 16 && u8 p 2 ≤ 254 && u8 p 3 ≤ 15 && within 1 0xFFFE (u16 p 4) && (u8 p 6 == 50 || u8 p 6 == 60)
      && u8 p 7 ≤ 30 && u8 p 8 ≤ 63 && u8 p 9 ≤ 254 && within 1 32 (u8 p 0x0A) && within 1 150 (u8 p 0x0B) && within 100 10000 (u16 p 0x0C)
      && within 10 3600 (u16 p 0x0E)
      && allOf 4 (fun k => let a := u16 p (0x10 + 4 * k); let b := u16 p (0x12 + 4 * k); (a == 0 && b == 0) || (28 ≤ a && a ≤ b && b ≤ 382))
      && allZero p 0x20 16 && !(fallback && c.member && u8 p 9 == 0) && !(u8 p 9 != 0 && u8 p 9 == u8 p 2))

def pairOk (c : State) : Bool :=
  let p := c.sec 0x0C
  !c.hasSec 0x0C ||
    (p.length == 32 && within 100 2000 (u16 p 0) && 10 ≤ u16 p 2 && 2 * u16 p 2 ≤ u16 p 0 && u8 p 4 < 8 && u8 p 5 < 2 && 16 ≤ u16 p 6
      && within 1 50 (u8 p 8) && allZero p 9 23 && !(bitOf (u8 p 4) 1 && !bitOf (u8 (c.sec 0x0B) 1) 3))

/-- R338: the offsets and lengths of the default entries. -/
def defaultAt (sec : List Byte) : Nat → Nat → List Nat
  | 0, _ => []
  | n + 1, off => off :: defaultAt sec n (off + 8 + u16 sec (off + 2))

/-- R338, R320: one default entry. -/
def defaultOk (c : State) (off : Nat) : Bool :=
  let sec := c.sec 0x0D
  let b := bytesAt sec (off + 8) (u16 sec (off + 2))
  u8 sec off ≤ 7 && u8 sec (off + 1) == 0 && allZero sec (off + 4) 4 && off + 8 + u16 sec (off + 2) ≤ sec.length
    && cfMode b ≤ 1 && cfRangeOk b && cfDistinct b
    && allOf (cfCount b) fun k => let e := cfEntry b k; c.sourcePresent (chKind e) (chIndex e)

def skewOk (sec : List Byte) (k : Nat) : Bool :=
  let off := 32 + 8 * k
  let d := i16 sec (off + 4)
  within 1 8 (u8 sec off) && u8 sec (off + 1) == 0 && decide (-8192 ≤ d ∧ d ≤ 8191) && (u8 sec off != 6 || u16 sec (off + 6) == 0)

def acquisitionOk (c : State) : Bool :=
  let sec := c.sec 0x0D
  let n := u16 sec 2
  let offs := defaultAt sec (u8 sec 4) (32 + 8 * n)
  !c.hasSec 0x0D ||
    (u16 sec 0 ≤ 256 && n ≤ 512 && u8 sec 4 ≤ 8 && allZero sec 5 3 && allZero sec 0x18 8
      && decide (sumNat ((List.range 8).map fun u => u16 sec (8 + 2 * u)) ≤ u16 sec 0)
      && allOf n (skewOk sec) && distinct ((List.range n).map fun k => 65536 * u8 sec (32 + 8 * k) + u16 sec (34 + 8 * k))
      && offs.all (defaultOk c) && distinct (offs.map (u8 sec))
      && sec.length == (match offs.getLast? with | some off => off + 8 + u16 sec (off + 2) | none => 32 + 8 * n))

/-! ### The whole check (R40) -/

/-- Check 7 beyond the table and the layout of the law sections. -/
def sectionsOk (c : State) : Bool :=
  siteOk c && outletsOk c && allocatorOk c && lawsOk c && setpointOk c && vehicleContactsOk c && thermalOk c && tablesOk c && switchOk c
    && canOk c && plcOk c && pairOk c && acquisitionOk c

/-- R518: SITE_KEY_SLOT names a general slot that is empty or holds a key with PLC usage. -/
def siteKeyOk (c : State) : Bool :=
  let i := u8 (c.sec 0x0B) 8
  !c.hasSec 0x0B || (4 ≤ i && ((c.slot i).state == .empty || bitOf (c.slot i).usage 4))

/-- Check 8. -/
def resourcesOk (c : State) : Bool :=
  let recs := schedRecs (c.sec 5)
  allOf 8 (engineFits c recs) && allOf 8 (loadFits c recs) && c.objCount ≤ 96 && siteKeyOk c

/-- R40, checks 2 to 8: the cause of the first failure; R270 puts its first row and its SLOT_COUNT row ahead of the other section checks. -/
def imageCause (s : State) (img : List Byte) : Option Nat :=
  let c := s.withImage img
  let key := s.ownerKey
  if !headerOk img then some 2
  else if !(match key with | some k => bytesAt img 0x20 16 == ownerKeyId k | none => false) then some 3
  else if !Config.ecdsaVerify (key.getD []) (img.take (sigStart img)) (img.drop (sigStart img)) then some 4
  else if bytesAt img 0x30 32 != sha256 ((img.take (sigStart img)).drop 128) then some 5
  else if s.fwVersion < u32 img 0x14 then some 7
  else if !tableOk img || !lawLayoutOk c then some 6
  else if 1024 < u16 (c.sec 5) 4 then some 8
  else if !sectionsOk c then some 6
  else if !resourcesOk c then some 8
  else none

/-- Check 7 ends here for a stored image: R123 runs checks 2 to 7 at LAST. -/
def storeCause (s : State) (img : List Byte) : Option Nat :=
  match imageCause s img with
  | some 8 => if !sectionsOk (s.withImage img) then some 6 else none
  | c => c

/-- The image that a slot holds: none while it is empty or being written (R123). -/
def slotImage (s : State) (i : Nat) : Option (List Byte) :=
  let p := nth s.prof.slots i
  if p.committed && !p.writing then some p.bytes else none

/-- R40: checks 1 to 9; check 9 for SELECT_PROFILE only. -/
def profileCause (s : State) (i : Nat) (select : Bool) : Option Nat :=
  match slotImage s i with
  | none => some 9
  | some img => match imageCause s img with
    | some c => some c
    | none => if select && !bitOf (u8 img 0x13) 0 then some 0x0A else none

end Sys2Proof.Machine
end

