-- ==== Sys2Proof/Machine/PowerOps.lean ====
section
/-! DEFINITION. Shared operations of start and sleep: leaving Sleep (R87, R89), a reset of the controller logic (R68), reset release (R80), a profile taking effect (R26, R29, R258, R308) and the end of Boot (R30, R33, R86). -/

namespace Sys2Proof.Machine

/-! ### Sleep (R87 to R91) -/

/-- R88: cause of the first condition for Sleep that fails, or none. -/
def sleepBlock (s : State) : Option Nat :=
  if ((List.range 32).any fun i => (s.stage i).outEn) || !s.allIdle then some 1
  else if s.anyArmed then some 2
  else if s.capturesArmed then some 3
  else if !s.host.inflight.isEmpty then some 4
  else if !s.host.aspmL1 && s.host.linkGen != 0 then some 5
  else if !s.marginsWide then some 6
  else if s.key.fwWriting || s.prof.slots.any (·.writing) then some 7
  else none

/-- R83: the domains that run in Sleep: AON and Caddis. -/
def sleepClocks : BitVec 12 := 0x401

/-- R87: L1 is requested on PCIe, and the fast clocks stop. -/
def stopClocks (s : State) : State :=
  (toHost .pcieL1 s).modPwr fun p => { p with
    powerState := .sleep, awake := false, dozeTimer := false, sleepAt := s.now, lockedAwake := p.locked, locked := sleepClocks }

/-- R87, R306: entry to Sleep. -/
def enterSleep (s : State) : State := lanesSleep (stopClocks (plcBeforeSleep s))

/-- R87: Doze with the sleep-delay timer started. -/
def restartDoze (s : State) : State := s.modPwr fun p => { p with powerState := .doze, awake := true, dozeTimer := true, dozeAt := s.now }

/-- R92: the entry is abandoned before the clocks stop: the module stays in the same Doze, its lanes as they were, with the timer restarted. -/
def backToDoze (s : State) : State :=
  ilkWake (lanesAwake ((restartDoze s).modPwr fun p => { p with locked := p.lockedAwake }))

/-- R87, R91, R308, R362, R411, R477: the wake of a sleeping module; `mask` holds the enabled sources that asserted. -/
def wakeUp (mask : BitVec 10) (s : State) : State :=
  let asleep := s.now - s.pwr.sleepAt
  let s1 := flushStalled ((restartDoze s).modPwr fun p => { p with wakeCause := mask, locked := 0xFFF, e125Raised := false, refLost := false })
  let s2 := raise 124 (lowestBit mask.toNat 10) 0xFF (toLE 2 mask.toNat) (thmWake asleep (lanesWake s1))
  ilkWake (canDetectAll (metFlush ((when s.pwr.refLost (raise 121 1 1 []) s2).modRec (·.dropSecond))))

/-- R89, R96: an access of the host brings the link out of L1 and completes after the wake. With the source PCIE disabled it wakes nothing and is not taken; without the PCIe clock it is not taken either (R85). -/
def hostRow (f : State → State) (s : State) : Host.Outcome State Fault Refusal :=
  ctl (fun s =>
    let s1 := if !s.pwr.held && s.pwr.powerState == .sleep && s.pwr.wakeEn.getLsbD 8 then wakeUp 0x100 s else s
    if s1.awake && s1.domainUp 6 then f s1 else s1) s

/-! ### Boundary scan (R47, R70) -/

/-- R47: the signal-array positions of CPn and of GPIOn. -/
def cpPosition (n : Nat) : Nat := 24 * 15 + n
def gpioPosition (n : Nat) : Nat := 24 * 10 + 16 + n

/-- R25, R67. -/
def Straps.slot (p : Straps) : Nat := 2 * b2n p.profile1 + b2n p.profile0

/-- R70: the scan drives no CPn and no sole-actor GPIO of the strapped profile; switch-channel commands have no contact of the signal array. -/
def State.scanMayDrive (s : State) (pos : Nat) : Bool :=
  decide (pos < 456) && !(List.range 8).any (fun n => pos == cpPosition n)
    && !(soleActors (imageSection ((slotImage s s.pwr.straps.slot).getD []) 2)).any fun g => pos == gpioPosition g

/-! ### Reset (R68, R77, R79, R510) -/

/-- The key block through a reset: what flash and the SRAM region hold stays. -/
def Keys.atReset (k : Keys) : Keys :=
  { well := k.well, failed := k.failed, certs := k.certs, store := k.store, prev := k.prev, floor := k.floor
    banks := k.banks, active := k.active, staged := k.staged, bootBank := k.bootBank, recovered := k.recovered, passAt := k.passAt }

/-- R68, R576: the switch die keeps its state; the commanded states and the counts of the controller go. -/
def Switch.atReset (w : Switch) : Switch :=
  { ch := w.ch.map fun c => { c with commanded := false }
    cfg := w.cfg, vauxLow := w.vauxLow, vauxMv := w.vauxMv, vauxLowAt := w.vauxLowAt, vauxOkAt := w.vauxOkAt
    lost := w.lost, lostPending := w.lostPending, beatLost := w.beatLost, frozen := w.frozen, frozenAt := w.frozenAt }

/-- R25, R123: a profile slot through a reset: an image that no LAST has committed stays uncommitted. -/
def ProfileSlot.atReset (p : ProfileSlot) : ProfileSlot := { p with writing := false }

/-- R365: the halt and its mark in the AON domain. -/
def Thm.atReset (t : Thm) : Thm := { halted := t.halted, waiting := t.waiting, haltMark := t.haltMark }

/-- R67, R75, R77: the supply, strap, contact and debug-port state through a reset. -/
def Pwr.atReset (p : Pwr) : Pwr :=
  { porArmed := p.porArmed, powered := p.powered, held := p.held, resetNLow := p.resetNLow, tap := p.tap, straps := p.straps, sleepN := p.sleepN
    resetCause := p.resetCause, wdCore := p.wdCore, extQualified := p.extQualified }

/-- R68: every register of the controller logic takes its reset value. Device time, civil time, flash, FRAM, the AON domain, the Caddis die and the switch die keep theirs. -/
def resetLogic (s : State) : State :=
  { pending := s.pending, now := s.now, outs := s.outs, freeIx := s.freeIx, pwr := s.pwr.atReset, civil := s.civil
    prof := { slots := s.prof.slots.map ProfileSlot.atReset }
    thm := s.thm.atReset, sw := (stopBeat s).sw.atReset, met := s.met, key := s.key.atReset, rcd := s.rcd.atReset }

/-- R68, R70, R364: the controller logic is held in reset. -/
def holdReset (s : State) : State := (resetLogic s).modPwr fun p => { p with held := true }

/-- R80: reset release with its cause (R96) and the strap levels sampled: Boot begins. EXT_REF_IN is selected if its clock has qualified (R67). -/
def releaseReset (cause : Nat) (straps : Straps) (s : State) : State :=
  ((resetLogic s).modPwr fun p => { p with
    held := false, powered := true, straps := straps, resetCause := cause, releasedAt := s.now, refExt := p.extQualified }).modThm fun t =>
    { t with halted := false, waiting := none }

/-- R365: a release of a module halted by its die waits until the die is below 95 °C; any other takes effect. -/
def tryRelease (cause : Nat) (straps : Straps) (s : State) : State :=
  if s.thm.halted then (s.modPwr fun p => { p with resetCause := cause }).modThm fun t => { t with waiting := some straps }
  else releaseReset cause straps s

/-! ### A profile takes effect (R26, R29) -/

/-- R199, R219: the runtime copies of the generator parameters; fallback PARAM_CHECK ends. -/
def loadParams (s : State) : State :=
  forAll (List.range 8) (fun o s =>
    let b := bytesAt (s.sec 8) (16 + 64 * o) 16
    let s1 := s.modPath o fun p => { p with params := b, paramsCrc := crc32c b }
    when ((s.path o).fallback == 1) (setFallback o 0) s1) s

/-- R308: the lanes that a change from one image to another makes train again. -/
def lanesChanged (old new : List Byte) (n : Nat) : Bool :=
  let stage := fun img i => bytesAt (imageSection img 1) (8 + 16 * i) 2
  u32 (imageSection old 5) 0 != u32 (imageSection new 5) 0
    || stage old (2 * n) != stage new (2 * n) || stage old (2 * n + 1) != stage new (2 * n + 1)

/-- R539: the pair key under the new MEAS; a REFUSED unit may take a new HELLO exchange (R538). -/
def pairForProfile (s : State) : State :=
  if !s.member then s
  else
    let s1 := when s.pair.helloOk renewPairKey s
    let s2 := s1.modPair fun p => { p with mayRejoin := p.mayRejoin || p.state == .refused }
    when s2.pair.linkUp sendHello s2

/-- R29: the selected profile becomes the active one. -/
def takeProfile (slot : Nat) (img : List Byte) (s : State) : State :=
  let old := match s.prof.active with | some p => p.image | none => []
  let s1 := recProfile (acqProfile s)
  let s2 := s1.modProf fun p => { p with active := some { slot := slot, image := img } }
  let s3 := pairForProfile (measure (loadSwitch s2))
  let s4 := loadParams (thmProfile (loadLaws s3))
  let s5 := plcProfile (canProfile (lanesForProfile (lanesChanged old img) s4))
  sendLanes s5

/-! ### The end of Boot (R80, R82, R86, R501, R514) -/

/-- R2, R80: a bank verifies: its flash is intact and it holds the package from manufacture or one that the Duntil key signs. -/
def bankVerifies (fw : FirmwareBoot) (k : Keys) (b : Nat) : Bool :=
  (if b = 0 then fw.bank0 else fw.bank1) && ((nth k.banks b).isEmpty || Config.fwVerify (nth k.banks b))

/-- R82, R514: the bank that boots: the one marked next, else the active one, and the other when it fails. -/
def bootBankOf (fw : FirmwareBoot) (k : Keys) : Option Nat :=
  let good := bankVerifies fw k
  let first := k.bootBank.getD k.active
  if good first then some first else if good (1 - first) then some (1 - first) else none

/-- R514: the bank is running; a new firmware that failed leaves the store generation before. -/
def startBank (bank : Nat) (s : State) : State :=
  let back := s.key.bootBank.isSome && s.key.bootBank != some bank
  s.modKey fun k => { k with
    active := bank, m2 := stage2 (nth k.banks bank)
    store := if back then k.prev.getD k.store else k.store
    prev := if back then none else k.prev }

/-- R512: the slots as the store gives them under the MEAS of an image. -/
def slotsUnder (img : Option (List Byte)) (s : State) : State :=
  restoreKeys (s.modKey fun k => { k with meas := match img with | some i => measWith k.m2 i | none => k.m2 })

/-- R30, R33: what the strapped slot gives: the cause of E122, and whether the image is refused into Safe. -/
def bootProfileCause (slot : Nat) (s : State) : Option (Nat × Bool) :=
  if s.ownerKey.isNone then some (if (slotImage s slot).isNone then 9 else 3, false)
  else if (slotImage s slot).isNone then some (9, false)
  else (profileCause s slot false).map fun c => (c, true)

/-- The profile at the end of Boot with everything that runs from it. -/
def loadAtBoot (slot : Nat) (img : List Byte) (s : State) : State :=
  let s1 := s.modProf fun p => { p with active := some { slot := slot, image := img } }
  lanesForProfile (fun _ => false) (loadParams (thmProfile (loadLaws (loadSwitch s1))))

/-- R65, R66, R80: Setup, or Safe under R30. -/
def leaveBoot (refused : Bool) (s : State) : State :=
  s.modPwr fun p => { p with
    opState := if refused then .safe else .setup
    powerState := .doze, awake := true, ilkOut := !refused, modFaultLow := refused
    bootProfileOk := !refused, locked := if p.locked.getLsbD 1 then p.locked else 0xFFF, bootFailed := false }

/-- R79, R80, R365: E126, E120 and E52 after a restart. E126 comes before E120 whatever their numbers. -/
def startEvents (s : State) : State :=
  let s1 := match s.pwr.wdCore with
    | some c => settleEvents (raise 126 1 c [] (s.modPwr fun p => { p with wdCore := none }))
    | none => s
  let s2 := raise 120 s1.pwr.resetCause 0xFF [] s1
  if s2.thm.haltMark then raise 52 3 0xFF [] (s2.modThm fun t => { t with haltMark := false }) else s2

/-- R501, R514, R515: E123 and E95, and the end of an installation, in Setup. -/
def firmwareEvents (wanted : Option Nat) (s : State) : State :=
  let ev := fun cause s => raise 123 cause s.key.active (toLE 4 s.fwVersion) s
  let s1 := match wanted with
    | none => s
    | some b =>
      if b == s.key.active then
        ev 1 (s.modKey fun k => { k with bootBank := none, staged := false, prev := none, floor := s.fwVersion })
      else ev 2 (s.modKey fun k => { k with bootBank := none, prev := none })
  let s2 := if s1.key.recovered then ev 3 (s1.modKey fun k => { k with recovered := false }) else s1
  when (decide (s2.pufMargin < 6)) (raise 95 1 0xFF (toLE 1 s2.pufMargin ++ toLE 1 s2.key.well.maxErrors)) s2

/-- R494, R412, R549, R576: what the blocks do as Boot ends. -/
def startBlocks (s : State) : State :=
  let s1 := forAll (List.range 8) canFresh (recStart (metFlush (takeIdent s)))
  let s2 := adoptSwitch s1
  settleAuth (s2.modPair fun p => { p with startAt := s2.now, readbackOk := s2.pwr.ilkOut, pulsesAt := s2.now })

/-- R80: verified firmware has booted from `bank`; the profile is checked and Boot ends. -/
def endBoot (bank : Nat) (s : State) : State :=
  let slot := s.pwr.straps.slot
  let wanted := s.key.bootBank
  let s0 := startBank bank s
  let s1 := slotsUnder (slotImage s0 slot) s0
  let img := (slotImage s1 slot).getD []
  match bootProfileCause slot s1 with
  | none => startBlocks (firmwareEvents wanted (startEvents (leaveBoot false (loadAtBoot slot img s1))))
  | some (c, refused) =>
    let s2 := slotsUnder none s1
    let s3 := startEvents (leaveBoot refused (s2.modFlt fun f => { f with safeCause := if refused then 0x40 else 0 }))
    let s4 := raise 122 c slot (toLE 4 (profileVersion img)) (s3.modPwr fun p => { p with
      operateBlock := if refused then 0 else if s3.ownerKey.isNone then 1 else 2 })
    startBlocks (if refused then s4 else firmwareEvents wanted s4)

end Sys2Proof.Machine
end

