-- ==== Sys2Proof/Machine/Can.lean ====
section
/-! DEFINITION. Meanings of the CAN commands (R398 to R415). -/

namespace Sys2Proof.Machine

/-- A happening on one running controller. -/
def canRow (n : Nat) (f : State → State) (s : State) : Host.Outcome State Fault Refusal :=
  live (fun s => if n < 8 && (s.ctlr n).running && s.domainUp 11 then f s else s) s

/-! ### Receiving (R402, R403, R411) -/

/-- R403: into the FIFO, or dropped and counted. -/
def fifoPut (n : Nat) (e : CanRx) (s : State) : State :=
  let c := s.ctlr n
  if 64 ≤ c.fifo.length then
    when (!c.dropping) (canEvent n 7 []) (s.modCan n fun c => { c with overruns := satAdd 16 c.overruns 1, dropping := true })
  else s.modCan n fun c => { c with fifo := c.fifo ++ [{ e with overrun := c.dropping }], dropping := false }

/-- R402, R403: filter one frame and store it. -/
def storeFrame (n : Nat) (f : CanFrame) (s : State) : State :=
  let count := fun s : State => s.modCan n fun c => { c with rxFrames := c.rxFrames + 1 }
  match frameFate (s.canRec n) f with
  | .reject => s
  | .accept i => fifoPut n { frame := f, filter := i } (count s)
  | .prio =>
    if (s.ctlr n).prio.isSome then fifoPut n { frame := f, prio := true } (count s)
    else canEvent n 6 (toLE 4 f.id) ((count s).modCan n fun c => { c with prio := some { frame := f, prio := true } })

/-- R411: one frame without error during detection. -/
def detectFrame (n : Nat) (f : CanFrame) (s : State) : State :=
  let s1 := s.modCan n fun c => { c with good := c.good + 1, dataVerified := c.dataVerified || decide (2 ≤ f.fmt) }
  let c := s1.ctlr n
  if c.good = 3 then
    canEvent n 9 (toLE 1 c.candidate) (s1.modCan n fun c => { c with accepted := true, quietAt := s.now, rateIndex := c.candidate })
  else s1

/-- R408: REC after a successful reception. -/
def recAfterReception (r : Nat) : Nat := if r = 0 then 0 else if r ≤ 127 then r - 1 else 120

/-- R398: the controller reads the frame's format. -/
def State.canReads (s : State) (n fmt : Nat) : Bool :=
  match fmt with | 0 => true | 1 | 2 => s.canFeature n 0 | 3 => s.canFeature n 1 | _ => false

/-- R398, R399, R402, R403, R408, R411. -/
def frameReceiveEffect (n : Nat) (f : CanFrame) (s : State) : State :=
  let c := s.ctlr n
  if !s.canReads n f.fmt || c.busOff then s
  else if c.mode == .detecting then (if c.accepted then s else detectFrame n f s)
  else
    let s1 := s.modCan n fun c => { c with dataVerified := c.dataVerified || (s.canFeature n 6 && decide (2 ≤ f.fmt)) }
    let s2 := when (c.mode == .normal) (canCount n fun c => { c with recc := recAfterReception c.recc }) s1
    let s3 := storeFrame n f s2
    if c.leaving ≠ 0 then s3 else canOffer n s3

def execCanFrameReceive (ctl : Nat) (frame : CanFrame) (s : State) : Host.Outcome State Fault Refusal :=
  canRow ctl (frameReceiveEffect ctl frame) s

/-- R404, R405. -/
def execCanRxRingWrite (ctl : Nat) (s : State) : Host.Outcome State Fault Refusal :=
  canRow ctl (canRingWrite ctl) s

/-! ### Transmitting (R406, R408) -/

/-- The frame on the wire has been sent; a CHAdeMO controller sends the engine's frames. -/
def txCompleteEffect (n : Nat) (s : State) : State :=
  let c := s.ctlr n
  if !c.canSend then s
  else
    let sent := fun s : State => canCount n (fun c => { c with tec := c.tec - 1, txFrames := c.txFrames + 1 }) s
    match c.onWire with
    | none => if (s.canOwner n).isSome then sent s else s
    | some b =>
      let out := fun s : State => match nth c.tx b with
        | some t =>
          let f := t.frame
          emit (.can n f.fmt f.id f.ide (if f.fmt = 3 then [f.sdt, f.vcid] ++ toLE 4 f.af.toNat else []) f.data) s
        | none => s
      let s1 := (out (sent s)).modCan n fun c => { c with tx := c.tx.set b none, onWire := none }
      canLeave n (endOps (fun k => k == .canSend n b) 0 0 s1)

def execCanTxComplete (ctl : Nat) (s : State) : Host.Outcome State Fault Refusal := canRow ctl (txCompleteEffect ctl) s

/-! ### Errors (R408 to R411) -/

/-- R408: the change of the counters. -/
def errorChange (h : CanHappening) (c : CanCtl) : CanCtl :=
  match h with
  | .error false code d _ _ => { c with recc := c.recc + 1, lastError := code, lastInData := d }
  | .error true code d arb noDom =>
    let exempt := (code == 3 && c.passive && noDom) || (code == 1 && arb)
    { c with tec := c.tec + (if exempt then 0 else 8), lastError := code, lastInData := d }
  | .firstDominant => { c with recc := c.recc + 8 }
  | .flagBit t | .dominantRun t => if t then { c with tec := c.tec + 8 } else { c with recc := c.recc + 8 }

/-- R410: the outcome of an attempt for the buffer on the wire. -/
def attemptEnd (n : Nat) (loss : Bool) (s : State) : State :=
  let c := s.ctlr n
  match c.onWire with
  | none => s
  | some b =>
    match nth c.tx b with
    | none => s
    | some t =>
      let t1 : CanTx := if loss then { t with losses := t.losses + 1, colliding := decide (8 ≤ t.losses + 1) } else { t with losses := 0, colliding := false }
      let s1 := s.modCan n fun c => { c with tx := c.tx.set b (some t1) }
      when (loss && t1.losses == 8) (canEvent n 8 (toLE 1 b ++ toLE 4 t.frame.id)) s1

/-- R410: a recessive bit sent after the arbitration field reads dominant. -/
def collisionLoss : CanHappening → Bool
  | .error true 4 _ false _ => true
  | _ => false

def ownAttempt : CanHappening → Bool
  | .error true .. => true
  | _ => false

/-- R411: an error rejects the candidate, and before acceptance and after it when it falls in an unverified data phase restarts detection. -/
def detectError (n : Nat) (h : CanHappening) (s : State) : State :=
  let c := s.ctlr n
  if c.accepted then
    (match h with
    | .error _ _ true _ _ => if c.dataVerified then s else nextCandidate n (s.modCan n fun c => { c with accepted := false })
    | _ => s)
  else nextCandidate n s

/-- R411: an error in a data phase while DATA_VERIFIED is 0 restarts detection from the next candidate. -/
def unverifiedData (n : Nat) (h : CanHappening) (s : State) : Bool :=
  match h with
  | .error _ _ true _ _ => s.canFeature n 6 && !(s.ctlr n).dataVerified
  | _ => false

/-- R408 to R411 for one happening; a controller in restricted operation keeps its counters (R399). -/
def canErrorEffect (n : Nat) (h : CanHappening) (s : State) : State :=
  let c := s.ctlr n
  let note := fun c' : CanCtl => { c' with lastError := (errorChange h c).lastError, lastInData := (errorChange h c).lastInData }
  if c.busOff then s
  else if c.mode == .detecting then detectError n h (s.modCan n note)
  else
    let s1 := if c.mode == .normal then attemptEnd n (collisionLoss h) (canCount n (errorChange h) s) else s.modCan n note
    let s2 := if 255 < (s1.ctlr n).tec then
        (match s.canOwner n with | some o => canLost o 2 (enterBusOff n s1) | none => enterBusOff n s1)
      else if ownAttempt h then canLeave n s1 else s1
    if unverifiedData n h s then
      nextCandidate n ((canAbortAll n 3 s2).modCan n fun c => { c with mode := .detecting, accepted := false, good := 0, candidate := c.rateIndex, onWire := none })
    else s2

def execCanError (ctl : Nat) (what : CanHappening) (s : State) : Host.Outcome State Fault Refusal :=
  canRow ctl (fun s => settleVehicles (canErrorEffect ctl what s)) s

/-- R409: recovery has counted 128 runs of 11 recessive bits, which take at least so many bit times. -/
def State.recoveryDone (s : State) (n : Nat) : Bool :=
  let c := s.ctlr n
  c.busOff && c.recovering && decide (c.recoverAt + s.canBitsNs n (128 * 11) ≤ s.now)

/-- R409. -/
def execBusOffRecoveryDone (ctl : Nat) (s : State) : Host.Outcome State Fault Refusal :=
  canRow ctl (fun s => if s.recoveryDone ctl then busOffRecovered ctl s else s) s

/-! ### Commands by register (R413) -/

/-- R409, R415: starts recovery in BUS_OFF without AUTO_RECOVER. -/
def recoverWrite (n : Nat) (v : Word) (s : State) : State :=
  let c := s.ctlr n
  if v.getLsbD 0 && c.busOff && !c.recovering && !s.canFeature n 3 then s.modCan n fun c => { c with recovering := true, recoverAt := s.now } else s

/-- R411, R415: the pending buffers abort with DETECTING, and detection starts. -/
def redetectWrite (n : Nat) (v : Word) (s : State) : State :=
  if v.getLsbD 1 && s.canFeature n 6 && (s.ctlr n).running then detectStart n (canAbortAll n 3 s) else s

/-- A write of CAN_CTLn_CMD. -/
def canCmdWrite (n : Nat) (v : Word) (s : State) : State :=
  if n < 8 && (s.ctlr n).running && s.domainUp 11 then redetectWrite n v (recoverWrite n v s) else s

def execRecover (ctl : Nat) (value : Word) (s : State) : Host.Outcome State Fault Refusal :=
  hostRow (fun s => when (value.getLsbD 0) (canCmdWrite ctl value) s) s

def execRedetect (ctl : Nat) (value : Word) (s : State) : Host.Outcome State Fault Refusal :=
  hostRow (fun s => when (value.getLsbD 1) (canCmdWrite ctl value) s) s

/-! ### Detection and restricted operation (R399, R411) -/

def detectWindowMs (s : State) (n : Nat) : Nat := u16 (s.canRec n) 0x14

/-- R411: DETECT_WINDOW_MS has passed without acceptance. -/
def execDetectWindowExpiry (ctl : Nat) (s : State) : Host.Outcome State Fault Refusal :=
  canRow ctl (fun s =>
    let c := s.ctlr ctl
    if c.mode == .detecting && !c.accepted && decide (c.candAt + 1000000 * detectWindowMs s ctl ≤ s.now) then nextCandidate ctl s else s) s

/-- R399, R411: 11 recessive bits have passed. -/
def execCanRestrictedExit (ctl : Nat) (s : State) : Host.Outcome State Fault Refusal :=
  canRow ctl (fun s =>
    let c := s.ctlr ctl
    let free := (c.mode == .detecting && c.accepted) || (c.mode == .restricted && s.leaseHere)
    if free && decide (c.quietAt + s.canBitsNs ctl 11 ≤ s.now) then
      canIdleOffer ctl (s.modCan ctl fun c => { c with mode := listenMode s })
    else s) s

/-! ### CAN_SEND (R406) -/

/-- R398: the lengths of an FD frame. -/
def fdLength (n : Nat) : Bool := n ≤ 8 || [12, 16, 20, 24, 32, 48, 64].contains n

/-- R122, R406: FORMAT with its feature, the identifier's width, DATA_LEN, and the fields of XL. -/
def canSendRange (s : State) (d : Desc) : Bool :=
  let fmt := d.b 8
  let len := d.h 24
  s.canReads d.ix fmt
    && decide (d.w 12 < (if fmt != 3 && bitOf (d.b 9) 0 then 2 ^ 29 else 2 ^ 11))
    && (match fmt with | 0 => len ≤ 8 | 3 => 1 ≤ len && len ≤ 2048 | _ => fdLength len)
    && d.q 16 % 8 == 0 && (fmt == 3 || (d.b 26 == 0 && d.b 27 == 0 && d.w 28 == 0))

/-- R406: a running controller that no outlet reserves. -/
def canSendTarget (s : State) (d : Desc) : Bool := kindBelow 4 8 s d && s.canEnabled d.ix && (s.canOwner d.ix).isNone

def canSendInfo : OpInfo :=
  { code := 0x24, cls := some 1, setup := false, safe := false, acc := .token
    rsvOk := fun d => d.b 9 / 2 == 0 && restZero d [(8, 2), (12, 4), (16, 10), (26, 6)]
    target := canSendTarget, range := canSendRange }

/-- The frame that a descriptor asks for. -/
def descFrame (d : Desc) (data : List Byte) : CanFrame :=
  { fmt := d.b 8, ide := d.b 8 != 3 && bitOf (d.b 9) 0, id := d.w 12, data := padTo (d.h 24) data
    sdt := BitVec.ofNat 8 (d.b 26), vcid := BitVec.ofNat 8 (d.b 27), af := BitVec.ofNat 32 (d.w 28) }

/-- R406, R409, R411: the lowest free buffer takes the frame. -/
def canSendOp (d : Desc) (s : State) : Answer :=
  let n := d.ix
  let c := s.ctlr n
  if c.mode == .detecting then answer stState 3 s
  else if c.leaving = 5 then answer stState 5 s
  else if c.busOff && s.canFeature n 4 then answer stState 2 s
  else match (List.range 3).find? fun b => (nth c.tx b).isNone with
    | none => answer stBusy 0 s
    | some b =>
      match d.input with
      | none => answer stBuffer 0 s
      | some bytes =>
        (canIdleOffer n (startOp d (.canSend n b) (s.modCan n fun c => { c with tx := c.tx.set b (some { frame := descFrame d bytes }) })), none)

def execCanSend (d : Desc) (s : State) : Host.Outcome State Fault Refusal := live (runDesc canSendInfo canSendOp d) s

end Sys2Proof.Machine
end

