-- ==== Sys2Proof/Machine/Host.lean ====
section
/-! DEFINITION. Meanings of the host-interface commands (R97 to R137): the PCIe reset and links, the rings and the doorbell, the event queue, the descriptors of rings, masters, Safe and Ethernet, PTP and civil seconds, bus-master violations (R583 to R588), and the counted events (R615). -/

namespace Sys2Proof.Machine

/-! ### PCIe (R97, R136, R593) -/

/-- R593: the payload of E117. -/
def linkWords (s : State) : List Byte := toLE 1 s.host.linkGen ++ toLE 1 s.host.linkWidth

/-- A happening of the endpoint while the logic is out of reset. -/
def endpointRow (f : State → State) (s : State) : Host.Outcome State Fault Refusal := ctl (fun s => if s.pwr.held then s else f s) s

/-- R81, R136: in Boot only the endpoint restarts. -/
def pcieResetEffect (s : State) : State :=
  if s.pwr.opState == .boot then s.modHost fun h => { h with endpointReady := false, perstAt := s.now }
  else raise 117 3 0xFF (linkWords s) (resetHostRings s)

def execPcieReset (s : State) : Host.Outcome State Fault Refusal := endpointRow pcieResetEffect s

/-- R81: how the endpoint answers a configuration request. -/
inductive ConfigAnswer
  /-- Held in reset, or without supply. -/
  | none
  /-- Configuration Request Retry Status. -/
  | retry
  | normal
  deriving DecidableEq, Repr

/-- R81: with retry until the endpoint is ready, and normally at the latest 100 ms after the later of reset release and the release of PCIE_PERST_N. -/
def State.configAnswer (s : State) : ConfigAnswer :=
  if s.pwr.held || !s.pwr.powered then .none
  else if s.host.endpointReady || decide (max s.pwr.releasedAt s.host.perstAt + 100000000 ≤ s.now) then .normal
  else .retry

/-- R97: the rates and widths of the link. -/
def linkOk (gen width : Nat) : Bool := [2, 3, 4].contains gen && [1, 2, 4].contains width

/-- R81, R97, R593: the link has trained, so the endpoint is ready. -/
def pcieUpEffect (gen width maxRead : Nat) (s : State) : State :=
  if !linkOk gen width then s
  else
    let s1 := s.modHost fun h => { h with linkGen := gen, linkWidth := width, maxRead := maxRead, endpointReady := true }
    raise 117 1 0xFF (linkWords s1) s1

def execPcieLinkUp (gen width maxRead : Nat) (s : State) : Host.Outcome State Fault Refusal := endpointRow (pcieUpEffect gen width maxRead) s

def pcieDownEffect (s : State) : State :=
  let s1 := s.modHost fun h => { h with linkGen := 0, linkWidth := 0 }
  raise 117 2 0xFF (linkWords s1) s1

def execPcieLinkDown (s : State) : Host.Outcome State Fault Refusal := endpointRow pcieDownEffect s

/-! ### Rings (R110, R114, R115, R129, R133) -/

/-- R103: a write of 1 while RINGS_RUNNING is 0. -/
def ringsGoEffect (value : Word) (s : State) : State := if value.getLsbD 0 && !s.host.ringsRunning then startRings s else s

def execRingsGo (value : Word) (s : State) : Host.Outcome State Fault Refusal := hostRow (ringsGoEffect value) s

/-- R93, R110: one 64-byte read, 1 µs after the latest while a C0 ring is Armed. -/
def fetchEffect (s : State) : State :=
  if s.host.ringsRunning && s.anyArmed && !s.host.fetching && s.domainUp 6 && decide (s.pwr.fetchAt + 1000 ≤ s.now) then
    hostReads (doorbellAddr s.host) 64 ((s.modHost fun h => { h with fetching := true }).modPwr fun p => { p with fetchAt := s.now })
  else s

def execDoorbellFetch (s : State) : Host.Outcome State Fault Refusal := live fetchEffect s

def execDoorbellFetchComplete (block : List Byte) (s : State) : Host.Outcome State Fault Refusal :=
  live (fun s => if s.host.fetching then takeDoorbell block s else s) s

def execDoorbellFetchTimeout (timedOut : Bool) (s : State) : Host.Outcome State Fault Refusal :=
  live (fun s => if s.host.fetching then fetchFailed (if timedOut then 2 else 1) s else s) s

/-- R137: a ring that waits for a tag, or has been given it, comes before every ring of a higher number. -/
def wantsTag (s : State) (t : BitVec 7) (m : Nat) : Bool := (s.sq m).hold == some t || (s.sq m).claim == some t

/-- R129, R137: the tag has been released, and this ring is the first of those that wait for it. -/
def tagResumeEffect (n : Nat) (s : State) : State :=
  match (s.sq n).hold with
  | some t =>
    if tagInFlight s t || ((List.range n).any (wantsTag s t)) || ((List.range 16).any fun m => (s.sq m).claim == some t) then s
    else s.modSq n fun q => { q with hold := none, claim := some t }
  | none => s

def execTagWaitResume (ring : Nat) (s : State) : Host.Outcome State Fault Refusal := live (tagResumeEffect ring) s

def execEventQueueDrain (s : State) : Host.Outcome State Fault Refusal := live drainEvents s

/-- R133, R413, R437: the coalesced messages that are due. -/
def coalesceEffect (s : State) : State :=
  plcCoalesce (canCoalesce (if s.host.evq.unsignalled then askMsix 16 s.host.evq.vector s else s))

def execCoalesceTimerExpiry (s : State) : Host.Outcome State Fault Refusal := live coalesceEffect s

/-! ### Descriptors of rings, masters and Safe -/

def nopInfo : OpInfo := { code := 0x00, cls := none, rsvOk := fun d => restZero d [], target := kindNone }
def nopOp (_ : Desc) (s : State) : Answer := answer stOk 0 s
def execNop (d : Desc) (s : State) : Host.Outcome State Fault Refusal := live (runDesc nopInfo nopOp d) s

def armInfo : OpInfo :=
  { code := 0x01, cls := some 0, rsvOk := fun d => restZero d [(8, 1)], target := kindBelow 5 4, range := fun _ d => d.b 8 ≤ 1 }

/-- R115: Enabled and Armed change into each other; a ring in another state keeps it. -/
def armRing (on : Bool) (q : Sq) : Sq :=
  match q.state with
  | .enabled => if on then { q with state := .armed } else q
  | .armed => if on then q else { q with state := .enabled }
  | .disabled | .error => q

def armRingOp (d : Desc) (s : State) : Answer := answer stOk 0 (s.modSq d.ix (armRing (d.b 8 == 1)))
def execArmRing (d : Desc) (s : State) : Host.Outcome State Fault Refusal := live (runDesc armInfo armRingOp d) s

/-- R122: HEAD of RING_RESET. -/
def resetHead (d : Desc) : RingPos := { index := bits (d.h 8) 0 12, wrap := bitOf (d.h 8) 12 }

def ringResetInfo : OpInfo :=
  { code := 0x02, cls := some 0
    rsvOk := fun d => restZero d [(8, 4)] && d.h 8 < 2 ^ 13
    target := fun s d => kindBelow 5 16 s d && d.ix != d.ring && (s.sq d.ix).state == .error
    range := fun s d => (resetHead d).index < ringSize (s.sq d.ix) }

/-- R115, R127: Error to Enabled with the head and sequence given and a full bucket; the tail fetched last stays where it lies within the ring of the new head. -/
def resetRing (now : Nat) (head : RingPos) (seq : Half) (q : Sq) : Sq :=
  { q with
    state := .enabled, head := head, expSeq := seq, hold := none, claim := none, bucket := q.burst * million, filledAt := now
    tail := if ringDistance (ringSize q) head q.tail ≤ ringSize q then q.tail else head }

def ringResetOp (d : Desc) (s : State) : Answer :=
  answer stOk 0 (s.modSq d.ix (resetRing s.now (resetHead d) (BitVec.ofNat 16 (d.h 10))))
def execRingReset (d : Desc) (s : State) : Host.Outcome State Fault Refusal := live (runDesc ringResetInfo ringResetOp d) s

def releaseInfo : OpInfo :=
  { code := 0x03, cls := some 0, rsvOk := fun d => restZero d [], target := fun _ d => d.kind == 6 && masterExists d.ix }

/-- R585: what the release of a master leaves: E114, the Safe cause of R586, the descriptor of R583 and the sessions of R584. -/
def releaseMaster (m : Nat) (s : State) : State :=
  let since := ((s.flt.freezeAt.find? fun p => p.1 == m).map (·.2)).getD s.now
  let s1 := s.modFlt fun f => { f with
    frozen := f.frozen &&& ~~~(BitVec.ofNat 36 (2 ^ m)), freezeAt := f.freezeAt.filter fun p => p.1 != m }
  let s2 := raise 114 2 m (toLE 4 (min 0xFFFFFFFF ((s.now - since) / 1000))) (clearSafeCauses s1)
  let s3 := endOps (· == .violated m) stBuffer 0 s2
  if m ≠ vehicleMaster then s3
  else settleVehicles (forAll s3.flt.stopped (fun o s => endSessionFast o 0x0D false s) (s3.modFlt fun f => { f with stopped := [] }))

/-- R594: a violation and a release of the same master in one cycle: the violation. -/
def releaseMasterOp (d : Desc) (s : State) : Answer :=
  if s.isFrozen d.ix && !s.flt.freezeAt.contains (d.ix, s.now) then answer stOk 0 (releaseMaster d.ix s) else answer stState 0 s
def execReleaseMaster (d : Desc) (s : State) : Host.Outcome State Fault Refusal := live (runDesc releaseInfo releaseMasterOp d) s

def safeEnterInfo : OpInfo :=
  { code := 0x04, cls := some 0, setup := false, safe := false, rsvOk := fun d => restZero d [], target := kindNone }
def safeEnterOp (_ : Desc) (s : State) : Answer := answer stOk 0 (enterSafe 0 s)
def execSafeEnter (d : Desc) (s : State) : Host.Outcome State Fault Refusal := live (runDesc safeEnterInfo safeEnterOp d) s

def safeExitInfo : OpInfo :=
  { code := 0x05, cls := some 0, setup := false, oper := false, rsvOk := fun d => restZero d [], target := kindNone }

/-- R588: STATE_INVALID carries the first cause that is pending. -/
def safeExitOp (_ : Desc) (s : State) : Answer :=
  match leaveSafe s with
  | (t, none) => answer stOk 0 t
  | (t, some r) => answer stState r t
def execSafeExit (d : Desc) (s : State) : Host.Outcome State Fault Refusal := live (runDesc safeExitInfo safeExitOp d) s

/-! ### Ethernet (R99 to R102, R122) -/

/-- The port's SERDES runs in some mode and its link is up. -/
def State.ethRuns (s : State) (port : Nat) : Bool := (nth s.host.eth port).mode != 0 && (nth s.host.eth port).linkUp && s.domainUp 7

def ethSendInfo : OpInfo :=
  { code := 0x46, cls := some 3, rsvOk := fun d => restZero d [(16, 10)], target := kindBelow 0xB 2
    range := fun _ d => decide (14 ≤ d.h 24 ∧ d.h 24 ≤ 1514) && d.q 16 % 8 == 0 }

/-- R122: a port without a link transmits nothing. -/
def ethSendOp (d : Desc) (s : State) : Answer :=
  match d.input with
  | none => answer stBuffer 0 s
  | some b => answer stOk 0 (when (s.ethRuns d.ix) (emit (.eth d.ix (padTo (d.h 24) b))) s)
def execEthSend (d : Desc) (s : State) : Host.Outcome State Fault Refusal := live (runDesc ethSendInfo ethSendOp d) s

def ethReceiveInfo : OpInfo :=
  { code := 0x47, cls := some 3, rsvOk := fun d => restZero d [(16, 10)], target := kindBelow 0xB 2
    range := fun _ d => decide (64 ≤ d.h 24 ∧ d.h 24 ≤ 1514) && d.q 16 % 8 == 0 }

/-- R102: a port holds at most 8 posted buffers. -/
def ethReceiveOp (d : Desc) (s : State) : Answer :=
  if 8 ≤ s.posted d.ix then answer stBusy 0 s else (startOp d (.ethReceive d.ix (d.q 16) (d.h 24)) s, none)
def execEthReceive (d : Desc) (s : State) : Host.Outcome State Fault Refusal := live (runDesc ethReceiveInfo ethReceiveOp d) s

def dropFrame (port : Nat) (s : State) : State := s.modEth port fun e => { e with drops := satAdd 16 e.drops 1 }

/-- R102: the oldest posted buffer takes the frame. -/
def ethFrameEffect (port : Nat) (frame : List Byte) (s : State) : State :=
  if 2 ≤ port ∨ !s.ethRuns port then s
  else match s.host.inflight.find? fun i => isReceive port i.op with
    | none => dropFrame port s
    | some i =>
      match i.op with
      | .ethReceive _ addr len =>
        if len < frame.length then dropFrame port s
        else if i.discard then endOldest (isReceive port) stOk 0 s
        else
          let result := frame.length + 65536 * (nth s.host.eth port).drops
          endOldest (isReceive port) stOk result ((writeBuffer addr frame s).modEth port fun e => { e with drops := 0 })
      | _ => s

def execEthFrameReceive (port : Nat) (frame : List Byte) (s : State) : Host.Outcome State Fault Refusal := live (ethFrameEffect port frame) s

/-- R101, R593: E77 when the absolute offset leaves or re-enters the limit. -/
def ptpLimit (port : Nat) (offset : Int) (s : State) : State :=
  let above := decide (s.host.ptpLimitNs < offset.natAbs)
  let s1 := s.modHost fun h => { h with ptpExceeded := above }
  if above == s.host.ptpExceeded then s1 else raise 77 (if above then 1 else 2) port (toLEi 8 offset) s1

/-- R100: a device time in ns as the timestamp unit shows it, in 0.1 ns: 6.4 ns resolution. -/
def ptpStamp (t : Nat) : Int := (10 * t / 64 * 64 : Nat)

/-- R100, R101: PTP time (TAI) of a time stamp by this unit's civil time, in 0.1 ns. -/
def State.taiOf (s : State) (utc stamp : Int) : Int := stamp + 10 * s.civil + 10000000000 * utc

def State.modPtp (f : Ptp → Ptp) (s : State) : State := s.modHost fun h => { h with ptp := f h.ptp }

/-- R101, R491: the offset from the master in ns: E77, and civil time steered by the whole offset (DESIGN CHOICE: the servo's filter is open). A lock, or a correction above 1 ms, is a step. -/
def ptpOffset (port : Nat) (offset : Int) (locked : Bool) (s : State) : State :=
  let newLock := locked && !s.host.ptpLocked
  let s1 := ptpLimit port offset (s.modHost fun h => { h with ptpLocked := locked })
  if !s1.ptpSteers then s1
  else if newLock || decide (1000000 < offset.natAbs) then civilStep 2 (s1.civil - offset) s1
  else { s1 with civil := s1.civil - offset }

/-- R100: a Sync with its origin time, corrections and ingress: the offset with the present delay, and a Delay_Req goes out. -/
def ptpSync (port : Nat) (utc origin corr ingress : Int) (locked : Bool) (s : State) : State :=
  let down := s.taiOf utc ingress - origin - corr
  let s1 := s.modPtp fun p => { p with
    await := none, down := down, reqSeq := (p.reqSeq + 1) % 65536, egress := some (s.taiOf utc (ptpStamp s.now)) }
  ptpOffset port (divRound (down - s.host.ptp.delay) 10) locked (emit (.ptpDelayReq port s1.host.ptp.reqSeq) s1)

/-- R100: a message of the master on the port that runs PTP. Delay is measured end to end; until an Announce has given currentUtcOffset there is no PTP time to compare with. -/
def ptpEffect (port : Nat) (m : PtpMsg) (locked : Bool) (s : State) : State :=
  if s.ptpPort != some port || !s.ethRuns port then s
  else match m, s.host.ptp.utcOffset with
    | .announce u, _ => s.modPtp fun p => { p with utcOffset := some u }
    | .sync seq true _ corr ingress, some _ => s.modPtp fun p => { p with await := some (seq, ptpStamp ingress, corr) }
    | .sync _ false origin corr ingress, some u => ptpSync port u origin corr (ptpStamp ingress) locked s
    | .followUp seq origin corr, some u =>
      match s.host.ptp.await with
      | some (q, ingress, c) => if q = seq then ptpSync port u origin (corr + c) ingress locked s else s
      | none => s
    | .delayResp seq receive corr, some _ =>
      match s.host.ptp.egress with
      | some t3 =>
        if seq = s.host.ptp.reqSeq then s.modPtp fun p => { p with egress := none, delay := divRound (p.down + (receive - corr - t3)) 2 } else s
      | none => s
    | .unsupported, _ | .sync _ _ _ _ _, none | .followUp _ _ _, none | .delayResp _ _ _, none => s

/-- R100: Layer 2, UDP over IPv4 and UDP over IPv6 carry the same messages. -/
def execPtpMessageReceive (port : Nat) (_transport : PtpTransport) (msg : PtpMsg) (locked : Bool) (s : State) : Host.Outcome State Fault Refusal :=
  live (ptpEffect port msg locked) s

/-- R101: a civil second has begun within the present tick. -/
def State.civilSecondNow (s : State) : Bool := decide (((s.now : Int) + s.civil) % 10 ^ 9 < tickNs)

/-- R101: ETH_PPS_OUT goes high for 100 ms at a civil second. -/
def civilSecondEffect (s : State) : State :=
  if !s.civilSecondNow then s
  else emit (.contact 0 true) (s.modHost fun h => { h with ppsCount := h.ppsCount + 1, ppsUntil := some (s.now + 100000000) })

def execCivilSecond (s : State) : Host.Outcome State Fault Refusal := live civilSecondEffect s

/-- R593: E76 with MODE. -/
def ethLink (port : Nat) (up : Bool) (s : State) : State :=
  let e := nth s.host.eth port
  if 2 ≤ port ∨ e.mode = 0 ∨ e.linkUp = up then s
  else raise 76 (if up then 1 else 2) port (toLE 1 e.mode) (s.modEth port fun e => { e with linkUp := up })

def execEthLinkUp (port : Nat) (s : State) : Host.Outcome State Fault Refusal := live (ethLink port true) s
def execEthLinkDown (port : Nat) (s : State) : Host.Outcome State Fault Refusal := live (ethLink port false) s

/-! ### Violations (R583, R584) -/

/-- R584, R422, R435: the PLC engine's node falls silent. -/
def plcFrozen (s : State) : State :=
  let s1 := (failMsgs (fun _ => true) 1 s).modPlc fun p => { p with lock := false, role := if p.lock then 1 else p.role, await := none }
  when (s.plc.lock && s.plc.addr != 0) (raise 72 2 s.plc.addr (toLE 1 1)) s1

/-- R584: what the freeze of a master does. -/
def frozenEffect (m : Nat) (s : State) : State :=
  if 0x10 ≤ m ∧ m ≤ 0x13 then enterSafe 2 s
  else if 0x18 ≤ m ∧ m ≤ 0x1F then
    (endInjection (m - 0x18) 5 s).modEngine (m - 0x18) fun g => { g with run := none, due := [] }
  else if m = 0x21 then plcFrozen s
  else if m = vehicleMaster then
    let stopped := (List.range 8).filter fun o => s.outActive o && !s.portSource o && (s.path o).state != .idle
    forAll stopped (fun o s => stopFast o (some (0x0C, 3)) s) (s.modFlt fun f => { f with stopped := stopped })
  else s

/-- R582: the profile load, while law, thermal and key-store memory may be written. -/
def State.profileLoading (s : State) : Bool := s.pwr.opState == .boot || s.prof.lock

/-- R236, R582: a signal that some slot of the engine writes. -/
def engineWrites (s : State) (e id : Nat) : Bool := s.lawRecs.any fun r => srEngine r == e && (srOutIds r).contains id

/-- R582: a ring fetcher. -/
def fetcherAllows (s : State) (n : Nat) (write : Bool) : FabricTarget → Bool
  | .doorbell => !write
  | .submission m => !write && m == n
  | .completion m => write && m == (s.sq n).cq
  | .hostMemory addr len => fetcherWindow s n addr len
  | _ => false

/-- R582: an application core. -/
def coreAllows (s : State) (write : Bool) : FabricTarget → Bool
  | .registers | .firmwareData => true
  | .firmware | .profileSlots | .metWindow => !write
  | .caddisMailbox => write
  | .law _ _ | .thermal | .keyStore => write && s.profileLoading
  | _ => false

/-- R582: a law engine. -/
def engineAllows (s : State) (e : Nat) (write : Bool) : FabricTarget → Bool
  | .law g m => g == e && (!write || m == 2)
  | .signal id => !write || engineWrites s e id
  | _ => false

/-- R582: the acquisition DMA. -/
def dmaAllows (write : Bool) : FabricTarget → Bool
  | .laneStreams | .converters => !write
  | .captureShare u => write && decide (u < 8)
  | _ => false

/-- R582: the PLC engine. -/
def plcAllows (write : Bool) : FabricTarget → Bool
  | .plcBuffers => true
  | .plcSection => !write
  | .plcRing => write
  | _ => false

/-- R582: the vehicle-link engine, for the outlets that it serves. -/
def vehicleAllows (s : State) (write : Bool) : FabricTarget → Bool
  | .sessions => true
  | .metWindow => !write
  | .greenPhy o | .t1s o => s.outActive o && !s.portSource o
  | .canBuffers n => (s.canOwner n).isSome
  | .setpointQueue o => write && s.outActive o && !s.portSource o
  | _ => false

/-- R582: the crypto engine, with the buffers of the KEY_OP or ATTEST that it serves. -/
def cryptoAllows (s : State) : FabricTarget → Bool
  | .keyStore | .keySlots => true
  | .hostMemory addr len => inWindow s (·.crypto) addr len
  | _ => false

/-- R582: whether an access of a kind lies within a window of its master. -/
def windowAllows (s : State) (m : Nat) (write : Bool) (t : FabricTarget) : Bool :=
  if m < 16 then fetcherAllows s m write t
  else if m < 20 then coreAllows s write t
  else if 0x18 ≤ m ∧ m ≤ 0x1F then engineAllows s (m - 0x18) write t
  else if m = 0x20 then dmaAllows write t
  else if m = 0x21 then plcAllows write t
  else if m = 0x22 then vehicleAllows s write t
  else m = 0x23 && cryptoAllows s t

/-- R583: the kind of a violation. -/
def violationKind (s : State) (a : Access) : Nat := if !a.write then 1 else if windowAllows s a.master false a.target then 3 else 2

/-- R583: an access outside every window of its master. -/
def violationEffect (a : Access) (tag : Option (BitVec 7)) (s : State) : State :=
  if !masterExists a.master || s.isFrozen a.master || windowAllows s a.master a.write a.target then s
  else frozenEffect a.master (markViolated a.master tag (freezeMaster a.master (violationKind s a) a.addr s))

def execMasterViolation (access : Access) (tag : Option (BitVec 7)) (s : State) : Host.Outcome State Fault Refusal :=
  live (violationEffect access tag) s

/-! ### Counted events (R615) -/

/-- R615: each event counted in a second that has ended is raised with its count. -/
def secondTickEffect (s : State) : State :=
  let ended := fun c : (Nat × Nat × Nat × Nat) × Nat => c.2 < s.second
  forAll (s.flt.counts.filter ended) (fun c s => raise c.1.1 c.1.2.1 c.1.2.2.1 (toLE 4 c.1.2.2.2) s)
    (s.modFlt fun f => { f with counts := f.counts.filter fun c => !ended c })

def execEventSecondTick (s : State) : Host.Outcome State Fault Refusal := live secondTickEffect s

end Sys2Proof.Machine
end

