-- ==== Sys2Proof/Machine/Metrology.lean ====
section
/-! DEFINITION. Meanings of the Caddis commands (R444 to R473). Caddis works on whatever state the controller logic is in. -/

namespace Sys2Proof.Machine

/-! ### The mailbox (R466, R467, R478) -/

/-- What a request answers: the state and the reply, or the reason of R467. -/
abbrev MeterAnswer := State × (List Byte ⊕ Nat)

/-- R122, R466: the checks of a request with its ARGS bytes and reply size. -/
def meterInfo (code : Nat) (token whole : Bool) (args : List (Nat × Nat)) (size : State → Desc → Nat) : OpInfo :=
  { code := 0x30, cls := some 2, acc := if token then .token else .unit
    rsvOk := fun d => restZero d ([(8, 1), (16, 10)] ++ args)
    target := fun _ d => d.kind == 1 && d.ix < 8 && (!whole || d.ix == 0)
    range := fun s d => d.b 8 == code && d.h 24 ≤ 4096 && d.q 16 % 8 == 0 && size s d ≤ d.h 24 }

/-- R467: the reply goes to the buffer; a refusal completes with METER_REFUSED and its reason. -/
def meterOp (f : Desc → State → MeterAnswer) (d : Desc) (s : State) : Answer :=
  match f d s with
  | (s1, .inl reply) => answer stOk reply.length (writeBuffer (d.q 16) reply s1)
  | (s1, .inr reason) => answer stMeter reason s1

/-- R467, R478: a request waits, holding its tag, while Caddis restarts after an installation; beyond 16 it completes with BUSY. -/
def meterRequest (f : Desc → State → MeterAnswer) (d : Desc) (s : State) : Answer :=
  if !s.caddisBusy then meterOp f d s
  else if 16 ≤ s.host.mailbox.length then answer stBusy 0 s
  else (startOp d (.meter d.tag) (s.modHost fun h => { h with mailbox := h.mailbox ++ [.host d] }), none)

def argBytes (d : Desc) (i n : Nat) : List Byte := bytesAt d.body (i - 8) n

/-- R458, R461. -/
def txnStartOp (d : Desc) (s : State) : MeterAnswer :=
  match startRefusal s d.ix with
  | 0 =>
    if s.personality d.ix ≠ 4 then (s, .inr 0x08)
    else
      let r := metOpen d.ix (argBytes d 32 16) none s
      (mirrorStart d.ix r.1, .inl r.2)
  | r => (s, .inr (if r = 0x06 ∧ s.personality d.ix ≠ 4 then 0x08 else r))

/-- R461. -/
def txnStopOp (d : Desc) (s : State) : MeterAnswer :=
  if !s.met.ready then (s, .inr 0x0B)
  else if s.personality d.ix ≠ 4 then (s, .inr 0x08)
  else if !(s.chan d.ix).isOpen then (s, .inr 0x05)
  else
    let r := metStop d.ix 0x20 s
    (mirrorStop d.ix r.1, .inl r.2)

/-- R463, R464: a READING record. -/
def readRegistersOp (d : Desc) (s : State) : MeterAnswer :=
  if !s.met.ready then (s, .inr 0x0B)
  else
    let c := s.chan d.ix
    let flags := if c.isOpen then orBits c.flags (s.flagsNow d.ix) else s.flagsNow d.ix
    let bytes := metRecord s d.ix 3 flags (if c.isOpen then c.regs.delivered - c.startDelivered else 0) 0
    (useFree s, .inl bytes)

/-- R462. -/
def readRecordOp (d : Desc) (s : State) : MeterAnswer :=
  if !s.met.ready then (s, .inr 0x0B)
  else if d.b 36 ≠ 1 ∧ d.b 36 ≠ 2 then (s, .inr 0x01)
  else match (s.chan d.ix).records.find? fun r => r.txn == d.w 32 && r.kind == d.b 36 with
    | some r => (s, .inl r.bytes)
    | none => (s, .inr 0x07)

/-- R468: the entries from FIRST, at most COUNT. -/
def logFrom (s : State) (first count : Nat) : List (List Byte) :=
  (s.met.log.filter fun e => first ≤ e.1 && e.1 < first + count).map (·.2)

def readLogOp (d : Desc) (s : State) : MeterAnswer :=
  let es := logFrom s (d.w 32) (d.h 36)
  if !s.met.ready then (s, .inr 0x0B)
  else if d.h 36 = 0 ∨ 120 < d.h 36 then (s, .inr 0x01)
  else if es.isEmpty then (s, .inr 0x07)
  else
    let msg := toLE 4 (d.w 32) ++ toLE 2 es.length ++ zeros 2 ++ toLE 4 s.met.log.length ++ zeros 4 ++ es.flatten
    (useFree s, .inl (msg ++ caddisSign s.freeIx msg))

/-- R468. -/
def identifyReply (s : State) : List Byte :=
  toLE 4 s.metFwVersion ++ toLE 2 Config.caddisCertLen.val ++ zeros 2 ++ s.metFwDigest ++ caddisKey ++ zeros 7
    ++ optionBytes Config.caddisCertLen.val Config.caddisCert

def identifyOp (_ : Desc) (s : State) : MeterAnswer :=
  if !s.met.ready then (s, .inr 0x0B) else (s, .inl (identifyReply s))

/-- R451: the value is in the parameter's range. -/
def paramRange (param : Nat) (v : Int) : Bool :=
  match param with
  | 1 => v == 0 || (0 < v && v < 65536 && Config.approvedSensorSet v.toNat)
  | 2 => 1000 ≤ v && v ≤ 4000000
  | 3 => 1000 ≤ v && v ≤ 10000000
  | 4 | 5 => -10000 ≤ v && v ≤ 10000
  | 6 => 0 ≤ v && v ≤ 100000
  | 7 => v == 0 || v == 1
  | _ => false

def paramValue (c : MetChan) (param : Nat) : Int :=
  match param with
  | 1 => c.sensorSet | 2 => c.uScale | 3 => c.iScale | 4 => c.uOffset | 5 => c.iOffset | 6 => c.rCable | _ => c.lossComp

def setParam (c : MetChan) (param : Nat) (v : Int) : MetChan :=
  match param with
  | 1 => { c with sensorSet := v.toNat } | 2 => { c with uScale := v.toNat } | 3 => { c with iScale := v.toNat }
  | 4 => { c with uOffset := v } | 5 => { c with iOffset := v } | 6 => { c with rCable := v.toNat } | _ => { c with lossComp := v.toNat }

/-- R452: the first failing check, or 0. -/
def paramRefusal (s : State) (o param : Nat) (v : Int) : Nat :=
  if s.met.sealIntact then 0x02 else if 8184 ≤ generalCount s then 0x03
  else if (s.chan o).isOpen then 0x04 else if !paramRange param v then 0x01 else 0

def setParameterOp (d : Desc) (s : State) : MeterAnswer :=
  let param := d.h 32
  let v := signed 64 (d.q 40)
  if !s.met.ready then (metRaise 85 0x0B d.ix (toLE 4 param) s, .inr 0x0B)
  else match paramRefusal s d.ix param v with
    | 0 =>
      let ix := generalCount s
      let s1 := logGeneral 1 d.ix param (paramValue (s.chan d.ix) param) v s
      let s2 := noteFlags (s1.modCh d.ix fun c => setParam c param v)
      (s2, .inl ((s2.met.log.find? fun e => e.1 == ix).map (·.2) |>.getD []))
    | r => (metRaise 85 r d.ix (toLE 4 param) s, .inr r)

/-- R473: tests 0 to 4 as they stand. -/
def selfTestOp (_ : Desc) (s : State) : MeterAnswer :=
  if !s.met.ready then (s, .inr 0x0B) else (s, .inl (toLE 2 s.met.failed ++ zeros 6))

/-- R466: the request of each code; any other is refused. -/
def requestOf (code : Nat) : Desc → State → MeterAnswer :=
  match code with
  | 0x01 => txnStartOp | 0x02 => txnStopOp | 0x10 => readRegistersOp | 0x11 => readRecordOp | 0x12 => readLogOp
  | 0x13 => identifyOp | 0x20 => setParameterOp | 0x21 => selfTestOp
  | _ => fun _ s => (s, .inr 0x01)

/-- R478: serve a request that has waited; after a PCIe reset it writes nothing (R136). -/
def serveWaiting (w : MeterWait) (s : State) : State :=
  match w with
  | .mirrored o start ref txn id => mirroredRequest o start ref txn id s
  | .host d =>
    let silenced := s.host.inflight.any fun i => i.op == .meter d.tag && i.discard
    let serve := fun s : State => match meterOp (requestOf (d.b 8)) d s with
      | (s1, some (st, res)) => endOps (· == .meter d.tag) st res s1
      | (s1, none) => s1
    if silenced then muted serve s else serve s

/-- R478: Caddis is READY: what waited, the engine's requests first, goes on. -/
def serveMailbox (s : State) : State :=
  forAll s.host.mailbox serveWaiting (lateStops (lateStarts (s.modHost fun h => { h with mailbox := [] })))

/-! ### Starting, committing and refreshing (R445, R446, R469) -/

/-- R472: the event of one test of the whole of Caddis whose result changes, or that fails again. -/
def testEvent (t : Nat) (was failed : Bool) (s : State) : State :=
  if failed then metRaise 86 1 0xFF (toLE 1 t) s else when was (metRaise 86 0 0xFF (toLE 1 t)) s

/-- R446, R462, R473: the registers come back from the last commit, and the start tests 0 and 1 run. Where the running image fails its digest and the other bank passes, Caddis boots that. -/
def caddisStartEffect (failed : Nat) (otherOk : Bool) (s : State) : State :=
  if s.met.ready then s
  else
    let swap := bitOf failed 0 && otherOk
    let fails := fun t => bitOf failed t && !(t == 0 && swap)
    let s1 := s.modMet fun m => { m with
      powered := true, ready := true, warmup := true, installing := false, startedAt := s.now
      firmware := if swap then m.otherBank else m.firmware, otherBank := if swap then m.firmware else m.otherBank
      failed := m.failed / 4 * 4 + b2n (fails 0) + 2 * b2n (fails 1)
      testAt := (m.testAt.set 0 s.now).set 1 s.now
      ch := m.ch.map fun c => { c with regs := c.saved, uSum := 0, iSum := 0, pSum := 0, n := 0, above := false } }
    let s2 := forAll [0, 1] (fun t => testEvent t (bitOf s.met.failed t) (fails t)) s1
    serveMailbox (noteFlags (when s2.awake takeIdent s2))

def execCaddisStart (failed : Nat) (otherOk : Bool) (s : State) : Host.Outcome State Fault Refusal := run (caddisStartEffect failed otherOk) s

/-- R446: 120 s after READY. -/
def execWarmupEnd (s : State) : Host.Outcome State Fault Refusal :=
  run (fun s => if s.met.ready && decide (s.met.startedAt + 120000000000 ≤ s.now) then s.modMet fun m => { m with warmup := false } else s) s

/-- R445: every 10 ms. -/
def execCaddisCommit (s : State) : Host.Outcome State Fault Refusal :=
  run (fun s => if s.met.ready && decide (s.met.commitAt + 10000000 ≤ s.now) then (commitAll s).modMet fun m => { m with commitAt := s.now } else s) s

/-- R469: every 10 ms. -/
def metRefreshEffect (s : State) : State :=
  if !(s.met.ready && decide (s.met.refreshAt + 10000000 ≤ s.now)) then s
  else
    let s1 := s.modMet fun m => { m with seq := m.seq + 1, refreshAt := s.now }
    let words := metWords s1
    s1.modMet fun m => { m with
      shown := words, ch := m.ch.map fun c => { c with uSum := 0, iSum := 0, pSum := 0, n := 0, above := false } }

def execMetRefresh (s : State) : Host.Outcome State Fault Refusal := run metRefreshEffect s

/-! ### Seals, tests, samples and supply -/

/-- R453, R454, R471: the payload of E82 is the log index, or all ones. -/
def inputChange (opened : Nat) (intact : Bool) (s : State) : State :=
  let kind := if intact then opened + 1 else opened
  let ix := if generalCount s < 8184 then generalCount s else 0xFFFFFFFF
  metRaise 82 (kind - 1) 0xFF (toLE 4 ix) (noteFlags (logGeneral kind 0xFF 0 0 0 s))

def execSealChange (intact : Bool) (s : State) : Host.Outcome State Fault Refusal :=
  run (fun s => if !s.met.ready || s.met.sealIntact == intact then s
    else inputChange 2 intact (s.modMet fun m => { m with sealIntact := intact })) s

def execTamperChange (intact : Bool) (s : State) : Host.Outcome State Fault Refusal :=
  run (fun s => if !s.met.ready || s.met.tamperIntact == intact then s
    else inputChange 4 intact (s.modMet fun m => { m with tamperIntact := intact })) s

/-- R473: the periods of tests 0 to 4 in s. -/
def testPeriod : Nat → Nat
  | 0 => 86400 | 1 => 10 | 2 => 10 | _ => 1

/-- R473: the test falls due: tests 0 to 4 by their periods, test 5 at every sample, and test 6 every second on a channel in use. -/
def testDue (s : State) (test o : Nat) : Bool :=
  if test < 5 then decide (s.met.testAt.getD test 0 + testPeriod test * 10 ^ 9 ≤ s.now)
  else if test = 5 then true
  else (s.chan o).sensorSet != 0 && decide ((s.chan o).openAt + 10 ^ 9 ≤ s.now)

/-- R472, R473: the result of one test; an error clears when the same test next passes. -/
def caddisTestEffect (test o : Nat) (passed : Bool) (s : State) : State :=
  if test < 5 then
    let was := bitOf s.met.failed test
    let s1 := s.modMet fun m => { m with
      failed := m.failed - 2 ^ test * b2n was + 2 ^ test * b2n (!passed), testAt := m.testAt.set test s.now }
    noteFlags (testEvent test was (!passed) s1)
  else
    let was := if test = 5 then (s.chan o).modFail else (s.chan o).openFail
    let s1 := s.modCh o fun c => if test = 5 then { c with modFail := !passed } else { c with openFail := !passed, openAt := s.now }
    noteFlags (if !passed then metRaise 86 1 o (toLE 1 test) s1 else when was (metRaise 86 0 o (toLE 1 test)) s1)

def execCaddisSelfTestRun (test outlet : Nat) (passed : Bool) (s : State) : Host.Outcome State Fault Refusal :=
  run (fun s => if s.met.ready && test < 7 && outlet < 8 && testDue s test outlet then caddisTestEffect test outlet passed s else s) s

/-- R447: E81 OVERRANGE, at most once per second of Caddis time and channel. -/
def overrangeEvent (o : Nat) (cu ci : Int) (s : State) : State :=
  let vo := 1 < ratAbs (codeVolts cu)
  let io := 1 < ratAbs (codeVolts ci)
  let due := match (s.chan o).overAt with | some t => decide (t + 8000 ≤ s.met.samples) | none => true
  if (vo || io) && due then
    metRaise 81 1 o (toLE 1 (if vo then 1 else 2)) (s.modCh o fun c => { c with overAt := some s.met.samples })
  else s

/-- R447, R448, R473 test 5: one sample instant. -/
def caddisSampleEffect (codes : List (Int × Int)) (stuck : Byte) (s : State) : State :=
  if !s.met.ready then s
  else
    let s1 := s.modMet fun m => { m with samples := m.samples + 1 }
    let s2 := forAll (List.range 8) (fun o s =>
      let p := codes.getD o (0, 0)
      overrangeEvent o p.1 p.2 (s.modCh o (sampleChan p.1 p.2))) s1
    forAll (List.range 8) (fun o s =>
      if stuck.getLsbD o != (s.chan o).modFail then caddisTestEffect 5 o (!stuck.getLsbD o) s else s) s2

def execCaddisSample (codes : List (Int × Int)) (stuck : Byte) (s : State) : Host.Outcome State Fault Refusal :=
  run (caddisSampleEffect codes stuck) s

/-- R444, R462: metering stops; an open transaction carries POWER_FAIL. -/
def supplyLossEffect (s : State) : State :=
  if !s.met.powered then s
  else takeIdent (s.modMet fun m => { m with
    powered := false, ready := false, warmup := false, installing := false
    ch := m.ch.map fun c => { c with regs := c.saved, flags := if c.isOpen then orBits c.flags 32 else c.flags } })

def execCaddisSupplyLoss (s : State) : Host.Outcome State Fault Refusal := run supplyLossEffect s

/-! ### METER_REQUEST by its request codes (R466) -/

def execTxnStart (d : Desc) (s : State) : Host.Outcome State Fault Refusal :=
  live (runDesc (meterInfo 1 true false [(32, 16)] fun _ _ => 256) (meterRequest txnStartOp) d) s

def execTxnStop (d : Desc) (s : State) : Host.Outcome State Fault Refusal :=
  live (runDesc (meterInfo 2 true false [(32, 1)] fun _ _ => 256) (meterRequest txnStopOp) d) s

def execReadRegisters (d : Desc) (s : State) : Host.Outcome State Fault Refusal :=
  live (runDesc (meterInfo 0x10 false false [] fun _ _ => 256) (meterRequest readRegistersOp) d) s

def execReadRecord (d : Desc) (s : State) : Host.Outcome State Fault Refusal :=
  live (runDesc (meterInfo 0x11 false false [(32, 5)] fun _ _ => 256) (meterRequest readRecordOp) d) s

def execReadLog (d : Desc) (s : State) : Host.Outcome State Fault Refusal :=
  live (runDesc (meterInfo 0x12 false false [(32, 6)] fun s d => 80 + 32 * (logFrom s (d.w 32) (d.h 36)).length) (meterRequest readLogOp) d) s

def execIdentify (d : Desc) (s : State) : Host.Outcome State Fault Refusal :=
  live (runDesc (meterInfo 0x13 false true [] fun s _ => (identifyReply s).length) (meterRequest identifyOp) d) s

def execSetParameter (d : Desc) (s : State) : Host.Outcome State Fault Refusal :=
  live (runDesc (meterInfo 0x20 false false [(32, 2), (40, 8)] fun _ _ => 32) (meterRequest setParameterOp) d) s

def execSelfTest (d : Desc) (s : State) : Host.Outcome State Fault Refusal :=
  live (runDesc (meterInfo 0x21 false true [] fun _ _ => 8) (meterRequest selfTestOp) d) s

end Sys2Proof.Machine
end

