-- ==== Sys2Proof/Machine/PairLease.lean ====
section
/-! DEFINITION. Meanings of the Mayfly lease commands (R546 to R551): renewals, expiry, claims, LEASE records and the host board. -/

namespace Sys2Proof.Machine

/-- What a change of the lease lets follow: AUTH in a double fault (R531) and the vehicle-link engine (R393, R394). -/
def leaseSettled (s : State) : State := settleVehicles (settleDouble s)

/-- R552: the giving side of a SWITCHOVER that its peer has acknowledged gives up its lease by itself, not to the term it has granted. -/
def State.givesTerm (s : State) (term : Word) : Bool :=
  term == s.pair.term + 1 && s.pair.handover.any fun h => !h.taking && h.kind == 1 && h.acked

/-- R535, R546: the unit learns that a term exists, with its holder and whether it is current. -/
def learnTerm (term : Word) (holderB held : Bool) (s : State) : State :=
  if term.toNat ≤ s.pair.term.toNat || s.givesTerm term then s
  else if holderB != s.unitB then peerLease term held s
  else
    let s1 := s.modPair fun p => { p with term := term, holderB := holderB, held := false, lapsed := false, expiresAt := s.now + s.leaseNs }
    if s.leaseHere then leaseGone (leaseEvent 99 3 [] s1) else s1

/-- Send a LEASE record by the pair link, or for the next PAIR frame of the site network. -/
def sendLease (plc : Bool) (op : Nat) (term : Word) (count : Nat) (s : State) : State :=
  if plc then queuePlc 3 (leaseBody s op term count) s else sendRecord (.lease (leaseBody s op term count)) s

/-! ### LEASE records (R547 to R549) -/

/-- R548: a RENEW of the peer is observed and acknowledged. -/
def leaseRenewed (plc : Bool) (term : Word) (count : Nat) (s : State) : State :=
  if term.toNat < s.pair.term.toNat || (s.leaseHere && term == s.pair.term) then s
  else sendLease plc 2 term count (peerLease term true s)

/-- R548, R549: the peer acknowledges a RENEW through witness `i`; the ACK of a proposed term forms the lease. -/
def leaseAcked (i : Nat) (term : Word) (s0 : State) : State :=
  let s := noteAnswer s0
  if s.pair.proposed == some term then acquireLease 1 (2 ^ i) term s
  else if term == s.pair.term && s.pair.holderB == s.unitB then witnessed i s else s

/-- R549: a GRANT of the pair link is used at the handover instant; one over PLC in a double fault, once the guard has passed. -/
def leaseGranted (plc : Bool) (term : Word) (s : State) : State :=
  if term.toNat ≤ s.pair.term.toNat then s
  else if !plc then s.modPair fun p => { p with granted := some term }
  else if s.pair.doubleFault && !s.pair.held && decide (s.claimFrom ≤ s.now) then acquireLease 3 2 term s
  else s.modPair fun p => { p with grantedPlc := some term }

/-- R547: the peer gives its lease up. -/
def leaseReleased (term : Word) (s : State) : State :=
  if term == s.pair.term && s.pair.holderB != s.unitB then s.modPair fun p => { p with held := false, expiresAt := min p.expiresAt s.now } else s

/-- R547: a LEASE record of the peer. -/
def leaseBodyEffect (plc : Bool) (body : List Byte) (s : State) : State :=
  let term : Word := BitVec.ofNat 32 (u32 body 4)
  if body.length ≠ 16 || (u8 body 1 % 2 == 1) == s.unitB then s
  else leaseSettled (match u8 body 0 with
    | 1 => leaseRenewed plc term (u32 body 8) s
    | 2 => leaseAcked (b2n plc) term s
    | 3 => leaseGranted plc term s
    | 4 => leaseReleased term s
    | _ => s)

def execLease (seq : Word) (body : List Byte) (plc : Bool) (s : State) : Host.Outcome State Fault Refusal :=
  pairRow (fun s => if plc then leaseBodyEffect true body s else takeRecord seq (leaseBodyEffect false body) s) s

/-! ### Renewal, expiry, claim (R548, R549, R551) -/

/-- R548, R550: the renewal on the host board. -/
def renewHost (s : State) : State :=
  if s.witness 2 && s.pair.cas.isNone then
    issueCas (hostBoardWord s.pair.term s.unitB true (hbCount s.pair.hostWord + 1)) false s
  else s

/-- R548: one renewal, every RENEW_MS, through every witness that is enabled and available; before the first ACK, the term that formation proposes. -/
def renewEffect (s : State) : State :=
  let mine := s.leaseHere || (s.pair.lapsed && s.pair.holderB == s.unitB)
  if s.now < s.pair.renewAt + s.renewMs * 1000000 then s
  else if mine then
    let s1 := s.modPair fun p => { p with
      renewCount := p.renewCount + 1, renewAt := s.now, witnessOk := 0
      expiresAt := if s.pair.ilk == .low && s.leaseHere then s.now + s.leaseNs else p.expiresAt }
    let s2 := when (s1.witness 0) (sendLease false 1 s1.pair.term s1.pair.renewCount) s1
    let s3 := when (s2.witness 1) (sendLease true 1 s2.pair.term s2.pair.renewCount) s2
    renewHost s3
  else match s.pair.proposed with
    | some t => sendLease false 1 t 0 (s.modPair fun p => { p with renewAt := s.now })
    | none => s

def execLeaseRenew (s : State) : Host.Outcome State Fault Refusal := pairRow renewEffect s

/-- R548, R551: LEASE_MS has passed without a witnessed renewal. -/
def expiryEffect (s : State) : State :=
  if !s.pair.held || s.now < s.pair.expiresAt then s
  else if s.leaseHere then
    leaseSettled (leaseGone (leaseEvent 99 1 [] (s.modPair fun p => { p with held := false, lapsed := true })))
  else leaseSettled (s.modPair fun p => { p with held := false })

def execLeaseExpiry (s : State) : Host.Outcome State Fault Refusal := pairRow expiryEffect s

/-- R549: ILK_IN LOW needs no witness; a double fault needs a GRANT over PLC or a CompareAndSwap. -/
def claimEffect (s : State) : State :=
  if !s.running || s.pair.held || s.now < s.claimFrom then s
  else if s.pair.ilk == .low then leaseSettled (acquireLease 3 0 (s.pair.term + 1) s)
  else if s.pair.doubleFault then
    match s.pair.grantedPlc with
    | some t => leaseSettled (acquireLease 3 2 t s)
    | none =>
      if s.witness 2 && s.pair.cas.isNone then
        leaseSettled (issueCas (hostBoardWord (s.pair.term + 1) s.unitB true 0) true s)
      else leaseSettled s
  else s

def execLeaseClaim (s : State) : Host.Outcome State Fault Refusal := pairRow claimEffect s

/-! ### The host board (R548, R550) -/

/-- R548: what the non-holder learns from the lease word: a higher term, or a changed COUNT. -/
def boardSeen (w : BitVec 64) (s : State) : State :=
  let old := s.pair.hostWord
  let s1 := s.modPair fun p => { p with hostWord := w }
  if s.pair.term.toNat < (hbTerm w).toNat then learnTerm (hbTerm w) (hbHolder w) (hbHeld w) s1
  else if hbTerm w == s.pair.term && hbHolder w != s.unitB && hbHeld w && hbCount w ≠ hbCount old then peerLease (hbTerm w) true s1
  else s1

/-- R550: the non-holder reads the board every HOST_POLL_MS. -/
def pollEffect (word : Option (BitVec 64)) (s : State) : State :=
  if !s.witness 2 || s.leaseHere || decide (s.now < s.pair.polledAt + s.hostPollMs * 1000000) then s
  else
    let s1 := s.modPair fun p => { p with polledAt := s.now }
    match word with
    | some w => leaseSettled (boardSeen w (noteAnswer s1))
    | none => s1

def execHostBoardPoll (word : Option (BitVec 64)) (s : State) : Host.Outcome State Fault Refusal := pairRow (pollEffect word) s

/-- R550: a CompareAndSwap succeeds when it finds the word it compares with. R549: nothing is claimed while ILK_IN is STANDBY or ACTIVE. -/
def casEffect (found : Option (BitVec 64)) (s : State) : State :=
  match s.pair.cas with
  | none => s
  | some (new, claims) =>
    let s0 := s.modPair fun p => { p with cas := none }
    match found with
    | none => s0
    | some w =>
      let s1 := noteAnswer s0
      if w == s.pair.hostWord then
        let s2 := s1.modPair fun p => { p with hostWord := new }
        if !claims then leaseSettled (witnessed 2 s2)
        else if s.pair.held || s.pair.ilk.good || (hbTerm new).toNat ≤ s.pair.term.toNat then s2
        else leaseSettled (acquireLease 3 4 (hbTerm new) s2)
      else leaseSettled (boardSeen w s1)

def execHostCasComplete (found : Option (BitVec 64)) (s : State) : Host.Outcome State Fault Refusal := pairRow (casEffect found) s

end Sys2Proof.Machine
end

