-- ==== Sys2Proof/Machine/Plc.lean ====
section
/-! DEFINITION. Meanings of the site network commands (R416 to R443). The PAIR frames stand with the pair. -/

namespace Sys2Proof.Machine

/-- A happening on a node whose network is on and whose logic is awake. -/
def plcRow (f : State → State) (s : State) : Host.Outcome State Fault Refusal :=
  live (fun s => if s.plcOn && s.plc.role != 0 && !s.isFrozen 0x21 && s.domainUp 8 then refreshPaths (f s) else s) s

/-- R83: the clock of domain 8, which runs in beacon windows in Sleep too. -/
def State.beaconClock (s : State) : Bool := s.domainUp 8 || (s.pwr.powerState == .sleep && s.pwr.lockedAwake.getLsbD 8)

/-- R83, R424: a happening in a beacon window. -/
def beaconRow (f : State → State) (s : State) : Host.Outcome State Fault Refusal :=
  ctl (fun s => if !s.pwr.held && s.pwr.opState != .boot && s.plcOn && s.plc.role != 0 && s.beaconClock then f s else s) s

/-- R584: the frozen PLC engine neither sends nor receives. -/
def radio (f : State → State) (s : State) : State := if s.isFrozen 0x21 then s else f s

/-! ### Zero crossings (R418) -/

/-- The mean period over the crossings kept, in ns. -/
def zcMean (l : List Nat) : Nat :=
  match l, l.getLast? with
  | t :: _ :: _, some u => (t - u) / (l.length - 1)
  | _, _ => 0

/-- R418: 45 to 66 Hz. -/
def mainsInRange (period : Nat) : Bool := decide (45 * period ≤ 1000000000 ∧ 1000000000 ≤ 66 * period)

/-- R441: the signed offset of a crossing from C_j in µs. -/
def zcOffset (s : State) (t : Nat) : Half :=
  let T := s.mainsNs
  let x := (t + T - s.plc.cycleStart % T) % T
  BitVec.ofInt 16 (if 2 * x ≤ T then ((x / 1000 : Nat) : Int) else -(((T - x) / 1000 : Nat) : Int))

/-- R418: one rising crossing. The mains is valid while its measured frequency is in range; E74 RECOVERED follows after 16 valid cycles. -/
def zeroCrossingEffect (time : Nat) (s : State) : State :=
  let t := time / 1000 * 1000
  let zc := (t :: s.plc.zc).take 17
  let m := zcMean zc
  let known := decide (2 ≤ zc.length)
  let ok := known && mainsInRange m
  let s1 := s.modPlc fun p => { p with
    zc := zc, zcRun := if ok then p.zcRun + 1 else 0, zcPeriod := if ok then m else p.zcPeriod, zcOffset := zcOffset s t
    zcValid := ok, zcBad := known && !ok }
  let s1 := s1.modRec fun r => { r with nominalNs := if s.nominalHz = 0 then 20000000 else 1000000000 / s.nominalHz }
  let s2 := if known then recNote 7 0 m s1 else s1
  if known && !ok && !s.plc.zcBad then raise 74 2 0xFF (toLE 4 m) (s2.modPlc fun p => { p with zcFault := true })
  else if s2.plc.zcFault && decide (16 ≤ s2.plc.zcRun) then raise 74 0 0xFF (toLE 4 m) (s2.modPlc fun p => { p with zcFault := false })
  else s2

def execZeroCrossing (time : Nat) (s : State) : Host.Outcome State Fault Refusal := live (zeroCrossingEffect time) s

/-- R418: 50 ms without a crossing. -/
def zcLostEffect (s : State) : State :=
  match s.plc.zc with
  | [] => s
  | t :: _ =>
    if s.now < t + 50000000 then s
    else raise 74 1 0xFF [] ((recNote 7 0 0 s).modPlc fun p => { p with zc := [], zcRun := 0, zcValid := false, zcBad := false, zcFault := true })

def execZcLost (s : State) : Host.Outcome State Fault Refusal := live zcLostEffect s

/-! ### Beacons (R421 to R424) -/

/-- T_m that a coordinator measures, or nominal in synthetic cycles (R419). -/
def State.coordPeriod (s : State) : Nat :=
  if s.plc.zcValid then s.plc.zcPeriod else if s.nominalHz = 0 then 20000000 else 1000000000 / s.nominalHz

/-- R419: the filtered rising crossing: the mean of the crossings kept, each moved on by whole periods to the newest. -/
def zcFiltered (l : List Nat) (m : Nat) : Nat := ((List.range l.length).map fun i => l.getD i 0 + i * m).foldl (· + ·) 0 / l.length

/-- R419: the start of the coordinator's cycle that runs, at its filtered crossing, or by its own clock. -/
def State.coordCycle (s : State) : Nat :=
  let m := s.coordPeriod
  let z := if s.plc.zcValid then zcFiltered s.plc.zc m else s.plc.cycleStart
  if m = 0 ∨ s.now < z then z else z + (s.now - z) / m * m

/-- R421: now lies in the 200 µs of a beacon window that starts at `a`. -/
def State.inWindow (s : State) (a : Nat) : Bool := decide (a ≤ s.now ∧ s.now < a + 200000)

/-- R421: the coordinator's next period starts now, two cycles after the last. -/
def State.beaconDue (s : State) : Bool := s.inWindow s.coordCycle && decide (2 * s.plc.cycleStart + 3 * s.coordPeriod ≤ 2 * s.coordCycle)

/-- R421: the coordinator's beacon starts a period. -/
def coordBeacon (s : State) : State :=
  let listed := s.plc.wake.take 8
  let s1 := s.modPlc fun p => { p with
    cycle := p.cycle + 2, cycleStart := s.coordCycle, heardAt := s.now, depth := 0, assocOpen := true, nodes := p.table.length
    synthetic := !p.zcValid, relays := chosenRelays s, periodNs := s.coordPeriod
    wake := (listed.map fun w => (w.1, w.2 - 1)).filter (fun w => w.2 != 0) ++ p.wake.drop 8 }
  sendBeacon 0 (listed.map (·.1)) s1

/-- R421: this node relays the beacon of the period in a slot. -/
def State.relaysSlot (s : State) (slot : Nat) : Bool :=
  let p := s.plc
  p.lock && p.ask == 0 && s.plcFlag 1 && decide (1 ≤ slot ∧ slot ≤ 3) && p.relays.getD (slot - 1) 0 == p.addr && p.addr != 0 && decide (p.depth ≤ 2)
    && s.inWindow (p.cycleStart + slot * s.mainsNs / 2)

/-- R421: the beacon window of a slot. -/
def beaconWindowEffect (slot : Nat) (s : State) : State :=
  if s.plc.role == 3 then (if slot = 0 && s.beaconDue then coordBeacon s else s)
  else if s.relaysSlot slot then sendBeacon (s.plc.depth + 1) s.plc.wakeHeard s
  else s

def execBeaconWindow (slot : Nat) (s : State) : Host.Outcome State Fault Refusal := beaconRow (radio (beaconWindowEffect slot)) s

/-- R422: take the timing of a beacon. -/
def takeTiming (c : FrameControl) (pl : List Byte) (start : Nat) (s : State) : State :=
  let relays := [u8 pl 12, u8 pl 13, u8 pl 14]
  let slot := match relays.findIdx? fun a => a == c.src && a != 0 with | some i => i + 1 | none => 0
  let period := u32 pl 8
  let regained := !s.plc.lock
  let s1 := s.modPlc fun p => { p with
    lock := true, coordAddr := u8 pl 0, depth := u8 pl 1 % 4, assocOpen := bitOf (u8 pl 2) 0, synthetic := bitOf (u8 pl 2) 1
    nodes := u8 pl 3, cycle := BitVec.ofNat 32 (u32 pl 4), periodNs := period, relays := relays
    cycleStart := start - slot * period / 2, heardAt := s.now }
  askOwed (if regained then s1.modPlc fun p => { p with role := if p.addr = 0 then 1 else 2, ask := 1 } else s1)

/-- R422, R424: a beacon of this network. -/
def beaconEffect (f : PlcFrame) (start rank : Nat) (s : State) : State :=
  let c := FrameControl.ofBytes f.fc
  if !fcAccepted s f.fc || c.type ≠ 1 then s
  else
    let raw := match f.blocks with | [(_, some d)] => d | _ => []
    let r := authPayload c raw f.auth (heardNode c.src true s)
    match r.2 with
    | none => r.1
    | some pl =>
      let s1 := r.1.modPlc fun p => { p with wakeHeard := ((List.range 8).map fun k => u8 pl (16 + k)).filter (· != 0) }
      let coord := u8 pl 0
      let cyc : Word := BitVec.ofNat 32 (u32 pl 4)
      if s1.plc.role == 3 then
        if coord == s1.plc.addr || !(rank < s1.coordRank || (rank == s1.coordRank && coord < s1.plc.addr)) then s1
        else
          let old := s1.plc.addr
          takeTiming c pl start (raise 72 7 coord (toLE 1 old) (s1.modPlc fun p => { p with role := 2, lock := false, table := [], wake := [] }))
      else if s1.plc.lock && s1.plc.cycle == cyc && s1.plc.depth ≤ u8 pl 1 then s1
      else takeTiming c pl start s1

def execBeacon (f : PlcFrame) (start rank : Nat) (s : State) : Host.Outcome State Fault Refusal := beaconRow (radio (beaconEffect f start rank)) s

/-- R422: 4 beacon periods without a beacon. -/
def beaconLockLossEffect (s : State) : State :=
  if s.plc.lock && decide (s.plc.heardAt + 8 * s.mainsNs ≤ s.now) then
    let s1 := s.modPlc fun p => { p with lock := false, role := 1, await := none }
    when (s.plc.addr != 0) (raise 72 2 s.plc.addr (toLE 1 1)) s1
  else s

def execBeaconLockLoss (s : State) : Host.Outcome State Fault Refusal := beaconRow beaconLockLossEffect s

/-- R424: a capable node starts coordinating after its wait. -/
def coordStartEffect (s : State) : State :=
  let p := s.plc
  if s.plcFlag 0 && p.role != 3 && !p.lock && decide (p.heardAt + 2 * s.mainsNs * (4 + (s.coordRank + 1) * 2) ≤ s.now) then
    let a := if p.addr ≠ 0 then p.addr else if s.plcFlag 2 then s.plcStatic else 1
    s.modPlc fun p => { p with role := 3, addr := a, coordAddr := a, ask := 0, cycleStart := s.now, table := [(a, leAt s.nodeId 0 8, s.now)] }
  else s

def execCoordStart (s : State) : Host.Outcome State Fault Refusal := beaconRow (radio coordStartEffect) s

/-! ### Contention and acknowledgement (R428 to R430) -/

/-- R428: this node may contend: it is synchronised, outside the beacon windows, no frame or SACK of its own runs, and its backoff lies in the window. -/
def State.mayContend (s : State) (backoff : Nat) : Bool :=
  s.plcSynced && !s.inBeaconWindow && s.plc.await.isNone && decide (s.plc.busyUntil ≤ s.now) && decide (backoff ≤ if s.plc.collided then 15 else 7)

/-- R422, R432: a node without an address sends only ASSOC_REQ. -/
def State.maySend (s : State) : Bool := s.plc.addr != 0 || s.plc.msgs.any fun m => m.type == 5

/-- R428: this node contends. -/
def plcContentionEffect (won : Bool) (backoff : Nat) (s : State) : State :=
  if won && s.mayContend backoff && s.maySend then plcTransmit backoff s else s

def execPlcContention (won : Bool) (backoff : Nat) (s : State) : Host.Outcome State Fault Refusal := plcRow (plcContentionEffect won backoff) s

/-- R429: a SACK as the sender sees it: 3 consecutive failures lower the region by one step. -/
def linkResult (dst r : Nat) (bad : Bool) (s : State) : State :=
  setRegion dst r (fun g =>
    if !bad then { g with failures := 0 }
    else if g.failures + 1 < 3 then { g with failures := g.failures + 1 }
    else { g with failures := 0, down := min 4 (g.down + 1) }) s

/-- R430: the state of block i after a SACK. -/
def blockResult (s : State) (a : PlcAwait) (badMap i : Nat) (b : PlcBlock) : PlcBlock :=
  if !bitOf a.map i then b
  else if bitOf badMap i then .bad a.region (s.now + s.regionNow.2 / 3 + 1) (match b with | .bad _ _ n => n | _ => 0)
  else .good

/-- R429, R430, R435: a SACK of the frame in flight. -/
def sackEffect (fc : List Byte) (s : State) : State :=
  let c := FrameControl.ofBytes fc
  match s.plc.await with
  | none => s
  | some a =>
    match s.plc.msgs.find? fun m => m.num == a.num with
    | none => s
    | some m =>
      if !fcAccepted s fc || c.type ≠ 3 || c.src ≠ a.dst || c.seq ≠ m.seq then s
      else
        let badMap := c.blockMap &&& a.map
        let s1 := linkResult a.dst a.region (badMap != 0) ((heardNode c.src true s).modPlc fun p => { p with await := none, collided := false })
        let blocks := (List.range m.blocks.length).map fun i => blockResult s a badMap i (m.blocks.getD i .good)
        let above := blocks.any fun b => match b with | .bad _ _ n => decide (s.resendLimit ≤ n) | _ => false
        let s2 := modMsg m.num (fun x => { x with blocks := blocks }) s1
        if above then (if m.own then failMsgs (fun x => x.num == m.num) 3 s2 else dropMsg m.num s2)
        else if blocks.all (· == .good) then
          if m.own && a.dst != m.final then modMsg m.num (fun x => { x with waitAck := true }) s2 else msgDone m.num s2
        else s2

def execSack (fc : List Byte) (s : State) : Host.Outcome State Fault Refusal := plcRow (sackEffect fc) s

/-- R428: no SACK by its end: a collision; the frame is sent again with the wider window. -/
def execSackTimeout (s : State) : Host.Outcome State Fault Refusal :=
  plcRow (fun s => if s.plc.await.isSome && decide (s.plc.busyUntil ≤ s.now) then s.modPlc fun p => { p with await := none, collided := true } else s) s

/-! ### Messages (R426, R435 to R437) -/

/-- R437, R434: a DATA message for this node, acknowledged end to end after more than one hop. -/
def dataEffect (f : PlcFrame) (s : State) : State :=
  let c := FrameControl.ofBytes f.fc
  let r := takeFrame 2 f s
  match r.2 with
  | none => r.1
  | some d =>
    let s1 := plcDeliver c d r.1
    when (c.hopsLeft != 4 && c.final != 255) (queueMsg 4 0 c.orig (toLE 2 c.seq.toNat ++ toLE 1 c.orig) false false false) s1

def execData (f : PlcFrame) (s : State) : Host.Outcome State Fault Refusal := plcRow (dataEffect f) s

/-- R435: the E2E_ACK of a message of this node. -/
def e2eAckEffect (f : PlcFrame) (s : State) : State :=
  let r := takeFrame 4 f s
  match r.2 with
  | none => r.1
  | some d =>
    match r.1.plc.msgs.find? fun m => m.own && m.waitAck && m.seq.toNat == u16 d 0 && u8 d 2 == r.1.plc.addr with
    | some m => msgDone m.num r.1
    | none => r.1

def execE2eAck (f : PlcFrame) (s : State) : Host.Outcome State Fault Refusal := plcRow (e2eAckEffect f) s

/-- R432: the lowest address without a holder. -/
def freeAddr (s : State) : Option Nat := ((List.range 254).map (· + 1)).find? fun a => !(s.plc.table.any fun t => t.1 == a)

/-- R432: the coordinator's answer: address and status. -/
def assocAnswer (s : State) (id want : Nat) : Nat × Nat :=
  if want = 0 then (match freeAddr s with | some a => (a, 0) | none => (0, 1))
  else match s.plc.table.find? fun t => t.1 == want with
    | none => if want ≤ 254 then (want, 0) else (want, 2)
    | some t => if t.2.1 == id then (want, 0) else if 254 ≤ s.plc.table.length then (want, 1) else (want, 2)

/-- R432: an ASSOC_REQ reaches the coordinator. -/
def assocReqEffect (f : PlcFrame) (s : State) : State :=
  let r := takeFrame 5 f s
  match r.2 with
  | none => r.1
  | some d =>
    if r.1.plc.role ≠ 3 then r.1
    else
      let id := leAt d 0 8
      let a := assocAnswer r.1 id (u8 d 8)
      let s1 := if a.2 = 0 then r.1.modPlc fun p => { p with table := p.table.filter (fun t => t.1 != a.1) ++ [(a.1, id, s.now)] }
        else if a.2 = 1 then raise 72 8 0xFF (toLE 8 id) (r.1.modPlc fun p => { p with refused := satAdd 16 p.refused 1 })
        else r.1.modPlc fun p => { p with refused := satAdd 16 p.refused 1 }
      queueMsg 6 0 255 (toLE 8 id ++ toLE 1 a.1 ++ toLE 1 a.2) false true false s1

def execAssocReq (f : PlcFrame) (s : State) : Host.Outcome State Fault Refusal := plcRow (assocReqEffect f) s

/-- R432: the response to this node. -/
def assocResEffect (f : PlcFrame) (s : State) : State :=
  let r := takeFrame 6 f s
  match r.2 with
  | none => r.1
  | some d =>
    if leAt d 0 8 ≠ leAt s.nodeId 0 8 then r.1
    else if u8 d 9 = 0 then
      let s1 := r.1.modPlc fun p => { p with addr := u8 d 8, role := 2 }
      raise 72 1 (u8 d 8) (toLE 1 s1.plc.coordAddr) s1
    else
      let s1 := r.1.modPlc fun p => { p with askedAt := s.now }
      if u8 d 9 = 2 ∧ s1.plc.addr ≠ 0 then askAddress (wantedAddress s1) (s1.modPlc fun p => { p with addr := 0, role := 1 }) else s1

def execAssocRes (f : PlcFrame) (s : State) : Host.Outcome State Fault Refusal := plcRow (assocResEffect f) s

/-- R429: a tone map of the link to its sender; DOWNRATE clears. -/
def tonemapEffect (f : PlcFrame) (s : State) : State :=
  let c := FrameControl.ofBytes f.fc
  let r := takeFrame 7 f s
  match r.2 with
  | none => r.1
  | some d =>
    let m : ToneMap := { version := u8 d 1 % 16, rate := u8 d 2, load := (List.range 355).map fun k => u8 d (3 + k / 2) / (if k % 2 = 0 then 1 else 16) % 16 }
    setRegion c.orig (u8 d 0 % 8) (fun g => { g with map := some m, down := 0, failures := 0 }) r.1

def execTonemap (f : PlcFrame) (s : State) : Host.Outcome State Fault Refusal := plcRow (tonemapEffect f) s

/-- R434, R432: a ROUTE frame; a coordinator rebuilds its table from it. -/
def routeEffect (f : PlcFrame) (s : State) : State :=
  let c := FrameControl.ofBytes f.fc
  let r := takeFrame 8 f s
  match r.2 with
  | none => r.1
  | some d =>
    let links := (List.range ((d.length - 9) / 5)).map fun k => (u8 d (9 + 5 * k), (BitVec.ofNat 32 (u32 d (10 + 5 * k)) : Word))
    let s1 := modNode c.orig (fun n => { n with
      strider := bitOf (u8 d 0) 0, asleep := bitOf (u8 d 0) 1, nodeId := leAt d 1 8, links := links }) r.1
    if s1.plc.role == 3 && !(s1.plc.table.any fun t => t.1 == c.orig) then
      s1.modPlc fun p => { p with table := p.table ++ [(c.orig, leAt d 1 8, s.now)] }
    else s1

def execRoute (f : PlcFrame) (s : State) : Host.Outcome State Fault Refusal := plcRow (routeEffect f) s

/-- R436: list an address in the next 2 beacons. -/
def addWake (a : Nat) (s : State) : State := s.modPlc fun p => { p with wake := p.wake.filter (fun w => w.1 != a) ++ [(a, 2)] }

def wakeReqEffect (f : PlcFrame) (s : State) : State :=
  let r := takeFrame 9 f s
  match r.2 with
  | none => r.1
  | some d => if r.1.plc.role == 3 then addWake (u8 d 0) r.1 else r.1

def execWakeReq (f : PlcFrame) (s : State) : Host.Outcome State Fault Refusal := plcRow (wakeReqEffect f) s

/-! ### Timers (R432, R434, R435) -/

/-- 16 beacon periods have passed since `t`. -/
def State.sixteenPeriods (s : State) (t : Nat) : Bool := decide (t + 32 * s.mainsNs ≤ s.now)

/-- R434: every 16 beacon periods. -/
def execRouteTimer (s : State) : Host.Outcome State Fault Refusal :=
  plcRow (fun s => when (s.plcSynced && s.plc.addr != 0 && s.sixteenPeriods s.plc.routeAt) (sendRoute false) s) s

/-- R432: a refused node asks again after 16 beacon periods. -/
def execAssocRetry (s : State) : Host.Outcome State Fault Refusal :=
  plcRow (fun s => when (s.plc.lock && s.plc.addr == 0 && s.plc.assocOpen && s.sixteenPeriods s.plc.askedAt) (askAddress (wantedAddress s)) s) s

/-- R432: an address held for ASSOC_HOLD_S after its node was last heard becomes free; the neighbour is gone. -/
def addressHoldEffect (a : Nat) (s : State) : State :=
  let old := fun t : Nat => decide (t + s.assocHoldS * 1000000000 ≤ s.now)
  let s1 := s.modPlc fun p => { p with table := p.table.filter fun t => !(t.1 == a && t.1 != p.addr && old t.2.2) }
  let n := s.plcNode a
  if n.direct && old n.lastHeard then raise 72 4 a (toLE 1 (rateMask s a)) (modNode a (fun n => { n with direct := false }) s1) else s1

def execAddressHoldExpiry (addr : Nat) (s : State) : Host.Outcome State Fault Refusal := plcRow (addressHoldEffect addr) s

/-- R435: MSG_TIMEOUT_MS has passed. -/
def execPlcMsgTimeout (seq : Half) (s : State) : Host.Outcome State Fault Refusal :=
  live (fun s => if s.plcOn then failMsgs (fun m => m.own && m.seq == seq && decide (m.queuedAt + s.plcTimeoutMs * 1000000 ≤ s.now)) 4 s else s) s

/-! ### PLC_SEND (R435, R436) -/

def plcSendInfo : OpInfo :=
  { code := 0x25, cls := some 1, setup := false, safe := false, acc := .token
    rsvOk := fun d => restZero d [(8, 1), (16, 10)]
    target := fun s d => d.kind == 12 && decide (1 ≤ d.ix ∧ d.ix ≤ 254) && d.ix != s.plc.addr
    range := fun _ d => decide (d.b 8 ≤ 3) && decide (1 ≤ d.h 24 ∧ d.h 24 ≤ 1500) && d.q 16 % 8 == 0 }

/-- A PLC_SEND that ends with STATE_INVALID. -/
def plcFailed (reason : Nat) (s : State) : Answer := answer stState reason (s.modPlc fun p => { p with failed := satAdd 16 p.failed 1 })

def plcSendOp (d : Desc) (s : State) : Answer :=
  let queued := s.plc.msgs.filter fun m => m.own && m.prio == d.b 8
  if !s.plcOn || s.plc.addr == 0 || !s.plcSynced then plcFailed 1 s
  else if 16 ≤ queued.length then answer stBusy 0 s
  else if !hasRoute s d.ix then plcFailed 2 s
  else match d.input with
    | none => answer stBuffer 0 s
    | some bytes =>
      let asleep := (s.plcNode d.ix).asleep
      let s0 := if !asleep then s else if s.plc.role == 3 then addWake d.ix s else queueMsg 9 0 s.plc.coordAddr (toLE 1 d.ix) false false false s
      let num := s0.plc.nextNum
      (startOp d (.plcSend num) (queueMsg 2 (d.b 8) d.ix (padTo (d.h 24) bytes) true false asleep s0), none)

def execPlcSend (d : Desc) (s : State) : Host.Outcome State Fault Refusal := live (runDesc plcSendInfo plcSendOp d) s

end Sys2Proof.Machine
end

