-- ==== Sys2Proof/Machine/Profile.lean ====
section
/-! DEFINITION. Meanings of the profile and firmware commands: SELECT_PROFILE and its effect (R27 to R29), PROFILE_WRITE and FIRMWARE_WRITE (R123), FIRMWARE_ACTIVATE (R514) with the Caddis image (R457). -/

namespace Sys2Proof.Machine

/-! ### SELECT_PROFILE (R27 to R29) -/

def selectInfo : OpInfo :=
  { code := 0x23, cls := some 1, safe := false, acc := .token, rsvOk := fun d => restZero d [], target := kindBelow 7 4 }

/-- R28, R32: the lock begins, and the change waits for an allocation boundary: in a pair for the one that both units take. -/
def beginChange (slot count : Nat) (s : State) : State :=
  s.modProf fun p => { p with lock := true, lockAt := s.now, change := some slot, changeCount := count }

/-- R27, R28: the lock begins with the idle check. -/
def selectProfileOp (d : Desc) (s : State) : Answer :=
  if s.prof.lock then answer stState 0 s
  else if !s.allIdle then answer stNotIdle 0 s
  else (startOp d (.selectProfile d.ix) (beginChange d.ix (if s.paired then s.nextAllocCount else 0) s), none)

def execSelectProfile (d : Desc) (s : State) : Host.Outcome State Fault Refusal := live (runDesc selectInfo selectProfileOp d) s

/-- R308: the lanes that train because of the change. -/
def State.lanesTraining (s : State) : List Nat :=
  (List.range 16).filter fun n => (s.lane n).state == .down && (s.lane n).trainAt == s.now

/-- R29, R593: the check, and the change or the refusal with E122. The lock of R28 takes in the training of the lanes. -/
def takeEffect (s : State) : State :=
  match s.prof.change with
  | none => s
  | some slot =>
    let img := (slotImage s slot).getD []
    let version := toLE 4 (profileVersion img)
    match profileCause s slot true with
    | none =>
      let s1 := raise 122 1 slot version (takeProfile slot img s)
      settleLock (endOps (· == .selectProfile slot) stOk 0 (s1.modProf fun p => { p with change := none, lockLanes := s1.lanesTraining }))
    | some c => endOps (· == .selectProfile slot) stProfile 0 (endLock (raise 122 c slot version s))

/-- R29: at an allocation boundary; with no profile active none runs, and the change takes effect when it is made. -/
def State.mayChange (s : State) : Bool :=
  (s.prof.active.isNone || s.atAllocBoundary) && decide (s.prof.changeCount ≤ s.pair.periodCount.toNat)

def execProfileTakeEffect (s : State) : Host.Outcome State Fault Refusal := live (when s.mayChange takeEffect) s

/-! ### Storing images (R123) -/

/-- R122: the body of PROFILE_WRITE and FIRMWARE_WRITE. -/
def storeInfo (code : Nat) (target : State → Desc → Bool) (limit : Nat) : OpInfo :=
  { code := code, cls := some 3, safe := false
    rsvOk := fun d => restZero d [(8, 1), (12, 4), (16, 8), (24, 4)] && d.b 8 < 4
    target := target
    range := fun _ d => decide (1 ≤ d.w 24 ∧ d.w 24 ≤ 65536) && d.q 16 % 8 == 0 && d.w 12 + d.w 24 ≤ limit }

/-- The bytes of an image after one write; bytes that no write has given are open. -/
def writeAt (ix : Nat) (l : List Byte) (off : Nat) (data : List Byte) : List Byte :=
  let gap := (List.range (off - l.length)).map (Config.freeByte ix)
  (l ++ gap).take off ++ data ++ l.drop (off + data.length)

/-- R34: IMAGE_SIZE is at most 2097152. -/
def maxImage : Nat := 2097152

/-- R123: FIRST empties the slot; the bytes are stored, and the slot reads as empty until LAST. -/
def storePart (d : Desc) (data : List Byte) (s : State) : State :=
  useFree (s.modProf fun p => { p with slots := upd p.slots d.ix fun x =>
    { bytes := writeAt s.freeIx (if bitOf (d.b 8) 0 then [] else x.bytes) (d.w 12) data, committed := false, writing := true } })

/-- R512: the wrap of a stored profile, replaced before the descriptor completes. -/
def wrapProfile (slot : Nat) (img : List Byte) (s : State) : State :=
  s.modKey fun k => { k with store := { k.store with
    wraps := k.store.wraps.filter (fun w => w.1 != slot) ++ [(slot, measWith k.m2 img)] } }

/-- R123: LAST commits an image that passes checks 2 to 7. -/
def commitImage (slot len : Nat) (s : State) : Answer :=
  let img := (nth s.prof.slots slot).bytes
  let close := fun ok s => State.modProf (fun p => { p with slots := upd p.slots slot fun x => { x with committed := ok, writing := false } }) s
  match storeCause s img with
  | some c => answer stProfile c (close false s)
  | none => answer stOk len (wrapProfile slot img (close true s))

def isActiveSlot (s : State) (slot : Nat) : Bool := match s.prof.active with | some p => p.slot == slot | none => false

def profileWriteOp (d : Desc) (s : State) : Answer :=
  if isActiveSlot s d.ix then answer stSlotActive 0 s
  else match d.input with
    | none => answer stBuffer 0 s
    | some b =>
      let s1 := storePart d (padTo (d.w 24) b) s
      if bitOf (d.b 8) 1 then commitImage d.ix (d.w 24) s1 else answer stOk (d.w 24) s1

/-- R364: no flash write starts while a thermal halt is pending: the descriptor waits for the reset. -/
def flashRow (op : OpInfo) (eff : Desc → State → Answer) (d : Desc) (s : State) : Host.Outcome State Fault Refusal :=
  live (fun s => if s.thm.halting.isSome then s else runDesc op eff d s) s

def execProfileWrite (d : Desc) (s : State) : Host.Outcome State Fault Refusal :=
  flashRow (storeInfo 0x40 (kindBelow 7 4) maxImage) profileWriteOp d s

/-- R123: into the inactive bank; LAST commits the package. -/
def firmwareWriteOp (d : Desc) (s : State) : Answer :=
  match d.input with
  | none => answer stBuffer 0 s
  | some b =>
    let bank := 1 - s.key.active
    let old := if bitOf (d.b 8) 0 then [] else s.bank bank
    let new := writeAt s.freeIx old (d.w 12) (padTo (d.w 24) b)
    let last := bitOf (d.b 8) 1
    answer stOk (d.w 24) (useFree (s.modKey fun k => { k with banks := upd k.banks bank fun _ => new, fwWriting := !last, staged := last }))

def execFirmwareWrite (d : Desc) (s : State) : Host.Outcome State Fault Refusal :=
  flashRow (storeInfo 0x41 kindNone (2 ^ 32 + 65536)) firmwareWriteOp d s

/-! ### FIRMWARE_ACTIVATE (R457, R514) -/

/-- R457, R467: why Caddis refuses an image, or 0. -/
def caddisImageRefusal (s : State) (signed : Bool) : Nat :=
  if !s.met.ready then 0x0B
  else if !signed then 0x0A
  else if s.met.sealIntact then 0x02
  else if 8184 ≤ generalCount s then 0x03
  else if s.met.ch.any (·.isOpen) then 0x04
  else 0

/-- R457: Caddis installs the offered image and restarts, or keeps its own with E85. -/
def offerCaddis (image : Bool × Word × List Byte) (s : State) : State :=
  let version := image.2.1.toNat
  match caddisImageRefusal s image.1 with
  | 0 =>
    let s1 := logGeneral 6 0xFF 0 version (u32 image.2.2 0) s
    takeIdent ((commitAll s1).modMet fun m => { m with
      firmware := some (version, image.2.2), otherBank := m.firmware, ready := false, warmup := false, installing := true })
  | r => metRaise 85 r 0xFF (toLE 4 version) s

/-- R514: the store under the MEAS of every stored profile with the new firmware. -/
def rewrap (s : State) (m2 : List Byte) : Store :=
  { wraps := s.key.store.wraps.filterMap fun w => (slotImage s w.1).map fun img => (w.1, measWith m2 img)
    saved := s.key.store.saved }

/-- R514, steps 1 to 4. -/
def firmwareActivateOp (_ : Desc) (s : State) : Answer :=
  let bank := 1 - s.key.active
  let pkg := s.bank bank
  if !s.allIdle then answer stNotIdle 0 s
  else if !s.key.staged || !Config.fwVerify pkg || decide ((Config.fwVersion pkg).toNat < s.key.floor) then answer stProfile 0 s
  else
    let s1 := s.modKey fun k => { k with
      prev := some (k.prev.getD k.store), store := rewrap s (stage2 pkg), bootBank := some bank, resetDue := some s.now }
    answer stOk 0 (offerCaddis (Config.caddisImage pkg) s1)

def activateInfo : OpInfo := { code := 0x42, cls := some 3, safe := false, rsvOk := fun d => restZero d [], target := kindNone }

def execFirmwareActivate (d : Desc) (s : State) : Host.Outcome State Fault Refusal := flashRow activateInfo firmwareActivateOp d s

end Sys2Proof.Machine
end

