-- ==== Sys2Proof/Machine/Pair.lean ====
section
/-! DEFINITION. Meanings of the redundant pair's commands: the interlock, the pair link, mirror records, formation, resync and handovers (R524 to R559). -/

namespace Sys2Proof.Machine

/-! ### The interlock (R527, R528, R530, R531) -/

/-- R527: ILK_IN is classified while the module has its supply and the controller is out of reset: Boot raises nothing, and the wake takes up what comes in Sleep. -/
def ilkRow (cls : IlkClass) (s : State) : State :=
  if !s.member || s.pwr.held then s
  else if s.awake then ilkEffect cls s.now s
  else if s.pwr.opState == .boot then (if cls == s.pair.ilk then s else s.modPair fun p => { p with ilk := cls, ilkAt := s.now })
  else s.modPair fun p => { p with ilkAsleep := some (cls, s.now) }

def execIlkInClassChange (cls : IlkClass) (s : State) : Host.Outcome State Fault Refusal := ctl (ilkRow cls) s

/-- R528: the readback has shown no valid pulse for 3 µs while the heartbeat runs. -/
def readbackEffect (s : State) : State :=
  if !s.pwr.ilkOut || decide (s.now < s.pair.pulsesAt + 3000) then s
  else enterSafe 3 (pairFault 2 (s.modPair fun p => { p with readbackOk := false }))

def execIlkReadbackFail (s : State) : Host.Outcome State Fault Refusal := pairRow readbackEffect s

/-- R530: unit B has seen ACTIVE for 4 µs and yields. -/
def execAuthYield (s : State) : Host.Outcome State Fault Refusal :=
  pairRow (fun s => when (s.unitB && s.pair.auth && s.sawActive 4000) (clearAuth (some 4)) s) s

/-- R530: unit A sees a second ACTIVE unit for 20 µs. -/
def execAuthCollision (s : State) : Host.Outcome State Fault Refusal :=
  pairRow (fun s => if !s.unitB && s.pair.auth && s.sawActive 20000 then enterSafe 4 (pairFault 3 s) else s) s

/-- R531: ILK_IN has been HIGH or INVALID and the pair link down, both for at least 1 ms. -/
def doubleFaultEffect (s : State) : State :=
  if s.pair.doubleFault || !s.pair.ilk.broken || s.pair.linkUp || !s.running || decide (s.now < max s.pair.ilkAt s.pair.linkDownAt + 1000000) then s
  else settleVehicles (settleDouble (s.modPair fun p => { p with doubleFault := true, doubleAt := s.now }))

def execDoubleFault (s : State) : Host.Outcome State Fault Refusal := pairRow doubleFaultEffect s

/-! ### The pair link (R533 to R536, R540 to R543) -/

/-- R276, R534, R535: a valid PERIOD frame of the peer. -/
def periodOk (s : State) (type : Byte) (l : List Block) : Bool :=
  type.toNat == 0x10 && l.length == 5 && bits (blk l 0) 0 8 == 0x10 && bits (blk l 0) 10 6 == s.host.pairId.toNat
    && bits (blk l 0) 19 5 == 0 && bits (blk l 0) 40 24 == 0 && bits (blk l 1) 51 13 == 0 && bits (blk l 2) 34 30 == 0
    && bits (blk l 3) 34 30 == 0 && (l.getLast?.getD 0) == crcBlock l.dropLast

def PairState.ofCode : Nat → PairState
  | 1 => .forming | 2 => .refused | 3 => .active | 4 => .hot | 5 => .resync | 6 => .isolated | _ => .alone

/-- R540: at formation the unit without AUTH adopts the peer's SEQUENCE and PERIOD_COUNT. -/
def adoptTiming (l : List Block) (s : State) : State :=
  if s.pair.state != .forming || s.pair.auth then s
  else
    let s1 := { s with lanes := { s.lanes with q := frSeq l } }
    s1.modPair fun p => { p with periodCount := BitVec.ofNat 48 (bits (blk l 1) 0 48) }

def periodEffect (type : Byte) (l : List Block) (s : State) : State :=
  if !periodOk s type l || !s.pair.lanes.any (·.blockLock) then s
  else
    let s1 := s.modPair fun p => { p with
      peerAuth := bits (blk l 0) 8 1 == 1, peerState := PairState.ofCode (bits (blk l 0) 16 3), periodAt := some s.now }
    let s2 := adoptTiming l (takeDigest l (linkUp s1))
    let s3 := learnTerm (BitVec.ofNat 32 (bits (blk l 3) 0 32)) (bits (blk l 3) 32 1 == 1) (bits (blk l 3) 33 1 == 1) s2
    settleVehicles (settleAuth s3)

/-- R533: any valid PERIOD frame brings the link up. -/
def execPeriod (type : Byte) (blocks : List Block) (s : State) : Host.Outcome State Fault Refusal := pairRow (periodEffect type blocks) s

/-- R533: 32 control periods have passed without a valid PERIOD frame. -/
def execPairLinkDown (s : State) : Host.Outcome State Fault Refusal := pairRow (when (!s.peerHeard) (linkDown false)) s

/-- R536: 10 µs after it left, the record is sent again, up to 8 times; then the link is declared down. -/
def ackTimeoutEffect (seq : Word) (s : State) : State :=
  match s.pair.unacked.find? fun r => r.seq == seq with
  | none => s
  | some r =>
    if s.now < r.sentAt + 10000 then s
    else if r.tries ≤ 8 then
      putRecord r.seq r.content
        (s.modPair fun p => { p with unacked := p.unacked.map fun x => if x.seq == seq then { x with tries := x.tries + 1, sentAt := s.now } else x })
    else linkDown true s

def execMirrorAckTimeout (seq : Word) (s : State) : Host.Outcome State Fault Refusal := pairRow (ackTimeoutEffect seq) s

/-- R552: the ACK of a HANDOVER record in time, 2 µs before the instant, lets the giving side act. -/
def noteHandoverAck (s : State) : State :=
  s.modPair fun p => { p with
    handover := p.handover.map fun h => if !h.taking && s.now + 2000 ≤ s.handoverTime h then { h with acked := true } else h }

/-- R536: a record is confirmed. -/
def ackEffect (seq : Word) (s : State) : State :=
  let hand := s.pair.unacked.any fun r => r.seq == seq && r.content.rtype == 4
  when hand noteHandoverAck (s.modPair fun p => { p with unacked := p.unacked.filter fun r => r.seq != seq })

def execAck (seq : Word) (s : State) : Host.Outcome State Fault Refusal :=
  pairRow (fun s => if s.pair.linkUp then ackEffect seq s else s) s

/-! ### Forming the pair (R538, R539) -/

/-- R538: the first check that a HELLO fails: its order, its event, its cause and the mismatched value. -/
def helloCheck (h : Hello) (s : State) : Option (Nat × Nat × Nat × List Byte) :=
  let digest := s.payloadDigest
  if !h.identityOk then some (1, 101, 6, [])
  else if h.unitB == s.unitB then some (2, 103, 4, toLE 1 s.pair.ilk.code)
  else if h.pairId ≠ s.host.pairId then some (3, 101, 3, toLE 1 h.pairId.toNat)
  else if h.ownerKeyId ≠ padTo 16 (ownerKeyId (s.ownerKey.getD [])) then some (4, 101, 5, bytesAt h.ownerKeyId 0 16)
  else if h.firmware ≠ s.fwVersion then some (5, 101, 4, toLE 4 h.firmware)
  else if h.digest ≠ digest then some (6, 101, 2, bytesAt h.digest 0 16)
  else if h.meas ≠ s.key.meas then some (7, 101, 4, bytesAt h.meas 0 16)
  else none

/-- R538, R539: a failed check and which unit enters REFUSED. -/
def helloFailed (order ev cause : Nat) (payload : List Byte) (s : State) : State :=
  let s1 := raise ev cause 0xFF payload s
  let leaves := order ≤ 2 || (if order = 7 && s.pair.helloOk then !s.pair.auth else s.unitB)
  if leaves then s1.modPair fun p => { p with state := .refused, helloOk := false, mayRejoin := false } else s1

/-- R549: at formation unit A proposes the next term when it knows of no current lease. -/
def proposeLease (s : State) : State :=
  if s.unitB || s.pair.held then s
  else
    let t := s.pair.term + 1
    sendLease false 1 t 0 (s.modPair fun p => { p with proposed := some t, renewAt := s.now })

/-- R538, R543: every check passed: the pair key, the state, and the lease that unit A proposes when it knows of none (R549). -/
def helloPassed (h : Hello) (s : State) : State :=
  let s1 := placePairKey (s.modPair fun p => { p with
    peerPublic := h.publicKey, peerNode := h.nodeId, helloOk := true, mayRejoin := false
    state := if p.state == .refused then .forming else p.state })
  let s2 := settleAuth s1
  proposeLease (if s2.pair.state != .forming then s2
    else if s2.pair.auth then s2.modPair fun p => { p with state := .active } else enterResync s2)

def helloEffect (h : Hello) (s : State) : State :=
  if s.pair.state == .refused && !s.pair.mayRejoin then s
  else match helloCheck h s with
    | some f => helloFailed f.1 f.2.1 f.2.2.1 f.2.2.2 s
    | none => helloPassed h s

def execHello (seq : Word) (h : Hello) (s : State) : Host.Outcome State Fault Refusal := pairRow (takeRecord seq (helloEffect h)) s

/-! ### Handovers (R552, R553) -/

/-- R559: lane-loss handovers asked for by both: neither; each applies R307 to its lost lanes. -/
def crossedLoss (s : State) : State :=
  forAll ((List.range 16).filter fun n => (s.lane n).state == .down) (fun n s =>
      forAll ([2 * n, 2 * n + 1].filter fun i => (s.stage i).outEn) safeStop s)
    (s.modPair fun p => { p with handover := none })

/-- R552, R575: the taking side acknowledges and starts its on-only pre-drive. -/
def handoverEffect (atCount kind : Nat) (s : State) : State :=
  if s.pair.handover.any fun h => !h.taking && h.kind == 2 && kind == 2 then crossedLoss s
  else if s.pair.state != .hot || s.pair.auth || s.pair.handover.isSome || (kind ≠ 1 && kind ≠ 2) then s
  else preDriveOn (s.modPair fun p => { p with handover := some { atCount := atCount, kind := kind, taking := true, acked := true, since := s.pair.periodCount.toNat } })

def execHandover (seq : Word) (atCount kind : Nat) (s : State) : Host.Outcome State Fault Refusal :=
  pairRow (takeRecord seq (handoverEffect atCount kind)) s

/-- R552: 0.5 µs before the instant the taking side sets AUTH, provided it has sent its ACK. -/
def handoverTakenEffect (s : State) : State :=
  if s.inHandoverWindow && s.pair.handover.any fun h => h.taking && h.acked then leaseSettled (handoverInstant (setAuth 3 s)) else s

def execHandoverTaken (s : State) : Host.Outcome State Fault Refusal := pairRow handoverTakenEffect s

/-- R552: after a SWITCHOVER the giving side holds no lease; its peer holds the granted term. -/
def giveLease (s : State) : State :=
  let s1 := leaseGone (leaseEvent 99 2 [] s)
  leaseSettled (s1.modPair fun p => { p with
    term := p.term + 1, holderB := !s.unitB, held := true, expiresAt := s.now + s.leaseNs, granted := none })

def handoverGivenEffect (s : State) : State :=
  match s.pair.handover with
  | some h =>
    if h.taking || !h.acked || !s.pair.auth || !s.inHandoverWindow || decide (s.now < s.handoverTime h + 500) then s
    else
      let s1 := clearAuth (some 2) s
      if h.kind = 1 && s.leaseHere then giveLease s1 else s1
  | none => s

/-- R552: 0.5 µs after the instant the giving side clears AUTH, provided it has received the ACK in time. -/
def execHandoverGiven (s : State) : Host.Outcome State Fault Refusal := pairRow handoverGivenEffect s

/-- R530: 8 µs after the instant the window ends; the yield and collision rules resume. -/
def windowEndEffect (s : State) : State :=
  match s.pair.handover with
  | some h =>
    if s.now < s.handoverTime h + 8000 then s
    else settleVehicles (settleAuth
      ((s.modPair fun p => { p with handover := none, granted := none, windowEndAt := s.handoverTime h + 8000 }).modSw fun w => { w with preDrive := false }))
  | none => s

def execHandoverWindowEnd (s : State) : Host.Outcome State Fault Refusal := pairRow windowEndEffect s

/-- R552: PAIR_CTRL.SWITCHOVER: HANDOVER and the GRANT of the next term leave. -/
def switchoverEffect (value : Word) (s : State) : State :=
  let ok := s.member && value.getLsbD 0 && s.pair.state == .active && s.pair.auth && s.leaseHere && s.pair.peerState == .hot
    && s.pair.linkUp && s.pair.handover.isNone
  if ok then sendLease false 3 (s.pair.term + 1) 0 (startHandover 1 8 s) else s

def execSwitchover (value : Word) (s : State) : Host.Outcome State Fault Refusal := hostRow (switchoverEffect value) s

/-! ### Resync (R543, R544) -/

/-- R557: PAIR_CTRL.RESYNC on a HOT or RESYNC unit. -/
def resyncEffect (value : Word) (s : State) : State :=
  if s.member && value.getLsbD 1 && (s.pair.state == .hot || s.pair.state == .resync) then enterResync s else s

def execResync (value : Word) (s : State) : Host.Outcome State Fault Refusal := hostRow (resyncEffect value) s

/-- R544: the ACTIVE unit sends its image, and takes the resync point too. -/
def snapshotReply (s : State) : State :=
  if s.pair.state != .active then s
  else
    let c := s.resyncPoint
    let parts := snapshotParts c s
    (forAll ((List.range parts.length).zip parts) (fun p s => sendRecord (.snapshot p.1 parts.length p.2) s) s).modPair fun p => { p with resyncAt := some c }

def execSnapshotRequest (seq : Word) (s : State) : Host.Outcome State Fault Refusal := pairRow (takeRecord seq snapshotReply) s

/-- R544: one fragment; with the last of them the resync point is known. -/
def fragmentEffect (frag frags : Nat) (part : SnapPart) (s : State) : State :=
  if s.pair.state != .resync || !s.pair.snapWanted || frags ≤ frag then s
  else
    let parts := s.pair.snapParts.filter (fun p => p.1 != frag) ++ [(frag, part)]
    let point := parts.findSome? fun p => match p.2 with | .point c => some c | _ => none
    s.modPair fun p => { p with snapParts := parts, resyncAt := if parts.length = frags then point else none }

def execSnapshotRecord (seq : Word) (frag frags : Nat) (part : SnapPart) (s : State) : Host.Outcome State Fault Refusal :=
  pairRow (takeRecord seq (fragmentEffect frag frags part)) s

/-- R544: at the named allocation boundary the requesting unit loads the image. -/
def resyncPointEffect (s : State) : State :=
  match s.pair.resyncAt with
  | some c =>
    if s.pair.periodCount.toNat != c then s
    else if s.pair.state != .resync then s.modPair fun p => { p with resyncAt := none }
    else
      let s1 := forAll (s.pair.snapParts.map (·.2)) loadPart s
      s1.modPair fun p => { p with snapParts := [], resyncAt := none, snapWanted := false, snapApplied := true, hotRun := 0 }
  | none => s

def execResyncPoint (s : State) : Host.Outcome State Fault Refusal := pairRow resyncPointEffect s

/-! ### Mirror records that carry state (R545, R348, R475, R476) -/

/-- R545, R32: the peer keeps the record for its effect tick; a profile change locks its outlets until the common boundary. -/
def descriptorArrives (d : Desc) (status : Nat) (tick : EffectTick) (s : State) : State :=
  if status != stOk && status != stDeferred then s
  else if d.opcode == 0x23 then
    match tick with
    | .period c => beginChange d.ix c s
    | .time _ => s
  else if atTick d.opcode.toNat then s.modPair fun p => { p with effects := p.effects ++ [(tick, d)] } else s

def execDescriptor (seq : Word) (d : Desc) (status : Byte) (tick : EffectTick) (s : State) : Host.Outcome State Fault Refusal :=
  pairRow (takeRecord seq (descriptorArrives d status.toNat tick)) s

/-- R545: what a mirrored descriptor does at its effect tick. -/
def mirroredEffect (d : Desc) (s : State) : State :=
  match d.opcode.toNat with
  | 0x06 => (gridCapOp d s).1
  | 0x07 => (outletHaltOp d s).1
  | 0x08 => (outletResumeOp d s).1
  | 0x09 => (stageHaltOp d s).1
  | 0x0A => (stageResumeOp d s).1
  | 0x20 => (sessionAuthorizeOp d s).1
  | 0x21 => (sessionEndOp d s).1
  | 0x22 => (outletPolicyOp d s).1
  | 0x45 => (match d.input with
    | some c => if u8 c 0 = 0 then (injectOffOp d s).1 else (injectOp d s).1
    | none => s)
  | _ => s

/-- R545: an effect tick has come. -/
def State.reached (s : State) : EffectTick → Bool
  | .period c => decide (c ≤ s.pair.periodCount.toNat)
  | .time t => decide (t ≤ s.now)

/-- R545: the descriptors whose tick has come take effect, in the order in which they were executed. -/
def mirroredDescriptorStep (s : State) : State :=
  let due := s.pair.effects.filter fun e => s.reached e.1
  if due.isEmpty then s
  else settleVehicles (forAll due (fun e s => mirroredEffect e.2 s)
    (s.modPair fun p => { p with effects := p.effects.filter fun e => !s.reached e.1 }))

def execMirroredDescriptorEffect (s : State) : Host.Outcome State Fault Refusal := pairRow mirroredDescriptorStep s

/-- R393, R545: the peer's copy of a session, on the unit without the lease. R539: one that no key opens is discarded and not acknowledged. -/
def execSession (seq : Word) (outlet : Nat) (copy : Session) (wrapKey : List Byte) (s : State) : Host.Outcome State Fault Refusal :=
  pairRow (fun s => if !s.pairKeyOpens wrapKey then s
    else takeRecord seq (fun s => if s.leaseHere || 8 ≤ outlet then s else s.modSes outlet fun _ => copy) s) s

/-- R545: the set-point path state, on the unit without the lease. -/
def execTarget (seq : Word) (outlet : Nat) (copy : Path) (s : State) : Host.Outcome State Fault Refusal :=
  pairRow (takeRecord seq fun s => if s.leaseHere || 8 ≤ outlet then s else s.modPath outlet fun _ => copy) s

/-- R168, R545: the transfer state and timers of one stage, on the unit that is not ACTIVE. -/
def execTransfer (seq : Word) (stage : Nat) (copy : Stage) (s : State) : Host.Outcome State Fault Refusal :=
  pairRow (takeRecord seq fun s => if s.pair.state == .active || 32 ≤ stage then s else s.modStage stage fun _ => copy) s

/-- R348: the peer's readings, with the time of their conversion, wait for their boundary. -/
def sensorEffect (at_ : Nat) (rtds : List (Nat × Half)) (flows : List (Nat × Nat)) (s : State) : State :=
  let id := fun k => 0x1000 + 0x800 * b2n (!s.unitB) + k
  let value := fun h : Half => if h == 0x8000#16 then none else some h.toInt
  let theirs := (rtds.filter fun r => r.1 < 24).map (fun r => (id r.1, value r.2, at_))
    ++ (flows.filter fun f => f.1 < 8).map fun f => (flowId f.1, some (f.2 : Int), at_)
  s.modThm fun t => { t with queue := t.queue ++ theirs }

def execSensor (seq : Word) (at_ : Nat) (rtds : List (Nat × Half)) (flows : List (Nat × Nat)) (s : State) : Host.Outcome State Fault Refusal :=
  pairRow (takeRecord seq (sensorEffect at_ rtds flows)) s

def execCaddis (seq : Word) (outlet : Nat) (start : Bool) (sessionRef : List Byte) (primaryTxn : Nat) (primaryId : List Byte) (s : State) :
    Host.Outcome State Fault Refusal :=
  pairRow (takeRecord seq (mirroredArrives outlet start sessionRef primaryTxn primaryId)) s

/-- R306, R537: which lanes the peer has ACTIVE. -/
def execLane (seq : Word) (active : Half) (s : State) : Host.Outcome State Fault Refusal :=
  pairRow (takeRecord seq fun s => s.modPair fun p => { p with peerLanes := active }) s

/-! ### PAIR frames of the site network (R438, R537) -/

/-- R537: RTYPE, LEN and body of up to `n` records. -/
def pairRecords : Nat → List Byte → List (Nat × List Byte)
  | 0, _ => []
  | _ + 1, [] => []
  | n + 1, l =>
    let len := u16 l 1
    if l.length < 3 + len then [] else (u8 l 0, bytesAt l 3 len) :: pairRecords n (l.drop (3 + len))

/-- R537: only LEASE and CADDIS records travel in PAIR frames. -/
def pairRecordEffect (r : Nat × List Byte) (s : State) : State :=
  if r.1 = 3 then leaseBodyEffect true r.2 s
  else if r.1 = 0x0A then
    mirroredArrives (u8 r.2 0) (u8 r.2 1 == 1) (bytesAt r.2 2 16) (u32 r.2 18) (bytesAt r.2 22 16) s
  else s

def pairPayload (payload : List Byte) (s : State) : State := if s.member then forAll (pairRecords 8 payload) pairRecordEffect s else s

def pairFrameEffect (f : PlcFrame) (s : State) : State :=
  let r := takeFrame 0x0A f s
  match r.2 with
  | some payload => pairPayload payload r.1
  | none => r.1

def execPairFrame (f : PlcFrame) (s : State) : Host.Outcome State Fault Refusal := plcRow (pairFrameEffect f) s

/-- R438: a PAIR frame is due every 200 ms while the pair link is up, and every 25 ms while it is down. -/
def State.pairFrameDue (s : State) : Bool := decide (s.pair.frameAt + (if s.pair.linkUp then 200000000 else 25000000) ≤ s.now)

/-- R438: the records waiting, up to 8, leave in one PAIR frame at priority 0; it replaces one that is not delivered. -/
def pairTimerEffect (s0 : State) : State :=
  let s := s0.modPair fun p => { p with frameAt := s0.now }
  let now := s.pair.plcOut.take 8
  let s1 := s.modPlc fun p => { p with msgs := p.msgs.filter fun m => !(m.orig == p.addr && m.type == 0x0A) }
  if now.isEmpty || s.peerAddr = 0 then s1
  else
    let payload := now.flatMap fun r => toLE 1 r.1 ++ toLE 2 r.2.length ++ r.2
    queueMsg 0x0A 0 s.peerAddr payload false false false (s1.modPair fun p => { p with plcOut := p.plcOut.drop 8 })

def execPairFrameTimer (s : State) : Host.Outcome State Fault Refusal := plcRow (fun s => when (s.plcFallback && s.pairFrameDue) pairTimerEffect s) s

end Sys2Proof.Machine
end

