-- ==== Sys2Proof/Machine/Power.lean ====
section
/-! DEFINITION. Meanings of the supply, reset, clock, operating-state, sleep and wake commands (R71 to R96), the thermal halt (R364, R365), the recovery load and the firmware reset (R514, R515) and boundary scan (R70). -/

namespace Sys2Proof.Machine

/-! ### Resets -/

/-- Something holds the controller logic in reset: RESET_N (R77) or a boundary-scan test (R70). -/
def Pwr.pinned (p : Pwr) : Bool := p.resetNLow || p.tap.testing

/-- R75, R499: only an armed power-on reset releases, and only Boot follows that nothing else holds back. The AON halt mark may be lost with the supply (R365), which the spec leaves open. -/
def powerOnEffect (straps : Straps) (w : WellspringRead) (s : State) : State :=
  if !s.pwr.porArmed then s
  else
    let s1 := s.modPwr fun p => { p with porArmed := false, powered := true }
    let s2 := s1.modKey fun k => { k with well := w, failed := decide (24 < w.maxErrors) }
    let kept := (freeHalf s2).getLsbD 0
    let s3 := holdReset (useFree (s2.modThm fun t => { t with haltMark := t.haltMark && kept }))
    if s3.pwr.pinned then s3 else tryRelease 1 straps s3

def execPowerOnResetRelease (straps : Straps) (wellspring : WellspringRead) (s : State) : Host.Outcome State Fault Refusal :=
  run (powerOnEffect straps wellspring) s

/-- R63, R65, R73: the module without supply: ILK_OUT and AWAKE are low and MOD_FAULT_N is held low. -/
def losePower (s : State) : State :=
  (stopBeat s).modPwr fun p => { p with powered := false, undefinedLogic := true, ilkOut := false, modFaultLow := true, awake := false }

def execSupplyFail (s : State) : Host.Outcome State Fault Refusal := run losePower s

/-- R75: a core rail below 0.3 V. -/
def execPowerOnResetRearm (s : State) : Host.Outcome State Fault Refusal :=
  run (fun s => (losePower s).modPwr fun p => { p with porArmed := true }) s

/-- R68, R77: the level holds the logic in reset; a release that waited under R365 is gone. -/
def resetAssertEffect (s : State) : State :=
  ((holdReset s).modPwr fun p => { p with resetNLow := true }).modThm fun t => { t with waiting := none }

def execResetNAssert (s : State) : Host.Outcome State Fault Refusal := run resetAssertEffect s

/-- R77: the rising edge. -/
def resetReleaseEffect (straps : Straps) (s : State) : State :=
  if !s.pwr.resetNLow then s
  else
    let s1 := s.modPwr fun p => { p with resetNLow := false, powered := true, undefinedLogic := false }
    if s1.pwr.pinned then s1 else tryRelease 2 straps s1

def execResetNRelease (straps : Straps) (s : State) : Host.Outcome State Fault Refusal := run (resetReleaseEffect straps) s

/-- R69, R70: with DBG_TRST_N low the TAP is in reset and drives nothing. A test holds the module in reset, and drives the signal-array positions it may drive; the end of the test leaves the module to the next reset release (DESIGN CHOICE). -/
def boundaryScanEffect (trstN : Bool) (drive : List (Nat × Bool)) (s : State) : State :=
  if !trstN then s.modPwr fun p => { p with tap := {} }
  else
    ((holdReset s).modPwr fun p => { p with
      tap := { inReset := false, testing := true, drive := drive.filter fun d => s.scanMayDrive d.1 } }).modThm fun t => { t with waiting := none }

def execBoundaryScan (trstN : Bool) (drive : List (Nat × Bool)) (s : State) : Host.Outcome State Fault Refusal :=
  run (boundaryScanEffect trstN drive) s

/-- R79: ILK_OUT stops at once, and 1 ms later the logic restarts, from Boot too. A frozen core's watchdog pauses (R584), and a stopped core's cannot expire. -/
def watchdogEffect (core : Nat) (straps : Straps) (s : State) : State :=
  if core < 4 && !s.pwr.held && s.pwr.powerState != .sleep && !s.pwr.bootFailed && !s.isFrozen (0x10 + core) then
    releaseReset 3 straps ({ stopBeat s with now := s.now + 1000000 }.modPwr fun p => { p with ilkOut := false, wdCore := some core })
  else s

def execWatchdogExpiry (core : Nat) (straps : Straps) (s : State) : Host.Outcome State Fault Refusal := ctl (watchdogEffect core straps) s

/-- R514, R515: the reset 10 ms after the activation or the recovery load. -/
def firmwareResetEffect (straps : Straps) (s : State) : State :=
  match s.key.resetDue with
  | some t => if !s.pwr.held && decide (t + 10000000 ≤ s.now) then releaseReset 4 straps s else s
  | none => s

def execFirmwareUpdateReset (straps : Straps) (s : State) : Host.Outcome State Fault Refusal := ctl (firmwareResetEffect straps) s

/-! ### Boot -/

/-- R80, R82, R501: without Wellspring, or with both banks bad, the module stays in Boot until a reset. -/
def bootEffect (fw : FirmwareBoot) (s : State) : State :=
  if s.pwr.held || s.pwr.opState != .boot || s.pwr.bootFailed || s.key.failed then s
  else match bootBankOf fw s.key with
    | none => s.modPwr fun p => { p with bootFailed := true }
    | some b => endBoot b s

def execBootSequenceComplete (fw : FirmwareBoot) (s : State) : Host.Outcome State Fault Refusal := ctl (bootEffect fw) s

/-- R515: KEY_RCV_STATUS of a package. -/
def recoveryStatus (floor : Nat) : Option (List Byte) → Nat
  | none => 3
  | some p => if !Config.fwVerify p then 4 else if (Config.fwVersion p).toNat < floor then 5 else 2

/-- R515, R521: GO in Boot after both banks failed. -/
def recoveryEffect (value : Word) (package : Option (List Byte)) (s : State) : State :=
  if s.pwr.held || !s.pwr.bootFailed || !value.getLsbD 0 || s.key.resetDue.isSome then s
  else
    let k := s.key
    let st := recoveryStatus k.floor package
    let s1 := hostReads (k.rcvLo.toNat + 2 ^ 32 * k.rcvHi.toNat) k.rcvLen.toNat (s.modKey fun k => { k with rcvStatus := st })
    if st ≠ 2 then s1
    else s1.modKey fun k => { k with
      banks := upd k.banks 0 fun _ => package.getD [], recovered := true, bootBank := none, active := 0, resetDue := some s.now }

def execGo (value : Word) (package : Option (List Byte)) (s : State) : Host.Outcome State Fault Refusal := ctl (recoveryEffect value package) s

/-! ### Clocks (R84, R85) -/

/-- R67, R84: the input has qualified, whatever the module does; a module out of reset selects it. -/
def extQualifiedEffect (s : State) : State := s.modPwr fun p => { p with extQualified := true, refExt := !p.held }

def execExtRefQualified (s : State) : Host.Outcome State Fault Refusal := ctl extQualifiedEffect s

/-- R84: back to the internal oscillator; the instance is the reference domain. In Sleep the event waits for the wake. -/
def extLostEffect (s : State) : State :=
  let s1 := s.modPwr fun p => { p with extQualified := false, refExt := false }
  if !s.pwr.refExt || s.pwr.held then s1
  else if s.pwr.powerState == .sleep then s1.modPwr fun p => { p with refLost := true }
  else raise 121 1 1 [] s1

def execExtRefLost (s : State) : Host.Outcome State Fault Refusal := ctl extLostEffect s

def setLock (d : Nat) (on : Bool) (s : State) : State :=
  s.modPwr fun p => { p with
    locked := if on then p.locked ||| BitVec.ofNat 12 (2 ^ d) else p.locked &&& ~~~(BitVec.ofNat 12 (2 ^ d)) }

/-- R83: the domains that a PLL feeds. -/
def isPll (d : Nat) : Bool := (2 ≤ d && d ≤ 9) || d == 11

/-- R85, R586: domains 2 to 5 bring Safe with cause CLOCK; another domain stops. -/
def pllLossEffect (d : Nat) (s : State) : State :=
  if !isPll d || !s.domainUp d then s
  else
    let s1 := setLock d false s
    let safe := decide (2 ≤ d ∧ d ≤ 5) && (s.pwr.opState == .operate || s.pwr.opState == .safe)
    raise 121 2 d [] (when safe (enterSafe 1) s1)

def execPllLockLoss (domain : Nat) (s : State) : Host.Outcome State Fault Refusal := live (pllLossEffect domain) s

def pllRelockEffect (d : Nat) (s : State) : State :=
  if !isPll d || s.domainUp d then s else raise 121 3 d [] (flushStalled (clearSafeCauses (setLock d true s)))

def execPllRelock (domain : Nat) (s : State) : Host.Outcome State Fault Refusal := live (pllRelockEffect domain) s

/-! ### Operate (R86) -/

/-- R86: the first condition for Operate that is missing, 0 for none. -/
def operateBlockOf (s : State) : Nat :=
  if s.ownerKey.isNone then 1
  else if s.prof.active.isNone then 2
  else if !(s.host.evq.enable && s.host.cq.any (·.enable) && s.host.ringsRunning) then 3
  else 0

/-- R86, R87, R141, R411, R424: entry to Operate. -/
def enterOperate (s : State) : State :=
  let s1 := s.modPwr fun p => { p with
    opState := .operate, powerState := .doze, dozeTimer := true, dozeAt := s.now, e125Raised := false, operateAt := s.now, operateBlock := 0
    firstPoll := none }
  canDetectAll (plcStart (startAllocator s1))

def operateEffect (value : Word) (s : State) : State :=
  if s.pwr.opState != .setup || !value.getLsbD 0 then s
  else
    let b := operateBlockOf s
    if b = 0 then enterOperate s else s.modPwr fun p => { p with operateBlock := b }

def execOperate (value : Word) (s : State) : Host.Outcome State Fault Refusal := hostRow (operateEffect value) s

/-- R96: a read of PWR_STATUS, in Boot too, but not once both firmware banks have failed (R82). It wakes a sleeping module unless the source PCIE is disabled (R89); then it is not taken. -/
def statusReadEffect (s : State) : State :=
  if s.pwr.held || s.pwr.bootFailed then s
  else
    let s1 := if s.pwr.powerState == .sleep && s.pwr.wakeEn.getLsbD 8 then wakeUp 0x100 s else s
    if s1.pwr.powerState == .sleep || !s1.domainUp 6 then s1 else emit (.regRead 0x1000 (s1.reg 0x1000)) s1

def execPwrStatusRead (s : State) : Host.Outcome State Fault Refusal := ctl statusReadEffect s

/-! ### Sleep and waking (R87 to R94) -/

/-- R87: SLEEP_DELAY_MS has elapsed in Doze. -/
def State.dozedOut (s : State) : Bool := s.pwr.dozeTimer && decide (s.pwr.dozeAt + 1000000 * s.pwr.sleepDelayMs ≤ s.now)

/-- R87, R88: an attempt at Sleep once SLEEP_DELAY_MS has elapsed with SLEEP_N low. -/
def sleepEffect (s : State) : State :=
  if s.pwr.opState != .operate || s.pwr.powerState != .doze || s.pwr.sleepN || !s.dozedOut then s
  else match sleepBlock s with
    | none => enterSleep s
    | some c => if s.pwr.e125Raised then s else raise 125 c 0xFF [] (s.modPwr fun p => { p with e125Raised := true })

/-- R88: what the host has written to Link Control. -/
def noteL1 (enabled : Bool) (s : State) : State := s.modHost fun h => { h with aspmL1 := enabled }

/-- R67, R87: the level, and the attempt that it permits. -/
def execSleepNLow (l1Enabled : Bool) (s : State) : Host.Outcome State Fault Refusal :=
  ctl (fun s =>
    let s1 := s.modPwr fun p => { p with sleepN := false }
    if s1.awake then sleepEffect (noteL1 l1Enabled s1) else s1) s

def execSleepDelayExpiry (l1Enabled : Bool) (s : State) : Host.Outcome State Fault Refusal := live (fun s => sleepEffect (noteL1 l1Enabled s)) s

/-! ### Slow poll (R93 to R95) -/

/-- R95: the first tick of the 32.768 kHz AON clock at or after a device time in ns (DESIGN CHOICE: ticks count from device time 0). -/
def aonTick (t : Nat) : Nat := ceilDiv (ceilDiv (t * 64) 1953125 * 1953125) 64

/-- R93, R95: a slow poll falls due: the first one after entry into Operate, or one whose AON tick has come since the latest fetch. -/
def pollDue (s : State) : Bool :=
  match s.pwr.firstPoll with
  | none => true
  | some t0 =>
    let period := 1000 * s.pwr.slowPollUs
    let nominal := t0 + (s.now - t0) / period * period
    let tick := aonTick nominal
    decide (s.pwr.fetchAt < (if tick ≤ s.now then tick else aonTick (nominal - period)))

/-- R95: the first poll is the origin of the later ones. -/
def notePoll (s : State) : State := s.modPwr fun p => { p with firstPoll := some (p.firstPoll.getD s.now), fetchAt := s.now }

/-- R93: one fetch of the doorbell block and its outcome. -/
def pollDoorbell (block : Option (List Byte)) (s : State) : State :=
  if !s.host.ringsRunning || !s.domainUp 6 then s
  else
    let s1 := hostReads (doorbellAddr s.host) 64 s
    match block with
    | some b => takeDoorbell b s1
    | none => fetchFailed 1 s1

/-- R94: the poll wakes a sleeping module, which returns to Sleep at once when no tail has changed and R88 allows it. -/
def sleepingPoll (block : Option (List Byte)) (s : State) : State :=
  let s1 := wakeUp 0x40 s
  let changed := match block with | some b => s1.host.ringsRunning && tailsChanged b s1 | none => false
  let s2 := pollDoorbell block s1
  if changed || s2.pwr.sleepN || (sleepBlock s2).isSome then s2 else enterSleep s2

/-- R93, R94: a tick that falls due polls while no C0 ring is Armed. -/
def slowPollEffect (block : Option (List Byte)) (s : State) : State :=
  if s.pwr.held || s.pwr.opState == .boot || !pollDue s || s.anyArmed then s
  else
    let s1 := notePoll s
    if s.pwr.powerState == .sleep then sleepingPoll block s1 else pollDoorbell block s1

def execSlowPollTick (block : Option (List Byte)) (s : State) : Host.Outcome State Fault Refusal := ctl (slowPollEffect block) s

/-! ### Wake sources (R89 to R92) -/

/-- R89: what the state holds of the qualifying condition of a source; the rest is what the surroundings show. -/
def wakeQualified (s : State) (source : Nat) : Bool :=
  match source with
  | 0 => (List.range 8).any s.outActive
  | 2 => s.plcOn && s.plc.addr != 0 && s.plc.wakeHeard.contains s.plc.addr
  | 3 => (List.range 8).any fun n => s.canFeature n 5
  | 5 => s.thm.rtd.any (·.alarm)
  | 6 => pollDue s
  | 7 => s.member
  | 9 => !s.pwr.sleepN
  | _ => true

/-- R89: the enabled sources of a mask that qualify. -/
def wakeMask (mask : BitVec 10) (s : State) : BitVec 10 :=
  BitVec.ofNat 10 (((List.range 10).map fun b => if (mask &&& s.pwr.wakeEn).getLsbD b && wakeQualified s b then 2 ^ b else 0).foldl (· + ·) 0)

/-- R89, R91, R92: sources assert; an edge of SLEEP_N also raises its level. -/
def wakeEffect (mask : BitVec 10) (clocksStopped : Bool) (s : State) : State :=
  let on := wakeMask mask s
  let s1 := if mask.getLsbD 9 then s.modPwr fun p => { p with sleepN := true } else s
  if s1.pwr.held || s1.pwr.powerState != .sleep || on == 0 then s1
  else if clocksStopped then wakeUp on s1 else backToDoze s1

def execWakeSourceAssert (mask : BitVec 10) (clocksStopped : Bool) (s : State) : Host.Outcome State Fault Refusal :=
  ctl (wakeEffect mask clocksStopped) s

/-! ### The thermal halt (R364, R365) -/

/-- R364: two control periods after the reading, the write in progress has committed. -/
def State.haltDue (s : State) : Bool :=
  match s.thm.halting with
  | some t => decide (4 * t + 2 * s.periodQns ≤ 4 * s.now)
  | none => false

def haltEffect (s : State) : State :=
  if s.haltDue then (holdReset s).modThm fun t => { t with halted := true, waiting := none, haltMark := true } else s

def execThermalHalt (s : State) : Host.Outcome State Fault Refusal := live haltEffect s

/-- R365: a release that waits takes effect with the die below 95 °C. -/
def haltReleaseEffect (temps : List Int) (s : State) : State :=
  match s.thm.waiting with
  | some straps => if s.thm.halted && !s.pwr.pinned && temps.all (fun t => decide (t < 950)) then releaseReset s.pwr.resetCause straps s else s
  | none => s

def execThermalHaltRelease (temps : List Int) (s : State) : Host.Outcome State Fault Refusal := ctl (haltReleaseEffect temps) s

end Sys2Proof.Machine
end

