-- ==== Sys2Proof/Machine/Switch.lean ====
section
/-! DEFINITION. Meanings of the switch-channel commands (R560 to R576). The die works on while the controller logic is stopped. -/

namespace Sys2Proof.Machine

def execOn (channel : Nat) (value : Word) (s : State) : Host.Outcome State Fault Refusal :=
  hostRow (fun s => when (channel < 12 && value.getLsbD 0) (swcWrite channel value.toNat (s.swCh channel).tjDc) s) s

def execOff (channel : Nat) (value : Word) (s : State) : Host.Outcome State Fault Refusal :=
  hostRow (fun s => when (channel < 12 && value.getLsbD 1) (swcWrite channel value.toNat (s.swCh channel).tjDc) s) s

def execClear (channel : Nat) (value : Word) (tjDc : Int) (s : State) : Host.Outcome State Fault Refusal :=
  hostRow (fun s => when (channel < 12 && value.getLsbD 2) (swcWrite channel value.toNat tjDc) s) s

/-- R561, R565: an edge on SW_IN. A rise opens a window on a channel that has not yet conducted, or after REARM_MS low. -/
def swInEdgeEffect (n : Nat) (level : Bool) (s : State) : State :=
  let c := s.swCh n
  if s.swFollows n || c.swIn == level then s
  else if level then
    let again := c.fresh || decide (c.lowSince + s.swRearmMs n * 1000000 < s.now)
    let s1 := s.modSwCh n fun c => { c with swIn := true }
    if !s.swInGate n || !s1.conducts n then s1
    else if again then openInrush n s1 else s1.modGang n fun c => { c with conductAt := s.now }
  else s.modSwCh n fun c => { c with swIn := false, lowSince := s.now }

def execSwInEdge (channel : Nat) (level : Bool) (s : State) : Host.Outcome State Fault Refusal := run (swInEdgeEffect channel level) s

/-- R565, R571: INRUSH_MS after it opened or started again the window ends, unless low VAUX suspends it. -/
def inrushEndEffect (n peak : Nat) (s : State) : State :=
  let c := s.swCh n
  if c.inrush && !s.sw.vauxLow && decide (c.windowAt + s.swInrushNs n ≤ s.now) then
    s.modGang n fun c => { c with inrush := false, closedAt := s.now, peakDa := peak }
  else s

def execInrushEnd (channel peakDa : Nat) (s : State) : Host.Outcome State Fault Refusal := run (inrushEndEffect channel peakDa) s

/-- R567: a short turns the channel off, and uses up the retry that it ends; with every retry used the channel stays off. -/
def shortChannel (n cause : Nat) (s : State) : State :=
  let lead := s.swLead n
  let c := s.swCh lead
  let used := c.retries + b2n c.retrying
  let max := s.swRetryMax lead
  let last := decide (max ≤ used)
  let s1 := s.modGang n fun c => { c with
    short := !last, exhausted := c.exhausted || last, inrush := false, retries := used, retrying := false, retryFrom := s.now }
  let s2 := dieRaise 105 cause lead (toLE 1 used) s1
  when last (pumpFailed lead) (when last (dieRaise 107 1 lead (toLE 1 max)) s2)

/-- R565: a current that has stood at the limit for SHORT_US, outside the inrush window. -/
def limitEffect (n ma ns : Nat) (s : State) : State :=
  let c := s.swCh n
  let atLimit := min ns (s.now - c.closedAt)
  if s.conducts n && !c.inrush && decide (s.swLimitMa n ≤ ma) && decide (s.swShortNs n ≤ atLimit) then shortChannel n 1 s else s

def execLimit (channel currentMa ns : Nat) (s : State) : Host.Outcome State Fault Refusal := run (limitEffect channel currentMa ns) s

/-- R560, R565: a hard trip is a short from the first instant. -/
def execHardTrip (channel currentMa : Nat) (s : State) : Host.Outcome State Fault Refusal :=
  run (fun s => when (s.conducts channel && decide (s.swTripMa channel < currentMa)) (shortChannel channel 2) s) s

/-- R567, R569: RETRY_MS after the short, or after the latch cleared, the die retries, unless the latch is set. -/
def switchRetryEffect (n : Nat) (s : State) : State :=
  let c := s.swCh n
  if c.short && !c.latch && !s.sw.lost && decide (c.retryFrom + s.swRetryNs n ≤ s.now) then
    openInrush n (s.modGang n fun c => { c with short := false, retrying := true })
  else s

def execSwitchRetry (channel : Nat) (s : State) : Host.Outcome State Fault Refusal := run (switchRetryEffect channel) s

/-- R567: 10 s of conduction without a short. -/
def retryResetEffect (n : Nat) (s : State) : State :=
  if s.conducts n && decide ((s.swCh n).conductAt + 10000000000 ≤ s.now) then s.modGang n fun c => { c with retries := 0, retrying := false } else s

def execRetryCountReset (channel : Nat) (s : State) : Host.Outcome State Fault Refusal := run (retryResetEffect channel) s

/-- R568: the junction is at 170 °C or above, whatever the channel is doing. -/
def latchedEffect (n : Nat) (tjDc : Int) (s : State) : State :=
  let lead := s.swLead n
  if (s.swCh lead).latch || s.sw.lost || tjDc < 1700 then s
  else
    let s1 := s.modGang n fun c => { c with latch := true, tjDc := tjDc, inrush := false }
    pumpFailed lead (dieRaise 106 1 lead (toLEi 2 tjDc) s1)

def execLatched (channel : Nat) (tjDc : Int) (s : State) : Host.Outcome State Fault Refusal := run (latchedEffect channel tjDc) s

/-- R560, R566: CODE and FINE of a current: the Firefly range below 30 mA, and up to 38 mA while it is in use. -/
def codeOf (fineEn was : Bool) (ua : Nat) : Nat × Bool :=
  let fine := fineEn && (decide (ua < 30000) || (was && decide (ua ≤ 38000)))
  (min 4095 (if fine then ua * 64 / 625 else ua * 4 / 15625), fine)

def measureCh (n ua : Nat) (s : State) : State :=
  let r := codeOf (s.swFine n) (s.swCh n).fine ua
  s.modGang n fun c => { c with code := r.1, fine := r.2 }

def codeBytes (c : SwCh) : List Byte := toLE 2 c.code ++ toLE 1 (b2n c.fine)

/-- R566: samples count after the inrush window and after 50 µs of conduction. -/
def State.samplesCount (s : State) (n : Nat) : Bool :=
  s.conducts n && !(s.swCh n).inrush && !s.sw.vauxLow && decide ((s.swCh n).conductAt + 50000 ≤ s.now)

/-- R566, R571: every sample has stayed below OPEN_UA for OPEN_MS. -/
def openLoadEffect (n ua : Nat) (s : State) : State :=
  let c := s.swCh n
  if s.samplesCount n && !c.openLoad && decide (ua < s.swOpenUa n) && decide (c.closedAt + s.swOpenNs n ≤ s.now) then
    let s1 := (measureCh n ua s).modGang n fun c => { c with openLoad := true, openAt := s.now }
    dieRaise 104 1 (s.swLead n) (codeBytes (s1.swCh n)) s1
  else s

def execOpenLoad (channel ua : Nat) (s : State) : Host.Outcome State Fault Refusal := run (openLoadEffect channel ua) s

/-- R566: every sample has been at or above OPEN_UA for OPEN_MS. -/
def openLoadClearedEffect (n ua : Nat) (s : State) : State :=
  let c := s.swCh n
  if s.samplesCount n && c.openLoad && decide (s.swOpenUa n ≤ ua) && decide (c.openAt + s.swOpenNs n ≤ s.now) then
    let s1 := (measureCh n ua s).modGang n fun c => { c with openLoad := false }
    dieRaise 104 0 (s.swLead n) (codeBytes (s1.swCh n)) s1
  else s

def execOpenLoadCleared (channel ua : Nat) (s : State) : Host.Outcome State Fault Refusal := run (openLoadClearedEffect channel ua) s

/-- R571, R580: below 8.0 V open windows and open-load timers are suspended, a window that ends at this instant among them. -/
def vauxLowEffect (mv : Nat) (s : State) : State :=
  let s1 := s.modSw fun w => { w with vauxMv := mv }
  if s.sw.vauxLow || 8000 ≤ mv then s1
  else dieRaise 108 1 0xFF (toLE 2 mv) (s1.modSw fun w => { w with
    vauxLow := true, vauxLowAt := s.now
    ch := w.ch.map fun c => { c with inrush := c.inrush || (c.closedAt == s.now && c.enabled && c.closedAt != 0) } })

def execVauxLow (mv : Nat) (s : State) : Host.Outcome State Fault Refusal := run (vauxLowEffect mv) s

/-- R571: at 8.5 V suspended windows start again, and open-load timers go on. -/
def vauxRecoveredEffect (mv : Nat) (s : State) : State :=
  let s1 := s.modSw fun w => { w with vauxMv := mv }
  if !s.sw.vauxLow || mv < 8500 then s1
  else
    let off := s.now - s.sw.vauxLowAt
    dieRaise 108 0 0xFF (toLE 2 mv) (s1.modSw fun w => { w with
      vauxLow := false, vauxOkAt := s.now
      ch := w.ch.map fun c => { c with
        windowAt := if c.inrush then s.now else c.windowAt
        closedAt := c.closedAt + off, openAt := c.openAt + off } })

def execVauxRecovered (mv : Nat) (s : State) : Host.Outcome State Fault Refusal := run (vauxRecoveredEffect mv) s

/-- R572: the die resets; every output turns off, and every latch, retry count and fault clears. -/
def SwCh.dieReset (c : SwCh) : SwCh :=
  { commanded := c.commanded, code := c.code, fine := c.fine, peakDa := c.peakDa, tjDc := c.tjDc, swIn := c.swIn, lowSince := c.lowSince }

/-- R572: below 6.0 V. -/
def vauxLostEffect (mv : Nat) (s : State) : State :=
  let s0 := s.modSw fun w => { w with vauxMv := mv }
  if s.sw.lost || 6000 ≤ mv then s0
  else
    let s1 := s0.modSw fun w => { w with
      vauxLow := true, vauxLowAt := if w.vauxLow then w.vauxLowAt else s.now
      lost := true, lostPending := true, ch := w.ch.map SwCh.dieReset }
    if s1.awake && !s1.pwr.undefinedLogic then raise 108 2 0xFF (toLE 2 mv) (s1.modSw fun w => { w with lostPending := false }) else s1

def execVauxLost (mv : Nat) (s : State) : Host.Outcome State Fault Refusal := run (vauxLostEffect mv) s

/-- R572: 100 ms after VAUX reached 8.5 V the die runs again, and a unit with authority drives its commanded states. -/
def vauxReapplyEffect (s : State) : State :=
  if !s.sw.lost || s.sw.vauxLow || decide (s.now < s.sw.vauxOkAt + 100000000) then s
  else
    let s1 := s.modSw fun w => { w with lost := false }
    when (s1.awake && !s1.pwr.undefinedLogic) driveAll s1

def execVauxReapply (s : State) : Host.Outcome State Fault Refusal := run vauxReapplyEffect s

/-- R576: the heartbeat has been missing for 100 µs. -/
def freezeEffect (s : State) : State :=
  match s.sw.beatLost with
  | some t => if s.sw.frozen || decide (s.now < t + 100000) then s else s.modSw fun w => { w with frozen := true, frozenAt := s.now }
  | none => s

def execSwitchDieFreeze (s : State) : Host.Outcome State Fault Refusal := run freezeEffect s

end Sys2Proof.Machine
end

