-- ==== Sys2Proof/Machine/RegWrite.lean ====
section
/-! DEFINITION. REGISTER_WRITE: a write of a BAR0 register under its access code and the state rules (R9, R86, R96, R103 to R105, R271, R338, R413, R441, R496, R521, R557). A write that reaches a field with a row of its own has that row's effect. -/

namespace Sys2Proof.Machine

/-! ### When writes are accepted (R86, R104) -/

def State.inSetup (s : State) : Bool := s.pwr.opState == .setup

/-- R104, R136: the doorbell, event-ring and ring registers. -/
def State.ringsOpen (s : State) : Bool := s.inSetup || s.host.hifOpen

/-- R104: a field of a ring that is otherwise closed: after RINGS_GO while the ring is off. -/
def State.ringField (s : State) (enabled : Bool) : Bool := s.ringsOpen || (s.host.ringsRunning && !enabled)

/-- R104: ENABLE of a ring. -/
def State.ringEnable (s : State) : Bool := s.ringsOpen || s.host.ringsRunning

/-- A field of a written value. -/
def vf (v : Word) (lo w : Nat) : Nat := bits v.toNat lo w

/-- Bits [31:n] of a written value. -/
def vHigh (v : Word) (n : Nat) : Word := BitVec.ofNat 32 (v.toNat / 2 ^ n * 2 ^ n)

/-! ### HIF (R103 to R105, R115, R127) -/

/-- R105: the BURST that a write stores. -/
def burstFor (l : List Sq) (n v : Nat) : Nat :=
  let others := (((l.take 4).mapIdx fun i q => if i = n then 0 else q.burst)).foldl (· + ·) 0
  min v (32 - others)

/-- R104, R115: HIF_SQn_CFG. -/
def sqCfgWrite (n : Nat) (v : Word) (s : State) : State :=
  let q := s.sq n
  let s1 := if s.ringField q.enable then s.modSq n fun q => { q with sizeLog2 := clampTo 4 12 (vf v 0 4), cq := vf v 4 4 } else s
  let on := v.getLsbD 8
  if !s.ringEnable || on == q.enable then s1
  else
    let s2 := s1.modSq n fun q => { q with enable := on }
    if !s.host.ringsRunning then s2 else s2.modSq n fun q => if on then enableRing s.now q else disableRing q

def sqWrite (n k : Nat) (v : Word) (s : State) : State :=
  let open_ := s.ringField (s.sq n).enable
  match k with
  | 0 => when open_ (fun s => s.modSq n fun q => { q with baseLo := vHigh v 12 }) s
  | 4 => when open_ (fun s => s.modSq n fun q => { q with baseHi := v }) s
  | 8 => sqCfgWrite n v s
  | 12 => when (open_ && n < 4) (fun s => s.modSq n fun q => { refill s.now q with
      rate := clampTo 1 200 (vf v 0 8), burst := burstFor s.host.sq n (clampTo 1 32 (vf v 8 8)) }) s
  | _ => s

/-- R103, R104, R112: HIF_CQm_CFG; VECTOR follows the Setup rule. -/
def cqCfgWrite (m : Nat) (v : Word) (s : State) : State :=
  let c := s.cq m
  let s1 := when (s.ringField c.enable) (fun s => s.modCq m fun c => { c with sizeLog2 := clampTo 4 16 (vf v 0 5) }) s
  let s2 := when s.ringsOpen (fun s => s.modCq m fun c => { c with vector := vf v 8 5 }) s1
  let on := v.getLsbD 16
  if !s.ringEnable || on == c.enable then s2
  else
    let s3 := s2.modCq m fun c => { c with enable := on }
    when (on && s.host.ringsRunning) (fun s => s.modCq m restartCq) s3

def cqWrite (m k : Nat) (v : Word) (s : State) : State :=
  let open_ := s.ringField (s.cq m).enable
  match k with
  | 0 => when open_ (fun s => s.modCq m fun c => { c with baseLo := vHigh v 12 }) s
  | 4 => when open_ (fun s => s.modCq m fun c => { c with baseHi := v }) s
  | 8 => cqCfgWrite m v s
  | _ => s

/-- R103: HIF_EVQ_CFG; a ring enabled after RINGS_GO starts at entry 0. -/
def evqCfgWrite (v : Word) (s : State) : State :=
  let on := v.getLsbD 16
  let s1 := s.modEvq fun q => { q with
    sizeLog2 := clampTo 4 16 (vf v 0 5), vector := vf v 8 5, enable := on, coalesceUs := vf v 24 8 }
  if on == s.host.evq.enable || !s.host.ringsRunning then s1
  else if on then drainEvents (s1.modEvq fun q => { q with started := true, tail := 0, head := 0, sinceHead := 0 })
  else s1.modEvq fun q => { q with started := false }

def ethWrite (n : Nat) (v : Word) (s : State) : State :=
  s.modEth n fun e => { e with
    mode := if vf v 0 3 ≤ 4 then vf v 0 3 else e.mode, ptpEn := v.getLsbD 3, civilFromPtp := v.getLsbD 4 }

/-- R104, R133: an MSI-X table entry; a vector unmasked with its pending bit set signals. -/
def msixWrite (i k : Nat) (v : Word) (s : State) : State :=
  let modE := fun (f : MsixEntry → MsixEntry) (s : State) => s.modHost fun h => { h with msix := upd h.msix i f }
  match k with
  | 0 => modE (fun e => { e with addrLo := vHigh v 2 }) s
  | 4 => modE (fun e => { e with addrHi := v }) s
  | 8 => modE (fun e => { e with data := v }) s
  | 12 =>
    let waits := (nth s.host.msix i).pendingBit && !v.getLsbD 0
    when waits (askMsix 26 i) (modE (fun e => { e with
      masked := v.getLsbD 0, pendingBit := e.pendingBit && v.getLsbD 0 }) s)
  | _ => s

def hifWrite (off : Nat) (v : Word) (s : State) : State :=
  match off with
  | 0x04 => when s.inSetup (fun s => s.modHost fun h => { h with pairId := BitVec.ofNat 6 (vf v 1 6) }) s
  | 0x0C => ringsGoEffect v s
  | 0x18 => when s.ringsOpen (fun s => s.modHost fun h => { h with dbBaseLo := vHigh v 6 }) s
  | 0x1C => when s.ringsOpen (fun s => s.modHost fun h => { h with dbBaseHi := v }) s
  | 0x20 => when s.ringsOpen (fun s => s.modEvq fun q => { q with baseLo := vHigh v 12 }) s
  | 0x24 => when s.ringsOpen (fun s => s.modEvq fun q => { q with baseHi := v }) s
  | 0x28 => when s.ringsOpen (evqCfgWrite v) s
  | 0x30 => when s.inSetup (ethWrite 0 v) s
  | 0x34 => when s.inSetup (ethWrite 1 v) s
  | 0x38 => when s.inSetup (fun s => s.modHost fun h => { h with ptpLimitNs := v.toNat }) s
  | _ =>
    match regIndex 0x100 0x10 16 off, regIndex 0x200 0x10 16 off, regIndex 0x800 0x10 32 off with
    | some p, _, _ => sqWrite p.1 p.2 v s
    | _, some p, _ => cqWrite p.1 p.2 v s
    | _, _, some p => msixWrite p.1 p.2 v s
    | _, _, _ => s

/-! ### CLK/PWR (R96) -/

def pwrWrite (off : Nat) (v : Word) (s : State) : State :=
  match off with
  | 0x1004 => operateEffect v s
  | 0x1008 => when s.inSetup (fun s => s.modPwr fun p => { p with slowPollUs := clampTo 100 1000000 (vf v 0 20) }) s
  | 0x100C => when s.inSetup (fun s => s.modPwr fun p => { p with sleepDelayMs := clampTo 1 60000 (vf v 0 16) }) s
  | 0x1010 => when s.inSetup (fun s => s.modPwr fun p => { p with wakeEn := v.extractLsb' 0 10 ||| 0x2C0 }) s
  | _ => s

/-! ### LAW and ACQ flags (R271, R338) -/

/-- Clear the flags that a written 1 selects in slots 32 j to 32 j + 31. -/
def lawFlagWrite (j : Nat) (v : Word) (clear : LawSlot → LawSlot) (s : State) : State :=
  forAll ((List.range 32).filter fun i => v.getLsbD i) (fun i s => s.modLawSlot (32 * j + i) clear) s

def lawWrite (off : Nat) (v : Word) (s : State) : State :=
  match regIndex 0x3100 4 32 off, regIndex 0x3180 4 32 off, regIndex 0x3200 4 32 off with
  | some (j, 0), _, _ => lawFlagWrite j v (fun x => { x with missed := false }) s
  | _, some (j, 0), _ => lawFlagWrite j v (fun x => { x with satBit := false }) s
  | _, _, some (j, 0) => lawFlagWrite j v (fun x => { x with ovBit := false }) s
  | _, _, _ => s

def acqWrite (off : Nat) (v : Word) (s : State) : State :=
  if off = 0x4004 then { s with acq := { s.acq with ovr := s.acq.ovr &&& ~~~(v.extractLsb' 0 16) } } else s

/-! ### Receive rings (R413, R441), with the rules of the HIF rings (R104) -/

/-- One receive ring register; an ENABLE 0 to 1 starts the ring at entry 0 with PHASE 1 (R112). -/
def rxWrite (s : State) (k : Nat) (v : Word) (r : RxRing) : RxRing :=
  let open_ := s.ringField r.enable
  match k with
  | 0 => if open_ then { r with baseLo := vHigh v 12 } else r
  | 4 => if open_ then { r with baseHi := v } else r
  | 8 =>
    let r1 := if open_ then { r with sizeLog2 := vf v 0 4 } else r
    let r2 := if s.ringsOpen then { r1 with vector := vf v 8 5, coalesceUs := vf v 24 8 } else r1
    let on := v.getLsbD 16
    if !s.ringEnable || on == r.enable then r2
    else if on then { r2 with enable := true, index := 0, phase := true, unsigAt := none } else { r2 with enable := false }
  | _ => r

def canWrite (off : Nat) (v : Word) (s : State) : State :=
  match regIndex 0x5900 0x20 8 off, regIndex 0x5A00 0x10 8 off with
  | some (n, 0x14), _ => canCmdWrite n v s
  | _, some (n, k) => s.modCan n fun c => { c with rx := rxWrite s k v c.rx }
  | _, _ => s

def plcWrite (off : Nat) (v : Word) (s : State) : State :=
  if 0x6040 ≤ off ∧ off ≤ 0x6048 then plcDrain (s.modPlc fun p => { p with rx := rxWrite s (off - 0x6040) v p.rx }) else s

/-! ### REC, KEY, PAIR, SWC (R496, R521, R557, R578) -/

def recRegWrite (off : Nat) (v : Word) (s : State) : State :=
  if off = 0x7004 && s.inSetup then { s with rcd := { s.rcd with day := v.getLsbD 0 } } else s

/-- R521: the KEY_RCV registers accept writes only in Boot; KEY_RCV_CTRL.GO is a row of its own. -/
def keyWrite (off : Nat) (v : Word) (s : State) : State :=
  if s.pwr.opState != .boot then s
  else match off with
    | 0x7C00 => s.modKey fun k => { k with rcvLo := v }
    | 0x7C04 => s.modKey fun k => { k with rcvHi := v }
    | 0x7C08 => s.modKey fun k => { k with rcvLen := v }
    | _ => s

def pairWrite (off : Nat) (v : Word) (s : State) : State :=
  match off with
  | 0x8020 => resyncEffect v (switchoverEffect v s)
  | 0x8040 => when s.inSetup (fun s => s.modPair fun p => { p with witBaseLo := vHigh v 6 }) s
  | 0x8044 => when s.inSetup (fun s => s.modPair fun p => { p with witBaseHi := v }) s
  | 0x8048 => when s.inSetup (fun s => s.modPair fun p => { p with witEnable := v.getLsbD 0 }) s
  | _ => s

def swcRegWrite (off : Nat) (v : Word) (s : State) : State :=
  match regIndex 0x8900 0x10 12 off with
  | some (n, 0x0C) => when (vf v 0 3 ≠ 0) (swcWrite n v.toNat (s.swCh n).tjDc) s
  | _ => s

/-- One BAR0 write from Setup onward. A write to a field that is RO, or to an offset that no table lists, changes nothing (R9, R10). -/
def regWrite (off : Nat) (v : Word) (s : State) : State :=
  match off / 0x800 with
  | 0 | 1 => hifWrite off v s
  | 2 => pwrWrite off v s
  | 6 => lawWrite off v s
  | 8 => acqWrite off v s
  | 11 => canWrite off v s
  | 12 => plcWrite off v s
  | 14 => recRegWrite off v s
  | 16 => pairWrite off v s
  | 17 => swcRegWrite off v s
  | _ => s

/-- R9, R80, R86: in Boot only the KEY_RCV registers take a write. -/
def execRegisterWrite (offset : Nat) (value : Word) (s : State) : Host.Outcome State Fault Refusal :=
  if s.pwr.opState == .boot && !s.pwr.held then ctl (keyWrite offset value) s else hostRow (regWrite offset value) s

end Sys2Proof.Machine
end

