-- ==== Sys2Proof/Machine/Dispatch.lean ====
section
/-! DEFINITION. The one dispatch: every command of the table to its meaning. -/

namespace Sys2Proof.Machine

def exec (i : Instr) (s : State) : Host.Outcome State Fault Refusal :=
  match i with
  | .powerOnResetRelease straps wellspring => Sys2Proof.Machine.execPowerOnResetRelease straps wellspring s
  | .supplyFail => Sys2Proof.Machine.execSupplyFail s
  | .resetNAssert => Sys2Proof.Machine.execResetNAssert s
  | .resetNRelease straps => Sys2Proof.Machine.execResetNRelease straps s
  | .bootSequenceComplete fw => Sys2Proof.Machine.execBootSequenceComplete fw s
  | .watchdogExpiry core straps => Sys2Proof.Machine.execWatchdogExpiry core straps s
  | .extRefQualified => Sys2Proof.Machine.execExtRefQualified s
  | .extRefLost => Sys2Proof.Machine.execExtRefLost s
  | .pllLockLoss domain => Sys2Proof.Machine.execPllLockLoss domain s
  | .pllRelock domain => Sys2Proof.Machine.execPllRelock domain s
  | .operate value => Sys2Proof.Machine.execOperate value s
  | .pwrStatusRead => Sys2Proof.Machine.execPwrStatusRead s
  | .sleepDelayExpiry l1Enabled => Sys2Proof.Machine.execSleepDelayExpiry l1Enabled s
  | .wakeSourceAssert mask clocksStopped => Sys2Proof.Machine.execWakeSourceAssert mask clocksStopped s
  | .slowPollTick block => Sys2Proof.Machine.execSlowPollTick block s
  | .pcieReset => Sys2Proof.Machine.execPcieReset s
  | .ringsGo value => Sys2Proof.Machine.execRingsGo value s
  | .registerWrite offset value => Sys2Proof.Machine.execRegisterWrite offset value s
  | .doorbellFetch => Sys2Proof.Machine.execDoorbellFetch s
  | .doorbellFetchComplete block => Sys2Proof.Machine.execDoorbellFetchComplete block s
  | .doorbellFetchTimeout timedOut => Sys2Proof.Machine.execDoorbellFetchTimeout timedOut s
  | .tagWaitResume ring => Sys2Proof.Machine.execTagWaitResume ring s
  | .eventQueueDrain => Sys2Proof.Machine.execEventQueueDrain s
  | .coalesceTimerExpiry => Sys2Proof.Machine.execCoalesceTimerExpiry s
  | .nop d => Sys2Proof.Machine.execNop d s
  | .armRing d => Sys2Proof.Machine.execArmRing d s
  | .ringReset d => Sys2Proof.Machine.execRingReset d s
  | .releaseMaster d => Sys2Proof.Machine.execReleaseMaster d s
  | .safeEnter d => Sys2Proof.Machine.execSafeEnter d s
  | .safeExit d => Sys2Proof.Machine.execSafeExit d s
  | .gridCap d => Sys2Proof.Machine.execGridCap d s
  | .outletHalt d => Sys2Proof.Machine.execOutletHalt d s
  | .outletResume d => Sys2Proof.Machine.execOutletResume d s
  | .stageHalt d => Sys2Proof.Machine.execStageHalt d s
  | .stageResume d => Sys2Proof.Machine.execStageResume d s
  | .stageResumeTakeEffect stage => Sys2Proof.Machine.execStageResumeTakeEffect stage s
  | .snapshot d => Sys2Proof.Machine.execSnapshot d s
  | .sessionAuthorize d => Sys2Proof.Machine.execSessionAuthorize d s
  | .sessionEnd d => Sys2Proof.Machine.execSessionEnd d s
  | .outletPolicy d => Sys2Proof.Machine.execOutletPolicy d s
  | .selectProfile d => Sys2Proof.Machine.execSelectProfile d s
  | .profileTakeEffect => Sys2Proof.Machine.execProfileTakeEffect s
  | .canSend d => Sys2Proof.Machine.execCanSend d s
  | .plcSend d => Sys2Proof.Machine.execPlcSend d s
  | .txnStart d => Sys2Proof.Machine.execTxnStart d s
  | .txnStop d => Sys2Proof.Machine.execTxnStop d s
  | .readRegisters d => Sys2Proof.Machine.execReadRegisters d s
  | .readRecord d => Sys2Proof.Machine.execReadRecord d s
  | .readLog d => Sys2Proof.Machine.execReadLog d s
  | .identify d => Sys2Proof.Machine.execIdentify d s
  | .setParameter d => Sys2Proof.Machine.execSetParameter d s
  | .selfTest d => Sys2Proof.Machine.execSelfTest d s
  | .recordRead d => Sys2Proof.Machine.execRecordRead d s
  | .setCivilTime d => Sys2Proof.Machine.execSetCivilTime d s
  | .derive d => Sys2Proof.Machine.execDerive d s
  | .generate d => Sys2Proof.Machine.execGenerate d s
  | .importWrapped d => Sys2Proof.Machine.execImportWrapped d s
  | .importPublic d => Sys2Proof.Machine.execImportPublic d s
  | .readPublic d => Sys2Proof.Machine.execReadPublic d s
  | .sign d => Sys2Proof.Machine.execSign d s
  | .info d => Sys2Proof.Machine.execInfo d s
  | .revoke d => Sys2Proof.Machine.execRevoke d s
  | .delete d => Sys2Proof.Machine.execDelete d s
  | .certWrite d => Sys2Proof.Machine.execCertWrite d s
  | .certRead d => Sys2Proof.Machine.execCertRead d s
  | .enrollOwner d => Sys2Proof.Machine.execEnrollOwner d s
  | .attest d => Sys2Proof.Machine.execAttest d s
  | .profileWrite d => Sys2Proof.Machine.execProfileWrite d s
  | .firmwareWrite d => Sys2Proof.Machine.execFirmwareWrite d s
  | .firmwareActivate d => Sys2Proof.Machine.execFirmwareActivate d s
  | .captureArm d => Sys2Proof.Machine.execCaptureArm d s
  | .captureCalibrate d => Sys2Proof.Machine.execCaptureCalibrate d s
  | .captureDisarm d => Sys2Proof.Machine.execCaptureDisarm d s
  | .captureRead d => Sys2Proof.Machine.execCaptureRead d s
  | .inject d => Sys2Proof.Machine.execInject d s
  | .injectOff d => Sys2Proof.Machine.execInjectOff d s
  | .ethSend d => Sys2Proof.Machine.execEthSend d s
  | .ethReceive d => Sys2Proof.Machine.execEthReceive d s
  | .ethFrameReceive port frame => Sys2Proof.Machine.execEthFrameReceive port frame s
  | .ptpMessageReceive port transport msg locked => Sys2Proof.Machine.execPtpMessageReceive port transport msg locked s
  | .civilSecond => Sys2Proof.Machine.execCivilSecond s
  | .masterViolation access tag => Sys2Proof.Machine.execMasterViolation access tag s
  | .allocationBoundary overrun => Sys2Proof.Machine.execAllocationBoundary overrun s
  | .fastCapChange contact level => Sys2Proof.Machine.execFastCapChange contact level s
  | .gridCapHoldExpiry => Sys2Proof.Machine.execGridCapHoldExpiry s
  | .releaseHoldExpiry outlet => Sys2Proof.Machine.execReleaseHoldExpiry outlet s
  | .transferRampDone stage => Sys2Proof.Machine.execTransferRampDone stage s
  | .transferRampTimeout stage => Sys2Proof.Machine.execTransferRampTimeout stage s
  | .xpOpenVerified stage => Sys2Proof.Machine.execXpOpenVerified stage s
  | .xpOpenTimeout stage => Sys2Proof.Machine.execXpOpenTimeout stage s
  | .trackingDone stage => Sys2Proof.Machine.execTrackingDone stage s
  | .trackTimeout stage => Sys2Proof.Machine.execTrackTimeout stage s
  | .xpCloseVerified stage => Sys2Proof.Machine.execXpCloseVerified stage s
  | .xpCloseTimeout stage => Sys2Proof.Machine.execXpCloseTimeout stage s
  | .transferTimeout stage => Sys2Proof.Machine.execTransferTimeout stage s
  | .xpCommandRelease stage => Sys2Proof.Machine.execXpCommandRelease stage s
  | .xpCurrent stage => Sys2Proof.Machine.execXpCurrent stage s
  | .feedbackMismatch stage => Sys2Proof.Machine.execFeedbackMismatch stage s
  | .spLinkUp outlet => Sys2Proof.Machine.execSpLinkUp outlet s
  | .spLinkDown outlet => Sys2Proof.Machine.execSpLinkDown outlet s
  | .targetStop outlet frame => Sys2Proof.Machine.execTargetStop outlet frame s
  | .targetConnect outlet frame => Sys2Proof.Machine.execTargetConnect outlet frame s
  | .targetCheck outlet frame => Sys2Proof.Machine.execTargetCheck outlet frame s
  | .targetPrecharge outlet frame => Sys2Proof.Machine.execTargetPrecharge outlet frame s
  | .targetCharge outlet frame => Sys2Proof.Machine.execTargetCharge outlet frame s
  | .targetPause outlet frame => Sys2Proof.Machine.execTargetPause outlet frame s
  | .statusPeriod outlet => Sys2Proof.Machine.execStatusPeriod outlet s
  | .portTimeout outlet => Sys2Proof.Machine.execPortTimeout outlet s
  | .generatorTick => Sys2Proof.Machine.execGeneratorTick s
  | .ackDecision outlet => Sys2Proof.Machine.execAckDecision outlet s
  | .notReached outlet => Sys2Proof.Machine.execNotReached outlet s
  | .connectMatch outlet => Sys2Proof.Machine.execConnectMatch outlet s
  | .contactorVerifiedClosed outlet => Sys2Proof.Machine.execContactorVerifiedClosed outlet s
  | .connectTimeout outlet => Sys2Proof.Machine.execConnectTimeout outlet s
  | .contactorCloseTimeout outlet => Sys2Proof.Machine.execContactorCloseTimeout outlet s
  | .outletCurrentLow outlet => Sys2Proof.Machine.execOutletCurrentLow outlet s
  | .contactorVerifiedOpen outlet => Sys2Proof.Machine.execContactorVerifiedOpen outlet s
  | .contactorOpenTimeout outlet => Sys2Proof.Machine.execContactorOpenTimeout outlet s
  | .dischargeReached outlet => Sys2Proof.Machine.execDischargeReached outlet s
  | .dischargeComplete outlet => Sys2Proof.Machine.execDischargeComplete outlet s
  | .stopTimeout outlet => Sys2Proof.Machine.execStopTimeout outlet s
  | .shortAtStart stage => Sys2Proof.Machine.execShortAtStart stage s
  | .phaseCheckWindow stage => Sys2Proof.Machine.execPhaseCheckWindow stage s
  | .phaseSenseFailed stage phase => Sys2Proof.Machine.execPhaseSenseFailed stage phase s
  | .lawWindowOpen flips => Sys2Proof.Machine.execLawWindowOpen flips s
  | .lawWindowClose => Sys2Proof.Machine.execLawWindowClose s
  | .memUncorrectable engine mem => Sys2Proof.Machine.execMemUncorrectable engine mem s
  | .injectionRunsDone engine => Sys2Proof.Machine.execInjectionRunsDone engine s
  | .lawNop e => Sys2Proof.Machine.execLawNop e s
  | .ldc e rd k => Sys2Proof.Machine.execLdc e rd k s
  | .lds e rd k => Sys2Proof.Machine.execLds e rd k s
  | .sts e ra k => Sys2Proof.Machine.execSts e ra k s
  | .lin e rd k => Sys2Proof.Machine.execLin e rd k s
  | .lout e ra k => Sys2Proof.Machine.execLout e ra k s
  | .ldi e rd imm => Sys2Proof.Machine.execLdi e rd imm s
  | .mov e rd ra => Sys2Proof.Machine.execMov e rd ra s
  | .clr e ac => Sys2Proof.Machine.execClr e ac s
  | .mpy e ac ra rb => Sys2Proof.Machine.execMpy e ac ra rb s
  | .mac e ac ra rb => Sys2Proof.Machine.execMac e ac ra rb s
  | .msu e ac ra rb => Sys2Proof.Machine.execMsu e ac ra rb s
  | .macc e ac ra k => Sys2Proof.Machine.execMacc e ac ra k s
  | .msuc e ac ra k => Sys2Proof.Machine.execMsuc e ac ra k s
  | .lda e ac ra => Sys2Proof.Machine.execLda e ac ra s
  | .adda e ac ra => Sys2Proof.Machine.execAdda e ac ra s
  | .suba e ac ra => Sys2Proof.Machine.execSuba e ac ra s
  | .accadd e ac => Sys2Proof.Machine.execAccadd e ac s
  | .sha e ac sc => Sys2Proof.Machine.execSha e ac sc s
  | .acclim e ac ra rb => Sys2Proof.Machine.execAcclim e ac ra rb s
  | .str e rd ac => Sys2Proof.Machine.execStr e rd ac s
  | .stas e ac k => Sys2Proof.Machine.execStas e ac k s
  | .ldas e ac k => Sys2Proof.Machine.execLdas e ac k s
  | .add e rd ra rb => Sys2Proof.Machine.execAdd e rd ra rb s
  | .sub e rd ra rb => Sys2Proof.Machine.execSub e rd ra rb s
  | .mul e rd ra rb => Sys2Proof.Machine.execMul e rd ra rb s
  | .min e rd ra rb => Sys2Proof.Machine.execMin e rd ra rb s
  | .max e rd ra rb => Sys2Proof.Machine.execMax e rd ra rb s
  | .abs e rd ra => Sys2Proof.Machine.execAbs e rd ra s
  | .neg e rd ra => Sys2Proof.Machine.execNeg e rd ra s
  | .shx e rd ra sc => Sys2Proof.Machine.execShx e rd ra sc s
  | .and e rd ra rb => Sys2Proof.Machine.execAnd e rd ra rb s
  | .or e rd ra rb => Sys2Proof.Machine.execOr e rd ra rb s
  | .xor e rd ra rb => Sys2Proof.Machine.execXor e rd ra rb s
  | .cmp e ra rb => Sys2Proof.Machine.execCmp e ra rb s
  | .sel e rd ra rb cond => Sys2Proof.Machine.execSel e rd ra rb cond s
  | .lut e rd ra k => Sys2Proof.Machine.execLut e rd ra k s
  | .br e cond off => Sys2Proof.Machine.execBr e cond off s
  | .endRun e => Sys2Proof.Machine.execEndRun e s
  | .downlinkSend incomplete => Sys2Proof.Machine.execDownlinkSend incomplete s
  | .uplinkReceive lane type blocks => Sys2Proof.Machine.execUplinkReceive lane type blocks s
  | .uplinkLatch lane => Sys2Proof.Machine.execUplinkLatch lane s
  | .laneLost lane => Sys2Proof.Machine.execLaneLost lane s
  | .blockLockLoss lane => Sys2Proof.Machine.execBlockLockLoss lane s
  | .blockLock lane => Sys2Proof.Machine.execBlockLock lane s
  | .trainReqSend lane => Sys2Proof.Machine.execTrainReqSend lane s
  | .trainAck lane type blocks arrivedAt => Sys2Proof.Machine.execTrainAck lane type blocks arrivedAt s
  | .trainTimeout lane => Sys2Proof.Machine.execTrainTimeout lane s
  | .refusedRetry lane => Sys2Proof.Machine.execRefusedRetry lane s
  | .holdoffEnd unit => Sys2Proof.Machine.execHoldoffEnd unit s
  | .captureTrigger unit => Sys2Proof.Machine.execCaptureTrigger unit s
  | .externalTriggerEdge rising time => Sys2Proof.Machine.execExternalTriggerEdge rising time s
  | .captureDone unit => Sys2Proof.Machine.execCaptureDone unit s
  | .calDone unit => Sys2Proof.Machine.execCalDone unit s
  | .lossTick => Sys2Proof.Machine.execLossTick s
  | .thermalSample object => Sys2Proof.Machine.execThermalSample object s
  | .rtdConversion readings leads => Sys2Proof.Machine.execRtdConversion readings leads s
  | .readingApply => Sys2Proof.Machine.execReadingApply s
  | .diverged object => Sys2Proof.Machine.execDiverged object s
  | .flowUpdate counts => Sys2Proof.Machine.execFlowUpdate counts s
  | .flowLow loop => Sys2Proof.Machine.execFlowLow loop s
  | .flowRecovered loop => Sys2Proof.Machine.execFlowRecovered loop s
  | .runonExpiry loop => Sys2Proof.Machine.execRunonExpiry loop s
  | .dieTempRead temps => Sys2Proof.Machine.execDieTempRead temps s
  | .thermalHalt => Sys2Proof.Machine.execThermalHalt s
  | .pilotStateChange outlet highMv lowMv => Sys2Proof.Machine.execPilotStateChange outlet highMv lowMv s
  | .ppClassChange outlet ohm => Sys2Proof.Machine.execPpClassChange outlet ohm s
  | .ppFault outlet => Sys2Proof.Machine.execPpFault outlet s
  | .slacMatched outlet => Sys2Proof.Machine.execSlacMatched outlet s
  | .slacFailed outlet detail => Sys2Proof.Machine.execSlacFailed outlet detail s
  | .t1sFrameReceive outlet => Sys2Proof.Machine.execT1sFrameReceive outlet s
  | .t1sLinkDown outlet => Sys2Proof.Machine.execT1sLinkDown outlet s
  | .tcpConnectRequest outlet => Sys2Proof.Machine.execTcpConnectRequest outlet s
  | .v2gMessageReceive outlet step req => Sys2Proof.Machine.execV2gMessageReceive outlet step req s
  | .chademoMessageReceive outlet id report => Sys2Proof.Machine.execChademoMessageReceive outlet id report s
  | .chademoTxTick outlet => Sys2Proof.Machine.execChademoTxTick outlet s
  | .canLoss outlet => Sys2Proof.Machine.execCanLoss outlet s
  | .authTimeout outlet => Sys2Proof.Machine.execAuthTimeout outlet s
  | .chademoUnplugTimer outlet => Sys2Proof.Machine.execChademoUnplugTimer outlet s
  | .msgTimeout outlet code => Sys2Proof.Machine.execMsgTimeout outlet code s
  | .starved outlet => Sys2Proof.Machine.execStarved outlet s
  | .noStageRetry outlet => Sys2Proof.Machine.execNoStageRetry outlet s
  | .energyLimitPoll outlet => Sys2Proof.Machine.execEnergyLimitPoll outlet s
  | .canFrameReceive ctl frame => Sys2Proof.Machine.execCanFrameReceive ctl frame s
  | .canRxRingWrite ctl => Sys2Proof.Machine.execCanRxRingWrite ctl s
  | .canTxComplete ctl => Sys2Proof.Machine.execCanTxComplete ctl s
  | .canError ctl what => Sys2Proof.Machine.execCanError ctl what s
  | .busOffRecoveryDone ctl => Sys2Proof.Machine.execBusOffRecoveryDone ctl s
  | .recover ctl value => Sys2Proof.Machine.execRecover ctl value s
  | .redetect ctl value => Sys2Proof.Machine.execRedetect ctl value s
  | .detectWindowExpiry ctl => Sys2Proof.Machine.execDetectWindowExpiry ctl s
  | .canRestrictedExit ctl => Sys2Proof.Machine.execCanRestrictedExit ctl s
  | .zeroCrossing time => Sys2Proof.Machine.execZeroCrossing time s
  | .zcLost => Sys2Proof.Machine.execZcLost s
  | .beaconWindow slot => Sys2Proof.Machine.execBeaconWindow slot s
  | .beacon f xStart rank => Sys2Proof.Machine.execBeacon f xStart rank s
  | .beaconLockLoss => Sys2Proof.Machine.execBeaconLockLoss s
  | .coordStart => Sys2Proof.Machine.execCoordStart s
  | .plcContention won backoff => Sys2Proof.Machine.execPlcContention won backoff s
  | .data f => Sys2Proof.Machine.execData f s
  | .sack fc => Sys2Proof.Machine.execSack fc s
  | .sackTimeout => Sys2Proof.Machine.execSackTimeout s
  | .e2eAck f => Sys2Proof.Machine.execE2eAck f s
  | .assocReq f => Sys2Proof.Machine.execAssocReq f s
  | .assocRes f => Sys2Proof.Machine.execAssocRes f s
  | .tonemap f => Sys2Proof.Machine.execTonemap f s
  | .route f => Sys2Proof.Machine.execRoute f s
  | .wakeReq f => Sys2Proof.Machine.execWakeReq f s
  | .pairFrame f => Sys2Proof.Machine.execPairFrame f s
  | .routeTimer => Sys2Proof.Machine.execRouteTimer s
  | .assocRetry => Sys2Proof.Machine.execAssocRetry s
  | .addressHoldExpiry addr => Sys2Proof.Machine.execAddressHoldExpiry addr s
  | .plcMsgTimeout seq => Sys2Proof.Machine.execPlcMsgTimeout seq s
  | .pairFrameTimer => Sys2Proof.Machine.execPairFrameTimer s
  | .caddisStart failed otherOk => Sys2Proof.Machine.execCaddisStart failed otherOk s
  | .warmupEnd => Sys2Proof.Machine.execWarmupEnd s
  | .caddisCommit => Sys2Proof.Machine.execCaddisCommit s
  | .metRefresh => Sys2Proof.Machine.execMetRefresh s
  | .sealChange intact => Sys2Proof.Machine.execSealChange intact s
  | .tamperChange intact => Sys2Proof.Machine.execTamperChange intact s
  | .caddisSelfTestRun test outlet passed => Sys2Proof.Machine.execCaddisSelfTestRun test outlet passed s
  | .recorderSecond => Sys2Proof.Machine.execRecorderSecond s
  | .pageClose => Sys2Proof.Machine.execPageClose s
  | .framFailure cause addr => Sys2Proof.Machine.execFramFailure cause addr s
  | .remaskPass bad => Sys2Proof.Machine.execRemaskPass bad s
  | .go value package => Sys2Proof.Machine.execGo value package s
  | .ilkInClassChange cls => Sys2Proof.Machine.execIlkInClassChange cls s
  | .ilkReadbackFail => Sys2Proof.Machine.execIlkReadbackFail s
  | .authYield => Sys2Proof.Machine.execAuthYield s
  | .authCollision => Sys2Proof.Machine.execAuthCollision s
  | .doubleFault => Sys2Proof.Machine.execDoubleFault s
  | .period type blocks => Sys2Proof.Machine.execPeriod type blocks s
  | .pairLinkDown => Sys2Proof.Machine.execPairLinkDown s
  | .mirrorAckTimeout seq => Sys2Proof.Machine.execMirrorAckTimeout seq s
  | .ack seq => Sys2Proof.Machine.execAck seq s
  | .hello seq h => Sys2Proof.Machine.execHello seq h s
  | .lease seq body plc => Sys2Proof.Machine.execLease seq body plc s
  | .handover seq atCount kind => Sys2Proof.Machine.execHandover seq atCount kind s
  | .descriptor seq d status tick => Sys2Proof.Machine.execDescriptor seq d status tick s
  | .mirroredDescriptorEffect => Sys2Proof.Machine.execMirroredDescriptorEffect s
  | .session seq outlet xRec wrapKey => Sys2Proof.Machine.execSession seq outlet xRec wrapKey s
  | .target seq outlet xRec => Sys2Proof.Machine.execTarget seq outlet xRec s
  | .transfer seq stage xRec => Sys2Proof.Machine.execTransfer seq stage xRec s
  | .sensor seq at_ rtds flows => Sys2Proof.Machine.execSensor seq at_ rtds flows s
  | .caddis seq outlet xStart sessionRef primaryTxn primaryId => Sys2Proof.Machine.execCaddis seq outlet xStart sessionRef primaryTxn primaryId s
  | .lane seq active => Sys2Proof.Machine.execLane seq active s
  | .snapshotRecord seq frag frags part => Sys2Proof.Machine.execSnapshotRecord seq frag frags part s
  | .resyncPoint => Sys2Proof.Machine.execResyncPoint s
  | .switchover value => Sys2Proof.Machine.execSwitchover value s
  | .resync value => Sys2Proof.Machine.execResync value s
  | .handoverTaken => Sys2Proof.Machine.execHandoverTaken s
  | .handoverGiven => Sys2Proof.Machine.execHandoverGiven s
  | .handoverWindowEnd => Sys2Proof.Machine.execHandoverWindowEnd s
  | .leaseRenew => Sys2Proof.Machine.execLeaseRenew s
  | .leaseExpiry => Sys2Proof.Machine.execLeaseExpiry s
  | .leaseClaim => Sys2Proof.Machine.execLeaseClaim s
  | .hostBoardPoll word => Sys2Proof.Machine.execHostBoardPoll word s
  | .hostCasComplete found => Sys2Proof.Machine.execHostCasComplete found s
  | .on channel value => Sys2Proof.Machine.execOn channel value s
  | .off channel value => Sys2Proof.Machine.execOff channel value s
  | .clear channel value tjDc => Sys2Proof.Machine.execClear channel value tjDc s
  | .swInEdge channel level => Sys2Proof.Machine.execSwInEdge channel level s
  | .inrushEnd channel peakDa => Sys2Proof.Machine.execInrushEnd channel peakDa s
  | .limit channel currentMa ns => Sys2Proof.Machine.execLimit channel currentMa ns s
  | .hardTrip channel currentMa => Sys2Proof.Machine.execHardTrip channel currentMa s
  | .switchRetry channel => Sys2Proof.Machine.execSwitchRetry channel s
  | .retryCountReset channel => Sys2Proof.Machine.execRetryCountReset channel s
  | .latched channel tjDc => Sys2Proof.Machine.execLatched channel tjDc s
  | .openLoad channel ua => Sys2Proof.Machine.execOpenLoad channel ua s
  | .vauxLow mv => Sys2Proof.Machine.execVauxLow mv s
  | .vauxRecovered mv => Sys2Proof.Machine.execVauxRecovered mv s
  | .vauxLost mv => Sys2Proof.Machine.execVauxLost mv s
  | .vauxReapply => Sys2Proof.Machine.execVauxReapply s
  | .switchDieFreeze => Sys2Proof.Machine.execSwitchDieFreeze s
  | .eventSecondTick => Sys2Proof.Machine.execEventSecondTick s
  | .powerOnResetRearm => Sys2Proof.Machine.execPowerOnResetRearm s
  | .sleepNLow l1Enabled => Sys2Proof.Machine.execSleepNLow l1Enabled s
  | .pcieLinkUp gen width maxRead => Sys2Proof.Machine.execPcieLinkUp gen width maxRead s
  | .pcieLinkDown => Sys2Proof.Machine.execPcieLinkDown s
  | .ethLinkUp port => Sys2Proof.Machine.execEthLinkUp port s
  | .ethLinkDown port => Sys2Proof.Machine.execEthLinkDown port s
  | .firmwareUpdateReset straps => Sys2Proof.Machine.execFirmwareUpdateReset straps s
  | .thermalHaltRelease temps => Sys2Proof.Machine.execThermalHaltRelease temps s
  | .boundaryScan trstN drive => Sys2Proof.Machine.execBoundaryScan trstN drive s
  | .acqConversion codes => Sys2Proof.Machine.execAcqConversion codes s
  | .caddisSample codes stuck => Sys2Proof.Machine.execCaddisSample codes stuck s
  | .caddisSupplyLoss => Sys2Proof.Machine.execCaddisSupplyLoss s
  | .chargePermissionChange outlet high => Sys2Proof.Machine.execChargePermissionChange outlet high s
  | .openLoadCleared channel ua => Sys2Proof.Machine.execOpenLoadCleared channel ua s
  | .snapshotRequest seq => Sys2Proof.Machine.execSnapshotRequest seq s

end Sys2Proof.Machine
end

