-- ==== Sys2Proof/Machine/Tick.lean ====
section
/-! DEFINITION. What the block does by itself while no command waits: device time advances, and what falls due with it alone. -/

namespace Sys2Proof.Machine

/-- R127, R388, R413, R441: re-targets that were held back, a finished interval of token refusals, and coalesced messages of receive rings that are due. -/
def dueByTime (s : State) : State := plcCoalesce (canCoalesce (forAll (List.range 4) flushRefusals (dueRetargets s)))

/-- R80, R83: while Boot runs, AON and Caddis run from the start and every clock from t0 + 2 ms on. -/
def bootClocks (before : Nat) (s : State) : State :=
  let t2 := s.pwr.releasedAt + 2000000
  if s.pwr.held || s.pwr.opState != .boot then s
  else if before < t2 && decide (t2 ≤ s.now) then s.modPwr fun p => { p with locked := 0xFFF }
  else if s.pwr.locked == 0 then s.modPwr fun p => { p with locked := sleepClocks }
  else s

/-- R101: ETH_PPS_OUT falls 100 ms after it rose. -/
def ppsFall (s : State) : State :=
  match s.host.ppsUntil with
  | some t => if t ≤ s.now then emit (.contact 0 false) (s.modHost fun h => { h with ppsUntil := none }) else s
  | none => s

/-- R325: the pulse on ACQ_TRIG_OUT ends. -/
def trigFall (s : State) : State :=
  match s.acq.pulseUntil with
  | some t => if t ≤ s.now then emit (.contact 1 false) (s.modAcq fun a => { a with pulseUntil := none }) else s
  | none => s

/-- R13: device time runs whatever the controller does. -/
def tick (s : State) : State :=
  let s1 := { s with now := s.now + tickNs }
  if s1.pwr.undefinedLogic then s1
  else settle (if s1.awake then dueByTime (trigFall (ppsFall s1)) else bootClocks s.now s1)

end Sys2Proof.Machine
end

