-- ==== Sys2Proof/Machine/LawDecode.lean ====
section
/-! DEFINITION. The words of the law instructions (R239, R240): the word of each row, and the row of each word. -/

namespace Sys2Proof.Machine

/-- R239: a 4-bit field of a word. -/
def lwR (w lo : Nat) : BitVec 4 := BitVec.ofNat 4 (bits w lo 4)

/-- The row that a word of engine `e` spells; none for a word that R240 and R242 do not list. -/
def lawDecode (e : Fin 8) (w : Nat) : Option Instr :=
  if !lawWordOk w then none
  else match lwOp w with
    | 0x00 => some (.lawNop e)
    | 0x01 => some (.ldc e (lwR w 22) (BitVec.ofNat 8 w))
    | 0x02 => some (.lds e (lwR w 22) (BitVec.ofNat 8 w))
    | 0x03 => some (.sts e (lwR w 18) (BitVec.ofNat 8 w))
    | 0x04 => some (.lin e (lwR w 22) (BitVec.ofNat 8 w))
    | 0x05 => some (.lout e (lwR w 18) (BitVec.ofNat 8 w))
    | 0x06 => some (.ldi e (lwR w 22) (BitVec.ofNat 16 w))
    | 0x07 => some (.mov e (lwR w 22) (lwR w 18))
    | 0x08 => some (.clr e (bitOf w 13))
    | 0x09 => some (.mpy e (bitOf w 13) (lwR w 18) (lwR w 14))
    | 0x0A => some (.mac e (bitOf w 13) (lwR w 18) (lwR w 14))
    | 0x0B => some (.msu e (bitOf w 13) (lwR w 18) (lwR w 14))
    | 0x0C => some (.macc e (bitOf w 13) (lwR w 18) (BitVec.ofNat 8 w))
    | 0x0D => some (.msuc e (bitOf w 13) (lwR w 18) (BitVec.ofNat 8 w))
    | 0x0E => some (.lda e (bitOf w 13) (lwR w 18))
    | 0x0F => some (.adda e (bitOf w 13) (lwR w 18))
    | 0x10 => some (.suba e (bitOf w 13) (lwR w 18))
    | 0x11 => some (.accadd e (bitOf w 13))
    | 0x12 => some (.sha e (bitOf w 13) (BitVec.ofNat 5 (lwSc w)))
    | 0x13 => some (.acclim e (bitOf w 13) (lwR w 18) (lwR w 14))
    | 0x14 => some (.str e (lwR w 22) (bitOf w 13))
    | 0x15 => some (.stas e (bitOf w 13) (BitVec.ofNat 8 w))
    | 0x16 => some (.ldas e (bitOf w 13) (BitVec.ofNat 8 w))
    | 0x18 => some (.add e (lwR w 22) (lwR w 18) (lwR w 14))
    | 0x19 => some (.sub e (lwR w 22) (lwR w 18) (lwR w 14))
    | 0x1A => some (.mul e (lwR w 22) (lwR w 18) (lwR w 14))
    | 0x1B => some (.min e (lwR w 22) (lwR w 18) (lwR w 14))
    | 0x1C => some (.max e (lwR w 22) (lwR w 18) (lwR w 14))
    | 0x1D => some (.abs e (lwR w 22) (lwR w 18))
    | 0x1E => some (.neg e (lwR w 22) (lwR w 18))
    | 0x1F => some (.shx e (lwR w 22) (lwR w 18) (BitVec.ofNat 5 (lwSc w)))
    | 0x20 => some (.and e (lwR w 22) (lwR w 18) (lwR w 14))
    | 0x21 => some (.or e (lwR w 22) (lwR w 18) (lwR w 14))
    | 0x22 => some (.xor e (lwR w 22) (lwR w 18) (lwR w 14))
    | 0x23 => some (.cmp e (lwR w 18) (lwR w 14))
    | 0x24 => some (.sel e (lwR w 22) (lwR w 18) (lwR w 14) (lwR w 8))
    | 0x25 => some (.lut e (lwR w 22) (lwR w 18) (BitVec.ofNat 8 w))
    | 0x30 => some (.br e (lwR w 22) (BitVec.ofNat 10 w))
    | 0x3F => some (.endRun e)
    | _ => none

end Sys2Proof.Machine

namespace Sys2Proof

open Sys2Proof.Machine

/-- The engine and the word of a law instruction; none for any other command. -/
def Instr.lawCode : Instr → Option (Fin 8 × Nat)
  | .lawNop e => some (e, lawWord 0x00 0 0 0 false 0)
  | .ldc e rd k => some (e, lawWord 0x01 rd.toNat 0 0 false k.toNat)
  | .lds e rd k => some (e, lawWord 0x02 rd.toNat 0 0 false k.toNat)
  | .sts e ra k => some (e, lawWord 0x03 0 ra.toNat 0 false k.toNat)
  | .lin e rd k => some (e, lawWord 0x04 rd.toNat 0 0 false k.toNat)
  | .lout e ra k => some (e, lawWord 0x05 0 ra.toNat 0 false k.toNat)
  | .ldi e rd imm => some (e, lawWord 0x06 rd.toNat 0 0 false imm.toNat)
  | .mov e rd ra => some (e, lawWord 0x07 rd.toNat ra.toNat 0 false 0)
  | .clr e ac => some (e, lawWord 0x08 0 0 0 ac 0)
  | .mpy e ac ra rb => some (e, lawWord 0x09 0 ra.toNat rb.toNat ac 0)
  | .mac e ac ra rb => some (e, lawWord 0x0A 0 ra.toNat rb.toNat ac 0)
  | .msu e ac ra rb => some (e, lawWord 0x0B 0 ra.toNat rb.toNat ac 0)
  | .macc e ac ra k => some (e, lawWord 0x0C 0 ra.toNat 0 ac k.toNat)
  | .msuc e ac ra k => some (e, lawWord 0x0D 0 ra.toNat 0 ac k.toNat)
  | .lda e ac ra => some (e, lawWord 0x0E 0 ra.toNat 0 ac 0)
  | .adda e ac ra => some (e, lawWord 0x0F 0 ra.toNat 0 ac 0)
  | .suba e ac ra => some (e, lawWord 0x10 0 ra.toNat 0 ac 0)
  | .accadd e ac => some (e, lawWord 0x11 0 0 0 ac 0)
  | .sha e ac sc => some (e, lawWord 0x12 0 0 0 ac (256 * sc.toNat))
  | .acclim e ac ra rb => some (e, lawWord 0x13 0 ra.toNat rb.toNat ac 0)
  | .str e rd ac => some (e, lawWord 0x14 rd.toNat 0 0 ac 0)
  | .stas e ac k => some (e, lawWord 0x15 0 0 0 ac k.toNat)
  | .ldas e ac k => some (e, lawWord 0x16 0 0 0 ac k.toNat)
  | .add e rd ra rb => some (e, lawWord 0x18 rd.toNat ra.toNat rb.toNat false 0)
  | .sub e rd ra rb => some (e, lawWord 0x19 rd.toNat ra.toNat rb.toNat false 0)
  | .mul e rd ra rb => some (e, lawWord 0x1A rd.toNat ra.toNat rb.toNat false 0)
  | .min e rd ra rb => some (e, lawWord 0x1B rd.toNat ra.toNat rb.toNat false 0)
  | .max e rd ra rb => some (e, lawWord 0x1C rd.toNat ra.toNat rb.toNat false 0)
  | .abs e rd ra => some (e, lawWord 0x1D rd.toNat ra.toNat 0 false 0)
  | .neg e rd ra => some (e, lawWord 0x1E rd.toNat ra.toNat 0 false 0)
  | .shx e rd ra sc => some (e, lawWord 0x1F rd.toNat ra.toNat 0 false (256 * sc.toNat))
  | .and e rd ra rb => some (e, lawWord 0x20 rd.toNat ra.toNat rb.toNat false 0)
  | .or e rd ra rb => some (e, lawWord 0x21 rd.toNat ra.toNat rb.toNat false 0)
  | .xor e rd ra rb => some (e, lawWord 0x22 rd.toNat ra.toNat rb.toNat false 0)
  | .cmp e ra rb => some (e, lawWord 0x23 0 ra.toNat rb.toNat false 0)
  | .sel e rd ra rb cond => some (e, lawWord 0x24 rd.toNat ra.toNat rb.toNat false (256 * cond.toNat))
  | .lut e rd ra k => some (e, lawWord 0x25 rd.toNat ra.toNat 0 false k.toNat)
  | .br e cond rel => some (e, lawWord 0x30 cond.toNat 0 0 false rel.toNat)
  | .endRun e => some (e, lawWord 0x3F 0 0 0 false 0)
  | _ => none

end Sys2Proof
end

