-- ==== Sys2Proof/Safety.lean ====
section
/-! DEFINITION. What a safe run of the block is, in the terms that claims use. -/

namespace Sys2Proof.Machine

/-- A step that goes on. -/
def Goes (s t : State) : Prop := step s = .next t

/-- R530: in Boot and in Safe, AUTH is clear. -/
def AuthInv (s : State) : Prop := s.pair.auth = true → s.pwr.opState = .setup ∨ s.pwr.opState = .operate

/-- A step that stops does so only because the supply has failed (R73). -/
def OnlySupplyStops (s : State) : Prop := ∀ r, step s = .fault r → s.pwr.undefinedLogic = true

/-! ### Frames -/

/-- The host interface but for what an event record or a message changes: the event ring, the MSI-X table, the messages of the present step, and the transactions that wait for the PCIe clock. -/
def HostIf.rings (h : HostIf) : HostIf := { h with
  evq := {}, msix := [], msgs := [], stalled := [] }

/-- The parts of the state: one for each field, and by themselves AUTH (R529), the operating state (R86), the rings (the host interface but for the event ring and MSI-X), and the frozen masters with the Safe causes (R583, R586). -/
inductive Part
  | pending | now | outs | freeIx | pwr | host | flt | prof | stages | alloc | paths | law | lanes | pair | acq | thm | sw | met | veh | civil | key | can | plc | rcd | auth | opState | rings | faults
  deriving DecidableEq, Repr

/-- A part is the same in two states. -/
def Part.same : Part → State → State → Prop
  | .pending, s, t => t.pending = s.pending
  | .now, s, t => t.now = s.now
  | .outs, s, t => t.outs = s.outs
  | .freeIx, s, t => t.freeIx = s.freeIx
  | .pwr, s, t => t.pwr = s.pwr
  | .host, s, t => t.host = s.host
  | .flt, s, t => t.flt = s.flt
  | .prof, s, t => t.prof = s.prof
  | .stages, s, t => t.stages = s.stages
  | .alloc, s, t => t.alloc = s.alloc
  | .paths, s, t => t.paths = s.paths
  | .law, s, t => t.law = s.law
  | .lanes, s, t => t.lanes = s.lanes
  | .pair, s, t => t.pair = s.pair
  | .acq, s, t => t.acq = s.acq
  | .thm, s, t => t.thm = s.thm
  | .sw, s, t => t.sw = s.sw
  | .met, s, t => t.met = s.met
  | .veh, s, t => t.veh = s.veh
  | .civil, s, t => t.civil = s.civil
  | .key, s, t => t.key = s.key
  | .can, s, t => t.can = s.can
  | .plc, s, t => t.plc = s.plc
  | .rcd, s, t => t.rcd = s.rcd
  | .auth, s, t => t.pair.auth = s.pair.auth
  | .opState, s, t => t.pwr.opState = s.pwr.opState
  | .rings, s, t => t.host.rings = s.host.rings
  | .faults, s, t => t.flt.frozen = s.flt.frozen ∧ t.flt.safeCause = s.flt.safeCause

/-- Nothing but the listed parts differs from `s` in `t`. -/
@[irreducible] def Kept (w : List Part) (s t : State) : Prop := ∀ p, p ∉ w → p.same s t

/-! ### How a command completes -/

/-- The controller acts on commands: the rails have been in tolerance since its last reset (R73), and its logic is out of reset, past Boot, with its fast clocks on. -/
def State.ready (s : State) : Bool := !s.pwr.undefinedLogic && s.awake

/-- Between steps no event waits for its record, and no message waits to be sent. -/
def Settled (s : State) : Prop := s.flt.arising = [] ∧ s.host.msgs = []

/-- The command answers a next state. Before the step ends with its event records and messages (`settle`), the state satisfies `P`, and only the listed parts differ in it. -/
def Runs (c : Instr) (s : State) (w : List Part) (P : State → Prop) : Prop := ∃ u, exec c s = .next (settle u) ∧ P u ∧ Kept w s u

/-- The command answers a next state that satisfies `P`, and only the listed parts differ in it. -/
def Lands (c : Instr) (s : State) (w : List Part) (P : State → Prop) : Prop := ∃ t, exec c s = .next t ∧ P t ∧ Kept w s t

/-- The command changes nothing; a step ends with the event records and messages that are due. -/
def Idles (c : Instr) (s : State) : Prop := exec c s = .next (settle s)

/-- R589: an event with this source, cause, instance and payload, dated with the device time of `s`, has arisen and waits in `u` for its record. Between steps none waits (`Settled`). -/
def Arose (src cause inst : Nat) (payload : List Byte) (s u : State) : Prop :=
  { src := src, cause := cause, inst := inst, payload := payload, at_ := s.now } ∈ u.flt.arising

/-- An event with this source, cause and instance has arisen, whatever its payload. -/
def Posted (src cause inst : Nat) (s u : State) : Prop := ∃ payload, Arose src cause inst payload s u

/-- What raising an event changes, besides its record: the event log, the capture units it may trigger, and the recorder. -/
def eventParts : List Part := [.flt, .acq, .rcd]

/-! ### How a descriptor completes -/

/-- R111, R127: the descriptor has left its ring, and a C0 ring has paid one token for it. -/
def paid (d : Desc) (s : State) : State :=
  let s1 := takeDesc d.ring s
  if ringClass d.ring ≠ 0 then s1
  else (s1.modSq d.ring (refill s.now)).modSq d.ring fun q => { q with bucket := q.bucket - million }

/-- R97: the descriptor has left its ring, and its buffers have been read. -/
def fetched (d : Desc) (s : State) : State := readBuffers d (paid d s)

/-- R583: no access for the descriptor lies outside the windows. -/
def staysInside (d : Desc) (s : State) : Bool :=
  match d.stray with
  | some a => !strayOutside (startOp d .waiting (fetched d s)) d a
  | none => true

/-- R109, R117, R118, R121: the descriptor stands at the head of a ring that can fetch, has no barrier to wait for, and passes every check. -/
def passesChecks (op : OpInfo) (d : Desc) (s : State) : Bool :=
  d.opcode.toNat == op.code && opcodeDefined op.code && !((s.sq d.ring).waiting == some d)
    && canFetch s d.ring && d.seq == (s.sq d.ring).expSeq && headChecks op d s == none && !tagInFlight s d.tag
    && (ringClass d.ring != 0 || decide (million ≤ (((takeDesc d.ring s).modSq d.ring (refill s.now)).sq d.ring).bucket))
    && !(d.barrier && ringBusy (paid d s) d.ring d.tag) && bodyChecks op d (paid d s) == none && staysInside d s

/-- R545: this unit does not mirror what the descriptor does. -/
def unmirrored (op : OpInfo) (s : State) : Bool := op.acc == .unit || !s.paired

/-- The controller runs the descriptor to its effect by itself. -/
def admits (op : OpInfo) (d : Desc) (s : State) : Bool := s.ready && passesChecks op d s && unmirrored op (fetched d s)

/-- The descriptor completes with this STATUS and RESULT; what it leaves before its completion record satisfies `P`, and only the listed parts of it differ from the state after the fetch. -/
def Finishes (c : Instr) (d : Desc) (s : State) (status result : Nat) (w : List Part) (P : State → Prop) : Prop :=
  ∃ u, exec c s = .next (settle (completeDesc d status result u)) ∧ P u ∧ Kept w (fetched d s) u

/-- The descriptor starts an operation that completes later; its state satisfies `P`, and only the listed parts of it differ from the state after the fetch. -/
def Starts (c : Instr) (d : Desc) (s : State) (w : List Part) (P : State → Prop) : Prop :=
  ∃ u, exec c s = .next (settle u) ∧ P u ∧ Kept w (fetched d s) u

/-- R68: the parts of the controller logic that a reset may change; device time, civil time, the queue, the output log and the Caddis die are not among them. -/
def controllerParts : List Part :=
  [.pwr, .host, .flt, .prof, .stages, .alloc, .paths, .law, .lanes, .pair, .acq, .thm, .sw, .veh, .key, .can, .plc, .rcd, .auth, .opState, .rings, .faults]

/-- R231, R239, R245: the instruction stands at the address of its engine's run: it takes `cyc` cycles, and 2 more when it meets a single-bit error, which is corrected and counted. Nothing but its engine's run and cycle count changes beside that, and the run after it satisfies `P`. -/
def LawRuns (c : Instr) (cyc : Nat) (P : State → Run → Run → Prop) : Prop :=
  ∀ (s : State) (e : Fin 8) (w : Nat) (r : Run), c.lawCode = some (e, w) → s.ready = true → s.runAt e w = some r →
    ∃ q, P s r q
      ∧ ((s.engine e).flips = 0 → exec c s = .next (s.modEngine e fun g => { g with run := some q, used := g.used + cyc }))
      ∧ ((s.engine e).flips ≠ 0 → exec c s = .next (countEvent (16 + e) 3 0xFF (s.modEngine e fun g => { g with
          run := some q, used := g.used + cyc + 2, flips := g.flips - 1, corrected := satAdd 16 g.corrected 1 })))

/-- R228: the accumulator holds the exact result `v`, saturated, and OV notes a saturation. -/
def AccResult (r q : Run) (ac : Bool) (v : Int) : Prop :=
  (q.acc ac).toInt = max (-(2 ^ 39)) (min (2 ^ 39 - 1) v) ∧ q.acc (!ac) = r.acc (!ac)
    ∧ q.flags = { r.flags with ov := r.flags.ov || decide (v < -(2 ^ 39) ∨ 2 ^ 39 - 1 < v) }
    ∧ q.pc = r.pc + 1 ∧ q.x = r.x ∧ q.st = r.st ∧ q.outs = r.outs ∧ q.slot = r.slot

/-- R240: the register holds `v`, and N and Z are set from it. -/
def RegResult (r q : Run) (rd : BitVec 4) (v : Half) : Prop :=
  q = { r with
    pc := r.pc + 1, x := r.x.set rd.toNat v
    flags := { r.flags with n := decide (v.toInt < 0), z := decide (v.toInt = 0) } }

/-- R229, R240: the register holds the exact result `v`, saturated; N and Z are set from it, and SAT notes a saturation. -/
def RegResultSat (r q : Run) (rd : BitVec 4) (v : Int) : Prop :=
  ∃ y : Half, y.toInt = max (-32768) (min 32767 v) ∧ q = { r with
    pc := r.pc + 1, x := r.x.set rd.toNat y
    flags := { r.flags with
      n := decide (y.toInt < 0), z := decide (y.toInt = 0), sat := r.flags.sat || decide (v < -32768 ∨ 32767 < v) } }

/-- R68: every register of the blocks of the controller logic that no other domain holds is at its reset value. -/
def ControllerReset (t : State) : Prop :=
  t.host = State.reset.host ∧ t.flt = State.reset.flt ∧ t.prof.active = none ∧ t.stages = State.reset.stages ∧ t.alloc = State.reset.alloc
    ∧ t.paths = State.reset.paths ∧ t.law = State.reset.law ∧ t.lanes = State.reset.lanes ∧ t.pair = State.reset.pair
    ∧ t.acq = State.reset.acq ∧ t.veh = State.reset.veh ∧ t.can = State.reset.can ∧ t.plc = State.reset.plc

/-- The command does `u`, which satisfies `P` and differs from `s` in the listed parts only; what follows from it (`f`) comes after, and the step settles. -/
def Through (f : State → State) (c : Instr) (s : State) (w : List Part) (P : State → Prop) : Prop :=
  ∃ u, exec c s = .next (settle (f u)) ∧ P u ∧ Kept w s u

/-! ### Stages and the allocator -/

/-- R87, R166, R386: an event of a stage: `u` satisfies `P` and differs from `s` in the listed parts only; the vehicle engines then react to `u`, the power state follows, and the step settles. -/
def GoesVia (c : Instr) (s : State) (w : List Part) (P : State → Prop) : Prop := Through (fun u => restPower (settleVehicles u)) c s w P

/-- The event of a stage does nothing of its own. -/
def Rests (c : Instr) (s : State) : Prop := exec c s = .next (settle (restPower (settleVehicles s)))

/-- What an event of a stage may change before the vehicle engines react. -/
def stageParts : List Part := [.outs, .flt, .stages, .pair, .acq, .rcd]

/-- R166, R172: the transfer of stage `i` fails: E36 with its cause, and the stage is BLOCKED and disabled, its coils open or waiting to open under R19. -/
def TransferFails (i cause : Nat) (s u : State) : Prop :=
  u.stages = upd s.stages i (fun st => { st with
      xfer := .blocked, lastEnd := some s.now, outEn := false, ramping := false
      coils := if s.lowCurrent i then 0 else st.coils
      openWait := if s.lowCurrent i then 0 else st.openWait ||| st.coils
      waitAt := if s.lowCurrent i = false ∧ st.openWait = 0 then s.now else st.waitAt
      waitRaised := if s.lowCurrent i = false ∧ st.openWait = 0 then false else st.waitRaised })
    ∧ Posted 36 cause i s u

/-- R28, R195, R291: the latch of one lane: `u` satisfies `P` and differs from `s` in the listed parts only; then every held condition is looked at, and the vehicle engines, the power state and the profile lock follow. -/
def Latches (n : Nat) (s : State) (w : List Part) (P : State → Prop) : Prop :=
  Through (fun u => settleLock (restPower (settleVehicles (watch u)))) (.uplinkLatch n) s w P

/-! ### Switch channels -/

/-- R563: channel `k` is channel `n` or the other one of its ganged pair. -/
abbrev State.inGang (s : State) (n k : Nat) : Prop := k = n ∨ (s.ganged n = true ∧ k / 2 = n / 2)

/-- R563: what happens to channel `n` happens to its whole gang, and to no other channel. -/
def GangSet (n : Nat) (f : SwCh → SwCh) (s t : State) : Prop := ∀ k, t.swCh k = if s.inGang n k then f (s.swCh k) else s.swCh k

/-- R361: every coolant loop whose pump is this channel is in the flow-low state. -/
def PumpsFail (n : Nat) (s t : State) : Prop :=
  ∀ l, l < 8 → l < s.thm.loops.length → s.hasSec 6 = true → s.loopB l 1 = n → (t.loop l).flowLow = true

/-! ### Caddis -/

/-- R466: the requests but SET_PARAMETER, each with its checks. -/
def meterReads : List ((Desc → Instr) × OpInfo) :=
  [(Instr.txnStart, meterInfo 1 true false [(32, 16)] fun _ _ => 256), (Instr.txnStop, meterInfo 2 true false [(32, 1)] fun _ _ => 256),
   (Instr.readRegisters, meterInfo 0x10 false false [] fun _ _ => 256), (Instr.readRecord, meterInfo 0x11 false false [(32, 5)] fun _ _ => 256),
   (Instr.readLog, meterInfo 0x12 false false [(32, 6)] fun s d => 80 + 32 * (logFrom s (d.w 32) (d.h 36)).length),
   (Instr.identify, meterInfo 0x13 false true [] fun s _ => (identifyReply s).length), (Instr.selfTest, meterInfo 0x21 false true [] fun _ _ => 8)]

/-- R452, R466: the checks of SET_PARAMETER. -/
def setParameterInfo : OpInfo := meterInfo 0x20 false false [(32, 2), (40, 8)] fun _ _ => 32

/-- R477: an event of Caddis reaches the running controller logic at once, and waits for it otherwise, with the Caddis time in its payload. -/
def CaddisTells (src cause inst : Nat) (payload : List Byte) (s t : State) : Prop :=
  (s.ready = true → Arose src cause inst payload s t)
    ∧ (s.ready = false → (src, cause, inst, payload.take 5 ++ toLE 8 s.caddisMs) ∈ t.met.waiting)

/-! ### The vehicle-link engines -/

/-- The vehicle-link engine of outlet `o` takes part: an outlet with one of the personalities, the engine not frozen (R584). -/
def State.engineOn (s : State) (o : Nat) (ps : List Nat) : Bool := s.ready && decide (o < 8) && ps.contains (s.personality o) && !s.isFrozen 0x22

/-- R386, R387: a happening of an outlet's engine: `u` satisfies `P` and differs from `s` in the listed parts only, and the engine then follows its path, its pilot and its peer. -/
def EngineVia (c : Instr) (o : Nat) (s : State) (w : List Part) (P : State → Prop) : Prop := Through (afterVehicle o) c s w P

/-- The happening does nothing of its own. -/
def EngineRests (c : Instr) (o : Nat) (s : State) : Prop := exec c s = .next (settle (afterVehicle o s))

/-- What a happening of a vehicle-link engine may change before the engine follows it. -/
def vehicleParts : List Part := [.outs, .flt, .stages, .paths, .pair, .acq, .veh, .rcd]

/-- R386: a session that can still end is ENDING with its reason, its started path STOPPING where the end is fast, and a path that has not started as before; one that is ENDING keeps its reason; any other stays. -/
def SessionEnds (o reason : Nat) (fast closed : Bool) (s u : State) : Prop :=
  ((s.ses o).state.alive = true → (u.ses o).state = .ending ∧ (u.ses o).reason = reason ∧ (u.ses o).closed = (closed || s.personality o == 3)
      ∧ (fast = true → (s.path o).state.started = true → (u.path o).state = .stopping)
      ∧ (fast = false → (s.path o).state.started = false → u.paths = s.paths))
  ∧ ((s.ses o).state = .ending → (u.ses o).state = .ending ∧ (u.ses o).reason = (s.ses o).reason ∧ (u.ses o).closed = ((s.ses o).closed || closed))
  ∧ ((s.ses o).state = .idle ∨ (s.ses o).state = .ended → u.ses o = s.ses o ∧ u.paths = s.paths)

/-! ### The site network -/

/-- R424, R518: the node's network is on, it takes part in it, and its clock runs; in the beacon windows of Sleep too (R83). -/
def State.beaconOn (s : State) : Bool :=
  !s.pwr.undefinedLogic && !s.pwr.held && s.pwr.opState != .boot && s.plcOn && s.plc.role != 0 && s.beaconClock

/-- R428, R584: the node sends and receives: awake, its network on, its engine not frozen. -/
def State.plcRuns (s : State) : Bool := s.ready && s.plcOn && s.plc.role != 0 && !s.isFrozen 0x21 && s.domainUp 8

/-- R434: a happening on the network: `u` satisfies `P` and differs from `s` in the listed parts only; the node then looks at every path again. -/
def NetVia (c : Instr) (s : State) (w : List Part) (P : State → Prop) : Prop := Through refreshPaths c s w P

/-- The happening does nothing of its own. -/
def NetRests (c : Instr) (s : State) : Prop := exec c s = .next (settle (refreshPaths s))

/-- R431: the frame's single block verifies as its plaintext `pl` with the nonce time `at_`, newer than the last of its originator and TYPE. -/
def BeaconVerifies (f : PlcFrame) (at_ : Nat) (pl : List Byte) (s : State) : Prop :=
  let c := FrameControl.ofBytes f.fc
  f.auth = some (at_, pl) ∧ (∃ i, f.blocks = [(i, some (sealPayload (plcKey s 1) 1 c.orig c.nid at_ pl))])
    ∧ ∀ x ∈ s.plc.times, x.1 = c.orig → x.2.1 = 1 → x.2.2 < at_

/-! ### The redundant pair -/

/-- R139, R386: a happening of the pair: `u` satisfies `P` and differs from `s` in the listed parts only, and the vehicle engines then react to `u`. -/
def PairVia (c : Instr) (s : State) (w : List Part) (P : State → Prop) : Prop := Through settleVehicles c s w P

/-- R530, first two rows and "A unit in state REFUSED never sets AUTH": this unit is to set AUTH. -/
def State.authDue (s : State) : Bool :=
  s.member && s.running && !s.pair.auth && s.pair.state != .refused
    && (if s.unitB then s.pair.ilk == .low
        else !(s.inHandoverWindow && s.pair.handover.any fun h => !h.taking)
          && (s.pair.ilk == .standby || s.pair.ilk == .low || (s.pair.linkUp && !s.pair.peerAuth)))

/-- R558: an E98 event: the state before the change and PERIOD_COUNT. -/
def Authors (cause : Nat) (s u : State) : Prop := Arose 98 cause 0xFF (toLE 1 s.pair.state.code ++ toLE 4 s.pair.periodCount.toNat) s u

/-- R530, R543, R554, R575: AUTH is set with its E98 cause. From a state that resync has not covered every energised stage is disabled; from any other nothing else changes. Every switch channel is driven to its commanded state. -/
def SetsAuth (cause : Nat) (s u : State) : Prop :=
  u.pair.auth = true ∧ u.sw.preDrive = false ∧ Authors cause s u
    ∧ (s.pair.stale = false → u.stages = s.stages ∧ u.paths = s.paths ∧ u.pair = { s.pair with
        auth := true
        state := if s.pair.state = .forming then .forming else .active
        takeovers := if cause = 3 then s.pair.takeovers else satAdd 16 s.pair.takeovers 1
        handovers := if cause = 3 then satAdd 16 s.pair.handovers 1 else s.pair.handovers })
    ∧ (s.pair.stale = true → ∀ i, i < 32 → (s.stage i).xfer ≠ .blocked → (u.stage i).outEn = false)
    ∧ (s.sw.frozen = false → s.sw.lost = false → s.sw.ch.length = 12 → ∀ n, n < 12 → s.swFollows n = false → s.swProfile n ≠ 0 →
        (u.swCh n).enabled = (s.swCh n).commanded)

/-- R530, R543, R575: AUTH is cleared, with its E98 cause where there is one, and every switch channel is driven off. -/
def ClearsAuth (cause : Option Nat) (s u : State) : Prop :=
  u.pair = { s.pair with
      auth := false, state := if s.pair.state = .active then .hot else s.pair.state
      handovers := if cause = some 2 then satAdd 16 s.pair.handovers 1 else s.pair.handovers }
    ∧ (cause = none → u.flt = s.flt) ∧ (∀ c, cause = some c → Authors c s u)
    ∧ (s.sw.frozen = false → s.sw.lost = false → ∀ n, n < 12 → (u.swCh n).enabled = false)

/-- R533, R543, R558: the pair link is down, with E97, and the pair state follows ILK_IN. -/
def LinkFalls (declared : Bool) (s u : State) : Prop :=
  let fell := (s.pair.state = .hot ∨ s.pair.state = .resync) ∧ s.pair.ilk.good = true
  u.pair = { s.pair with
      linkUp := false, linkDownAt := s.now, helloOk := false, unacked := [], periodAt := if declared then none else s.pair.periodAt
      state := if fell then .isolated
        else if s.pair.state ≠ .refused ∧ s.pair.ilk = .low then (if s.pair.auth then .active else .alone) else s.pair.state }
    ∧ Arose 97 1 0xFF [] s u ∧ (fell → Arose 102 1 0xFF (toLE 1 s.pair.state.code) s u)

/-- R536: the record is acknowledged. -/
def acknowledged (seq : Word) (s : State) : State := { s with
  outs := .mirror s.pair.recordSeq (.ack seq) (mirrorFrames s 1 s.pair.recordSeq (toLE 4 seq.toNat)) :: s.outs
  pair := { s.pair with recordSeq := s.pair.recordSeq + 1, ackedSeqs := (seq :: s.pair.ackedSeqs).take 256 } }

/-- R536: a complete record of the peer. With the link down it is not there; it is acknowledged each time, and acted on the first time only. -/
def RecordVia (c : Instr) (seq : Word) (s : State) (w : List Part) (P : State → State → Prop) : Prop :=
  (s.pair.linkUp = false → Idles c s)
  ∧ (s.pair.linkUp = true → seq ∈ s.pair.ackedSeqs → exec c s = .next (settle { acknowledged seq s with
      pair := { s.pair with recordSeq := s.pair.recordSeq + 1 } }))
  ∧ (s.pair.linkUp = true → seq ∉ s.pair.ackedSeqs → ∃ u, exec c s = .next (settle u) ∧ P (acknowledged seq s) u ∧ Kept w s u)

/-- R531, R393, R394: a change of the lease: `u` satisfies `P` and differs from `s` in the listed parts only, and AUTH in a double fault and the vehicle engines then follow it. -/
def LeaseVia (c : Instr) (s : State) (w : List Part) (P : State → Prop) : Prop := Through leaseSettled c s w P

/-- R549: this unit acquires a term, with E100, its cause and the mask of the witness that answered. -/
def Acquires (cause mask : Nat) (term : Word) (v u : State) : Prop :=
  u.pair.term = term ∧ u.pair.holderB = v.unitB ∧ u.pair.held = true ∧ u.pair.lapsed = false ∧ u.pair.expiresAt = v.now + v.leaseNs
    ∧ u.pair.renewCount = 0 ∧ u.pair.renewAt = v.now ∧ u.pair.granted = none ∧ u.pair.grantedPlc = none ∧ u.pair.proposed = none
    ∧ u.pair.witnessOk = BitVec.ofNat 3 mask ∧ u.pair.witnessedAt = (if mask = 0 then none else some v.now) ∧ u.pair.auth = v.pair.auth
    ∧ Arose 100 cause 0xFF (toLE 4 term.toNat ++ toLE 1 mask) v u

/-- R535, R546, R548: this unit learns of a higher term and of its holder; a lease of its own is superseded, with E99. -/
def LearnsTerm (term : Word) (holderB held : Bool) (v u : State) : Prop :=
  u.pair.term = term ∧ u.pair.holderB = holderB ∧ u.pair.held = (held && holderB != v.unitB) ∧ u.pair.lapsed = false
    ∧ u.pair.expiresAt = v.now + v.leaseNs ∧ u.pair.auth = v.pair.auth
    ∧ (v.leaseHere = true → Arose 99 3 0xFF (toLE 4 term.toNat) v u) ∧ (v.leaseHere = false → u.flt = v.flt)

/-- R548, R550: what this unit makes of the lease word that it reads. A unit that gives its lease up by a handover does not learn the granted term from it (R552). -/
def BoardSeen (w : BitVec 64) (v u : State) : Prop :=
  let news := hbTerm w = v.pair.term ∧ hbHolder w ≠ v.unitB ∧ hbHeld w = true ∧ hbCount w ≠ hbCount v.pair.hostWord ∧ v.leaseHere = false
  u.pair.hostWord = w
    ∧ (v.pair.term.toNat < (hbTerm w).toNat → v.givesTerm (hbTerm w) = false → LearnsTerm (hbTerm w) (hbHolder w) (hbHeld w) v u)
    ∧ (v.pair.term.toNat < (hbTerm w).toNat → v.givesTerm (hbTerm w) = true → u.pair = { v.pair with hostWord := w })
    ∧ (news → u.pair = { v.pair with
        hostWord := w, holderB := !v.unitB, held := true, expiresAt := v.now + v.leaseNs, proposed := none })
    ∧ ((hbTerm w).toNat ≤ v.pair.term.toNat → ¬ news → u.pair = { v.pair with hostWord := w })

/-- R467, R475, R476, R478: a CADDIS record: a start opens a SECONDARY transaction unless this unit's Caddis refuses it; a stop closes the open one. While an installation restarts Caddis it waits. -/
def CaddisRecord (o : Nat) (start : Bool) (ref : List Byte) (txn : Nat) (id : List Byte) (v u : State) : Prop :=
  (v.caddisBusy = true → u.met = v.met ∧ u.host.mailbox = v.host.mailbox ++ [.mirrored o start ref txn id])
    ∧ (v.caddisBusy = false → u.host.mailbox = v.host.mailbox
      ∧ (8 ≤ o → u = v)
      ∧ (o < 8 → start = true → startRefusal v o ≠ 0 → u = v)
      ∧ (o < 8 → start = true → startRefusal v o = 0 → o < v.met.ch.length → (u.chan o).isOpen = true ∧ (u.chan o).secondary = true
          ∧ (u.chan o).primaryTxn = txn ∧ (u.chan o).primaryId = id ∧ (u.chan o).sessionRef = ref ∧ ∀ k, k ≠ o → (u.chan k).isOpen = (v.chan k).isOpen)
      ∧ (o < 8 → start = false → (v.met.ready = false ∨ (v.chan o).isOpen = false) → u = v)
      ∧ (o < 8 → start = false → v.met.ready = true → (v.chan o).isOpen = true → (u.chan o).isOpen = false
          ∧ (u.chan o).lastDelivered = (v.chan o).regs.delivered - (v.chan o).startDelivered ∧ ∀ k, k ≠ o → (u.chan k).isOpen = (v.chan k).isOpen))

/-- R544: in the received image, `p` is the last part that the test picks. -/
def LastPart (s : State) (same : SnapPart → Bool) (p : SnapPart) : Prop :=
  same p = true ∧ ∃ l r f, s.pair.snapParts = l ++ (f, p) :: r ∧ ∀ q ∈ r, same q.2 = false

end Sys2Proof.Machine
end

