-- ==== Sys2Proof/Certificates/Slice0/Obligations.lean ====
section
/-! DEFINITION. The statements for the provers, each about the rules of the spec that its entry in OBLIGATIONS.json names. -/

section

open Sys2Proof Sys2Proof.Machine

/-- The step of the block: the command at the front runs, with the queue's rest waiting. The queue is the model's own (log entry 1). -/
def Obligations.StepRunsFrontCommand : Prop :=
  ∀ (c : Instr) (rest : List Instr) (s : State), s.pending = c :: rest → step s = exec c { s with pending := rest }

/-- DESIGN CHOICE of the model (log entry 2): an idle step is a tick. Device time runs whatever the controller does (R13), and R80 and R83 give the clocks of Boot. -/
def Obligations.IdleStepIsATick : Prop :=
  ∀ s : State, s.pending = [] → ∃ t, step s = .next t ∧ t.now = s.now + tickNs
    ∧ Kept [.now, .outs, .freeIx, .pwr, .host, .flt, .stages, .alloc, .paths, .pair, .acq, .met, .veh, .can, .plc, .rcd, .rings] s t
    ∧ (s.pwr.undefinedLogic = true → t = { s with now := s.now + tickNs })
    ∧ (Settled s → s.pwr.undefinedLogic = false → s.awake = false → (s.pwr.held = true ∨ s.pwr.opState ≠ .boot) → t = { s with now := s.now + tickNs })
    ∧ (Settled s → s.pwr.undefinedLogic = false → s.pwr.held = false → s.pwr.opState = .boot →
        t = { s with now := s.now + tickNs, pwr := { s.pwr with locked :=
          if s.now < s.pwr.releasedAt + 2000000 ∧ s.pwr.releasedAt + 2000000 ≤ s.now + tickNs then 0xFFF
          else if s.pwr.locked = 0 then 0x401 else s.pwr.locked } })

/-- The effect of a command is on everything but the queue of the commands that wait. Device time runs in the steps without a command (log entry 2). -/
def Obligations.QueueIsLeftAlone : Prop :=
  ∀ (c : Instr) (s t : State), exec c s = .next t → t.pending = s.pending ∧ ((∀ k st, c ≠ .watchdogExpiry k st) → t.now = s.now)

/-- R73: only after the regulated rails have left tolerance is the behaviour of the controller undefined, and the model stops; in every other state every command has an effect. -/
def Obligations.OnlySupplyFailureStops : Prop :=
  ∀ (c : Instr) (s : State), (s.pwr.undefinedLogic = false → ∃ t, exec c s = .next t)
    ∧ (∀ f, exec c s = .fault f → s.pwr.undefinedLogic = true) ∧ ∀ r, exec c s ≠ .refused r

/-- R530: in Boot and in Safe AUTH is clear. Every step keeps it so, from every state. -/
def Obligations.AuthIsClearInBootAndSafe : Prop :=
  ∀ s t : State, AuthInv s → step s = .next t → AuthInv t

/-- R98, R114, R133, R137: what arises in one step is recorded, held or counted as lost, and its messages are sent or made pending, before the next command. Every step keeps it so, from every such state. -/
def Obligations.StepsSettleTheirEvents : Prop :=
  ∀ s t : State, Settled s → step s = .next t → Settled t

/-- R530, R590 and the two invariants hold of the machine right after reset. -/
def Obligations.AuthIsClearAtReset : Prop :=
  AuthInv State.reset ∧ State.reset.pwr.opState = .boot ∧ State.reset.pair.auth = false ∧ State.reset.flt.evSeq = 0 ∧ Settled State.reset ∧ State.reset.pending = []

/-- Every reset release begins Boot with the controller registers at their reset values, its cause and the straps sampled -/
def Obligations.ResetReleaseBeginsBoot : Prop :=
  (∀ (straps : Straps) (w : WellspringRead) (s : State), s.pwr.porArmed = true → s.pwr.resetNLow = false → s.pwr.tap.testing = false → s.thm.halted = false →
      Lands (.powerOnResetRelease straps w) s (.freeIx :: controllerParts) fun t =>
        ControllerReset t ∧ t.pwr = { s.pwr.atReset with
          porArmed := false, powered := true, held := false, straps := straps, resetCause := 1, releasedAt := s.now, refExt := s.pwr.extQualified } ∧ t.key.well = w)
  ∧ (∀ (straps : Straps) (w : WellspringRead) (s : State), s.pwr.porArmed = false → Idles (.powerOnResetRelease straps w) s)
  ∧ (∀ (straps : Straps) (s : State), s.pwr.resetNLow = true → s.pwr.tap.testing = false → s.thm.halted = false →
      Lands (.resetNRelease straps) s controllerParts fun t =>
        ControllerReset t ∧ t.pwr = { s.pwr.atReset with
          resetNLow := false, powered := true, held := false, straps := straps, resetCause := 2, releasedAt := s.now, refExt := s.pwr.extQualified })
  ∧ (∀ (straps : Straps) (s : State), s.pwr.resetNLow = false → Idles (.resetNRelease straps) s)
  ∧ (∀ (core : Nat) (straps : Straps) (s : State), s.pwr.undefinedLogic = false → s.pwr.held = false → s.pwr.powerState ≠ .sleep → s.pwr.bootFailed = false →
      core < 4 → s.isFrozen (0x10 + core) = false →
      Lands (.watchdogExpiry core straps) s (.now :: controllerParts) fun t =>
        ControllerReset t ∧ t.now = s.now + 1000000 ∧ t.pwr = { s.pwr.atReset with
          powered := true, held := false, straps := straps, resetCause := 3, wdCore := some core, releasedAt := s.now + 1000000, refExt := s.pwr.extQualified })
  ∧ (∀ (straps : Straps) (x : Nat) (s : State), s.pwr.undefinedLogic = false → s.pwr.held = false → s.key.resetDue = some x → x + 10000000 ≤ s.now →
      Lands (.firmwareUpdateReset straps) s controllerParts fun t =>
        ControllerReset t ∧ t.key.bootBank = s.key.bootBank ∧ t.key.banks = s.key.banks ∧ t.pwr = { s.pwr.atReset with
          powered := true, held := false, straps := straps, resetCause := 4, releasedAt := s.now, refExt := s.pwr.extQualified })
  ∧ (∀ (temps : List Int) (straps : Straps) (s : State), s.pwr.undefinedLogic = false → s.thm.waiting = some straps → s.thm.halted = true →
      s.pwr.resetNLow = false → s.pwr.tap.testing = false → (∀ x ∈ temps, x < 950) →
      Lands (.thermalHaltRelease temps) s controllerParts fun t =>
        ControllerReset t ∧ t.thm.halted = false ∧ t.pwr = { s.pwr.atReset with
          powered := true, held := false, straps := straps, resetCause := s.pwr.resetCause, releasedAt := s.now, refExt := s.pwr.extQualified })

/-- RESET_N low, boundary scan and a thermal halt hold the controller in reset; a halted module's release waits; a failing supply leaves the unpowered module -/
def Obligations.ResetHoldsController : Prop :=
  (∀ s : State, Lands .resetNAssert s controllerParts fun t =>
      ControllerReset t ∧ t.pwr = { s.pwr.atReset with held := true, resetNLow := true } ∧ t.thm.waiting = none)
  ∧ (∀ (drive : List (Nat × Bool)) (s : State), Lands (.boundaryScan true drive) s controllerParts fun t =>
      ControllerReset t ∧ t.thm.waiting = none ∧ t.pwr = { s.pwr.atReset with
        held := true, tap := { inReset := false, testing := true, drive := drive.filter fun d => s.scanMayDrive d.1 } })
  ∧ (∀ (drive : List (Nat × Bool)) (s : State), exec (.boundaryScan false drive) s = .next (settle { s with pwr := { s.pwr with tap := {} } }))
  ∧ (∀ (x : Nat) (s : State), s.ready = true → s.thm.halting = some x →
      (4 * x + 2 * s.periodQns ≤ 4 * s.now → Lands .thermalHalt s controllerParts fun t =>
        ControllerReset t ∧ t.pwr = { s.pwr.atReset with held := true } ∧ t.thm.halted = true ∧ t.thm.haltMark = true ∧ t.thm.waiting = none)
      ∧ (4 * s.now < 4 * x + 2 * s.periodQns → Idles .thermalHalt s))
  ∧ (∀ (straps : Straps) (s : State), s.pwr.resetNLow = true → s.pwr.tap.testing = false → s.thm.halted = true →
      exec (.resetNRelease straps) s = .next (settle { s with
        pwr := { s.pwr with resetNLow := false, powered := true, undefinedLogic := false, resetCause := 2 }, thm := { s.thm with waiting := some straps } }))
  ∧ (∀ (straps : Straps) (w : WellspringRead) (s : State), s.pwr.porArmed = true → s.pwr.resetNLow = false → s.pwr.tap.testing = false → s.thm.halted = true →
      Lands (.powerOnResetRelease straps w) s (.freeIx :: controllerParts) fun t =>
        ControllerReset t ∧ t.pwr = { s.pwr.atReset with porArmed := false, powered := true, held := true, resetCause := 1 }
          ∧ t.thm.halted = true ∧ t.thm.waiting = some straps ∧ t.key.well = w)
  ∧ (∀ s : State, exec .supplyFail s = .next (settle { s with
      sw := { s.sw with beatLost := some (noneTo s.now s.sw.beatLost) }
      pwr := { s.pwr with powered := false, undefinedLogic := true, ilkOut := false, modFaultLow := true, awake := false } }))
  ∧ (∀ s : State, exec .powerOnResetRearm s = .next (settle { s with
      sw := { s.sw with beatLost := some (noneTo s.now s.sw.beatLost) }
      pwr := { s.pwr with powered := false, undefinedLogic := true, ilkOut := false, modFaultLow := true, awake := false, porArmed := true } }))

/-- Boot ends in Setup or, for a refused profile image, in Safe; with both banks bad the module stays in Boot until a reset, and a recovery load brings bank 0 -/
def Obligations.BootSequenceEnds : Prop :=
  (∀ (fw : FirmwareBoot) (s : State), s.pwr.undefinedLogic = false → s.pwr.held = false → s.pwr.opState = .boot → s.pwr.bootFailed = false → s.key.failed = false →
      bootBankOf fw s.key = none → exec (.bootSequenceComplete fw) s = .next (settle { s with pwr := { s.pwr with bootFailed := true } }))
  ∧ (∀ (fw : FirmwareBoot) (b : Nat) (s : State), s.pwr.undefinedLogic = false → s.pwr.held = false → s.pwr.opState = .boot → s.pwr.bootFailed = false →
      s.key.failed = false → bootBankOf fw s.key = some b →
      Runs (.bootSequenceComplete fw) s [.outs, .pwr, .host, .flt, .prof, .stages, .paths, .law, .lanes, .pair, .acq, .thm, .sw, .met, .key, .can, .rcd, .auth, .opState, .faults] fun t =>
        let refused := match bootProfileCause s.pwr.straps.slot (slotsUnder (slotImage (startBank b s) s.pwr.straps.slot) (startBank b s)) with
          | some (_, r) => r
          | none => false
        t.pwr.opState = (if refused then .safe else .setup) ∧ t.pwr.ilkOut = !refused ∧ t.pwr.modFaultLow = refused ∧ t.pwr.awake = true
          ∧ t.pwr.held = false ∧ t.pwr.powerState = .doze ∧ t.pwr.bootFailed = false ∧ t.key.active = b
          ∧ (refused = true → t.flt.safeCause = 0x40) ∧ Posted 120 s.pwr.resetCause 0xFF s t)
  ∧ (∀ (fw : FirmwareBoot) (s : State), s.pwr.undefinedLogic = false → s.pwr.held = true ∨ s.pwr.opState ≠ .boot ∨ s.pwr.bootFailed = true ∨ s.key.failed = true →
      Idles (.bootSequenceComplete fw) s)
  ∧ (∀ (value : Word) (package : Option (List Byte)) (s : State), s.pwr.undefinedLogic = false → s.pwr.held = false →
      s.pwr.bootFailed = true → value.getLsbD 0 = true → s.key.resetDue = none →
      let read := hostReads (s.key.rcvLo.toNat + 2 ^ 32 * s.key.rcvHi.toNat) s.key.rcvLen.toNat { s with key := { s.key with rcvStatus := recoveryStatus s.key.floor package } }
      exec (.go value package) s = .next (settle (if recoveryStatus s.key.floor package = 2 then { read with key := { read.key with
          banks := upd s.key.banks 0 fun _ => package.getD [], recovered := true, bootBank := none, active := 0, resetDue := some s.now } } else read)))
  ∧ ∀ (value : Word) (package : Option (List Byte)) (s : State), s.pwr.undefinedLogic = false →
      s.pwr.held = true ∨ s.pwr.bootFailed = false ∨ value.getLsbD 0 = false ∨ s.key.resetDue.isSome = true → Idles (.go value package) s

/-- The reference and the lock bits of the clock domains follow their events, and losing domains 2 to 5 in Operate or Safe brings Safe -/
def Obligations.ClockReferenceAndLocks : Prop :=
  (∀ s : State, s.pwr.undefinedLogic = false → exec .extRefQualified s = .next (settle { s with pwr := { s.pwr with extQualified := true, refExt := !s.pwr.held } }))
  ∧ (∀ s : State, s.pwr.undefinedLogic = false → s.pwr.refExt = true → s.pwr.held = false → s.pwr.powerState ≠ .sleep →
      Runs .extRefLost s (.pwr :: eventParts) fun t => t.pwr = { s.pwr with extQualified := false, refExt := false } ∧ Arose 121 1 1 [] s t)
  ∧ (∀ s : State, s.pwr.undefinedLogic = false → s.pwr.refExt = true → s.pwr.held = false → s.pwr.powerState = .sleep →
      exec .extRefLost s = .next (settle { s with pwr := { s.pwr with extQualified := false, refExt := false, refLost := true } }))
  ∧ (∀ s : State, s.pwr.undefinedLogic = false → s.pwr.refExt = false ∨ s.pwr.held = true →
      exec .extRefLost s = .next (settle { s with pwr := { s.pwr with extQualified := false, refExt := false } }))
  ∧ (∀ (d : Nat) (s : State), s.ready = true → isPll d = true → s.domainUp d = true → ¬ (2 ≤ d ∧ d ≤ 5) ∨ s.pwr.opState = .setup →
      Runs (.pllLockLoss d) s (.pwr :: eventParts) fun t =>
        t.pwr = { s.pwr with locked := s.pwr.locked &&& ~~~(BitVec.ofNat 12 (2 ^ d)) } ∧ t.domainUp d = false ∧ Arose 121 2 d [] s t)
  ∧ (∀ (d : Nat) (s : State), s.ready = true → 2 ≤ d → d ≤ 5 → s.domainUp d = true → s.pwr.opState = .operate →
      Runs (.pllLockLoss d) s [.outs, .freeIx, .pwr, .flt, .stages, .alloc, .paths, .law, .pair, .acq, .met, .veh, .rcd, .auth, .opState, .faults] fun t => t.pwr.opState = .safe ∧ t.pair.auth = false ∧ t.domainUp d = false
        ∧ t.pwr.ilkOut = false ∧ t.flt.safeCause = s.flt.safeCause ||| 2 ∧ Arose 121 2 d [] s t)
  ∧ (∀ (d : Nat) (s : State), s.ready = true → 2 ≤ d → d ≤ 5 → s.domainUp d = true → s.pwr.opState = .safe →
      Runs (.pllLockLoss d) s (.pwr :: .faults :: eventParts) fun t =>
        t.pwr = { s.pwr with locked := s.pwr.locked &&& ~~~(BitVec.ofNat 12 (2 ^ d)) } ∧ t.domainUp d = false
          ∧ t.flt.safeCause = s.flt.safeCause ||| 2 ∧ Arose 121 2 d [] s t)
  ∧ (∀ (d : Nat) (s : State), s.ready = true → isPll d = false ∨ s.domainUp d = false → Idles (.pllLockLoss d) s)
  ∧ (∀ (d : Nat) (s : State), s.ready = true → isPll d = true → s.domainUp d = false →
      Runs (.pllRelock d) s (.outs :: .pwr :: .host :: .faults :: eventParts) fun t =>
        t.pwr = { s.pwr with locked := s.pwr.locked ||| BitVec.ofNat 12 (2 ^ d) } ∧ t.domainUp d = true
          ∧ (t.flt.safeCause = s.flt.safeCause ∨ t.flt.safeCause = s.flt.safeCause &&& ~~~2 ∨ t.flt.safeCause = s.flt.safeCause &&& ~~~4
            ∨ t.flt.safeCause = s.flt.safeCause &&& ~~~6) ∧ (d = 6 → t.host.stalled = []) ∧ Arose 121 3 d [] s t)
  ∧ ∀ (d : Nat) (s : State), s.ready = true → isPll d = false ∨ s.domainUp d = true → Idles (.pllRelock d) s

/-- OPERATE is taken or refused with its first missing condition; Sleep is entered, left and refused as R87 to R94 say -/
def Obligations.OperateSleepAndWake : Prop :=
  (∀ (v : Word) (s : State), s.ready = true → s.domainUp 6 = true → s.pwr.opState = .setup → v.getLsbD 0 = true →
      (operateBlockOf s = 0 → Runs (.operate v) s [.pwr, .alloc, .can, .plc, .opState] fun t =>
        t.pwr = { s.pwr with opState := .operate, powerState := .doze, dozeTimer := true, dozeAt := s.now, e125Raised := false, operateAt := s.now, operateBlock := 0, firstPoll := none }
          ∧ t.alloc.latch = none ∧ t.alloc.periodCount = 0)
      ∧ (operateBlockOf s ≠ 0 → exec (.operate v) s = .next (settle { s with pwr := { s.pwr with operateBlock := operateBlockOf s } })))
  ∧ (∀ s : State, (operateBlockOf s = 1 ↔ s.ownerKey = none) ∧ (operateBlockOf s = 2 ↔ s.ownerKey.isSome = true ∧ s.prof.active = none)
      ∧ (operateBlockOf s = 3 ↔ s.ownerKey.isSome = true ∧ s.prof.active.isSome = true ∧ (s.host.evq.enable && s.host.cq.any (·.enable) && s.host.ringsRunning) = false)
      ∧ operateBlockOf s ≤ 3)
  ∧ (∀ (v : Word) (s : State), s.ready = true → s.pwr.opState ≠ .setup ∨ v.getLsbD 0 = false ∨ s.domainUp 6 = false → Idles (.operate v) s)
  ∧ (∀ s : State, s.pwr.undefinedLogic = false → s.pwr.held = false → s.pwr.bootFailed = false → s.pwr.powerState ≠ .sleep → s.domainUp 6 = true →
      exec .pwrStatusRead s = .next (settle { s with outs := .regRead 0x1000 (s.reg 0x1000) :: s.outs }))
  ∧ (∀ s : State, s.pwr.undefinedLogic = false → s.pwr.held = false → s.pwr.bootFailed = false → s.pwr.powerState = .sleep → s.pwr.wakeEn.getLsbD 8 = true →
      exec .pwrStatusRead s = .next (settle (emit (.regRead 0x1000 ((wakeUp 0x100 s).reg 0x1000)) (wakeUp 0x100 s))))
  ∧ (∀ s : State, s.pwr.undefinedLogic = false → (s.pwr.held = true ∨ s.pwr.bootFailed = true ∨ (s.pwr.powerState = .sleep ∧ s.pwr.wakeEn.getLsbD 8 = false)
      ∨ (s.pwr.powerState ≠ .sleep ∧ s.domainUp 6 = false)) → Idles .pwrStatusRead s)
  ∧ (∀ (mask : BitVec 10) (s : State), (wakeUp mask s).pwr = { s.pwr with
      powerState := .doze, awake := true, dozeTimer := true, dozeAt := s.now, wakeCause := mask, locked := 0xFFF, e125Raised := false, refLost := false }
      ∧ (wakeUp mask s).pwr.opState = s.pwr.opState)
  ∧ (∀ (l1 : Bool) (s : State), s.ready = true → s.pwr.opState = .operate → s.pwr.powerState = .doze → s.pwr.sleepN = false → s.dozedOut = true →
      let noted := { s with host := { s.host with aspmL1 := l1 } }
      (sleepBlock noted = none → Runs (.sleepDelayExpiry l1) s [.outs, .pwr, .host, .rings, .lanes, .plc] fun t =>
        t.pwr = { s.pwr with powerState := .sleep, awake := false, dozeTimer := false, sleepAt := s.now, lockedAwake := s.pwr.locked, locked := 0x401 })
      ∧ ∀ c, sleepBlock noted = some c →
        (s.pwr.e125Raised = false → Runs (.sleepDelayExpiry l1) s (.pwr :: .host :: .rings :: eventParts) fun t =>
            t.pwr = { s.pwr with e125Raised := true } ∧ t.host = noted.host ∧ Arose 125 c 0xFF [] s t)
        ∧ (s.pwr.e125Raised = true → exec (.sleepDelayExpiry l1) s = .next (settle noted)))
  ∧ (∀ (l1 : Bool) (s : State), s.ready = true → (s.pwr.opState ≠ .operate ∨ s.pwr.powerState ≠ .doze ∨ s.pwr.sleepN = true ∨ s.dozedOut = false) →
      exec (.sleepDelayExpiry l1) s = .next (settle { s with host := { s.host with aspmL1 := l1 } }))
  ∧ (∀ (l1 : Bool) (s : State), s.ready = true → exec (.sleepNLow l1) s = exec (.sleepDelayExpiry l1) { s with pwr := { s.pwr with sleepN := false } })
  ∧ (∀ (l1 : Bool) (s : State), s.pwr.undefinedLogic = false → s.awake = false → exec (.sleepNLow l1) s = .next (settle { s with pwr := { s.pwr with sleepN := false } }))
  ∧ (∀ (mask : BitVec 10) (stopped : Bool) (s : State), s.pwr.undefinedLogic = false →
      let raised := if mask.getLsbD 9 then { s with pwr := { s.pwr with sleepN := true } } else s
      (s.pwr.held = false → s.pwr.powerState = .sleep → wakeMask mask s ≠ 0 →
        exec (.wakeSourceAssert mask stopped) s = .next (settle (if stopped then wakeUp (wakeMask mask s) raised else backToDoze raised)))
      ∧ (s.pwr.held = true ∨ s.pwr.powerState ≠ .sleep ∨ wakeMask mask s = 0 → exec (.wakeSourceAssert mask stopped) s = .next (settle raised)))
  ∧ (∀ (block : Option (List Byte)) (s : State), s.pwr.undefinedLogic = false → s.pwr.held = false → s.pwr.opState ≠ .boot → pollDue s = true → s.anyArmed = false →
      let noted := { s with pwr := { s.pwr with firstPoll := some (s.pwr.firstPoll.getD s.now), fetchAt := s.now } }
      (s.pwr.powerState ≠ .sleep → exec (.slowPollTick block) s = .next (settle (pollDoorbell block noted)))
      ∧ (s.pwr.powerState = .sleep → Runs (.slowPollTick block) s [.outs, .freeIx, .pwr, .host, .flt, .stages, .alloc, .paths, .lanes, .pair, .acq, .thm, .sw, .met, .veh, .can, .plc, .rcd, .auth, .rings] fun t => t.pwr.wakeCause = 0x40
          ∧ (t.pwr.powerState = .doze ∨ t.pwr.powerState = .sleep)
          ∧ ((∃ b, block = some b ∧ (s.host.ringsRunning && tailsChanged b s) = true) → t.pwr.powerState = .doze)))
  ∧ ∀ (block : Option (List Byte)) (s : State), s.pwr.undefinedLogic = false → s.pwr.held = true ∨ s.pwr.opState = .boot ∨ pollDue s = false ∨ s.anyArmed = true →
      Idles (.slowPollTick block) s

/-- An event that has arisen becomes a record of the event ring, is held or is lost; a completion becomes a record of its completion ring -/
def Obligations.RecordsReachTheHost : Prop :=
  (∀ (src cause inst : Nat) (payload : List Byte) (s : State),
      Arose src cause inst payload s (raise src cause inst payload s) ∧ Kept eventParts s (raise src cause inst payload s))
  ∧ (∀ (e : Arising) (s : State), s.flt.arising = [e] → s.host.msgs = [] →
      (settle s).flt.evSeq = s.flt.evSeq + 1 ∧ Settled (settle s)
      ∧ (s.host.evq.canTake = true → s.host.evq.heldRecs = [] → s.domainUp 6 = true →
          (settle s).host.evq.tail = (s.host.evq.tail + 1) % (2 * s.host.evq.size)
          ∧ ∃ (rest : List Out) (rec : List Byte), (settle s).outs
              = rest ++ .hostWrite (s.host.evq.baseLo.toNat + 2 ^ 32 * s.host.evq.baseHi.toNat + 32 * (s.host.evq.tail % s.host.evq.size)) rec :: s.outs
            ∧ rec.length = 32 ∧ u32 rec 0 = s.flt.evSeq.toNat ∧ byteAt rec 4 = BitVec.ofNat 8 (s.deviceAddr + 128 * b2n (c0Event e.src))
            ∧ byteAt rec 5 = BitVec.ofNat 8 e.src ∧ byteAt rec 6 = BitVec.ofNat 8 e.cause ∧ byteAt rec 7 = BitVec.ofNat 8 e.inst
            ∧ byteAt rec 31 = (if s.host.evq.tail / s.host.evq.size % 2 = 0 then 0x80 else 0x00))
      ∧ (s.host.evq.canTake = false ∨ s.host.evq.heldRecs ≠ [] → s.host.evq.heldRecs.length < 256 →
          (settle s).host.evq = { s.host.evq with heldRecs := s.host.evq.heldRecs ++ [eventRecord s e] } ∧ (settle s).outs = s.outs)
      ∧ (s.host.evq.canTake = false ∨ s.host.evq.heldRecs ≠ [] → 256 ≤ s.host.evq.heldRecs.length →
          (settle s).host.evq = { s.host.evq with lost := satAdd 32 s.host.evq.lost 1, lostNow := satAdd 32 s.host.evq.lostNow 1 } ∧ (settle s).outs = s.outs))
  ∧ (∀ (d : Desc) (status result : Nat) (s : State), s.host.ringsRunning = true → s.host.muted = false → s.domainUp 6 = true →
      (s.cq (s.sq d.ring).cq).enable = true →
      ∃ rec : List Byte, (completeDesc d status result s).outs
          = .hostWrite ((s.cq (s.sq d.ring).cq).baseLo.toNat + 2 ^ 32 * (s.cq (s.sq d.ring).cq).baseHi.toNat + 16 * (s.cq (s.sq d.ring).cq).index) rec :: s.outs
        ∧ rec.length = 16 ∧ byteAt rec 0 = BitVec.ofNat 8 (s.deviceAddr + 128 * b2n (s.cq (s.sq d.ring).cq).phase)
        ∧ byteAt rec 1 = BitVec.ofNat 8 status ∧ byteAt rec 2 = BitVec.ofNat 8 d.tag.toNat ∧ byteAt rec 3 = BitVec.ofNat 8 d.ring
        ∧ u16 rec 4 = d.seq.toNat
        ∧ (completeDesc d status result s).host.msgs = s.host.msgs ++ (if d.silent then [] else [((s.sq d.ring).cq, (s.cq (s.sq d.ring).cq).vector)])
        ∧ ((s.sq d.ring).cq < s.host.cq.length → ((completeDesc d status result s).cq (s.sq d.ring).cq).index
            = (if (s.cq (s.sq d.ring).cq).index + 1 = 2 ^ (s.cq (s.sq d.ring).cq).sizeLog2 then 0 else (s.cq (s.sq d.ring).cq).index + 1)))
  ∧ ∀ (d : Desc) (status result : Nat) (s : State), (s.cq (s.sq d.ring).cq).enable = false ∨ s.host.ringsRunning = false ∨ s.host.muted = true →
      completeDesc d status result s = s

/-- A fetched descriptor meets the checks in their order, and the first that fails gives its status -/
def Obligations.DescriptorChecksInOrder : Prop :=
  ∀ (op : OpInfo) (eff : Desc → State → Answer) (d : Desc) (s : State),
    (opcodeDefined d.opcode.toNat = true → d.opcode.toNat ≠ op.code → runDesc op eff d s = s)
    ∧ (d.opcode.toNat = op.code → (s.sq d.ring).waiting = some d → ringBusy s d.ring d.tag = true → runDesc op eff d s = s)
    ∧ (opcodeDefined d.opcode.toNat = false ∨ d.opcode.toNat = op.code → (s.sq d.ring).waiting ≠ some d →
      (canFetch s d.ring = false → runDesc op eff d s = s)
      ∧ (canFetch s d.ring = true → d.seq ≠ (s.sq d.ring).expSeq → Posted 113 1 d.ring s (runDesc op eff d s)
          ∧ (runDesc op eff d s).host.sq = upd s.host.sq d.ring (fun q => { q with state := .error, hold := none, claim := none })
          ∧ Kept (.host :: .rings :: eventParts) s (runDesc op eff d s))
      ∧ (canFetch s d.ring = true → d.seq = (s.sq d.ring).expSeq →
        (d.devAddr.toNat ≠ s.deviceAddr → runDesc op eff d s = completeDesc d 0x07 0 (takeDesc d.ring s))
        ∧ (d.devAddr.toNat = s.deviceAddr → rsvBitsOk op d = false → runDesc op eff d s = completeDesc d 0x04 0 (takeDesc d.ring s))
        ∧ (d.devAddr.toNat = s.deviceAddr → rsvBitsOk op d = true → opcodeDefined d.opcode.toNat = false →
            runDesc op eff d s = completeDesc d 0x05 0 (takeDesc d.ring s))
        ∧ (d.devAddr.toNat = s.deviceAddr → rsvBitsOk op d = true → opcodeDefined d.opcode.toNat = true →
            (d.cls.toNat ≠ ringClass d.ring ∨ (∃ c, op.cls = some c ∧ d.cls.toNat ≠ c) → runDesc op eff d s = completeDesc d 0x06 0 (takeDesc d.ring s))
            ∧ (d.cls.toNat = ringClass d.ring → (∀ c, op.cls = some c → d.cls.toNat = c) →
                (tagRangeOk s d = false → runDesc op eff d s = completeDesc d 0x0A 0 (takeDesc d.ring s))
                ∧ (tagRangeOk s d = true → tagInFlight s d.tag = true →
                    (ringClass d.ring = 0 → runDesc op eff d s = completeDesc d 0x0B 0 (takeDesc d.ring s))
                    ∧ (ringClass d.ring ≠ 0 → Arose 115 1 d.ring (toLE 1 d.tag.toNat) s (runDesc op eff d s)
                        ∧ (runDesc op eff d s).host.sq = upd s.host.sq d.ring (fun q => { q with hold := some d.tag })
                        ∧ Kept (.host :: .rings :: eventParts) s (runDesc op eff d s)))
                ∧ (tagRangeOk s d = true → tagInFlight s d.tag = false →
                    (ringClass d.ring = 0 → (((takeDesc d.ring s).modSq d.ring (refill s.now)).sq d.ring).bucket < million →
                        runDesc op eff d s = completeDesc d 0x01 0 (refuseToken d.ring ((takeDesc d.ring s).modSq d.ring (refill s.now))))
                    ∧ (ringClass d.ring ≠ 0 ∨ million ≤ (((takeDesc d.ring s).modSq d.ring (refill s.now)).sq d.ring).bucket →
                        runDesc op eff d s =
                          if d.barrier && ringBusy (paid d s) d.ring d.tag then (startOp d .waiting (paid d s)).modSq d.ring fun q => { q with waiting := some d }
                          else match bodyChecks op d (paid d s) with
                            | some (st, r) => completeDesc d st r (paid d s)
                            | none => executeDesc op eff d (paid d s)))))))
    ∧ (stateOk op s = false → bodyChecks op d s = some (0x12, 0))
    ∧ (stateOk op s = true →
        (op.acc = .authority → s.acceptsA = false → bodyChecks op d s = some (0x0D, 0))
        ∧ (op.acc = .token → s.leaseHere = false → bodyChecks op d s = some (0x0C, s.holderAddr))
        ∧ ((op.acc = .authority → s.acceptsA = true) → (op.acc = .token → s.leaseHere = true) →
            bodyChecks op d s = if op.target s d = false then some (0x08, 0) else if op.range s d = false then some (0x09, op.rangeResult d) else none))

/-- In a formed pair a class A or T descriptor is mirrored, and a halt, resume, cap, session, policy or injection takes effect at its tick -/
def Obligations.MirroredDescriptorsWaitForTheTick : Prop :=
  ∀ (op : OpInfo) (eff : Desc → State → Answer) (d : Desc) (s : State), passesChecks op d s = true → op.acc ≠ .unit → (fetched d s).paired = true →
    (∀ st r, (eff d (fetched d s)).2 = some (st, r) → st = stOk ∨ st = stDeferred →
      (atTick d.opcode.toNat = true → ∃ u, runDesc op eff d s = completeDesc d st r u ∧ Kept [.outs, .pair] (fetched d s) u
          ∧ u.pair.effects = s.pair.effects ++ [((fetched d s).effectTick d.opcode.toNat, d)]
          ∧ ∃ frames, u.outs = .mirror s.pair.recordSeq (.descriptor d st ((fetched d s).effectTick d.opcode.toNat)) frames :: (fetched d s).outs)
      ∧ (atTick d.opcode.toNat = false → runDesc op eff d s = mirrorDesc d st (completeDesc d st r (eff d (fetched d s)).1)))
    ∧ (∀ st r, (eff d (fetched d s)).2 = some (st, r) → st ≠ stOk → st ≠ stDeferred →
        runDesc op eff d s = completeDesc d st r (eff d (fetched d s)).1)
    ∧ ((eff d (fetched d s)).2 = none → runDesc op eff d s = mirrorDesc d 0 (eff d (fetched d s)).1)

/-- RINGS_GO, ARM_RING, RING_RESET, a released tag and a PCIe reset change the rings as the state machine says -/
def Obligations.RingsStartAndStop : Prop :=
  (∀ (d : Desc) (s : State), admits nopInfo d s = true → Finishes (.nop d) d s stOk 0 [] fun u => u = fetched d s)
  ∧ (∀ (d : Desc) (s : State), admits armInfo d s = true → Finishes (.armRing d) d s stOk 0 [.host, .rings] fun u =>
      u.host = { (fetched d s).host with
        sq := upd (fetched d s).host.sq d.ix fun q =>
          if d.b 8 = 1 ∧ q.state = .enabled then { q with state := .armed }
          else if d.b 8 = 0 ∧ q.state = .armed then { q with state := .enabled } else q })
  ∧ (∀ (d : Desc) (s : State), admits ringResetInfo d s = true → Finishes (.ringReset d) d s stOk 0 [.host, .rings] fun u =>
      (u.sq d.ix).state = .enabled ∧ (u.sq d.ix).head = { index := bits (d.h 8) 0 12, wrap := bitOf (d.h 8) 12 }
        ∧ (u.sq d.ix).expSeq.toNat = d.h 10 ∧ (u.sq d.ix).hold = none ∧ (u.sq d.ix).bucket = (u.sq d.ix).burst * 1000000
        ∧ ∀ n, n ≠ d.ix → u.sq n = (fetched d s).sq n)
  ∧ (∀ (n : Nat) (t : BitVec 7) (s : State), s.ready = true → (s.sq n).hold = some t →
      (tagInFlight s t = false → (∀ m, m < n → (s.sq m).hold ≠ some t) → (∀ m, m < n ∨ m < 16 → (s.sq m).claim ≠ some t) →
        exec (.tagWaitResume n) s = .next (settle { s with host := { s.host with sq := upd s.host.sq n fun q => { q with hold := none, claim := some t } } }))
      ∧ (tagInFlight s t = true ∨ (∃ m, m < n ∧ ((s.sq m).hold = some t ∨ (s.sq m).claim = some t)) ∨ (∃ m, m < 16 ∧ (s.sq m).claim = some t) →
        Idles (.tagWaitResume n) s))
  ∧ (∀ (n : Nat) (s : State), s.ready = true → (s.sq n).hold = none → Idles (.tagWaitResume n) s)
  ∧ (∀ (v : Word) (s : State), s.ready = true → s.domainUp 6 = true →
      (v.getLsbD 0 = true → s.host.ringsRunning = false →
        Runs (.ringsGo v) s [.host, .rings] fun t => t.host.ringsRunning = true ∧ t.host.hifOpen = false ∧ t.host.c0Tags = c0TagsOf s.host.sq
          ∧ t.host.evq.started = s.host.evq.enable ∧ ∀ n,
            ((s.sq n).enable = true → (t.sq n).state = .enabled ∧ (t.sq n).head = {} ∧ (t.sq n).tail = {} ∧ (t.sq n).expSeq = 0
              ∧ (t.sq n).bucket = (s.sq n).burst * 1000000)
            ∧ ((s.sq n).enable = false → (t.sq n).state = .disabled))
      ∧ (v.getLsbD 0 = false ∨ s.host.ringsRunning = true → Idles (.ringsGo v) s))
  ∧ (∀ s : State, s.pwr.undefinedLogic = false → s.pwr.held = false →
      (s.pwr.opState ≠ .boot → Runs .pcieReset s (.host :: .rings :: .can :: .plc :: eventParts) fun t => t.host.ringsRunning = false ∧ t.host.hifOpen = true
        ∧ t.host.sq = s.host.sq.map resetSq ∧ (∀ n, (t.sq n).state = .disabled ∧ (t.sq n).enable = false) ∧ t.host.cq = List.replicate 16 {} ∧ t.host.c0Tags = s.host.c0Tags
        ∧ t.host.pairId = s.host.pairId ∧ (∀ i ∈ t.host.inflight, i.discard = true) ∧ t.host.inflight.length = s.host.inflight.length
        ∧ Posted 117 3 0xFF s t)
      ∧ (s.pwr.opState = .boot → exec .pcieReset s = .next (settle { s with host := { s.host with endpointReady := false, perstAt := s.now } })))
  ∧ (∀ (g w r : Nat) (s : State), s.pwr.undefinedLogic = false → s.pwr.held = false →
      (2 ≤ g → g ≤ 4 → w = 1 ∨ w = 2 ∨ w = 4 → Runs (.pcieLinkUp g w r) s (.host :: .rings :: eventParts) fun t =>
        t.host = { s.host with linkGen := g, linkWidth := w, maxRead := r, endpointReady := true } ∧ Arose 117 1 0xFF (toLE 1 g ++ toLE 1 w) s t)
      ∧ (g < 2 ∨ 4 < g ∨ (w ≠ 1 ∧ w ≠ 2 ∧ w ≠ 4) → Idles (.pcieLinkUp g w r) s))
  ∧ (∀ s : State, s.pwr.undefinedLogic = false → s.pwr.held = false →
      Runs .pcieLinkDown s (.host :: .rings :: eventParts) fun t => t.host = { s.host with linkGen := 0, linkWidth := 0 } ∧ Arose 117 2 0xFF [0, 0] s t)
  ∧ ∀ (g w r : Nat) (s : State), s.pwr.undefinedLogic = false → s.pwr.held = true → Idles .pcieReset s ∧ Idles (.pcieLinkUp g w r) s ∧ Idles .pcieLinkDown s

/-- A doorbell fetch is issued, completes or fails as R110 says, held event records drain in order, and counted events are raised when their second has ended -/
def Obligations.DoorbellsAndEventQueue : Prop :=
  (∀ s : State, s.ready = true →
      (s.host.ringsRunning = true → s.anyArmed = true → s.host.fetching = false → s.domainUp 6 = true → s.pwr.fetchAt + 1000 ≤ s.now →
        exec .doorbellFetch s = .next (settle (hostReads (s.host.dbBaseLo.toNat + 2 ^ 32 * s.host.dbBaseHi.toNat) 64
          { s with host := { s.host with fetching := true }, pwr := { s.pwr with fetchAt := s.now } })))
      ∧ (s.host.ringsRunning = false ∨ s.anyArmed = false ∨ s.host.fetching = true ∨ s.domainUp 6 = false ∨ s.now < s.pwr.fetchAt + 1000 →
        Idles .doorbellFetch s))
  ∧ (∀ (block : List Byte) (s : State), s.ready = true → s.host.fetching = true →
      Runs (.doorbellFetchComplete block) s (.outs :: .host :: .rings :: eventParts) fun t => t.host.fetching = false ∧ t.host.failRun = false
        ∧ ∀ n, n < 16 → n < s.host.sq.length → ((s.sq n).state = .enabled ∨ (s.sq n).state = .armed) → s.isFrozen n = false →
            (u16 block (2 * n) < 2 ^ 13 → u16 block (2 * n) % 4096 < ringSize (s.sq n) →
              ringDistance (ringSize (s.sq n)) (s.sq n).head { index := u16 block (2 * n) % 4096, wrap := bitOf (u16 block (2 * n)) 12 } ≤ ringSize (s.sq n) →
              t.sq n = { s.sq n with tail := { index := u16 block (2 * n) % 4096, wrap := bitOf (u16 block (2 * n)) 12 } })
            ∧ (2 ^ 13 ≤ u16 block (2 * n) ∨ ringSize (s.sq n) ≤ u16 block (2 * n) % 4096
                ∨ ringSize (s.sq n) < ringDistance (ringSize (s.sq n)) (s.sq n).head { index := u16 block (2 * n) % 4096, wrap := bitOf (u16 block (2 * n)) 12 } →
              (t.sq n).state = .error ∧ Posted 113 2 n s t))
  ∧ (∀ (timedOut : Bool) (s : State), s.ready = true → s.host.fetching = true →
      Runs (.doorbellFetchTimeout timedOut) s (.host :: .rings :: eventParts) fun t =>
        t.host = { s.host with fetching := false, failRun := true, aer := if timedOut then s.host.aer ||| 0x4000 else s.host.aer }
        ∧ (if s.host.failRun then t.flt = s.flt else Arose 116 1 0xFF [if timedOut then 2 else 1] s t))
  ∧ (∀ (block : List Byte) (timedOut : Bool) (s : State), s.ready = true → s.host.fetching = false →
      Idles (.doorbellFetchComplete block) s ∧ Idles (.doorbellFetchTimeout timedOut) s)
  ∧ (∀ s : State, s.ready = true → (s.host.evq.heldRecs = [] → s.host.evq.lostNow = 0 → Idles .eventQueueDrain s) ∧ (s.host.evq.canTake = false → Idles .eventQueueDrain s))
  ∧ (∀ (rec : List Byte) (s : State), s.ready = true → s.domainUp 6 = true → s.host.evq.canTake = true → s.host.evq.heldRecs = [rec] → s.host.evq.lostNow = 0 →
      Runs .eventQueueDrain s [.outs, .host] fun t => t.host.evq.heldRecs = [] ∧ t.host.evq.tail = (s.host.evq.tail + 1) % (2 * s.host.evq.size)
        ∧ t.outs = .hostWrite (s.host.evq.baseLo.toNat + 2 ^ 32 * s.host.evq.baseHi.toNat + 32 * (s.host.evq.tail % s.host.evq.size))
            (rec.take 31 ++ [if s.host.evq.tail / s.host.evq.size % 2 = 0 then 0x80 else 0x00]) :: s.outs)
  ∧ (∀ s : State, s.ready = true → Settled s → Lands .coalesceTimerExpiry s [.outs, .host, .flt, .can, .plc] fun t => t.host.evq.unsignalled = false)
  ∧ (∀ s : State, s.ready = true → Runs .eventSecondTick s eventParts fun t => t.flt.counts = (s.flt.counts.filter fun c => s.now / 10 ^ 9 ≤ c.2)
      ∧ ∀ c ∈ s.flt.counts, c.2 < s.now / 10 ^ 9 → Arose c.1.1 c.1.2.1 c.1.2.2.1 (toLE 4 c.1.2.2.2) s t)

/-- SAFE_ENTER, SAFE_EXIT, bus violations and RELEASE_MASTER set and clear Safe and the freeze bits -/
def Obligations.SafeAndFrozenMasters : Prop :=
  (∀ (d : Desc) (s : State), admits safeEnterInfo d s = true → Finishes (.safeEnter d) d s stOk 0 [.outs, .freeIx, .pwr, .host, .flt, .stages, .alloc, .paths, .law, .pair, .acq, .met, .veh, .rcd, .auth, .opState, .rings, .faults] fun u =>
      u.pwr.opState = .safe ∧ u.flt.safeCause = s.flt.safeCause ||| 1 ∧ u.pair.auth = false ∧ u.pwr.ilkOut = false ∧ u.pwr.modFaultLow = true
      ∧ u.pwr.safeFromOperate = true)
  ∧ (∀ (b : Nat) (s : State), (clearExitCauses s).flt.safeCause.getLsbD b
      = (s.flt.safeCause.getLsbD b && !((b == 0 || b == 3 || b == 4) && !s.flt.causeAt.any fun c => c.1 == b && c.2 == s.now)))
  ∧ (∀ (d : Desc) (s : State), admits safeExitInfo d s = true →
      ((clearExitCauses s).flt.safeCause = 0 → s.pathsSafe = true → Finishes (.safeExit d) d s stOk 0 [.outs, .freeIx, .pwr, .host, .flt, .stages, .alloc, .paths, .pair, .acq, .sw, .rcd, .auth, .opState, .rings, .faults] fun u =>
          u.flt.safeCause = 0 ∧ u.pwr.opState = (if s.pwr.safeFromOperate then .operate else .setup) ∧ u.pwr.powerState = .doze ∧ u.pwr.ilkOut = true
            ∧ u.pwr.modFaultLow = false)
      ∧ ((clearExitCauses s).flt.safeCause ≠ 0 →
          Finishes (.safeExit d) d s stState (lowestBit (clearExitCauses s).flt.safeCause.toNat 7 + 1) [.flt, .faults] fun u =>
            u.flt = { s.flt with safeCause := (clearExitCauses s).flt.safeCause })
      ∧ ((clearExitCauses s).flt.safeCause = 0 → s.pathsSafe = false →
          Finishes (.safeExit d) d s stState 8 [.flt, .faults] fun u => u.flt = { s.flt with safeCause := 0 }))
  ∧ (∀ (a : Access) (tag : Option (BitVec 7)) (s : State), s.ready = true →
      (masterExists a.master = true → s.isFrozen a.master = false → windowAllows s a.master a.write a.target = false →
        Runs (.masterViolation a tag) s [.outs, .freeIx, .pwr, .host, .flt, .stages, .alloc, .paths, .law, .pair, .acq, .met, .veh, .plc, .rcd, .auth, .opState, .rings, .faults] fun t => t.isFrozen a.master = true ∧ t.flt.violMaster = a.master ∧ t.flt.violAddr = a.addr
          ∧ t.flt.violKind = (if a.write then (if windowAllows s a.master false a.target then 3 else 2) else 1) ∧ t.flt.violCount = min 65535 (s.flt.violCount + 1)
          ∧ Posted 114 1 a.master s t
          ∧ (0x10 ≤ a.master → a.master ≤ 0x13 → t.flt.safeCause = s.flt.safeCause ||| 4 ∧ (s.running = true → t.pwr.opState = .safe ∧ t.pair.auth = false))
          ∧ (a.master < 16 → t.pwr = s.pwr ∧ t.stages = s.stages ∧ t.paths = s.paths ∧ t.pair = s.pair))
      ∧ (masterExists a.master = false ∨ s.isFrozen a.master = true ∨ windowAllows s a.master a.write a.target = true → Idles (.masterViolation a tag) s))
  ∧ (∀ (d : Desc) (s : State), admits releaseInfo d s = true →
      (s.isFrozen d.ix = true → s.flt.freezeAt.contains (d.ix, s.now) = false → Finishes (.releaseMaster d) d s stOk 0 [.outs, .freeIx, .host, .flt, .stages, .alloc, .paths, .pair, .acq, .met, .veh, .rcd, .rings, .faults] fun u =>
        u.isFrozen d.ix = false ∧ (∀ m, m ≠ d.ix → u.isFrozen m = s.isFrozen m) ∧ Posted 114 2 d.ix s u)
      ∧ (s.isFrozen d.ix = false ∨ s.flt.freezeAt.contains (d.ix, s.now) = true → Finishes (.releaseMaster d) d s stState 0 [] fun u => u = fetched d s))

/-- Ethernet frames go out and come in through posted buffers; links, PTP messages and civil seconds change what R99 to R102 say -/
def Obligations.EthernetAndCivilSeconds : Prop :=
  (∀ (d : Desc) (s : State), admits ethSendInfo d s = true →
      (∀ frame, d.input = some frame → Finishes (.ethSend d) d s stOk 0 [.outs] fun u =>
        u.outs = if s.ethRuns d.ix then .eth d.ix (padTo (d.h 24) frame) :: (fetched d s).outs else (fetched d s).outs)
      ∧ (d.input = none → Finishes (.ethSend d) d s stBuffer 0 [] fun u => u = fetched d s))
  ∧ (∀ (d : Desc) (s : State), admits ethReceiveInfo d s = true →
      (s.posted d.ix < 8 → Starts (.ethReceive d) d s [.host, .rings] fun t => t = startOp d (.ethReceive d.ix (d.q 16) (d.h 24)) (fetched d s))
      ∧ (8 ≤ s.posted d.ix → Finishes (.ethReceive d) d s stBusy 0 [] fun u => u = fetched d s))
  ∧ (∀ (port : Nat) (frame : List Byte) (s : State), s.ready = true →
      (port < 2 → s.ethRuns port = true → s.posted port = 0 → exec (.ethFrameReceive port frame) s = .next (settle { s with host := { s.host with
        eth := upd s.host.eth port fun e => { e with drops := satAdd 16 e.drops 1 } } }))
      ∧ (2 ≤ port ∨ s.ethRuns port = false → Idles (.ethFrameReceive port frame) s))
  ∧ (∀ (port addr len : Nat) (i : InFlight) (frame : List Byte) (s : State), s.ready = true → port < 2 → s.ethRuns port = true →
      s.host.inflight.find? (fun i => isReceive port i.op) = some i → i.op = .ethReceive port addr len →
      (len < frame.length → exec (.ethFrameReceive port frame) s = .next (settle { s with host := { s.host with
        eth := upd s.host.eth port fun e => { e with drops := satAdd 16 e.drops 1 } } }))
      ∧ (frame.length ≤ len → i.discard = true → exec (.ethFrameReceive port frame) s = .next (settle { s with host := { s.host with
        inflight := s.host.inflight.eraseP fun i => isReceive port i.op } }))
      ∧ (frame.length ≤ len → i.discard = false → s.host.ringsRunning = true → s.host.muted = false → s.domainUp 6 = true → port < s.host.eth.length →
        ∃ u, exec (.ethFrameReceive port frame) s
            = .next (settle (complete i.ring i.tag i.seq i.silent i.startedAt stOk (frame.length + 65536 * (nth s.host.eth port).drops) u))
          ∧ u.outs = .hostWrite addr frame :: s.outs ∧ (nth u.host.eth port).drops = 0
          ∧ u.host.inflight = s.host.inflight.eraseP fun i => isReceive port i.op))
  ∧ (∀ (port : Nat) (s : State), s.ready = true → port < 2 → (nth s.host.eth port).mode ≠ 0 →
      ((nth s.host.eth port).linkUp = false → Runs (.ethLinkUp port) s (.host :: .rings :: eventParts) fun t =>
          t.host.eth = upd s.host.eth port (fun e => { e with linkUp := true }) ∧ Posted 76 1 port s t)
      ∧ ((nth s.host.eth port).linkUp = true → Runs (.ethLinkDown port) s (.host :: .rings :: eventParts) fun t =>
          t.host.eth = upd s.host.eth port (fun e => { e with linkUp := false }) ∧ Posted 76 2 port s t))
  ∧ (∀ (port : Nat) (s : State), s.ready = true →
      (2 ≤ port ∨ (nth s.host.eth port).mode = 0 ∨ (nth s.host.eth port).linkUp = true → Idles (.ethLinkUp port) s)
      ∧ (2 ≤ port ∨ (nth s.host.eth port).mode = 0 ∨ (nth s.host.eth port).linkUp = false → Idles (.ethLinkDown port) s))
  ∧ (∀ (port : Nat) (tr : PtpTransport) (locked : Bool) (s : State), s.ready = true → s.ptpPort = some port → s.ethRuns port = true →
      (∀ utc, exec (.ptpMessageReceive port tr (.announce utc) locked) s = .next (settle { s with host := { s.host with ptp := { s.host.ptp with utcOffset := some utc } } }))
      ∧ (∀ seq origin corr ingress utc, s.host.ptp.utcOffset = some utc →
          let down := ptpStamp ingress + 10 * s.civil + 10000000000 * utc - origin - corr
          let offset := divRound (down - s.host.ptp.delay) 10
          Runs (.ptpMessageReceive port tr (.sync seq false origin corr ingress) locked) s [.outs, .host, .flt, .acq, .civil, .rcd, .rings] fun t =>
            t.host.ptpLocked = locked ∧ t.host.ptp.down = down ∧ t.host.ptp.reqSeq = (s.host.ptp.reqSeq + 1) % 65536
            ∧ (∃ rest, t.outs = rest ++ .ptpDelayReq port ((s.host.ptp.reqSeq + 1) % 65536) :: s.outs)
            ∧ t.host.ptpExceeded = decide (s.host.ptpLimitNs < offset.natAbs)
            ∧ (t.host.ptpExceeded ≠ s.host.ptpExceeded → Posted 77 (if t.host.ptpExceeded then 1 else 2) port s t)
            ∧ t.civil = (if (nth s.host.eth port).civilFromPtp && locked then s.civil - offset else s.civil))
      ∧ (∀ t3 seq receive corr utc, s.host.ptp.utcOffset = some utc → s.host.ptp.egress = some t3 → seq = s.host.ptp.reqSeq →
          exec (.ptpMessageReceive port tr (.delayResp seq receive corr) locked) s = .next (settle { s with host := { s.host with
            ptp := { s.host.ptp with egress := none, delay := divRound (s.host.ptp.down + (receive - corr - t3)) 2 } } })))
  ∧ (∀ (port : Nat) (tr : PtpTransport) (m : PtpMsg) (locked : Bool) (s : State), s.ready = true → s.ptpPort ≠ some port ∨ s.ethRuns port = false →
      Idles (.ptpMessageReceive port tr m locked) s)
  ∧ ∀ s : State, s.ready = true →
      (((s.now : Int) + s.civil) % 10 ^ 9 < 1000 → exec .civilSecond s = .next (settle { s with
        outs := .contact 0 true :: s.outs, host := { s.host with ppsCount := s.host.ppsCount + 1, ppsUntil := some (s.now + 100000000) } }))
      ∧ (1000 ≤ ((s.now : Int) + s.civil) % 10 ^ 9 → Idles .civilSecond s)

/-- A register write takes effect under its access code and state rule, clamps as its field says, and changes nothing elsewhere -/
def Obligations.RegisterWritesObeyTheirRules : Prop :=
  (∀ (v : Word) (s : State), s.ready = true → s.domainUp 6 = true →
      (s.pwr.opState = .setup → exec (.registerWrite 0x04 v) s = .next (settle { s with host := { s.host with pairId := BitVec.ofNat 6 (v.toNat / 2 % 64) } }))
      ∧ (s.pwr.opState ≠ .setup → Idles (.registerWrite 0x04 v) s)
      ∧ (s.pwr.opState = .setup → exec (.registerWrite 0x1008 v) s
          = .next (settle { s with pwr := { s.pwr with slowPollUs := max 100 (min 1000000 (v.toNat % 2 ^ 20)) } }))
      ∧ (s.pwr.opState ≠ .setup → Idles (.registerWrite 0x1008 v) s)
      ∧ (s.pwr.opState = .setup → exec (.registerWrite 0x38 v) s = .next (settle { s with host := { s.host with ptpLimitNs := v.toNat } }))
      ∧ (s.pwr.opState ≠ .setup → Idles (.registerWrite 0x38 v) s)
      ∧ (s.pwr.opState = .setup → exec (.registerWrite 0x30 v) s = .next (settle { s with host := { s.host with eth := upd s.host.eth 0 fun e => { e with
          mode := if v.toNat % 8 ≤ 4 then v.toNat % 8 else e.mode, ptpEn := v.getLsbD 3, civilFromPtp := v.getLsbD 4 } } }))
      ∧ Idles (.registerWrite 0x1000 v) s ∧ Idles (.registerWrite 0x3C v) s ∧ Idles (.registerWrite 0x7C00 v) s
      ∧ exec (.registerWrite 0x4004 v) s = .next (settle { s with acq := { s.acq with ovr := s.acq.ovr &&& ~~~(v.extractLsb' 0 16) } }))
  ∧ (∀ (n : Nat) (v : Word) (s : State), s.ready = true → s.domainUp 6 = true → n < 4 → s.pwr.opState = .setup → s.host.sq.length = 16 →
      exec (.registerWrite (0x100 + 16 * n) v) s = .next (settle { s with host := { s.host with
          sq := upd s.host.sq n fun q => { q with baseLo := BitVec.ofNat 32 (v.toNat / 4096 * 4096) } } })
      ∧ exec (.registerWrite (0x10C + 16 * n) v) s = .next (settle { s with host := { s.host with
          sq := upd s.host.sq n fun q => { refill s.now q with
            rate := max 1 (min 200 (v.toNat % 256))
            burst := min (max 1 (min 32 (v.toNat / 256 % 256))) (32 - (((List.range 4).filter (· != n)).map fun m => (s.sq m).burst).sum) } } }))
  ∧ (∀ (off : Nat) (v : Word) (s : State), s.ready = true → s.domainUp 6 = false → Idles (.registerWrite off v) s)
  ∧ (∀ (off : Nat) (v : Word) (s : State), s.pwr.undefinedLogic = false → s.pwr.held = false → s.pwr.opState ≠ .boot → s.pwr.powerState = .sleep →
      (s.pwr.wakeEn.getLsbD 8 = true → exec (.registerWrite off v) s = .next (settle (regWrite off v (wakeUp 0x100 s))))
      ∧ (s.pwr.wakeEn.getLsbD 8 = false → Idles (.registerWrite off v) s))
  ∧ ∀ (off : Nat) (v : Word) (s : State), s.pwr.undefinedLogic = false → s.pwr.held = false → s.pwr.opState = .boot →
      exec (.registerWrite 0x7C00 v) s = .next (settle { s with key := { s.key with rcvLo := v } })
      ∧ exec (.registerWrite 0x7C04 v) s = .next (settle { s with key := { s.key with rcvHi := v } })
      ∧ exec (.registerWrite 0x7C08 v) s = .next (settle { s with key := { s.key with rcvLen := v } })
      ∧ (off ≠ 0x7C00 → off ≠ 0x7C04 → off ≠ 0x7C08 → Idles (.registerWrite off v) s)

/-- R239, R240: encoder and decoder agree in both directions, so no bit of an encoding is dropped and no two rows share a word. -/
def Obligations.LawWordsDecodeToTheirRows : Prop :=
  (∀ (i : Instr) (e : Fin 8) (w : Nat), i.lawCode = some (e, w) → lawWordOk w = true → lawDecode e w = some i)
  ∧ (∀ (e : Fin 8) (w : Nat), w < 2 ^ 32 → lawWordOk w = true → ∃ i, lawDecode e w = some i ∧ i.lawCode = some (e, w))
  ∧ (∀ (e : Fin 8) (w : Nat), lawWordOk w = false → lawDecode e w = none)
  ∧ lawDecode 0 0x00000000 = some (.lawNop 0) ∧ lawDecode 1 0x04C00011 = some (.ldc 1 3 0x11) ∧ lawDecode 2 0x0C1400FF = some (.sts 2 5 0xFF)
  ∧ lawDecode 3 0x1B808001 = some (.ldi 3 14 0x8001) ∧ lawDecode 4 0x1C440000 = some (.mov 4 1 1) ∧ lawDecode 5 0x20002000 = some (.clr 5 true)
  ∧ lawDecode 6 0x2408C000 = some (.mpy 6 false 2 3) ∧ lawDecode 7 0x303C2007 = some (.macc 7 true 15 7)
  ∧ lawDecode 0 0x48001000 = some (.sha 0 false 0x10) ∧ lawDecode 0 0x4C088000 = some (.acclim 0 false 2 2) ∧ lawDecode 0 0x50402000 = some (.str 0 1 true)
  ∧ lawDecode 0 0x54002003 = some (.stas 0 true 3) ∧ lawDecode 0 0x60488000 = some (.add 0 1 2 2) ∧ lawDecode 0 0x7C440F00 = some (.shx 0 1 1 0x0F)
  ∧ lawDecode 0 0x8C048000 = some (.cmp 0 1 2) ∧ lawDecode 0 0x90488900 = some (.sel 0 1 2 2 9) ∧ lawDecode 0 0x94480020 = some (.lut 0 1 2 0x20)
  ∧ lawDecode 0 0xC24003FF = some (.br 0 9 0x3FF) ∧ lawDecode 0 0xFC000000 = some (.endRun 0)
  ∧ lawDecode 0 0x5C000000 = none ∧ lawDecode 0 0x00000001 = none ∧ lawDecode 0 0xC2800001 = none

/-- NOP, loads, stores, ports and moves of the law engine do what the table says, in the run alone -/
def Obligations.LawMovesAndLoads : Prop :=
  (∀ e, LawRuns (.lawNop e) 1 fun _ r q => q = { r with pc := r.pc + 1 })
  ∧ (∀ e rd k, LawRuns (.ldc e rd k) 1 fun s r q => q = { r with pc := r.pc + 1, x := r.x.set rd.toNat (s.coef r.slot k.toNat) })
  ∧ (∀ e rd k, LawRuns (.lds e rd k) 1 fun _ r q => q = { r with pc := r.pc + 1, x := r.x.set rd.toNat (r.st.getD k.toNat 0) })
  ∧ (∀ e ra k, LawRuns (.sts e ra k) 1 fun _ r q => q = { r with pc := r.pc + 1, st := r.st.set k.toNat (r.x.getD ra.toNat 0) })
  ∧ (∀ e rd k, LawRuns (.lin e rd k) 1 fun s r q => ∃ v : Half,
      v.toInt = max (-32768) (min 32767 ((s.latched (srIn (s.lawRec r.slot) k.toNat)).toInt + s.injected e r k.toNat))
        ∧ q = { r with pc := r.pc + 1, x := r.x.set rd.toNat v })
  ∧ (∀ e ra k, LawRuns (.lout e ra k) 1 fun _ r q =>
      q = { r with pc := r.pc + 1, outs := q.outs } ∧ (q.outs.find? fun p => p.1 == k.toNat) = some (k.toNat, r.x.getD ra.toNat 0)
        ∧ ∀ j, j ≠ k.toNat → (q.outs.find? fun p => p.1 == j) = (r.outs.find? fun p => p.1 == j))
  ∧ (∀ e rd imm, LawRuns (.ldi e rd imm) 1 fun _ r q => q = { r with pc := r.pc + 1, x := r.x.set rd.toNat imm })
  ∧ (∀ e rd ra, LawRuns (.mov e rd ra) 1 fun _ r q => RegResult r q rd (r.x.getD ra.toNat 0))
  ∧ (∀ e, LawRuns (.clr e false) 1 fun _ r q => q = { r with pc := r.pc + 1, acc0 := 0 })
  ∧ (∀ e, LawRuns (.clr e true) 1 fun _ r q => q = { r with pc := r.pc + 1, acc1 := 0 })
  ∧ (∀ e ac k, LawRuns (.stas e ac k) 3 fun _ r q => q = { r with
      pc := r.pc + 1
      st := ((r.st.set k.toNat ((r.acc ac).extractLsb' 0 16)).set (k.toNat + 1) ((r.acc ac).extractLsb' 16 16)).set
        (k.toNat + 2) (((r.acc ac).extractLsb' 32 8).signExtend 16) })
  ∧ (∀ e ac k, LawRuns (.ldas e ac k) 3 fun _ r q =>
      (q.acc ac).toNat = (r.st.getD k.toNat 0).toNat + 2 ^ 16 * (r.st.getD (k.toNat + 1) 0).toNat + 2 ^ 32 * ((r.st.getD (k.toNat + 2) 0).toNat % 256)
        ∧ q.acc (!ac) = r.acc (!ac) ∧ q.pc = r.pc + 1 ∧ q.x = r.x ∧ q.st = r.st ∧ q.outs = r.outs ∧ q.flags = r.flags ∧ q.slot = r.slot)
  ∧ (∀ (e : Fin 8) (s : State) (r : Run), s.ready = true → s.runAt e 0xFC000000 = some r → e.val < s.law.engines.length →
      let used := (s.engine e).used + 1 + (if (s.engine e).flips = 0 then 0 else 2)
      (skipRun s (s.lawRec r.slot) = false → used ≤ s.law.window → Runs (.endRun e) s (.law :: eventParts) fun t =>
          t.law.slots = upd s.law.slots r.slot (fun x => { x with
            st := r.st, satBit := x.satBit || r.flags.sat, ovBit := x.ovBit || r.flags.ov, holdBit := false, consec := 0, dueNow := false })
          ∧ t.law.outputs = s.law.outputs ∧ t.law.inputs = s.law.inputs
          ∧ ∀ p ∈ r.outs, p.1 < srOuts (s.lawRec r.slot) → (srOut (s.lawRec r.slot) p.1, p.2) ∈ t.law.fresh)
      ∧ (skipRun s (s.lawRec r.slot) = false → s.law.window < used → Runs (.endRun e) s [.law, .flt] fun t =>
          t.law.slots = s.law.slots ∧ t.law.fresh = s.law.fresh ∧ t.law.outputs = s.law.outputs))

/-- Accumulator instructions hold the exact result, saturated to A40, and OV notes a saturation -/
def Obligations.LawAccumulatorResults : Prop :=
  (∀ e ac ra rb, LawRuns (.mpy e ac ra rb) 1 fun _ r q => AccResult r q ac ((r.reg ra).toInt * (r.reg rb).toInt))
  ∧ (∀ e ac ra rb, LawRuns (.mac e ac ra rb) 1 fun _ r q => AccResult r q ac ((r.acc ac).toInt + (r.reg ra).toInt * (r.reg rb).toInt))
  ∧ (∀ e ac ra rb, LawRuns (.msu e ac ra rb) 1 fun _ r q => AccResult r q ac ((r.acc ac).toInt - (r.reg ra).toInt * (r.reg rb).toInt))
  ∧ (∀ e ac ra k, LawRuns (.macc e ac ra k) 1 fun s r q =>
      AccResult r q ac ((r.acc ac).toInt + (r.reg ra).toInt * (s.coef r.slot k.toNat).toInt))
  ∧ (∀ e ac ra k, LawRuns (.msuc e ac ra k) 1 fun s r q =>
      AccResult r q ac ((r.acc ac).toInt - (r.reg ra).toInt * (s.coef r.slot k.toNat).toInt))
  ∧ (∀ e ac ra, LawRuns (.lda e ac ra) 1 fun _ r q => (q.acc ac).toInt = (r.reg ra).toInt * 2 ^ 15 ∧ q.acc (!ac) = r.acc (!ac)
      ∧ q.flags = r.flags ∧ q.pc = r.pc + 1 ∧ q.x = r.x ∧ q.st = r.st ∧ q.outs = r.outs ∧ q.slot = r.slot)
  ∧ (∀ e ac ra, LawRuns (.adda e ac ra) 1 fun _ r q => AccResult r q ac ((r.acc ac).toInt + (r.reg ra).toInt * 2 ^ 15))
  ∧ (∀ e ac ra, LawRuns (.suba e ac ra) 1 fun _ r q => AccResult r q ac ((r.acc ac).toInt - (r.reg ra).toInt * 2 ^ 15))
  ∧ (∀ e ac, LawRuns (.accadd e ac) 1 fun _ r q => AccResult r q ac (r.acc0.toInt + r.acc1.toInt))
  ∧ (∀ e ac sc, 0 ≤ sc.toInt → LawRuns (.sha e ac sc) 1 fun _ r q => AccResult r q ac ((r.acc ac).toInt * 2 ^ sc.toNat))
  ∧ (∀ e ac sc, sc.toInt < 0 → LawRuns (.sha e ac sc) 1 fun _ r q => AccResult r q ac (divRound (r.acc ac).toInt (2 ^ (-sc.toInt).toNat)))
  ∧ (∀ (v : Int) (d : Nat), 0 < d → 2 * (divRound v d * d - v).natAbs ≤ d
      ∧ (2 * (divRound v d * d - v).natAbs = d → v.natAbs ≤ (divRound v d * d).natAbs))
  ∧ (∀ e ac ra rb, LawRuns (.acclim e ac ra rb) 1 fun _ r q =>
      (q.acc ac).toInt = max ((r.reg ra).toInt * 2 ^ 15) (min ((r.reg rb).toInt * 2 ^ 15) (r.acc ac).toInt) ∧ q.acc (!ac) = r.acc (!ac)
        ∧ (q.acc ac = r.acc ac → (r.reg ra).toInt ≤ (r.reg rb).toInt → q.flags = { r.flags with clp := false })
        ∧ (q.acc ac ≠ r.acc ac → q.flags = { r.flags with clp := true })
        ∧ q.pc = r.pc + 1 ∧ q.x = r.x ∧ q.st = r.st ∧ q.outs = r.outs ∧ q.slot = r.slot)

/-- Register instructions hold their exact result, saturated to Q15, with the flags their row names -/
def Obligations.LawRegisterResults : Prop :=
  (∀ e rd ac, LawRuns (.str e rd ac) 1 fun _ r q => RegResultSat r q rd (divRound (r.acc ac).toInt 32768))
  ∧ (∀ e rd ra rb, LawRuns (.add e rd ra rb) 1 fun _ r q => RegResultSat r q rd ((r.reg ra).toInt + (r.reg rb).toInt))
  ∧ (∀ e rd ra rb, LawRuns (.sub e rd ra rb) 1 fun _ r q => RegResultSat r q rd ((r.reg ra).toInt - (r.reg rb).toInt))
  ∧ (∀ e rd ra rb, LawRuns (.mul e rd ra rb) 1 fun _ r q => RegResultSat r q rd (divRound ((r.reg ra).toInt * (r.reg rb).toInt) 32768))
  ∧ (∀ e rd ra rb, LawRuns (.min e rd ra rb) 1 fun _ r q => ∃ v : Half, v.toInt = min (r.reg ra).toInt (r.reg rb).toInt ∧ RegResult r q rd v)
  ∧ (∀ e rd ra rb, LawRuns (.max e rd ra rb) 1 fun _ r q => ∃ v : Half, v.toInt = max (r.reg ra).toInt (r.reg rb).toInt ∧ RegResult r q rd v)
  ∧ (∀ e rd ra, LawRuns (.abs e rd ra) 1 fun _ r q => RegResultSat r q rd (r.reg ra).toInt.natAbs)
  ∧ (∀ e rd ra, LawRuns (.neg e rd ra) 1 fun _ r q => RegResultSat r q rd (-(r.reg ra).toInt))
  ∧ (∀ e rd ra, LawRuns (.abs e rd ra) 1 fun _ r q => r.reg ra = 0x8000 → q.x = r.x.set rd.toNat 0x7FFF ∧ q.flags.sat = true)
  ∧ (∀ e rd ra, LawRuns (.neg e rd ra) 1 fun _ r q => r.reg ra = 0x8000 → q.x = r.x.set rd.toNat 0x7FFF ∧ q.flags.sat = true)
  ∧ (∀ e rd ra sc, 0 ≤ sc.toInt → LawRuns (.shx e rd ra sc) 1 fun _ r q => RegResultSat r q rd ((r.reg ra).toInt * 2 ^ sc.toNat))
  ∧ (∀ e rd ra sc, sc.toInt < 0 → LawRuns (.shx e rd ra sc) 1 fun _ r q => RegResultSat r q rd (divRound (r.reg ra).toInt (2 ^ (-sc.toInt).toNat)))
  ∧ (∀ e rd ra rb, LawRuns (.and e rd ra rb) 1 fun _ r q => RegResult r q rd (r.reg ra &&& r.reg rb))
  ∧ (∀ e rd ra rb, LawRuns (.or e rd ra rb) 1 fun _ r q => RegResult r q rd (r.reg ra ||| r.reg rb))
  ∧ (∀ e rd ra rb, LawRuns (.xor e rd ra rb) 1 fun _ r q => RegResult r q rd (r.reg ra ^^^ r.reg rb))
  ∧ (∀ e ra rb, LawRuns (.cmp e ra rb) 1 fun _ r q => q = { r with
      pc := r.pc + 1
      flags := { r.flags with
        n := decide ((r.reg ra).toInt - (r.reg rb).toInt < 0), z := decide ((r.reg ra).toInt - (r.reg rb).toInt = 0) } })
  ∧ (∀ e rd ra rb cond, LawRuns (.sel e rd ra rb cond) 1 fun _ r q =>
      q = { r with pc := r.pc + 1, x := r.x.set rd.toNat (if r.flags.holds cond then r.reg ra else r.reg rb) })
  ∧ (∀ e rd ra k, LawRuns (.lut e rd ra k) 3 fun s r q =>
      let u := ((r.reg ra).toInt + 32768).toNat
      let a := (s.coef r.slot (k.toNat + u / 2048)).toInt
      let b := (s.coef r.slot (k.toNat + u / 2048 + 1)).toInt
      RegResultSat r q rd (divRound (a * 2048 + (b - a) * (u % 2048 : Nat)) 2048))

/-- BR goes on by its condition, END inside the window commits state, outputs and sticky flags, and the next due slot starts -/
def Obligations.LawBranchesAndCommits : Prop :=
  (∀ f : LawFlags, f.holds 0 = f.z ∧ f.holds 1 = !f.z ∧ f.holds 2 = f.n ∧ f.holds 3 = !f.n ∧ f.holds 4 = (!f.n && !f.z) ∧ f.holds 5 = (f.n || f.z)
    ∧ f.holds 6 = f.clp ∧ f.holds 7 = !f.clp ∧ f.holds 8 = f.sat ∧ f.holds 9 = true ∧ ∀ c : BitVec 4, 9 < c.toNat → f.holds c = false)
  ∧ (∀ (e : Fin 8) (cond : BitVec 4) (off : BitVec 10) (s : State) (w : Nat) (r : Run), (Instr.br e cond off).lawCode = some (e, w) → s.ready = true →
      s.runAt e w = some r →
      let q : Run := { r with pc := if r.flags.holds cond then r.pc + off.toNat else r.pc + 1 }
      let cycles := if r.flags.holds cond then 2 else 1
      ((s.engine e).flips = 0 → exec (.br e cond off) s = .next (s.modEngine e fun g => { g with run := some q, used := g.used + cycles }))
      ∧ ((s.engine e).flips ≠ 0 → exec (.br e cond off) s = .next (countEvent (16 + e) 3 0xFF (s.modEngine e fun g => { g with
          run := some q, used := g.used + cycles + 2, flips := g.flips - 1, corrected := satAdd 16 g.corrected 1 }))))
  ∧ (∀ e rd ra rb cond, LawRuns (.sel e rd ra rb cond) 1 fun _ r q =>
      q = { r with pc := r.pc + 1, x := r.x.set rd.toNat (if r.flags.holds cond then r.reg ra else r.reg rb) })
  ∧ (∀ (e : Fin 8) (cond rd ra rb : BitVec 4) (off : BitVec 10), 9 < cond.toNat → ∀ c ∈ [Instr.br e cond off, Instr.sel e rd ra rb cond],
      ∃ w, c.lawCode = some (e, w) ∧ w < 2 ^ 32 ∧ lawDecode e w = none)
  ∧ (∀ (e : Fin 8) (s : State) (r : Run), s.ready = true → s.runAt e 0xFC000000 = some r → e.val < s.law.engines.length →
      let used := (s.engine e).used + 1 + (if (s.engine e).flips = 0 then 0 else 2)
      (skipRun s (s.lawRec r.slot) = false → used ≤ s.law.window → Runs (.endRun e) s (.law :: eventParts) fun t =>
          t.law.slots = upd s.law.slots r.slot (fun x => { x with
            st := r.st, satBit := x.satBit || r.flags.sat, ovBit := x.ovBit || r.flags.ov, holdBit := false, consec := 0, dueNow := false })
          ∧ t.law.outputs = s.law.outputs ∧ t.law.inputs = s.law.inputs
          ∧ ∀ p ∈ r.outs, p.1 < srOuts (s.lawRec r.slot) → (srOut (s.lawRec r.slot) p.1, p.2) ∈ t.law.fresh)
      ∧ (skipRun s (s.lawRec r.slot) = false → s.law.window < used → Runs (.endRun e) s [.law, .flt] fun t =>
          t.law.slots = s.law.slots ∧ t.law.fresh = s.law.fresh ∧ t.law.outputs = s.law.outputs)
      ∧ (skipRun s (s.lawRec r.slot) = true → Runs (.endRun e) s (.law :: eventParts) fun t =>
          t.law.outputs = s.law.outputs ∧ ∀ id ∈ srOutIds (s.lawRec r.slot), (id, 0#16) ∈ t.law.fresh)
      ∧ Runs (.endRun e) s (.law :: eventParts) fun t => match (s.engine e).due with
          | [] => (t.engine e).run = none ∧ (t.engine e).used = used
          | k :: rest => (t.engine e).run = some { slot := k, st := (nth t.law.slots k).st } ∧ (t.engine e).due = rest ∧ (t.engine e).used = used + 6)
  ∧ ∀ (c : Instr) (e : Fin 8) (w : Nat) (s : State), c.lawCode = some (e, w) → s.ready = true → s.runAt e w = none →
      (c ≠ .endRun e → exec c s = .next s) ∧ (c = .endRun e → Idles c s)

/-- A law window opens and closes, publishing what was committed in it, and faults and injections end what they end -/
def Obligations.LawWindowsAndInjections : Prop :=
  (∀ (flips : List Nat) (s : State), s.ready = true →
      (s.law.openNow = false → Runs (.lawWindowOpen flips) s [.flt, .stages, .paths, .law, .acq, .rcd] fun t => t.law.openNow = true ∧ t.law.outputs = s.law.outputs
        ∧ ∀ e, e < s.law.engines.length → (t.engine e).flips = flips.getD e 0)
      ∧ (s.law.openNow = true → Idles (.lawWindowOpen flips) s))
  ∧ (∀ s : State, s.ready = true →
      (s.law.openNow = true → Runs .lawWindowClose s [.outs, .flt, .stages, .paths, .law, .pair, .acq, .rcd] fun t => t.law.openNow = false ∧ t.law.fresh = []
        ∧ (∀ g ∈ t.law.engines, g.run = none ∧ g.due = [] ∧ g.used = 0 ∧ g.flips = 0)
        ∧ ((∀ r ∈ s.lawRecs, (nth s.law.slots (srSlot r)).dueNow = true → skipRun s r = false) →
            t.law.outputs = s.law.outputs.filter (fun p => !s.law.fresh.any (·.1 == p.1)) ++ s.law.fresh
            ∧ ∀ r ∈ s.lawRecs, (nth s.law.slots (srSlot r)).dueNow = true → srSlot r < s.law.slots.length →
                (nth t.law.slots (srSlot r)).missed = true ∧ (nth t.law.slots (srSlot r)).dueNow = false))
      ∧ (s.law.openNow = false → Idles .lawWindowClose s))
  ∧ (∀ (e mem : Nat) (s : State), s.ready = true →
      (e < 8 → e < s.law.engines.length → (s.engine e).fault = false →
        Runs (.memUncorrectable e mem) s (.law :: eventParts) fun t => (t.engine e).fault = true ∧ (t.engine e).run = none
          ∧ (t.engine e).due = [] ∧ (t.engine e).inj = none ∧ (∀ k, k ≠ e → t.engine k = s.engine k) ∧ Arose (16 + e) 4 0xFF (toLE 1 mem) s t)
      ∧ (8 ≤ e ∨ (s.engine e).fault = true → Idles (.memUncorrectable e mem) s))
  ∧ (∀ (e : Nat) (s : State), s.ready = true →
      (∀ i, (s.engine e).inj = some i → i.started = true → i.runs ≠ 0 → i.runs ≤ i.n → s.law.openNow = false →
        Runs (.injectionRunsDone e) s (.law :: eventParts) fun t => (t.engine e).inj = none ∧ (∀ k, k ≠ e → t.engine k = s.engine k) ∧ Posted (16 + e) 6 (i.slot % 256) s t)
      ∧ ((∀ i, (s.engine e).inj = some i → i.started = false ∨ i.runs = 0 ∨ i.n < i.runs ∨ s.law.openNow = true) → Idles (.injectionRunsDone e) s))
  ∧ (∀ (d : Desc) (c : List Byte) (s : State), admits injectInfo d s = true → d.input = some c →
      (injectOk (fetched d s) d.ix c = true → u8 c 0 ≠ 0 → d.ix < s.law.engines.length → Finishes (.inject d) d s stOk 0 (.law :: eventParts) fun u =>
        ∃ i, (u.engine d.ix).inj = some i ∧ i.wave = u8 c 0 ∧ i.port = u8 c 1 ∧ i.slot = u16 c 2 ∧ i.amplitude = i16 c 4 ∧ i.runs = u32 c 0x14 ∧ i.n = 0 ∧ i.started = false)
      ∧ (injectOk (fetched d s) d.ix c = false ∨ u8 c 0 = 0 → Finishes (.inject d) d s stRange 0 [] fun u => u = fetched d s)
      ∧ (injectOk (fetched d s) d.ix c = true → u8 c 0 = 0 → Finishes (.injectOff d) d s stOk 0 (.law :: eventParts) fun u =>
        (u.engine d.ix).inj = none ∧ ∀ k, k ≠ d.ix → u.engine k = s.engine k)
      ∧ (injectOk (fetched d s) d.ix c = false ∨ u8 c 0 ≠ 0 → Finishes (.injectOff d) d s stRange 0 [] fun u => u = fetched d s))
  ∧ ∀ (d : Desc) (s : State), admits injectInfo d s = true → d.input = none →
      (Finishes (.inject d) d s stBuffer 0 [] fun u => u = fetched d s) ∧ Finishes (.injectOff d) d s stBuffer 0 [] fun u => u = fetched d s

/-- Each event of a transfer takes the stage from its transfer state to the next one, or into BLOCKED at a time limit -/
def Obligations.TransfersPassTheirStates : Prop :=
  ∀ (i : Nat) (s : State), s.ready = true →
    (i < 32 →
      ((s.stage i).xfer = .rampDown → s.lowCurrent i = true → s.stepsMayBegin = true →
          GoesVia (.transferRampDone i) s stageParts fun u => u.stages = upd s.stages i fun st => { st with
            xfer := .opening, stepAt := s.now, outEn := false, ramping := false
            coils := st.coils &&& ~~~coilBit (s.stage i).leaves, openWait := st.openWait &&& ~~~coilBit (s.stage i).leaves })
      ∧ ((s.stage i).xfer ≠ .rampDown ∨ s.lowCurrent i = false ∨ s.stepsMayBegin = false → Rests (.transferRampDone i) s)
      ∧ (s.inStepFor .rampDown i s.tDownMs = true → GoesVia (.transferRampTimeout i) s stageParts (TransferFails i 1 s))
      ∧ (s.inStepFor .rampDown i s.tDownMs = false → Rests (.transferRampTimeout i) s)
      ∧ ((s.stage i).xfer = .opening → (s.stage i).fb.getLsbD (s.stage i).leaves = false → (s.stage i).coils.getLsbD (s.stage i).leaves = false →
          ((s.stage i).order = .release → GoesVia (.xpOpenVerified i) s stageParts fun u => Posted 35 3 i s u
            ∧ u.stages = upd s.stages i fun st => { st with xfer := .steady, outlet := none, dest := none, src := none, lastEnd := some s.now })
          ∧ ((s.stage i).order ≠ .release → s.stepsMayBegin = true → GoesVia (.xpOpenVerified i) s stageParts fun u =>
            u.stages = upd s.stages i fun st => { st with
              xfer := .tracking, stepAt := s.now, outlet := none, outEn := true, ramping := false
              trackFrom := s.stVout i, nearAt := none, shortAt := none })
          ∧ ((s.stage i).order ≠ .release → s.stepsMayBegin = false → Rests (.xpOpenVerified i) s))
      ∧ ((s.stage i).xfer ≠ .opening ∨ (s.stage i).fb.getLsbD (s.stage i).leaves = true ∨ (s.stage i).coils.getLsbD (s.stage i).leaves = true →
          Rests (.xpOpenVerified i) s)
      ∧ (s.inStepFor .opening i (s.xpOperateMs + 1) = true → GoesVia (.xpOpenTimeout i) s stageParts (TransferFails i 2 s))
      ∧ (s.inStepFor .opening i (s.xpOperateMs + 1) = false → Rests (.xpOpenTimeout i) s)
      ∧ (∀ o, (s.stage i).dest = some o → (s.stage i).xfer = .tracking → s.tracked i = true → heldFor (s.stage i).nearAt 1000000 s.now = true →
          s.lowCurrent i = true → s.stepsMayBegin = true →
          (blockerOf (s.stage i) o = none → GoesVia (.trackingDone i) s stageParts fun u => u.stages = upd s.stages i fun st => { st with
            xfer := .closing, stepAt := s.now, coils := st.coils ||| coilBit o, openWait := st.openWait &&& ~~~coilBit o })
          ∧ (∀ k, blockerOf (s.stage i) o = some k → GoesVia (.trackingDone i) s stageParts fun u =>
            u.stages = upd s.stages i (fun st => { st with xfer := .closing, stepAt := s.now }) ∧ Arose 37 1 i (toLE 1 o ++ toLE 1 k) s u))
      ∧ ((s.stage i).dest = none ∨ (s.stage i).xfer ≠ .tracking ∨ s.tracked i = false ∨ heldFor (s.stage i).nearAt 1000000 s.now = false
          ∨ s.lowCurrent i = false ∨ s.stepsMayBegin = false → Rests (.trackingDone i) s)
      ∧ (s.inStepFor .tracking i s.trackTimeoutMs = true →
          ((s.stage i).trackTimeouts = 0 → GoesVia (.trackTimeout i) s stageParts fun u => Posted 36 3 i s u
            ∧ u.stages = upd s.stages i fun st => { st with
              xfer := .steady, outEn := false, ramping := false, trackTimeouts := 1, outlet := none, dest := none, src := none, lastEnd := some s.now })
          ∧ (1 ≤ (s.stage i).trackTimeouts → GoesVia (.trackTimeout i) s stageParts fun u => ∃ v, TransferFails i 3 v u ∧ v.now = s.now
              ∧ v.flt = s.flt ∧ v.lanes = s.lanes
              ∧ v.stages = upd s.stages i fun st => { st with outEn := false, ramping := false, trackTimeouts := st.trackTimeouts + 1 }))
      ∧ (s.inStepFor .tracking i s.trackTimeoutMs = false → Rests (.trackTimeout i) s)
      ∧ (∀ o, (s.stage i).dest = some o → (s.stage i).xfer = .closing → (s.stage i).coils.getLsbD o = true → (s.stage i).fb.getLsbD o = true →
          GoesVia (.xpCloseVerified i) s stageParts fun u => Posted 35 (if (s.stage i).order = .move then 1 else 2) i s u
            ∧ (u.stage i).xfer = .steady ∧ (u.stage i).outlet = some o ∧ (u.stage i).dest = none ∧ (u.stage i).lastEnd = some s.now
            ∧ (u.stage i).trackTimeouts = 0 ∧ (u.stage i).ramping = true ∧ (u.stage i).rampUp = true ∧ (u.stage i).rampFrom = 0
            ∧ (u.stage i).rampAt = s.now ∧ (u.stage i).outEn = (s.stage i).outEn ∧ (u.stage i).coils = (s.stage i).coils
            ∧ ∀ k, k ≠ i → ∃ h, u.stage k = { s.stage k with kShare := h } ∧ ((s.stage k).steadyOn o = false → h = (s.stage k).kShare))
      ∧ ((s.stage i).dest = none ∨ (s.stage i).xfer ≠ .closing
          ∨ (∃ o, (s.stage i).dest = some o ∧ ((s.stage i).coils.getLsbD o = false ∨ (s.stage i).fb.getLsbD o = false)) → Rests (.xpCloseVerified i) s)
      ∧ (s.inStepFor .closing i (s.xpOperateMs + 1) = true → GoesVia (.xpCloseTimeout i) s stageParts (TransferFails i 4 s))
      ∧ (s.inStepFor .closing i (s.xpOperateMs + 1) = false → Rests (.xpCloseTimeout i) s)
      ∧ ((s.stage i).inTransfer = true → (s.stage i).xferAt + 40000000 ≤ s.now → GoesVia (.transferTimeout i) s stageParts (TransferFails i 5 s))
      ∧ ((s.stage i).inTransfer = false ∨ s.now < (s.stage i).xferAt + 40000000 → Rests (.transferTimeout i) s))
    ∧ (32 ≤ i → ∀ c ∈ [Instr.transferRampDone i, .transferRampTimeout i, .xpOpenVerified i, .xpOpenTimeout i, .trackingDone i, .trackTimeout i,
        .xpCloseVerified i, .xpCloseTimeout i, .transferTimeout i], Idles c s)

/-- Crosspoint commands wait for low current, and a stage stops and resumes as it is told -/
def Obligations.StagesStopAndResume : Prop :=
  (∀ (i : Nat) (s : State), s.ready = true → i < 32 →
      ((s.stage i).openWait ≠ 0 → s.lowCurrent i = true → GoesVia (.xpCommandRelease i) s stageParts fun u =>
          (u.stage i).coils = (s.stage i).coils &&& ~~~(s.stage i).openWait ∧ (u.stage i).openWait = 0 ∧ (u.stage i).xfer = (s.stage i).xfer
          ∧ (u.stage i).outEn = ((s.stage i).outEn && !((s.stage i).ramping && !(s.stage i).rampUp && !(s.stage i).inTransfer))
          ∧ ∀ k, k ≠ i → u.stage k = s.stage k)
      ∧ (((s.stage i).openWait = 0 ∨ s.lowCurrent i = false) → Rests (.xpCommandRelease i) s)
      ∧ ((s.stage i).openWait ≠ 0 → (s.stage i).inTransfer = false → (s.stage i).waitRaised = false → (s.stage i).waitAt + 40000000 < s.now →
          GoesVia (.xpCurrent i) s stageParts fun u => u.stages = upd s.stages i (fun st => { st with waitRaised := true }) ∧ Posted 36 8 i s u)
      ∧ ((s.stage i).openWait = 0 ∨ (s.stage i).inTransfer = true ∨ (s.stage i).waitRaised = true ∨ s.now ≤ (s.stage i).waitAt + 40000000 →
          Rests (.xpCurrent i) s)
      ∧ (∀ k, k < 8 → s.mismatched i k = true → (s.stage i).removed = false →
          GoesVia (.feedbackMismatch i) s stageParts fun u => u.stages = upd s.stages i (fun st => { st with removed := true }) ∧ Posted 37 2 i s u)
      ∧ ((s.stage i).removed = true ∨ (∀ k, k < 8 → s.mismatched i k = false) → Rests (.feedbackMismatch i) s)
      ∧ ((s.stage i).resumeDeferred = true → (s.stage i).stopped = true → s.stageSafeEnd i = true →
          GoesVia (.stageResumeTakeEffect i) s stageParts fun u => (u.stage i).xfer = .steady ∧ (u.stage i).outlet = none ∧ (u.stage i).dest = none
            ∧ (u.stage i).halted = false ∧ (u.stage i).resumeDeferred = false ∧ (u.stage i).trackTimeouts = 0
            ∧ (u.stage i).dropped = (if (s.stage i).haltSeen then 0 else (s.stage i).dropped) ∧ ∀ k, k ≠ i → u.stage k = s.stage k)
      ∧ (((s.stage i).resumeDeferred = false ∨ (s.stage i).stopped = false ∨ s.stageSafeEnd i = false) → Rests (.stageResumeTakeEffect i) s))
  ∧ (∀ (i : Nat) (s : State), s.ready = true → 32 ≤ i →
      ∀ c ∈ [Instr.xpCommandRelease i, .xpCurrent i, .feedbackMismatch i, .stageResumeTakeEffect i], Idles c s)
  ∧ (∀ (d : Desc) (s : State), admits (haltInfo 0x09 true) d s = true → d.ix < s.stages.length →
      Finishes (.stageHalt d) d s stOk 0 [.outs, .freeIx, .flt, .stages, .alloc, .paths, .pair, .acq, .met, .veh, .rcd] fun u => ∃ v, u = settleVehicles v ∧ Kept [.outs, .freeIx, .flt, .stages, .alloc, .paths, .pair, .acq, .met, .veh, .rcd] (fetched d s) v
        ∧ (v.stage d.ix).halted = true ∧ (v.stage d.ix).haltSeen = true ∧ (v.stage d.ix).resumeDeferred = false
        ∧ ((s.stage d.ix).xfer = .blocked → (v.stage d.ix).xfer = .blocked ∧ (v.stage d.ix).coils = (s.stage d.ix).coils)
        ∧ ((s.stage d.ix).inTransfer = true → (v.stage d.ix).dest = none ∧ (v.stage d.ix).lastEnd = some s.now ∧ Posted 36 6 d.ix s v)
        ∧ ((s.stage d.ix).xfer ≠ .blocked → (v.stage d.ix).xfer = .steady
            ∧ (d.b 8 = 1 ∨ (s.stage d.ix).outEn = false ∨ (s.stage d.ix).coils = 0 →
              (v.stage d.ix).outEn = false ∧ (s.lowCurrent d.ix = true → (v.stage d.ix).coils = 0 ∧ (v.stage d.ix).openWait = 0)
              ∧ (s.lowCurrent d.ix = false → (v.stage d.ix).coils = (s.stage d.ix).coils
                  ∧ (v.stage d.ix).openWait = (s.stage d.ix).openWait ||| (s.stage d.ix).coils))
            ∧ (d.b 8 = 0 → (s.stage d.ix).outEn = true → (s.stage d.ix).coils ≠ 0 → (v.stage d.ix).outEn = true ∧ (v.stage d.ix).ramping = true
              ∧ (v.stage d.ix).rampUp = false ∧ (v.stage d.ix).rampAt = s.now ∧ (v.stage d.ix).coils = (s.stage d.ix).coils
              ∧ (v.stage d.ix).openWait = (s.stage d.ix).openWait ||| (s.stage d.ix).coils))
        ∧ ∀ k, k ≠ d.ix → ∃ h, v.stage k = { s.stage k with kShare := h })
  ∧ ∀ (d : Desc) (s : State), admits (resumeInfo 0x0A true) d s = true → d.ix < s.stages.length →
      (s.stageHot d.ix = true → exec (.stageResume d) s = .next (settle (completeDesc d stState 0 (fetched d s))))
      ∧ (s.stageHot d.ix = false → (s.stage d.ix).stopped = false → s.haltWaits 9 d.ix = false →
          exec (.stageResume d) s = .next (settle (completeDesc d stOk 0 (fetched d s))))
      ∧ (s.stageHot d.ix = false → (s.stage d.ix).stopped = true ∨ s.haltWaits 9 d.ix = true → s.stageSafeEnd d.ix = true →
          Finishes (.stageResume d) d s stOk 0 [.outs, .stages, .pair] fun u => (u.stage d.ix).halted = false ∧ (u.stage d.ix).xfer = .steady
            ∧ (u.stage d.ix).outlet = none ∧ ∀ k, k ≠ d.ix → u.stage k = s.stage k)
      ∧ (s.stageHot d.ix = false → (s.stage d.ix).stopped = true ∨ s.haltWaits 9 d.ix = true → s.stageSafeEnd d.ix = false →
          Finishes (.stageResume d) d s stDeferred 0 [.stages] fun u => u.stages = upd s.stages d.ix fun st => { st with resumeDeferred := true })

/-- Water filling gives each outlet at most its demand and all of them together at most the available power, at the highest level that fits -/
def Obligations.BudgetsStayWithinAvailablePower : Prop :=
  ∀ (l : AlcLatch) (inc : Nat → Bool) (c : Nat → Nat) (avail : Nat),
    let f := fill l inc c avail
    let on := fun o => (l.out o).demand == .active && inc o
    let tier := fun t => (List.range 8).filter fun o => on o && (l.out o).tier == t
    f.b.length = 8 ∧ f.b.foldl (· + ·) 0 ≤ avail
    ∧ (∀ o, o < 8 → f.b.getD o 0 ≤ c o ∧ (on o = false → f.b.getD o 0 = 0))
    ∧ (f.level = none → ∀ o, o < 8 → on o = true → (l.out o).tier < 4 → f.b.getD o 0 = c o)
    ∧ (∀ x t, f.level = some (x, t) → t < 4 ∧ x < 2 ^ 33
        ∧ (∀ o, o < 8 → on o = true → ((l.out o).tier < t → f.b.getD o 0 = c o) ∧ ((l.out o).tier = t → f.b.getD o 0 = min (c o) ((l.out o).weight * x))
            ∧ (t < (l.out o).tier → f.b.getD o 0 = 0))
        ∧ ∀ y, x < y → y < 2 ^ 33 → avail < ((List.range t).map fun u => sumOver (tier u) c).foldl (· + ·) 0
            + sumOver (tier t) fun o => min (c o) ((l.out o).weight * y))

/-- A boundary in Operate publishes from the latched inputs and latches anew; an overrun publishes nothing, and outside Operate nothing is allocated -/
def Obligations.AllocationsPublishWhatWasLatched : Prop :=
  (∀ (l : AlcLatch) (s : State), s.ready = true → s.atAllocBoundary = true → s.pwr.opState = .operate → s.alloc.latch = some l →
      Runs (.allocationBoundary false) s [.outs, .freeIx, .pwr, .flt, .stages, .alloc, .paths, .law, .pair, .acq, .thm, .sw, .met, .veh, .rcd] fun t =>
        t.alloc.running = true ∧ t.alloc.capKw = l.capKw ∧ t.alloc.periodCount = s.alloc.periodCount + 1
        ∧ (∃ m, t.alloc.latch = some m ∧ m.capKw = (effectiveCap s).1 ∧ m.capSrc = (effectiveCap s).2)
        ∧ ∀ o, o < 8 → o < s.alloc.outlets.length → (t.alcOut o).state = (l.out o).demand
          ∧ ((l.out o).demand = .none → (t.alcOut o).budget = 0 ∧ (t.alcOut o).iCeil = 0 ∧ (t.alcOut o).vCeil = 0)
          ∧ ((l.out o).demand = .starting → (t.alcOut o).budget = if availBase s l = 0 ∨ (t.alcOut o).e32[2] = true ∨ (t.alcOut o).e32[4] = true then 0 else s.startReserveKw * 1000)
          ∧ ((l.out o).demand = .stopping → (t.alcOut o).budget = if availBase s l = 0 then 0 else fallingBudget l o)
          ∧ ((l.out o).demand = .active → (t.alcOut o).budget ≤ (demandCeil s l o).1)
          ∧ ((t.alcOut o).budget = 0 → (l.out o).demand ≠ .starting → (t.alcOut o).iCeil = 0))
  ∧ (∀ (l : AlcLatch) (s : State), s.ready = true → s.atAllocBoundary = true → s.pwr.opState = .operate → s.alloc.latch = some l →
      Runs (.allocationBoundary true) s [.outs, .freeIx, .pwr, .flt, .stages, .alloc, .paths, .law, .pair, .acq, .thm, .sw, .met, .veh, .rcd] fun t => Arose 38 1 0xFF [] s t
        ∧ t.alloc.periodCount = s.alloc.periodCount ∧ t.alloc.capKw = s.alloc.capKw ∧ t.alloc.latch.isSome = true
        ∧ ∀ o, (t.alcOut o).budget = (s.alcOut o).budget ∧ (t.alcOut o).iCeil = (s.alcOut o).iCeil ∧ (t.alcOut o).vCeil = (s.alcOut o).vCeil)
  ∧ (∀ s : State, s.ready = true → s.atAllocBoundary = true → s.pwr.opState = .operate → s.alloc.latch = none →
      ∀ b, Runs (.allocationBoundary b) s [.outs, .freeIx, .pwr, .flt, .stages, .alloc, .paths, .law, .pair, .acq, .thm, .sw, .met, .veh, .rcd] fun t => t.alloc.latch.isSome = true ∧ t.alloc.periodCount = s.alloc.periodCount)
  ∧ (∀ (b : Bool) (s : State), s.ready = true → s.atAllocBoundary = true → s.pwr.opState ≠ .operate →
      Runs (.allocationBoundary b) s (.law :: .thm :: .sw :: [.outs, .freeIx, .flt, .stages, .alloc, .paths, .pair, .acq, .met, .veh, .rcd]) fun t =>
        t.alloc.latch = s.alloc.latch ∧ ∀ o, (t.alcOut o).budget = (s.alcOut o).budget)
  ∧ ∀ (b : Bool) (s : State), s.ready = true → s.atAllocBoundary = false → Idles (.allocationBoundary b) s

/-- The fast-cap contact, GRID_CAP and its hold, the release hold and OUTLET_POLICY each set what they say -/
def Obligations.CapsHoldsAndPolicies : Prop :=
  (∀ (contact : Nat) (level : Bool) (s : State), s.pwr.undefinedLogic = false → Runs (.fastCapChange contact level) s [.alloc] fun t =>
      (∃ g, t.alloc = { s.alloc with gpio := g } ∧ ∀ k, k < 24 → g.getLsbD k = if k = contact then level else s.alloc.gpio.getLsbD k)
      ∧ t.fastActive = (decide (s.fastCapGpio < 24)
          && ((if s.fastCapGpio = contact then level else s.alloc.gpio.getLsbD s.fastCapGpio) == s.fastCapActiveHigh)))
  ∧ (∀ (kw : Nat) (s : State), s.ready = true → s.alloc.hostCap = some (kw, true) → s.alloc.holdUntil ≤ s.now →
      Runs .gridCapHoldExpiry s [.alloc] fun t => t.alloc = { s.alloc with hostCap := none })
  ∧ (∀ s : State, s.ready = true → (∀ kw, s.alloc.hostCap ≠ some (kw, true)) ∨ s.now < s.alloc.holdUntil → Idles .gridCapHoldExpiry s)
  ∧ (∀ (o : Nat) (s : State), s.ready = true → Runs (.releaseHoldExpiry o) s [.alloc] fun t =>
      t.alloc = { s.alloc with outlets := upd s.alloc.outlets o fun a => { a with
        surplusOver := match a.surplusAt with
          | some x => decide (x + s.releaseHoldMs * 1000000 ≤ s.now)
          | none => false } })
  ∧ (∀ (d : Desc) (s : State), admits gridCapInfo d s = true →
      Finishes (.gridCap d) d s stOk (if s.fastActive then min s.fastCapKw (d.w 8) else d.w 8) [.alloc] fun u =>
        u.alloc = { s.alloc with hostCap := some (d.w 8, d.w 12 != 0), holdUntil := s.now + d.w 12 * 1000000 })
  ∧ ∀ (d : Desc) (s : State), admits outletPolicyInfo d s = true →
      Finishes (.outletPolicy d) d s stOk 0 [.alloc] fun u =>
        u.alloc = { s.alloc with outlets := upd s.alloc.outlets d.ix fun a => { a with policy := some (d.b 8, d.b 9, d.h 10) } }

/-- A set-point port forgets at link-up, ignores, discards, repeats or takes a TARGET, sends STATUS, and stops its outlet at a timeout -/
def Obligations.PortFramesAreTakenInTurn : Prop :=
  (∀ (o : Nat) (s : State), s.ready = true → o < 8 →
      ((s.path o).linkUp = false → GoesVia (.spLinkUp o) s [.outs, .freeIx, .flt, .paths, .pair, .acq, .rcd] fun u => Arose (8 + o) 1 o [] s u
          ∧ u.paths = upd s.paths o fun p => { p with linkUp := true, lastNew := none, held := none })
      ∧ ((s.path o).linkUp = true → Rests (.spLinkUp o) s)
      ∧ ((s.path o).linkUp = true → GoesVia (.spLinkDown o) s [.outs, .freeIx, .flt, .paths, .pair, .acq, .rcd] fun u => Arose (8 + o) 2 o [] s u
          ∧ u.paths = upd s.paths o fun p => { p with linkUp := false })
      ∧ ((s.path o).linkUp = false → Rests (.spLinkDown o) s)
      ∧ (s.outActive o = true → Runs (.statusPeriod o) s [.outs] fun t => ∃ f, t.outs = .sp o f :: s.outs ∧ f.length = 24 ∧ u8 f 0 = 4
          ∧ u8 f 1 % 8 = o ∧ u16 f 2 = (s.path o).lastAcc.toNat ∧ u8 f 4 = (s.path o).state.code ∧ u8 f 5 = (s.demand o).code
          ∧ u32 f 20 = crc32c (f.take 20) % 2 ^ 32)
      ∧ (s.outActive o = false → Idles (.statusPeriod o) s)
      ∧ ((s.path o).state ≠ .idle → s.portSource o = true → (s.path o).frameAt + s.portTimeoutMs * 1000000 ≤ s.now →
          GoesVia (.portTimeout o) s [.outs, .flt, .paths, .pair, .acq, .rcd] fun u => Arose (8 + o) 3 o [] s u
          ∧ (u.path o).tgt = none ∧ ((s.path o).state.started = true → (u.path o).state = .stopping)
          ∧ ((s.path o).state.started = false → (u.path o).state = (s.path o).state))
      ∧ ((s.path o).state = .idle ∨ s.portSource o = false ∨ s.now < (s.path o).frameAt + s.portTimeoutMs * 1000000 → Rests (.portTimeout o) s))
  ∧ (∀ (o : Nat) (f : List Byte) (s : State), s.ready = true → 8 ≤ o →
      ∀ c ∈ [Instr.spLinkUp o, .spLinkDown o, .statusPeriod o, .portTimeout o, .targetStop o f, .targetConnect o f, .targetCheck o f,
        .targetPrecharge o f, .targetCharge o f, .targetPause o f], Idles c s)
  ∧ ∀ mk ∈ [Instr.targetStop, Instr.targetConnect, Instr.targetCheck, Instr.targetPrecharge, Instr.targetCharge, Instr.targetPause],
    ∀ (o : Nat) (f : List Byte) (s : State), s.ready = true → o < 8 →
      ((s.outActive o = false ∨ (s.path o).linkUp = false) → Rests (mk o f) s)
      ∧ (s.outActive o = true → (s.path o).linkUp = true →
          (frameValid o f = false → GoesVia (mk o f) s [.flt, .paths] fun u =>
            u.paths = upd s.paths o fun p => { p with frameErrors := satAdd 16 p.frameErrors 1 })
          ∧ (frameValid o f = true → isNew (s.path o) f = false → (s.path o).lastNew ≠ some (tSeq f) → GoesVia (mk o f) s [.flt, .paths] fun u =>
            u.paths = upd s.paths o fun p => { p with frameAt := s.now, frameErrors := satAdd 16 p.frameErrors 1 })
          ∧ (frameValid o f = true → isNew (s.path o) f = false → (s.path o).lastNew = some (tSeq f) → GoesVia (mk o f) s [.outs, .paths] fun u =>
            u.paths = upd s.paths o (fun p => { p with frameAt := s.now })
            ∧ (∀ a, (s.path o).held = some a → s.leaseHere = true → u.outs = .sp o a :: s.outs)
            ∧ ((s.path o).held = none ∨ s.leaseHere = false → u.outs = s.outs))
          ∧ (frameValid o f = true → isNew (s.path o) f = true →
            GoesVia (mk o f) s [.outs, .freeIx, .flt, .prof, .paths, .pair, .acq, .rcd] fun u => (u.path o).lastNew = some (tSeq f) ∧ (u.path o).frameAt = s.now
              ∧ (∀ k, k ≠ o → u.path k = s.path k)
              ∧ (s.portSource o = false → (u.path o).state = (s.path o).state ∧ (u.path o).tgt = (s.path o).tgt
                ∧ (u.path o).naks = satAdd 16 (s.path o).naks 1 ∧ (u.path o).held = some (nakFrame o f 8 0)
                ∧ (s.leaseHere = true → ∃ rest, u.outs = rest ++ .sp o (nakFrame o f 8 0) :: s.outs))
              ∧ (s.portSource o = true → (s.prof.lock && tCmd f == 1 && (s.path o).state == .idle) = true →
                (o, f) ∈ u.prof.waiting ∧ (u.path o).state = .idle
                ∧ ∀ w, s.prof.waiting.find? (·.1 == o) = some w → s.leaseHere = true →
                    ∃ rest, u.outs = rest ++ .sp o (nakFrame o w.2 3 (tSeq f).toNat) :: s.outs)
              ∧ (s.portSource o = true → (s.prof.lock && tCmd f == 1 && (s.path o).state == .idle) = false →
                (∀ r d, targetRefusal o f s = some (r, d) →
                  (u.path o).lastAnswer = some { ack := false, cmd := tCmd f, reason := r, detail := d }
                  ∧ (u.path o).state = (s.path o).state ∧ (u.path o).tgt = (s.path o).tgt ∧ (u.path o).req = (s.path o).req
                  ∧ (s.leaseHere = true → ∃ rest, u.outs = rest ++ .sp o (nakFrame o f r d) :: s.outs))
                ∧ (targetRefusal o f s = none → (u.path o).lastAcc = tSeq f ∧ (u.path o).req = tRequest f
                  ∧ ((s.path o).state ≠ .faulted → ∃ t, (u.path o).tgt = some t ∧ t.bytes = f ∧ t.acceptedAt = s.now)
                  ∧ (tCmd f = 0 → (s.path o).state.started = true → (u.path o).state = .stopping)
                  ∧ (tCmd f = 1 → (s.path o).state = .idle → (u.path o).state = .connecting)
                  ∧ (tCmd f = 1 → (s.path o).state ≠ .idle → (u.path o).state = (s.path o).state ∧ (u.path o).heldConnect = true)
                  ∧ (tCmd f = 2 → (u.path o).state = .check) ∧ (tCmd f = 3 → (u.path o).state = .precharge)
                  ∧ (tCmd f = 4 → (u.path o).state = .deliver) ∧ (tCmd f = 5 → (u.path o).state = .paused)))))

/-- An open TARGET is acknowledged once in its band for its hold time and refused at its deadline, and each generator tick advances both axes of every outlet -/
def Obligations.TargetsAreAnsweredAndTheGeneratorTicks : Prop :=
  (∀ (o : Nat) (t : OpenTarget) (s : State), s.ready = true → o < 8 → (s.path o).tgt = some t →
      (inBand s o (tCmd t.bytes) = true → heldFor (s.path o).bandAt (s.ackHoldNs o) s.now = true → GoesVia (.ackDecision o) s [.outs, .paths, .pair] fun u =>
          (u.path o).tgt = none
          ∧ (u.path o).answered = tSeq t.bytes ∧ (u.path o).lastAnswer = some { ack := true, cmd := tCmd t.bytes, reason := 0, detail := 0 }
          ∧ (u.path o).state = (s.path o).state ∧ (u.path o).naks = (s.path o).naks ∧ ∀ k, k ≠ o → u.path k = s.path k)
      ∧ (inBand s o (tCmd t.bytes) = false ∨ heldFor (s.path o).bandAt (s.ackHoldNs o) s.now = false → Rests (.ackDecision o) s)
      ∧ (2 ≤ tCmd t.bytes → tCmd t.bytes ≤ 5 → s.overdue o t = true → GoesVia (.notReached o) s [.outs, .paths, .pair] fun u => (u.path o).tgt = none
          ∧ (u.path o).lastAnswer = some { ack := false, cmd := tCmd t.bytes, reason := 4, detail := 0 }
          ∧ (u.path o).state = (s.path o).state ∧ (u.path o).iAxis = (s.path o).iAxis ∧ (u.path o).vAxis = (s.path o).vAxis
          ∧ (u.path o).iEff = (s.path o).iEff ∧ (u.path o).vEff = (s.path o).vEff ∧ (u.path o).naks = satAdd 16 (s.path o).naks 1
          ∧ ∀ k, k ≠ o → u.path k = s.path k)
      ∧ (tCmd t.bytes < 2 ∨ 5 < tCmd t.bytes ∨ s.overdue o t = false → Rests (.notReached o) s))
  ∧ (∀ (o : Nat) (s : State), s.ready = true → o < 8 → (s.path o).tgt = none → Rests (.ackDecision o) s ∧ Rests (.notReached o) s)
  ∧ (∀ (o : Nat) (s : State), s.ready = true → 8 ≤ o → Idles (.ackDecision o) s ∧ Idles (.notReached o) s)
  ∧ ∀ s : State, s.ready = true → Runs .generatorTick s [.flt, .stages, .paths, .acq, .rcd] fun t => ∀ o, o < 8 →
      (t.path o).iAxis = (s.path o).iAxis.tick ((s.path o).slew false) ∧ (t.path o).vAxis = (s.path o).vAxis.tick ((s.path o).slew true)
      ∧ (t.path o).state = (s.path o).state ∧ (t.path o).retargets = (s.path o).recent s.now
      ∧ (t.path o).tgt = ((s.path o).tgt.map fun x => { x with startAt := some (noneTo s.now x.startAt) })
      ∧ ((s.path o).fallback = 3 → ((s.path o).recent s.now).length ≤ 32 → (t.path o).fallback = 0 ∧ Posted o 0x41 o s t)
      ∧ ((s.path o).fallback ≠ 3 ∨ 32 < ((s.path o).recent s.now).length → (t.path o).fallback = (s.path o).fallback)
      ∧ ((s.path o).state = .connecting → (t.path o).matchAt = s.now ∧ ((s.steadyStages o).isEmpty = true → (t.path o).matchFrom = 0))

/-- The path closes its contactor at a match, and stops through STOPPING and DISCHARGING to IDLE, or faults at a time limit -/
def Obligations.PathsStartAndStop : Prop :=
  (∀ (o : Nat) (s : State), s.ready = true → o < 8 →
    (s.inletMatched o = true → heldFor (s.path o).nearAt 1000000 s.now = true → GoesVia (.connectMatch o) s [.paths] fun u =>
        u.paths = upd s.paths o fun p => if p.drive = true then p else { p with drive := true, driveAt := s.now, opened := false })
    ∧ (s.inletMatched o = false ∨ heldFor (s.path o).nearAt 1000000 s.now = false → Rests (.connectMatch o) s)
    ∧ ((s.path o).state = .connecting → (s.path o).drive = true → s.mayVerify o = true → GoesVia (.contactorVerifiedClosed o) s [.outs, .flt, .paths, .pair, .acq, .rcd] fun u =>
        (u.path o).state = .connected ∧ (u.path o).closed = true ∧ (u.path o).iAxis = (s.path o).iAxis.setTo 0
        ∧ (u.path o).vAxis = (s.path o).vAxis.setTo (tenths (s.inletDv o)) ∧ (u.path o).tgt = none
        ∧ (∀ t, (s.path o).tgt = some t → (u.path o).lastAnswer = some { ack := true, cmd := tCmd t.bytes, reason := 0, detail := 0 })
        ∧ ∀ k, k ≠ o → u.path k = s.path k)
    ∧ (((s.path o).state ≠ .connecting ∨ (s.path o).drive = false ∨ s.mayVerify o = false) → Rests (.contactorVerifiedClosed o) s)
    ∧ ((s.path o).state = .connecting → (s.path o).since + s.connectTimeoutMs o * 1000000 ≤ s.now → GoesVia (.connectTimeout o) s [.outs, .flt, .paths, .pair, .acq, .rcd] fun u =>
        (u.path o).state = .stopping ∧ (u.path o).tgt = none
        ∧ (∀ t, (s.path o).tgt = some t → (u.path o).lastAnswer
            = some { ack := false, cmd := tCmd t.bytes, reason := if (s.steadyStages o).isEmpty then 6 else 4, detail := 0 })
        ∧ ∀ k, k ≠ o → u.path k = s.path k)
    ∧ ((s.path o).state ≠ .connecting ∨ s.now < (s.path o).since + s.connectTimeoutMs o * 1000000 → Rests (.connectTimeout o) s)
    ∧ ((s.path o).state = .connecting → (s.path o).drive = true → (s.path o).closed = false → s.driveHeld o (s.outletOperateMs o + 1) = true →
        GoesVia (.contactorCloseTimeout o) s [.outs, .flt, .paths, .pair, .acq, .rcd] fun u => Posted o 0x44 o s u
          ∧ (u.path o).state = .faulted ∧ (u.path o).drive = false ∧ (u.path o).tgt = none
          ∧ (∀ t, (s.path o).tgt = some t → (u.path o).lastAnswer = some { ack := false, cmd := tCmd t.bytes, reason := 9, detail := 1 })
          ∧ ∀ k, k ≠ o → u.path k = s.path k)
    ∧ ((s.path o).state ≠ .connecting ∨ (s.path o).drive = false ∨ (s.path o).closed = true ∨ s.driveHeld o (s.outletOperateMs o + 1) = false →
        Rests (.contactorCloseTimeout o) s)
    ∧ ((s.path o).state = .stopping → (s.iMeasQ o).natAbs ≤ 64 → GoesVia (.outletCurrentLow o) s [.flt, .paths, .acq, .rcd] fun u =>
        (u.path o).state = .discharging ∧ (u.path o).drive = false
        ∧ ((s.path o).opened = true → (u.path o).discharge = some (s.now, s.busQ o))
        ∧ ((s.path o).opened = false → (u.path o).discharge = (s.path o).discharge) ∧ ∀ k, k ≠ o → u.path k = s.path k)
    ∧ (((s.path o).state ≠ .stopping ∨ 64 < (s.iMeasQ o).natAbs) → Rests (.outletCurrentLow o) s)
    ∧ ((s.path o).drive = false → s.mayVerify o = true → GoesVia (.contactorVerifiedOpen o) s [.paths] fun u => u.paths = upd s.paths o fun p => { p with
        closed := false, opened := true
        discharge := if p.state = .discharging ∧ p.discharge = none then some (s.now, s.busQ o) else p.discharge })
    ∧ ((s.path o).drive = true ∨ s.mayVerify o = false → Rests (.contactorVerifiedOpen o) s)
    ∧ ((s.path o).state = .discharging → (s.path o).opened = false → s.driveHeld o (s.outletOperateMs o + 1) = true →
        GoesVia (.contactorOpenTimeout o) s [.outs, .flt, .stages, .paths, .pair, .acq, .rcd] fun u => Posted o 0x44 o s u ∧ (u.path o).state = .faulted ∧ (u.path o).tgt = none
          ∧ (∀ i ∈ s.heldStages o, (u.stage i).xfer = .blocked ∧ ((s.stage i).xfer ≠ .blocked → (u.stage i).outEn = false))
          ∧ ∀ k, k ≠ o → u.path k = s.path k)
    ∧ ((s.path o).state ≠ .discharging ∨ (s.path o).opened = true ∨ s.driveHeld o (s.outletOperateMs o + 1) = false → Rests (.contactorOpenTimeout o) s)
    ∧ ((s.path o).state = .discharging → (s.steadyStages o).isEmpty = true ∨ (s.busLow o = true ∧ heldFor (s.path o).lowAt 1000000 s.now = true) →
        GoesVia (.dischargeReached o) s [.paths] fun u => u.paths = upd s.paths o fun p => { p with dischargeDone := true })
    ∧ ((s.path o).state ≠ .discharging ∨ ((s.steadyStages o).isEmpty = false ∧ (s.busLow o = false ∨ heldFor (s.path o).lowAt 1000000 s.now = false)) →
        Rests (.dischargeReached o) s)
    ∧ ((s.path o).state = .discharging ∧ s.outletOpen o = true ∨ (s.path o).state = .faulted ∧ s.faultEnd o = true ∧ openCmd (s.path o) = some 0 →
        GoesVia (.dischargeComplete o) s [.outs, .flt, .paths, .pair, .acq, .rcd] fun u =>
        (u.path o).state = (if (s.path o).heldConnect then .connecting else .idle) ∧ (u.path o).discharge = none ∧ (u.path o).iEff = 0
        ∧ (u.path o).vEff = 0 ∧ (u.path o).halted = ((s.path o).halted && !(s.path o).resumeDeferred) ∧ (u.path o).heldConnect = false
        ∧ (∀ t, (s.path o).tgt = some t → tCmd t.bytes = 0 → (u.path o).tgt = none
            ∧ (u.path o).lastAnswer = some { ack := true, cmd := 0, reason := 0, detail := 0 }) ∧ ∀ k, k ≠ o → u.path k = s.path k)
    ∧ ((s.path o).state = .faulted → s.faultEnd o = true → openCmd (s.path o) ≠ some 0 → GoesVia (.dischargeComplete o) s [.paths] fun u =>
        u.paths = upd s.paths o fun p => { p with halted := p.halted && !p.resumeDeferred, resumeDeferred := false })
    ∧ (((s.path o).state ≠ .discharging ∨ s.outletOpen o = false) → ((s.path o).state ≠ .faulted ∨ s.faultEnd o = false) → Rests (.dischargeComplete o) s)
    ∧ ((s.path o).state = .stopping → (s.path o).since + s.stopTimeoutMs o * 1000000 ≤ s.now → GoesVia (.stopTimeout o) s [.outs, .flt, .stages, .paths, .pair, .acq, .rcd] fun u =>
        Posted o 0x43 o s u ∧ (u.path o).state = .faulted ∧ (u.path o).drive = false ∧ (u.path o).tgt = none
        ∧ (∀ i ∈ s.heldStages o, (u.stage i).xfer = .blocked) ∧ ∀ k, k ≠ o → u.path k = s.path k)
    ∧ ((s.path o).state = .discharging → (s.path o).since + s.stopTimeoutMs o * 1000000 ≤ s.now → GoesVia (.stopTimeout o) s [.outs, .flt, .stages, .paths, .pair, .acq, .rcd] fun u =>
        Posted o 0x43 o s u ∧ (u.path o).state = .faulted ∧ u.stages = s.stages ∧ ∀ k, k ≠ o → u.path k = s.path k)
    ∧ (((s.path o).state ≠ .stopping ∧ (s.path o).state ≠ .discharging) ∨ s.now < (s.path o).since + s.stopTimeoutMs o * 1000000 → Rests (.stopTimeout o) s))
  ∧ ∀ (o : Nat) (s : State), s.ready = true → 8 ≤ o →
      ∀ c ∈ [Instr.connectMatch o, .contactorVerifiedClosed o, .connectTimeout o, .contactorCloseTimeout o, .outletCurrentLow o, .contactorVerifiedOpen o,
        .contactorOpenTimeout o, .dischargeReached o, .dischargeComplete o, .stopTimeout o], Idles c s

/-- A short at start faults the outlet, an implausible stage stops, a failed phase drops, and an outlet halts and resumes -/
def Obligations.ShortsPhasesAndOutletHalts : Prop :=
  (∀ (i : Nat) (s : State), s.ready = true → i < 32 →
      (s.shorted i = true → heldFor (s.stage i).shortAt 2000000 s.now = true →
        ((s.stage i).xfer = .tracking → GoesVia (.shortAtStart i) s [.outs, .flt, .stages, .paths, .pair, .acq, .rcd] (TransferFails i 9 s))
        ∧ (∀ o, (s.stage i).xfer ≠ .tracking → (s.stage i).outlet = some o → GoesVia (.shortAtStart i) s [.outs, .flt, .stages, .paths, .pair, .acq, .rcd] fun u =>
            Arose o 0x42 o (toLE 1 i) s u ∧ (u.path o).state = .faulted ∧ (u.path o).drive = false ∧ (u.path o).tgt = none
            ∧ (∀ k ∈ s.heldStages o, (u.stage k).outEn = false) ∧ ∀ k, k ≠ o → u.path k = s.path k))
      ∧ (s.shorted i = false ∨ heldFor (s.stage i).shortAt 2000000 s.now = false → Rests (.shortAtStart i) s)
      ∧ (s.stPresent i = true → sumImplausible s i = true → ((List.range 4).filter (senseFailed s i)) = [] →
          GoesVia (.phaseCheckWindow i) s [.outs, .flt, .stages, .paths, .pair, .acq, .rcd] fun u => Posted (24 + i / 4) 0x22 i s u
            ∧ (u.stage i).xfer = .blocked ∧ (u.stage i).dropped = (s.stage i).dropped ∧ (u.stage i).win = {})
      ∧ (s.stPresent i = true → (sumImplausible s i = false ∨ ∃ k, k < 4 ∧ senseFailed s i k = true) → i < s.stages.length →
          GoesVia (.phaseCheckWindow i) s [.outs, .flt, .stages, .paths, .pair, .acq, .rcd] fun u => (u.stage i).win = {} ∧ ∀ k, k < 4 → (u.stage i).dropped.getLsbD k
            = ((s.stage i).dropped.getLsbD k || ((s.runMask i).getLsbD k
                && (senseFailed s i k || (!sumImplausible s i && senseLow s i k)))))
      ∧ (s.stPresent i = false → Rests (.phaseCheckWindow i) s)
      ∧ (∀ k, k < 4 → senseFailed s i k = true → i < s.stages.length → GoesVia (.phaseSenseFailed i k) s [.outs, .flt, .stages, .paths, .pair, .acq, .rcd] fun u =>
          Posted (24 + i / 4) 0x21 i s u ∧ (u.stage i).dropped = (s.stage i).dropped ||| BitVec.ofNat 4 (2 ^ k)
            ∧ (u.stage i).lost = (s.stage i).lost ||| BitVec.ofNat 4 (2 ^ k)))
  ∧ (∀ (i k : Nat) (s : State), s.ready = true → 32 ≤ i ∨ 4 ≤ k ∨ senseFailed s i k = false → Idles (.phaseSenseFailed i k) s)
  ∧ (∀ (i : Nat) (s : State), s.ready = true → 32 ≤ i → Idles (.shortAtStart i) s ∧ Idles (.phaseCheckWindow i) s)
  ∧ (∀ (d : Desc) (s : State), admits (haltInfo 0x07 false) d s = true → d.ix < s.paths.length →
      Finishes (.outletHalt d) d s stOk 0 [.outs, .freeIx, .flt, .stages, .alloc, .paths, .pair, .acq, .met, .veh, .rcd] fun u => ∃ v, u = settleVehicles v ∧ Kept [.outs, .freeIx, .flt, .stages, .alloc, .paths, .pair, .acq, .met, .veh, .rcd] (fetched d s) v
        ∧ (v.path d.ix).halted = true ∧ (v.path d.ix).haltReason = d.b 9 ∧ (v.path d.ix).resumeDeferred = false
        ∧ ((s.path d.ix).state.started = true → (v.path d.ix).state = .stopping ∧ (v.path d.ix).tgt = none
            ∧ (d.b 8 = 1 → (v.path d.ix).iAxis = (s.path d.ix).iAxis.setTo 0))
        ∧ ((s.path d.ix).state.started = false → (v.path d.ix).state = (s.path d.ix).state)
        ∧ (∀ i, i < 32 → (s.stage i).inTransfer = true → (s.stage i).dest = some d.ix → (v.stage i).xfer = .steady ∧ (v.stage i).dest = none ∧ Posted 36 6 i s v)
        ∧ (∀ i, (s.stage i).inTransfer = false ∨ (s.stage i).dest ≠ some d.ix → v.stage i = s.stage i)
        ∧ ∀ k, k ≠ d.ix → v.path k = s.path k)
  ∧ ∀ (d : Desc) (s : State), admits (resumeInfo 0x08 false) d s = true →
      ((s.path d.ix).halted = false → s.haltWaits 7 d.ix = false → exec (.outletResume d) s = .next (settle (completeDesc d stOk 0 (fetched d s))))
      ∧ ((s.path d.ix).halted = true ∨ s.haltWaits 7 d.ix = true → s.pathSafeEnd d.ix = true → Finishes (.outletResume d) d s stOk 0 [.paths] fun u =>
          u.paths = upd s.paths d.ix fun p => { p with halted := false, resumeDeferred := false })
      ∧ ((s.path d.ix).halted = true ∨ s.haltWaits 7 d.ix = true → s.pathSafeEnd d.ix = false → Finishes (.outletResume d) d s stDeferred 0 [.paths] fun u =>
          u.paths = upd s.paths d.ix fun p => { p with resumeDeferred := true })

/-- Each period sends a DOWNLINK or HOLD frame on every lane that runs and latches one usable UPLINK of each -/
def Obligations.LanePeriodsCarryFrames : Prop :=
  (∀ (inc : Half) (s : State), s.ready = true → s.lanes.lane.length = 16 → Runs (.downlinkSend inc) s [.outs, .freeIx, .pwr, .host, .flt, .prof, .stages, .alloc, .paths, .law, .lanes, .pair, .acq, .sw, .met, .veh, .can, .rcd, .auth, .opState, .rings, .faults] fun t =>
      t.lanes.q = (if s.lanes.ticking then s.lanes.q + 1 else s.lanes.q) ∧ t.lanes.ticking = true ∧ t.lanes.boundary = s.now
      ∧ (∀ n, n < 16 → (s.lane n).sends = true → ∃ f, .lane n (if inc.getLsbD n then 5 else 1) f ∈ t.outs
          ∧ f.length = (if inc.getLsbD n then 3 else 11) ∧ bits (blk f 0) 0 8 = (if inc.getLsbD n then 5 else 1)
          ∧ bits (blk f 0) 16 4 = n ∧ frSeq f = t.lanes.q ∧ f.getLast? = some (crcBlock f.dropLast) ∧ (t.lane n).lastDown = f
          ∧ (t.lane n).holdFrames = (if inc.getLsbD n then satAdd 16 (s.lane n).holdFrames 1 else (s.lane n).holdFrames))
      ∧ (∀ n, (s.lane n).sends = false → t.lane n = s.lane n)
      ∧ (s.thm.halting.isSome = true → s.running = true → t.pwr.opState = .safe ∧ ∀ i, i < 32 → (t.stage i).outEn = false))
  ∧ (∀ (n : Nat) (type : Byte) (b : List Block) (s : State), s.ready = true →
      (n < 16 → (s.lane n).state ≠ .unused → uplinkOk n type b = true → Runs (.uplinkReceive n type b) s [.lanes] fun t =>
          t.lanes = { s.lanes with lane := upd s.lanes.lane n fun l => { l with arrived := l.arrived ++ [b] } })
      ∧ (n < 16 → (s.lane n).state ≠ .unused → uplinkOk n type b = false → Runs (.uplinkReceive n type b) s [.flt, .lanes] fun t =>
          t.lanes = { s.lanes with lane := upd s.lanes.lane n fun l => { l with crcErrors := satAdd 16 l.crcErrors 1 } })
      ∧ ((16 ≤ n ∨ (s.lane n).state = .unused) → Idles (.uplinkReceive n type b) s))
  ∧ (∀ (n : Nat) (s : State), s.ready = true → 16 ≤ n → Latches n s [] fun u => u = s)
  ∧ ∀ (n : Nat) (s : State), s.ready = true → n < 16 →
      ((s.lane n).state = .active → ∀ b, ((s.lane n).arrived.find? fun b => frSeq b == s.lanes.q) = some b →
          Latches n s [.outs, .flt, .stages, .alloc, .paths, .lanes, .pair, .acq, .thm, .rcd] fun u => (u.lane n).lastUp = b ∧ (u.lane n).missRun = 0 ∧ (u.lane n).arrived = []
            ∧ (u.lane n).state = .active ∧ (u.lane n).missing = (s.lane n).missing ∧ ((u.lane n).xpFb).toNat = bits (blk b 31) 0 16
            ∧ (u.lane n).seqErrors = satAdd 16 (s.lane n).seqErrors ((s.lane n).arrived.filter fun b => frSeq b != s.lanes.q && frSeq b != s.lanes.q - 1).length
            ∧ ∀ k, k ≠ n → u.lane k = s.lane k)
      ∧ ((s.lane n).state = .active → ((s.lane n).arrived.find? fun b => frSeq b == s.lanes.q) = none →
          Latches n s [.outs, .flt, .stages, .alloc, .paths, .lanes, .pair, .acq, .thm, .rcd] fun u => (u.lane n).lastUp = (s.lane n).lastUp
            ∧ (u.lane n).missing = satAdd 16 (s.lane n).missing 1 ∧ (u.lane n).missRun = (s.lane n).missRun + 1 ∧ (u.lane n).arrived = []
            ∧ ((s.lane n).missRun = 0 → Arose (24 + n / 2) 0x0B n (toLE 2 s.lanes.q.toNat) s u)
            ∧ (s.laneInUse n = true → u.pair.lossNow = true) ∧ ∀ k, k ≠ n → u.lane k = s.lane k)
      ∧ (∀ k, (s.lane n).state = .down → (s.lane n).train = .running k →
          (((s.lane n).arrived.find? fun b => frSeq b == s.lanes.q) = none → Latches n s [.outs, .flt, .stages, .alloc, .paths, .lanes, .pair, .acq, .thm, .rcd] fun u =>
            (u.lane n).train = .running 0 ∧ (u.lane n).state = .down ∧ (u.lane n).arrived = [])
          ∧ (∀ b, ((s.lane n).arrived.find? fun b => frSeq b == s.lanes.q) = some b → Latches n s [.outs, .flt, .stages, .alloc, .paths, .lanes, .pair, .acq, .thm, .rcd] fun u =>
            (u.lane n).train = .running (k + 1) ∧ (u.lane n).state = (if 15 ≤ k then .active else .down) ∧ (u.lane n).arrived = []
            ∧ (15 ≤ k → Posted (24 + n / 2) 1 n s u)))
      ∧ ((s.lane n).sends = false → Latches n s [.outs, .flt, .stages, .alloc, .paths, .lanes, .pair, .acq, .thm, .rcd] fun u => (u.lane n).arrived = [] ∧ (u.lane n).state = (s.lane n).state
          ∧ (u.lane n).lastUp = (s.lane n).lastUp ∧ ∀ k, k ≠ n → u.lane k = s.lane k)

/-- A lane trains by measurement rounds into its period, is refused for its latency or a node mismatch, and goes DOWN when it is lost -/
def Obligations.LanesTrainAndFail : Prop :=
  (∀ (n : Nat) (s : State), s.ready = true → n < 16 →
      ((s.lane n).state = .active →
        (3 ≤ (s.lane n).missRun → Through settleVehicles (.laneLost n) s [.outs, .flt, .stages, .paths, .lanes, .pair, .acq, .rcd] fun u => Arose (24 + n / 2) 2 n (toLE 1 1) s u
          ∧ (u.lane n).state = .down ∧ (u.lane n).train = .idle ∧ (u.lane n).losses = satAdd 16 (s.lane n).losses 1 ∧ (u.lane n).arrived = []
          ∧ (u.lane n).trainAt = s.now ∧ (∀ k, k ≠ n → u.lane k = s.lane k)
          ∧ (s.pair.linkUp = false → 2 * n + 1 < s.stages.length → (u.stage (2 * n)).xfer = .blocked ∧ (u.stage (2 * n + 1)).xfer = .blocked)
          ∧ (s.member = true → s.pair.auth = false → s.pair.linkUp = true → s.pair.peerLanes.getLsbD n = true →
              ∀ i, (u.stage i).xfer = (s.stage i).xfer ∧ (u.stage i).outEn = (s.stage i).outEn))
        ∧ Through settleVehicles (.blockLockLoss n) s [.outs, .flt, .stages, .paths, .lanes, .pair, .acq, .rcd] fun u => Arose (24 + n / 2) 2 n (toLE 1 2) s u
          ∧ (u.lane n).state = .down ∧ (u.lane n).blockLock = false ∧ (u.lane n).losses = satAdd 16 (s.lane n).losses 1)
      ∧ (((s.lane n).state ≠ .active ∨ (s.lane n).missRun < 3) → Idles (.laneLost n) s)
      ∧ ((s.lane n).state = .down → Runs (.blockLockLoss n) s [.lanes] fun t =>
          t.lanes = { s.lanes with lane := upd s.lanes.lane n fun l => { l with blockLock := false, train := .idle } })
      ∧ (((s.lane n).state = .unused ∨ (s.lane n).state = .refused) → Runs (.blockLockLoss n) s [.lanes] fun t =>
          t.lanes = { s.lanes with lane := upd s.lanes.lane n fun l => { l with blockLock := false } })
      ∧ ((s.lane n).state ≠ .unused → Runs (.blockLock n) s [.lanes] fun t =>
          t.lanes = { s.lanes with lane := upd s.lanes.lane n fun l => { l with blockLock := true } })
      ∧ ((s.lane n).state = .unused → Idles (.blockLock n) s)
      ∧ (∀ r, (s.lane n).state = .down → (s.lane n).blockLock = true → (s.lane n).trainAt ≤ s.now → (s.lane n).train.request = some r →
          Runs (.trainReqSend n) s [.outs, .lanes] fun t => (∃ f, t.outs = .lane n 3 f :: s.outs ∧ f.length = 4 ∧ bits (blk f 0) 16 4 = n
              ∧ bits (blk f 1) 0 32 = s.now % 2 ^ 32 ∧ f.getLast? = some (crcBlock f.dropLast))
            ∧ t.lanes = { s.lanes with lane := upd s.lanes.lane n fun l => { l with train := l.train.sent, t1 := s.now, round := r } })
      ∧ (((s.lane n).state ≠ .down ∨ (s.lane n).blockLock = false ∨ s.now < (s.lane n).trainAt ∨ (s.lane n).train.request = none) → Idles (.trainReqSend n) s)
      ∧ ((s.lane n).state = .down → (s.lane n).trainAt + 2000000 ≤ s.now → Runs (.trainTimeout n) s [.flt, .lanes, .acq, .rcd] fun t =>
          t.lanes = { s.lanes with lane := upd s.lanes.lane n fun l => { l with train := .idle, trainAt := s.now + 10000000, trainFailRun := true } }
          ∧ ((s.lane n).trainFailRun = false → Arose (24 + n / 2) 5 n (toLE 1 0) s t) ∧ ((s.lane n).trainFailRun = true → t.flt = s.flt))
      ∧ ((s.lane n).state ≠ .down ∨ s.now < (s.lane n).trainAt + 2000000 → Idles (.trainTimeout n) s)
      ∧ ((s.lane n).state = .refused → (s.lane n).trainAt + 1000000000 ≤ s.now → Runs (.refusedRetry n) s [.outs, .lanes, .pair] fun t =>
          t.lanes = { s.lanes with lane := upd s.lanes.lane n fun l => { l with state := .down, train := .idle, trainAt := s.now } })
      ∧ ((s.lane n).state ≠ .refused ∨ s.now < (s.lane n).trainAt + 1000000000 → Idles (.refusedRetry n) s))
  ∧ (∀ (n : Nat) (type : Byte) (b : List Block) (at_ : Nat) (s : State), s.ready = true → n < 16 →
      ((s.lane n).state = .unused → Through settleLock (.trainAck n type b at_) s [] fun u => u = s)
      ∧ ((s.lane n).state ≠ .unused → trainAckOk n type b = false → Through settleLock (.trainAck n type b at_) s [.flt, .lanes] fun t =>
          t.lanes = { s.lanes with lane := upd s.lanes.lane n fun l => { l with crcErrors := satAdd 16 l.crcErrors 1 } })
      ∧ (trainAckOk n type b = true → (s.lane n).state ≠ .unused → ((s.lane n).state ≠ .down ∨ bits (blk b 0) 40 8 ≠ (s.lane n).round
            ∨ bits (blk b 1) 0 32 ≠ (s.lane n).t1 % 2 ^ 32 ∨ (s.lane n).train = .idle ∨ ∃ k, (s.lane n).train = .running k) →
          Through settleLock (.trainAck n type b at_) s [] fun u => u = s)
      ∧ (trainAckOk n type b = true → (s.lane n).state = .down → bits (blk b 0) 40 8 = (s.lane n).round →
          bits (blk b 1) 0 32 = (s.lane n).t1 % 2 ^ 32 →
          (∀ next rtts, (s.lane n).train = .rounds next rtts →
            let rtt : Int := at_ - (s.lane n).t1 - (bits (blk b 1) 32 11 : Nat)
            let all := rtts ++ [rtt]
            (all.length < 16 → Through settleLock (.trainAck n type b at_) s [.lanes] fun t => (t.lane n).train = .rounds next all ∧ ∀ k, k ≠ n → t.lane k = s.lane k)
            ∧ (16 ≤ all.length → 20 < rttSpread all → Through settleLock (.trainAck n type b at_) s [.lanes] fun t =>
                (t.lane n).train = .rounds 0 [] ∧ ∀ k, k ≠ n → t.lane k = s.lane k)
            ∧ (16 ≤ all.length → rttSpread all ≤ 20 → rttLatency all ≤ 700 → Through settleLock (.trainAck n type b at_) s [.lanes] fun t =>
                (t.lane n).train = .final ∧ (t.lane n).latencyNs = (rttLatency all).toNat ∧ (t.lane n).state = .down ∧ ∀ k, k ≠ n → t.lane k = s.lane k)
            ∧ (16 ≤ all.length → rttSpread all ≤ 20 → 700 < rttLatency all → Through settleLock (.trainAck n type b at_) s [.outs, .flt, .lanes, .pair, .acq, .rcd] fun t =>
                (t.lane n).state = .refused ∧ (t.lane n).refuse = 1 ∧ (t.lane n).train = .idle ∧ (t.lane n).trainAt = s.now
                ∧ ((s.lane n).refuseRaised ≠ 1 → Posted (24 + n / 2) 3 n s t) ∧ ∀ k, k ≠ n → t.lane k = s.lane k))
          ∧ ((s.lane n).train = .final →
            (mismatch s n (bits (blk b 2) 32 3) (bits (blk b 2) 36 3) = none → Through settleLock (.trainAck n type b at_) s [.lanes] fun t =>
                (t.lane n).train = .running 0 ∧ (t.lane n).nodeType.toNat = bits (blk b 2) 0 16 ∧ (t.lane n).nodeVersion.toNat = bits (blk b 2) 16 16
                ∧ (t.lane n).ph0 = bits (blk b 2) 32 3 ∧ (t.lane n).ph1 = bits (blk b 2) 36 3 ∧ (t.lane n).sensors = bits (blk b 2) 40 4
                ∧ ∀ k, k ≠ n → t.lane k = s.lane k)
            ∧ (∀ p, mismatch s n (bits (blk b 2) 32 3) (bits (blk b 2) 36 3) = some p → Through settleLock (.trainAck n type b at_) s [.outs, .flt, .lanes, .pair, .acq, .rcd] fun t =>
                (t.lane n).state = .refused ∧ (t.lane n).refuse = 2 ∧ (t.lane n).trainAt = s.now
                ∧ ((s.lane n).refuseRaised ≠ 2 → Posted (24 + n / 2) 4 n s t) ∧ ∀ k, k ≠ n → t.lane k = s.lane k))))
  ∧ (∀ (k : Nat) (s : State), s.ready = true → k < 2 → s.pair.lanes.length = 2 →
      (s.member = true → (s.pairLane k).blockLock = true → (s.pairLane (1 - k)).blockLock = true →
          Runs (.blockLockLoss (16 + k)) s [.outs, .freeIx, .flt, .stages, .alloc, .paths, .lanes, .pair, .acq, .sw, .met, .veh, .rcd, .auth] fun t => (t.pairLane k).blockLock = false ∧ t.pair.linkUp = s.pair.linkUp
            ∧ Arose 97 3 k [] s t ∧ t.pairLane (1 - k) = s.pairLane (1 - k) ∧ t.stages = s.stages)
      ∧ (s.member = true → (s.pairLane k).blockLock = true → (s.pairLane (1 - k)).blockLock = false →
          Runs (.blockLockLoss (16 + k)) s [.outs, .freeIx, .flt, .stages, .alloc, .paths, .lanes, .pair, .acq, .sw, .met, .veh, .rcd, .auth] fun t => (t.pairLane k).blockLock = false ∧ t.pair.linkUp = false ∧ t.stages = s.stages
            ∧ (s.pair.linkUp = true → Arose 97 1 0xFF [] s t))
      ∧ (s.member = true → (s.pairLane k).blockLock = false → (s.pairLane (1 - k)).blockLock = true → Runs (.blockLock (16 + k)) s [.outs, .freeIx, .flt, .stages, .alloc, .paths, .lanes, .pair, .acq, .sw, .met, .veh, .rcd, .auth] fun t =>
          (t.pairLane k).blockLock = true ∧ t.pair.linkUp = s.pair.linkUp ∧ t.lanes = s.lanes ∧ Arose 97 4 k [] s t)
      ∧ (s.member = true → (s.pairLane k).blockLock = false → (s.pairLane (1 - k)).blockLock = false → s.peerHeard = false →
          Runs (.blockLock (16 + k)) s [.pair] fun t => t.pair = { s.pair with lanes := upd s.pair.lanes k fun l => { l with blockLock := true, train := .idle } })
      ∧ (s.member = true → (s.pairLane k).blockLock = false → (s.pairLane (1 - k)).blockLock = false → s.peerHeard = true →
          Runs (.blockLock (16 + k)) s [.outs, .freeIx, .flt, .stages, .alloc, .paths, .lanes, .pair, .acq, .sw, .met, .veh, .rcd, .auth] fun t => (t.pairLane k).blockLock = true ∧ t.pair.linkUp = true)
      ∧ (s.member = false ∨ (s.pairLane k).blockLock = true → Idles (.blockLock (16 + k)) s)
      ∧ (s.member = false ∨ (s.pairLane k).blockLock = false → Idles (.blockLockLoss (16 + k)) s)
      ∧ (∀ r, s.member = true → s.unitB = false → (s.pairLane k).blockLock = true → (s.pairLane k).refused = false →
          (s.pairLane k).train.request = some r → Runs (.trainReqSend (16 + k)) s [.outs, .pair] fun t =>
            (∃ f, t.outs = .pairFrame f :: s.outs ∧ f.length = 4) ∧ (t.pairLane k).t1 = s.now ∧ (t.pairLane k).round = r)
      ∧ ((s.member = false ∨ s.unitB = true ∨ (s.pairLane k).blockLock = false ∨ (s.pairLane k).refused = true ∨ (s.pairLane k).train.request = none) →
          Idles (.trainReqSend (16 + k)) s)
      ∧ (∀ (type : Byte) (b : List Block) (at_ : Nat), s.member = false ∨ s.unitB = true ∨ trainAckOk k type b = false →
          Through settleLock (.trainAck (16 + k) type b at_) s [] fun u => u = s)
      ∧ ((s.pairLane k).refused = true → (s.pairLane k).refusedAt + 1000000000 ≤ s.now → Runs (.refusedRetry (16 + k)) s [.pair] fun t =>
          (t.pairLane k).refused = false ∧ (t.pairLane k).train = .idle)
      ∧ ((s.pairLane k).refused = false ∨ s.now < (s.pairLane k).refusedAt + 1000000000 → Idles (.refusedRetry (16 + k)) s))
  ∧ ∀ (n : Nat) (s : State), s.ready = true → 16 ≤ n →
      Idles (.laneLost n) s ∧ Idles (.trainTimeout n) s
        ∧ (18 ≤ n → ∀ c ∈ [Instr.blockLock n, .blockLockLoss n, .trainReqSend n, .refusedRetry n], Idles c s)

/-- Holdoff, edges and triggers fire captures, completion closes a record, and a conversion delivers all sixteen local inputs -/
def Obligations.CapturesTriggerAndComplete : Prop :=
  (∀ (u : Nat) (s : State), s.ready = true →
      ((s.unit u).waits = true → cfTrigType (s.unit u).cfg = 0 → (s.unit u).holdoffEnd ≤ s.now → Runs (.holdoffEnd u) s [.acq] fun t =>
          t.acq = { s.acq with units := upd s.acq.units u fun v => { v with trig := some (v.holdoffEnd : Int) } })
      ∧ (((s.unit u).waits = false ∨ cfTrigType (s.unit u).cfg ≠ 0 ∨ s.now < (s.unit u).holdoffEnd) → Idles (.holdoffEnd u) s)
      ∧ (∀ q, ((drainUnit u s).unit u).state = .armed → ((drainUnit u s).unit u).trig = some q → Runs (.captureTrigger u) s [.outs, .flt, .acq, .rcd] fun t =>
          (t.unit u).state = .triggered ∧ (t.unit u).trig = none ∧ (t.unit u).trigTime = q ∧ (t.unit u).civil = s.civil
          ∧ (t.unit u).cfg = (s.unit u).cfg ∧ t.acq.edges = s.acq.edges ∧ Posted (40 + u) 1 u s t
          ∧ (cfTrigOut (s.unit u).cfg = true → t.acq.pulseUntil = some (s.now + 1000)
              ∧ (s.acq.pulseUntil = none → t.outs = .contact 1 true :: s.outs)))
      ∧ (((drainUnit u s).unit u).state ≠ .armed ∨ ((drainUnit u s).unit u).trig = none → Runs (.captureTrigger u) s [.outs, .flt, .acq, .rcd] fun t => t = drainUnit u s)
      ∧ (((drainUnit u s).unit u).state = .triggered →
          ((drainUnit u s).unit u).full = true ∨ ((drainUnit u s).unit u).lastTime ≤ ((drainUnit u s).unit u).horizon s.capLag →
          Runs (.captureDone u) s [.freeIx, .flt, .acq, .rcd] fun t => Posted (40 + u) 2 u s t
            ∧ (t.unit u).state = .done ∧ (t.unit u).record.isSome = true ∧ (t.unit u).recordCal = false
            ∧ (t.unit u).completed = (s.unit u).completed + 1 ∧ (t.unit u).entries = []
            ∧ ∀ k, k ≠ u → (t.unit k).state = (s.unit k).state ∧ (t.unit k).cfg = (s.unit k).cfg ∧ (t.unit k).record = (s.unit k).record)
      ∧ (((drainUnit u s).unit u).state ≠ .triggered
            ∨ (((drainUnit u s).unit u).full = false ∧ ((drainUnit u s).unit u).horizon s.capLag < ((drainUnit u s).unit u).lastTime) →
          Runs (.captureDone u) s [.freeIx, .flt, .acq, .rcd] fun t => t = drainUnit u s)
      ∧ (s.calOver u = true → Runs (.calDone u) s [.flt, .acq, .rcd] fun t => (Posted (40 + u) 5 u s t ∨ Posted (40 + u) 6 u s t)
          ∧ (t.unit u).state = .done ∧ (t.unit u).record.isSome = true ∧ (t.unit u).recordCal = true
          ∧ (t.unit u).completed = (s.unit u).completed + 1
          ∧ ∀ k, k ≠ u → (t.unit k).state = (s.unit k).state ∧ (t.unit k).cfg = (s.unit k).cfg ∧ (t.unit k).record = (s.unit k).record)
      ∧ (s.calOver u = false → Idles (.calDone u) s))
  ∧ (∀ (rising : Bool) (time : Nat) (s : State), s.ready = true → Runs (.externalTriggerEdge rising time) s [.acq] fun t =>
      t.acq.edges = s.acq.edges + 1 ∧ t.acq.last = s.acq.last ∧ ∀ u, u < 8 →
        (((s.unit u).waits = true ∧ cfTrigType (s.unit u).cfg = 7 ∧ (cfSlope (s.unit u).cfg = 2 ∨ cfSlope (s.unit u).cfg = if rising then 0 else 1)
            ∧ (s.unit u).holdoffEnd ≤ time) →
          t.unit u = (if cfQualify (s.unit u).cfg then { s.unit u with queue := (s.unit u).queue ++ [{ time := 4 * time, ch := 16, news := .fire time }] }
            else { s.unit u with trig := some (time : Int) }))
        ∧ (((s.unit u).waits = false ∨ cfTrigType (s.unit u).cfg ≠ 7 ∨ (cfSlope (s.unit u).cfg ≠ 2 ∧ cfSlope (s.unit u).cfg ≠ if rising then 0 else 1)
            ∨ time < (s.unit u).holdoffEnd) → t.unit u = s.unit u))
  ∧ ∀ (codes : List Half) (s : State), s.ready = true →
      (s.domainUp 9 = true → Runs (.acqConversion codes) s [.flt, .acq, .rcd] fun t =>
        t.acq.last.length = 16 ∧ (∀ i, i < 16 → t.acq.last.getD i 0 = if codes.getD i 0 = 0x8000#16 then 0x8001#16 else codes.getD i 0)
        ∧ (∀ i, i < 16 → t.acq.ovr.getLsbD i = (s.acq.ovr.getLsbD i || t.acq.last.getD i 0 == 0x7FFF#16 || t.acq.last.getD i 0 == 0x8001#16))
        ∧ (s.lanes.ticking = true → t.acq.recent.getLast? = some (s.now / 200 * 200, t.acq.last)) ∧ t.acq.edges = s.acq.edges)
      ∧ (s.domainUp 9 = false → Idles (.acqConversion codes) s)

/-- CAPTURE_ARM arms, parks, calibrates or disarms a unit after its checks, and CAPTURE_READ returns a part of the record -/
def Obligations.CaptureDescriptorsAnswer : Prop :=
  (∀ (d : Desc) (s : State), admits captureInfo d s = true →
      (d.input = none → exec (.captureArm d) s = .next (settle (completeDesc d stBuffer 0 (fetched d s)))
        ∧ exec (.captureCalibrate d) s = .next (settle (completeDesc d stBuffer 0 (fetched d s)))
        ∧ exec (.captureDisarm d) s = .next (settle (completeDesc d stBuffer 0 (fetched d s))))
      ∧ (d.input ≠ none → (s.unit d.ix).storing = true → exec (.captureArm d) s = .next (settle (completeDesc d stBusy 0 (fetched d s)))
        ∧ exec (.captureCalibrate d) s = .next (settle (completeDesc d stBusy 0 (fetched d s))))
      ∧ (∀ b, d.input = some b → (s.unit d.ix).storing = false → d.ix < s.acq.units.length →
        let c := b.take (d.h 24)
        ((1 < cfMode c ∨ configOk s c = false) → exec (.captureArm d) s = .next (settle (completeDesc d stRange 0 (fetched d s))))
        ∧ (cfMode c ≤ 1 → configOk s c = true → Finishes (.captureArm d) d s stOk 0 [.flt, .acq, .rcd] fun u =>
            (u.unit d.ix).cfg = c ∧ (u.unit d.ix).completed = 0 ∧ (u.unit d.ix).record = none
            ∧ (u.unit d.ix).state = (if cfStart c = 1 then .parked else .armed)
            ∧ (cfStart c ≠ 1 → (u.unit d.ix).armedAt = s.now ∧ (u.unit d.ix).holdoffEnd = s.now + 1000 * cfHoldoffUs c)
            ∧ ∀ k, k ≠ d.ix → (u.unit k).state = (s.unit k).state ∧ (u.unit k).cfg = (s.unit k).cfg ∧ (u.unit k).record = (s.unit k).record)
        ∧ ((cfMode c ≠ 2 ∨ configOk s c = false) → exec (.captureCalibrate d) s = .next (settle (completeDesc d stRange 0 (fetched d s))))
        ∧ (cfMode c = 2 → configOk s c = true → calibrateOk s c = false →
            exec (.captureCalibrate d) s = .next (settle (completeDesc d stState 0 (fetched d s))))
        ∧ (cfMode c = 2 → configOk s c = true → calibrateOk s c = true → Finishes (.captureCalibrate d) d s stOk 0 [.outs, .acq] fun u =>
            (u.unit d.ix).cfg = c ∧ (u.unit d.ix).completed = 0 ∧ (u.unit d.ix).state = .calibrating ∧ (u.unit d.ix).armedAt = s.now
            ∧ u.outs = .calWave s.now (s.calEdges c) :: (fetched d s).outs ∧ ∀ k, k ≠ d.ix → u.unit k = s.unit k))
      ∧ (∀ b, d.input = some b → d.ix < s.acq.units.length →
        let c := b.take (d.h 24)
        ((cfMode c ≠ 3 ∨ disarmOk c = false) → exec (.captureDisarm d) s = .next (settle (completeDesc d stRange 0 (fetched d s))))
        ∧ (cfMode c = 3 → disarmOk c = true →
            ((s.unit d.ix).state = .idle ∨ ((s.unit d.ix).state = .done ∧ cfMode (s.unit d.ix).cfg ≠ 1) →
              exec (.captureDisarm d) s = .next (settle (completeDesc d stOk 0 (fetched d s))))
            ∧ ((s.unit d.ix).state = .done → cfMode (s.unit d.ix).cfg = 1 → Finishes (.captureDisarm d) d s stOk 0 [.acq] fun u =>
                (u.unit d.ix).state = .idle ∧ (u.unit d.ix).record = none ∧ ∀ k, k ≠ d.ix → u.unit k = s.unit k)
            ∧ (((s.unit d.ix).state = .parked ∨ (s.unit d.ix).state = .armed ∨ (s.unit d.ix).state = .calibrating) →
              Finishes (.captureDisarm d) d s stOk 0 [.freeIx, .flt, .acq, .rcd] fun u => Posted (40 + d.ix) 3 d.ix s u
                ∧ (u.unit d.ix).state = .idle ∧ (u.unit d.ix).record = none
                ∧ ∀ k, k ≠ d.ix → (u.unit k).state = (s.unit k).state ∧ (u.unit k).cfg = (s.unit k).cfg ∧ (u.unit k).record = (s.unit k).record)
            ∧ ((s.unit d.ix).state = .triggered → Finishes (.captureDisarm d) d s stOk 0 [.freeIx, .flt, .acq, .rcd] fun u => Posted (40 + d.ix) 2 d.ix s u
                ∧ (u.unit d.ix).state = .done ∧ (u.unit d.ix).record.isSome = true
                ∧ ∀ k, k ≠ d.ix → (u.unit k).state = (s.unit k).state ∧ (u.unit k).cfg = (s.unit k).cfg ∧ (u.unit k).record = (s.unit k).record))))
  ∧ ∀ (d : Desc) (s : State), admits captureReadInfo d s = true →
      ((s.unit d.ix).record = none → exec (.captureRead d) s = .next (settle (completeDesc d stState 0 (fetched d s))))
      ∧ ∀ r, (s.unit d.ix).record = some r →
        (r.length ≤ d.w 12 → exec (.captureRead d) s = .next (settle (completeDesc d stRange 0 (fetched d s))))
        ∧ (d.w 12 < r.length → s.host.muted = false →
          let part := (r.drop (d.w 12)).take (d.w 24)
          Finishes (.captureRead d) d s (if part.length < d.w 24 then stPartial else stOk) part.length [.outs, .host, .flt, .acq, .rcd] fun u =>
            u.outs = .hostWrite (d.q 16) part :: (fetched d s).outs ∧ (d.w 12 + part.length ≠ r.length → u.acq = s.acq)
            ∧ ((cfMode (s.unit d.ix).cfg ≠ 1 ∨ (s.unit d.ix).recordCal = true) → u.acq = s.acq))

/-- Losses sum each millisecond, a sample advances and judges one object, stops what it must, and readings count when they are due -/
def Obligations.ThermalModelsAdvance : Prop :=
  (∀ s : State, s.ready = true → Runs .lossTick s [.thm] fun t => t.thm = { s.thm with objs := t.thm.objs } ∧ t.thm.objs.length = s.thm.objs.length
      ∧ ∀ j, j < s.thm.objs.length → (t.obj j).ticks = (s.obj j).ticks + 1 ∧ (t.obj j).theta = (s.obj j).theta
        ∧ (t.obj j).raw = (s.obj j).raw.filter (fun p => decide ((4 * (s.now / 1000000 * 1000000 : Nat) : Int) ≤ p.1))
        ∧ (t.obj j).above = (s.obj j).above ∧ (t.obj j).cap = (s.obj j).cap
        ∧ ((s.obj j).raw = [] → orQtyKind (s.objRec j) ≠ 3 → orQtyKind (s.objRec j) ≠ 5 →
            (t.obj j).meanSq = (s.obj j).meanSq ∧ (t.obj j).meanAbs = (s.obj j).meanAbs
            ∧ (t.obj j).lossSum = fadd (s.obj j).lossSum (lossOf (s.objRec j) (s.lutPoints (orLut (s.objRec j))) (s.objVin (s.objRec j))
                (s.obj j).meanSq (s.obj j).meanAbs (ratAt (s.obj j).theta 0))))
  ∧ (∀ (j : Nat) (s : State), s.ready = true →
      ((s.thm.objs.length ≤ j ∨ sampleInstant s.now (s.obj j) ≤ (s.obj j).lastSample) → Idles (.thermalSample j) s)
      ∧ (j < s.thm.objs.length → (s.obj j).lastSample < sampleInstant s.now (s.obj j) → Runs (.thermalSample j) s [.outs, .flt, .stages, .paths, .pair, .acq, .thm, .sw, .rcd] fun t =>
          let r := s.objRec j
          let t1 := ratAt (t.obj j).theta 0
          (t.obj j).lastSample = sampleInstant s.now (s.obj j) ∧ (t.obj j).ticks = 0 ∧ (t.obj j).lossSum = 0 ∧ t.thm.seq = s.thm.seq + 1
          ∧ (t.obj j).above = decide ((if (s.obj j).above then fsub (orTLim r) (orHyst r) else orTLim r) ≤ t1)
          ∧ (t.obj j).near = decide (fsub (orTLim r) t1 ≤ if (s.obj j).near then 6 else 5)
          ∧ ((orSensor0 r / 0x1000 = 0 ∧ orSensor1 r / 0x1000 = 0) → (t.obj j).openLoop = true
            ∧ (t.obj j).theta = ladderStep (s.objR r) (objC r) (fdiv ((sampleInstant s.now (s.obj j) - (s.obj j).lastSample : Nat) : Rat) 1000000000)
                (if (s.obj j).ticks = 0 then (s.obj j).loss else fdiv (s.obj j).lossSum ((s.obj j).ticks : Nat)) (s.trefOf r) (s.obj j).theta)
          ∧ ((t.obj j).above = true → ((t.obj j).openLoop = false ∨ bitOf (orFlags r) 2 = false) → (t.obj j).cap = 0)
          ∧ ((t.obj j).openLoop = true → bitOf (orFlags r) 2 = true → (t.obj j).cap = (s.obj j).cap ∧ (t.obj j).capAt = (s.obj j).capAt)
          ∧ (∀ k, k ≠ j → t.obj k = s.obj k)
          ∧ ((s.obj j).above = false → (t.obj j).above = true → bitOf (orFlags r) 0 = true → orBindKind r = 2 → orBindIndex r < s.stages.length →
              (t.stage (orBindIndex r)).xfer = .blocked)
          ∧ (((t.obj j).above = false ∨ (s.obj j).above = true) → ((t.obj j).rateStop = false ∨ (s.obj j).rateStop = true) → t.stages = s.stages)))
  ∧ (∀ (j : Nat) (s : State), s.ready = true →
      (∀ q, (s.obj j).divergeSince = some q → q + 10000000000 ≤ s.now → (s.obj j).diverged = false → Runs (.diverged j) s [.flt, .acq, .thm, .rcd] fun t =>
        Arose 55 1 j (toLEi 2 (s.obj j).err) s t ∧ t.thm = { s.thm with objs := upd s.thm.objs j fun o => { o with diverged := true } })
      ∧ (((∀ q, (s.obj j).divergeSince = some q → s.now < q + 10000000000) ∨ (s.obj j).diverged = true) → Idles (.diverged j) s))
  ∧ (∀ (i mohm : Nat) (leads : List Nat) (s : State), s.pwr.undefinedLogic = false → s.pwr.held = false → s.pwr.opState ≠ .boot → i < s.thm.rtd.length →
      (s.rtdEnabled i = true → Runs (.rtdConversion [(i, mohm)] leads) s [.outs, .flt, .pair, .acq, .thm, .rcd] fun t =>
        let m := mohm - leads.getD (i / 12) 0
        let v : Option Int := if m < 780000 ∨ 1980000 < m then none else some (rtdTemp m)
        nth t.thm.rtd i = { reading := v, fault := v.isNone, alarm := match v with | some x => decide (s.rtdAlarmDc i < x) | none => false }
        ∧ (∀ k, k ≠ i → nth t.thm.rtd k = nth s.thm.rtd k)
        ∧ (s.member = true → t.thm.queue = s.thm.queue ++ [(s.rtdId i, v, s.now)] ∧ t.thm.applied = s.thm.applied)
        ∧ (s.member = false → t.thm.queue = s.thm.queue ∧ (s.rtdId i, { value := v, at_ := s.now }) ∈ t.thm.applied)
        ∧ ((nth s.thm.rtd i).fault = v.isNone → t.flt = s.flt))
      ∧ (s.rtdEnabled i = false → Idles (.rtdConversion [(i, mohm)] leads) s))
  ∧ (∀ (l : List (Nat × Nat)) (leads : List Nat) (s : State), s.pwr.undefinedLogic = false → (s.pwr.held = true ∨ s.pwr.opState = .boot) →
      Idles (.rtdConversion l leads) s)
  ∧ ∀ s : State, s.ready = true →
      let at_ := s.now / 10000000 * 10000000
      ((s.member = false ∨ at_ ≤ s.thm.appliedAt) → Idles .readingApply s)
      ∧ (s.member = true → s.thm.appliedAt < at_ → Runs .readingApply s [.thm, .rcd] fun t =>
        t.thm.appliedAt = at_ ∧ t.thm.queue = s.thm.queue.filter (fun q => at_ < q.2.2 + 5000000) ∧ t.thm.objs = s.thm.objs ∧ t.thm.rtd = s.thm.rtd
        ∧ ∀ i, i < 24 → s.rtdEnabled i = true → ∀ id, (id = 0x1000 + i ∨ id = 0x1800 + i) →
          (t.thm.applied.find? fun p => p.1 == id) = some (id, { value := (((s.thm.queue.filter fun q => q.2.2 + 5000000 ≤ at_).reverse.find? fun q => q.1 == id)).bind (fun q => q.2.1), at_ := at_ }))

/-- Flow pulses become a loop's flow, low flow and its recovery raise their events, the run-on stops a loop, and a hot die warns and halts -/
def Obligations.CoolingFlowsAndDieTemperature : Prop :=
  (∀ (p : List Nat) (s : State), s.ready = true → s.thm.loops.length = 8 → s.thm.pulses.length = 8 → Runs (.flowUpdate p) s [.outs, .pair, .thm, .sw, .rcd] fun t =>
      let f := fun l => flowOf (((p.getD (s.loopB l 0 % 8) 0 :: s.thm.pulses.getD (s.loopB l 0 % 8) []).take 10).foldl (· + ·) 0) (s.loopH l 4)
      (∀ k, k < 8 → t.thm.pulses.getD k [] = (p.getD k 0 :: s.thm.pulses.getD k []).take 10)
      ∧ (s.member = false → t.thm.queue = s.thm.queue ∧ ∀ l, l < 8 →
        ((s.loopB l 0 ≠ 0xFF ∧ bitOf (s.loopB l 0) 6 = s.unitB) → (t.loop l).flow = f l)
        ∧ ((s.loopB l 0 = 0xFF ∨ bitOf (s.loopB l 0) 6 ≠ s.unitB) → (t.loop l).flow = (s.loop l).flow))
      ∧ (s.member = true → (∀ l, l < 8 → (t.loop l).flow = (s.loop l).flow)
        ∧ t.thm.queue = s.thm.queue ++ ((List.range 8).filter fun l => s.loopB l 0 != 0xFF && bitOf (s.loopB l 0) 6 == s.unitB).map
            fun l => (0x8000 + l, some ((f l : Nat) : Int), s.now))
      ∧ ∀ l, (t.loop l).flowLow = (s.loop l).flowLow)
  ∧ (∀ (l : Nat) (s : State), s.ready = true →
      (∀ q, (s.loop l).pumpOn = true → (s.loop l).pumpAt + 5000000000 ≤ s.now → (s.loop l).lowSince = some q → q + 2000000000 ≤ s.now → (s.loop l).flowLow = false →
        Runs (.flowLow l) s [.flt, .acq, .thm, .rcd] fun t => Arose 54 1 l (toLE 2 (s.loop l).flow) s t
          ∧ t.thm = { s.thm with loops := upd s.thm.loops l fun c => { c with flowLow := true } })
      ∧ (((s.loop l).pumpOn = false ∨ s.now < (s.loop l).pumpAt + 5000000000 ∨ (∀ q, (s.loop l).lowSince = some q → s.now < q + 2000000000) ∨ (s.loop l).flowLow = true) →
        Idles (.flowLow l) s)
      ∧ (∀ q, (s.loop l).flowLow = true → (s.loop l).okSince = some q → q + 2000000000 ≤ s.now → Runs (.flowRecovered l) s [.flt, .acq, .thm, .rcd] fun t =>
          Arose 54 0 l (toLE 2 (s.loop l).flow) s t
          ∧ t.thm = { s.thm with loops := upd s.thm.loops l fun c => { c with flowLow := false } })
      ∧ (((s.loop l).flowLow = false ∨ (∀ q, (s.loop l).okSince = some q → s.now < q + 2000000000)) → Idles (.flowRecovered l) s)
      ∧ (s.loopNeed l = false → (s.loop l).neededAt + s.loopH l 12 * 1000000000 ≤ s.now → Runs (.runonExpiry l) s [.thm, .sw] fun t =>
          t.thm = { s.thm with loops := upd s.thm.loops l fun c => { c with pumpOn := false, fanOn := false, duty := 0 } }
          ∧ ((12 ≤ s.loopB l 1 ∧ 12 ≤ s.loopB l 2) → t.sw = s.sw)
          ∧ (s.loopB l 1 < 12 → s.loopB l 1 < s.sw.ch.length → (nth t.sw.ch (s.loopB l 1)).commanded = false)
          ∧ (s.loopB l 2 < 12 → s.loopB l 2 < s.sw.ch.length → (nth t.sw.ch (s.loopB l 2)).commanded = false))
      ∧ ((s.loopNeed l = true ∨ s.now < (s.loop l).neededAt + s.loopH l 12 * 1000000000) → Idles (.runonExpiry l) s))
  ∧ ∀ (temps : List Int) (s : State), s.ready = true → Runs (.dieTempRead temps) s [.flt, .acq, .thm, .rcd] fun t =>
      let m := maxInt temps
      let i := (temps.findIdx? (· == m)).getD 0
      t.thm.dieDc = m ∧ t.thm.peakDc = some (match s.thm.peakDc with | some p => max p m | none => m)
      ∧ t.thm.dieWarm = (if 1050 ≤ m then true else if m < 1000 then false else s.thm.dieWarm)
      ∧ t.thm.halting = (if 1180 ≤ m ∧ s.thm.halting = none then some s.now else s.thm.halting)
      ∧ (1050 ≤ m → s.thm.dieWarm = false → Arose 51 1 i (toLEi 2 m) s t) ∧ (m < 1000 → s.thm.dieWarm = true → Arose 51 0 i (toLEi 2 m) s t)
      ∧ (1180 ≤ m → s.thm.halting = none → Arose 52 1 i (toLEi 2 m) s t ∧ t.thm.haltSensor = i)
      ∧ t.thm.objs = s.thm.objs ∧ t.thm.loops = s.thm.loops
      ∧ ((m < 1180 ∨ s.thm.halting ≠ none) → (1000 ≤ m ∨ s.thm.dieWarm = false) → (m < 1050 ∨ s.thm.dieWarm = true) → t.flt = s.flt)

/-- Switch-channel commands set the commanded state, are driven under authority only, and a frozen or lost die takes none -/
def Obligations.SwitchCommandsObeyAuthority : Prop :=
  (∀ (n : Nat) (v : Word) (tj : Int) (s : State), s.ready = true →
      ∀ p ∈ [(Instr.on n v, 0), (Instr.off n v, 1), (Instr.clear n v tj, 2)],
        ((s.domainUp 6 = false ∨ v.getLsbD p.2 = false ∨ 12 ≤ n) → Idles p.1 s)
        ∧ (s.domainUp 6 = true → v.getLsbD p.2 = true → n < 12 →
            ((s.loopOwned n = true ∨ s.swProfile n = 0) → Runs p.1 s [.sw] fun t => t.sw = { s.sw with ignored := satAdd 16 s.sw.ignored 1 })
            ∧ (s.loopOwned n = false → s.swProfile n ≠ 0 → s.swFollows n = true → Idles p.1 s)))
  ∧ (∀ p ∈ [(Instr.on, 0), (Instr.off, 1)], ∀ (n : Nat) (v : Word) (s : State), s.ready = true → s.domainUp 6 = true → n < 12 → s.sw.ch.length = 12 →
      v.getLsbD p.2 = true → s.loopOwned n = false → s.swProfile n ≠ 0 → s.swFollows n = false →
      (v.getLsbD 2 = true → Runs (p.1 n v) s [.flt, .acq, .sw, .rcd] fun t => (t.swCh n).commanded = !v.getLsbD 1
          ∧ (s.authority = true → s.sw.frozen = false → s.sw.lost = false → (t.swCh n).exhausted = false ∧ (t.swCh n).retries = 0 ∧ (t.swCh n).enabled = !v.getLsbD 1))
      ∧ (v.getLsbD 2 = false →
          ((s.authority = false ∧ s.sw.preDrive = false ∨ s.sw.frozen = true ∨ s.sw.lost = true) → Runs (p.1 n v) s [.sw] fun t =>
            t.sw = { s.sw with ch := upd s.sw.ch n fun c => { c with commanded := !v.getLsbD 1 } })
          ∧ (s.authority = true → s.sw.frozen = false → s.sw.lost = false → v.getLsbD 1 = true → Runs (p.1 n v) s [.sw] fun t =>
            (t.swCh n).commanded = false ∧ (t.swCh n).enabled = false ∧ (t.swCh n).inrush = false ∧ (t.swCh n).latch = (s.swCh n).latch
            ∧ ∀ k, ¬ s.inGang n k → t.swCh k = s.swCh k)
          ∧ (s.authority = true → s.sw.frozen = false → s.sw.lost = false → v.getLsbD 1 = false → Runs (p.1 n v) s [.sw] fun t =>
            (t.swCh n).commanded = true ∧ (t.swCh n).enabled = true
            ∧ ((s.swCh n).enabled = true → (t.swCh n).inrush = (s.swCh n).inrush)
            ∧ ((s.swCh n).enabled = false → (s.swInGate n = false ∨ (s.swCh n).swIn = true) → (s.swCh n).short = false → (s.swCh n).latch = false →
                (s.swCh n).exhausted = false → (t.swCh n).inrush = true ∧ (t.swCh n).windowAt = s.now)
            ∧ ∀ k, ¬ s.inGang n k → t.swCh k = s.swCh k)))
  ∧ (∀ (n : Nat) (v : Word) (tj : Int) (s : State), s.ready = true → s.domainUp 6 = true → n < 12 → s.sw.ch.length = 12 →
      v.getLsbD 2 = true → s.loopOwned n = false → s.swProfile n ≠ 0 → s.swFollows n = false →
      ((v.getLsbD 0 = true ∨ v.getLsbD 1 = true) → Runs (.clear n v tj) s [.flt, .acq, .sw, .rcd] fun t => (t.swCh n).commanded = !v.getLsbD 1
          ∧ (s.authority = true → s.sw.frozen = false → s.sw.lost = false →
              (t.swCh n).exhausted = false ∧ (t.swCh n).retries = 0 ∧ (t.swCh n).enabled = !v.getLsbD 1))
      ∧ (v.getLsbD 0 = false → v.getLsbD 1 = false →
          ((s.authority = false ∨ s.sw.frozen = true ∨ s.sw.lost = true) → Idles (.clear n v tj) s)
          ∧ (s.authority = true → s.sw.frozen = false → s.sw.lost = false → Runs (.clear n v tj) s [.flt, .acq, .sw, .rcd] fun t =>
            (t.swCh n).latch = ((s.swCh n).latch && !decide (tj < 1300)) ∧ (t.swCh n).exhausted = false ∧ (t.swCh n).retries = 0 ∧ (t.swCh n).tjDc = tj
            ∧ (t.swCh n).commanded = (s.swCh n).commanded ∧ (t.swCh n).enabled = (s.swCh n).enabled
            ∧ ((s.swCh n).latch = true → tj < 1300 → Arose 106 0 n (toLEi 2 tj) s t)
            ∧ ((t.swCh n).latch = false → ((s.swCh n).latch = true ∨ (s.swCh n).exhausted = true) → (s.swCh n).enabled = true → (s.swCh n).short = false →
                (s.swInGate n = false ∨ (s.swCh n).swIn = true) → (t.swCh n).inrush = true)
            ∧ ∀ k, ¬ s.inGang n k → t.swCh k = s.swCh k)))
  ∧ (∀ (mv : Nat) (s : State),
      ((s.sw.vauxLow = true ∨ 8000 ≤ mv) → Runs (.vauxLow mv) s [.sw] fun t => t.sw = { s.sw with vauxMv := mv })
      ∧ (s.sw.vauxLow = false → mv < 8000 → Runs (.vauxLow mv) s [.flt, .acq, .sw, .rcd] fun t => t.sw.vauxLow = true ∧ t.sw.vauxLowAt = s.now ∧ t.sw.vauxMv = mv
          ∧ (∀ n, t.swCh n = { s.swCh n with inrush := (t.swCh n).inrush } ∧ ((s.swCh n).inrush = true → (t.swCh n).inrush = true))
          ∧ (s.ready = true → Arose 108 1 0xFF (toLE 2 mv) s t) ∧ (s.ready = false → t.flt = s.flt))
      ∧ ((s.sw.vauxLow = false ∨ mv < 8500) → Runs (.vauxRecovered mv) s [.sw] fun t => t.sw = { s.sw with vauxMv := mv })
      ∧ (s.sw.vauxLow = true → 8500 ≤ mv → Runs (.vauxRecovered mv) s [.flt, .acq, .sw, .rcd] fun t => t.sw.vauxLow = false ∧ t.sw.vauxMv = mv ∧ t.sw.vauxOkAt = s.now
          ∧ (∀ n, n < s.sw.ch.length → t.swCh n = { s.swCh n with
              windowAt := if (s.swCh n).inrush then s.now else (s.swCh n).windowAt
              closedAt := (s.swCh n).closedAt + (s.now - s.sw.vauxLowAt), openAt := (s.swCh n).openAt + (s.now - s.sw.vauxLowAt) })
          ∧ (s.ready = true → Arose 108 0 0xFF (toLE 2 mv) s t) ∧ (s.ready = false → t.flt = s.flt))
      ∧ ((s.sw.lost = true ∨ 6000 ≤ mv) → Runs (.vauxLost mv) s [.sw] fun t => t.sw = { s.sw with vauxMv := mv })
      ∧ (s.sw.lost = false → mv < 6000 → Runs (.vauxLost mv) s [.flt, .acq, .sw, .rcd] fun t => t.sw.lost = true ∧ t.sw.vauxLow = true ∧ t.sw.vauxMv = mv
          ∧ t.sw.lostPending = !s.ready ∧ t.sw.frozen = s.sw.frozen
          ∧ (∀ n, n < s.sw.ch.length → (t.swCh n).commanded = (s.swCh n).commanded ∧ (t.swCh n).swIn = (s.swCh n).swIn ∧ (t.swCh n).enabled = false
              ∧ (t.swCh n).inrush = false ∧ (t.swCh n).short = false ∧ (t.swCh n).latch = false ∧ (t.swCh n).exhausted = false
              ∧ (t.swCh n).openLoad = false ∧ (t.swCh n).retries = 0)
          ∧ (s.ready = true → Arose 108 2 0xFF (toLE 2 mv) s t) ∧ (s.ready = false → t.flt = s.flt)))
  ∧ ∀ s : State,
      (∀ q, s.sw.beatLost = some q → q + 100000 ≤ s.now → s.sw.frozen = false → Runs .switchDieFreeze s [.sw] fun t =>
          t.sw = { s.sw with frozen := true, frozenAt := s.now })
      ∧ ((s.sw.frozen = true ∨ ∀ q, s.sw.beatLost = some q → s.now < q + 100000) → Idles .switchDieFreeze s)
      ∧ ((s.sw.lost = false ∨ s.sw.vauxLow = true ∨ s.now < s.sw.vauxOkAt + 100000000) → Idles .vauxReapply s)
      ∧ (s.sw.lost = true → s.sw.vauxLow = false → s.sw.vauxOkAt + 100000000 ≤ s.now →
          (s.ready = false ∨ (s.authority = false ∧ s.sw.preDrive = false)) → Runs .vauxReapply s [.sw] fun t => t.sw = { s.sw with lost := false })
      ∧ (s.sw.lost = true → s.sw.vauxLow = false → s.sw.vauxOkAt + 100000000 ≤ s.now → s.ready = true → s.authority = true → s.sw.frozen = false →
          s.sw.ch.length = 12 → Runs .vauxReapply s [.sw] fun t => t.sw.lost = false ∧ ∀ n, n < 12 → s.ganged n = false → s.swProfile n ≠ 0 →
            (t.swCh n).enabled = (s.swCh n).commanded)

/-- The die opens and ends inrush windows, turns off shorted and latched channels, retries, and reports open loads, each channel by itself -/
def Obligations.SwitchProtectionActsByItself : Prop :=
  ∀ (n : Nat) (s : State), n < 12 → s.sw.ch.length = 12 →
    (∀ lv, (s.swFollows n = true ∨ (s.swCh n).swIn = lv) → Idles (.swInEdge n lv) s)
    ∧ (s.swFollows n = false → (s.swCh n).swIn = true → Runs (.swInEdge n false) s [.sw] fun t =>
        t.sw = { s.sw with ch := upd s.sw.ch n fun c => { c with swIn := false, lowSince := s.now } })
    ∧ (s.swFollows n = false → (s.swCh n).swIn = false → Runs (.swInEdge n true) s [.sw] fun t =>
        (t.swCh n).swIn = true
        ∧ (s.swInGate n = true → ((s.swCh n).fresh = true ∨ (s.swCh n).lowSince + s.swRearmMs n * 1000000 < s.now) → (s.swCh n).enabled = true → s.sw.lost = false →
            (s.swCh n).short = false → (s.swCh n).latch = false → (s.swCh n).exhausted = false →
            (t.swCh n).inrush = true ∧ (t.swCh n).fresh = false ∧ (t.swCh n).windowAt = s.now)
        ∧ ((s.swInGate n = false ∨ (s.swCh n).enabled = false) → t.sw = { s.sw with ch := upd s.sw.ch n fun c => { c with swIn := true } }))
    ∧ (∀ da, (s.swCh n).inrush = true → s.sw.vauxLow = false → (s.swCh n).windowAt + s.swInrushNs n ≤ s.now → Runs (.inrushEnd n da) s [.sw]
        (GangSet n (fun c => { c with inrush := false, closedAt := s.now, peakDa := da }) s))
    ∧ (∀ da, ((s.swCh n).inrush = false ∨ s.sw.vauxLow = true ∨ s.now < (s.swCh n).windowAt + s.swInrushNs n) → Idles (.inrushEnd n da) s)
    ∧ (let used := (s.swCh (s.swLead n)).retries + b2n (s.swCh (s.swLead n)).retrying
       ∀ p : Instr × Nat,
        ((∃ ma ns, p = (.limit n ma ns, 1) ∧ s.conducts n = true ∧ (s.swCh n).inrush = false ∧ s.swLimitMa n ≤ ma ∧ s.swShortNs n ≤ ns
            ∧ (s.swCh n).closedAt + s.swShortNs n ≤ s.now)
          ∨ ∃ ma, p = (.hardTrip n ma, 2) ∧ s.conducts n = true ∧ s.swTripMa n < ma) →
        (used < s.swRetryMax (s.swLead n) → Runs p.1 s [.flt, .acq, .sw, .rcd] fun t =>
          GangSet n (fun c => { c with short := true, inrush := false, retries := used, retrying := false, retryFrom := s.now }) s t
          ∧ (s.ready = true → Arose 105 p.2 (s.swLead n) (toLE 1 used) s t) ∧ (s.ready = false → t.flt = s.flt))
        ∧ (s.swRetryMax (s.swLead n) ≤ used → Runs p.1 s [.flt, .acq, .thm, .sw, .rcd] fun t =>
          GangSet n (fun c => { c with short := false, exhausted := true, inrush := false, retries := used, retrying := false, retryFrom := s.now }) s t
          ∧ (s.ready = true → Arose 105 p.2 (s.swLead n) (toLE 1 used) s t ∧ Arose 107 1 (s.swLead n) (toLE 1 (s.swRetryMax (s.swLead n))) s t
              ∧ PumpsFail (s.swLead n) s t)
          ∧ (s.ready = false → t.flt = s.flt)))
    ∧ (∀ ma ns, (s.conducts n = false ∨ (s.swCh n).inrush = true ∨ ma < s.swLimitMa n ∨ ns < s.swShortNs n) → Idles (.limit n ma ns) s)
    ∧ (∀ ma, (s.conducts n = false ∨ ma ≤ s.swTripMa n) → Idles (.hardTrip n ma) s)
    ∧ ((s.swCh n).short = true → (s.swCh n).latch = false → s.sw.lost = false → (s.swCh n).retryFrom + s.swRetryNs n ≤ s.now → Runs (.switchRetry n) s [.sw] fun t =>
        (t.swCh n).short = false ∧ (t.swCh n).retrying = true ∧ (t.swCh n).retries = (s.swCh n).retries ∧ (s.swFollows n = false → (s.swCh n).enabled = true →
          (s.swCh n).exhausted = false → (s.swInGate n = false ∨ (s.swCh n).swIn = true) → (t.swCh n).inrush = true ∧ (t.swCh n).windowAt = s.now)
        ∧ ∀ k, ¬ s.inGang n k → t.swCh k = s.swCh k)
    ∧ (((s.swCh n).short = false ∨ (s.swCh n).latch = true ∨ s.sw.lost = true ∨ s.now < (s.swCh n).retryFrom + s.swRetryNs n) → Idles (.switchRetry n) s)
    ∧ (s.conducts n = true → (s.swCh n).conductAt + 10000000000 ≤ s.now → Runs (.retryCountReset n) s [.sw]
        (GangSet n (fun c => { c with retries := 0, retrying := false }) s))
    ∧ ((s.conducts n = false ∨ s.now < (s.swCh n).conductAt + 10000000000) → Idles (.retryCountReset n) s)
    ∧ (∀ tj, ((s.swCh (s.swLead n)).latch = true ∨ s.sw.lost = true ∨ tj < 1700) → Idles (.latched n tj) s)
    ∧ (∀ tj, (s.swCh (s.swLead n)).latch = false → s.sw.lost = false → 1700 ≤ tj → Runs (.latched n tj) s [.flt, .acq, .thm, .sw, .rcd] fun t =>
        GangSet n (fun c => { c with latch := true, tjDc := tj, inrush := false }) s t
        ∧ (s.ready = true → Arose 106 1 (s.swLead n) (toLEi 2 tj) s t ∧ PumpsFail (s.swLead n) s t) ∧ (s.ready = false → t.flt = s.flt))
    ∧ ∀ ua,
      let r := codeOf (s.swFine n) (s.swCh n).fine ua
      (s.samplesCount n = true → (s.swCh n).openLoad = false → ua < s.swOpenUa n → (s.swCh n).closedAt + s.swOpenNs n ≤ s.now →
        Runs (.openLoad n ua) s [.flt, .acq, .sw, .rcd] fun t =>
          GangSet n (fun c => { c with openLoad := true, openAt := s.now, code := r.1, fine := r.2 }) s t
          ∧ t.conducts n = true ∧ (s.ready = true → Arose 104 1 (s.swLead n) (toLE 2 r.1 ++ toLE 1 (b2n r.2)) s t) ∧ (s.ready = false → t.flt = s.flt))
      ∧ ((s.samplesCount n = false ∨ (s.swCh n).openLoad = true ∨ s.swOpenUa n ≤ ua ∨ s.now < (s.swCh n).closedAt + s.swOpenNs n) → Idles (.openLoad n ua) s)
      ∧ (s.samplesCount n = true → (s.swCh n).openLoad = true → s.swOpenUa n ≤ ua → (s.swCh n).openAt + s.swOpenNs n ≤ s.now →
        Runs (.openLoadCleared n ua) s [.flt, .acq, .sw, .rcd] fun t =>
          GangSet n (fun c => { c with openLoad := false, code := r.1, fine := r.2 }) s t
          ∧ (s.ready = true → Arose 104 0 (s.swLead n) (toLE 2 r.1 ++ toLE 1 (b2n r.2)) s t) ∧ (s.ready = false → t.flt = s.flt))
      ∧ ((s.samplesCount n = false ∨ (s.swCh n).openLoad = false ∨ ua < s.swOpenUa n ∨ s.now < (s.swCh n).openAt + s.swOpenNs n) → Idles (.openLoadCleared n ua) s)

/-- Caddis meters energy exactly and only upward, commits and restores its registers, and notes seal, tamper and self-test changes -/
def Obligations.CaddisMetersAndKeepsItsRegisters : Prop :=
  (∀ (codes : List (Int × Int)) (stuck : Byte) (s : State),
      (s.met.ready = false → Idles (.caddisSample codes stuck) s)
      ∧ (s.met.ready = true → Runs (.caddisSample codes stuck) s [.flt, .acq, .met, .rcd] fun t => t.met.samples = s.met.samples + 1
          ∧ t.met.log = s.met.log ∧ ∀ o, o < 8 → o < s.met.ch.length →
            let c := s.chan o
            let vu : Rat := ((codes.getD o (0, 0)).1 : Rat) * 11 / (10 * 8388608) - (c.uOffset : Rat) / 1000000
            let vi : Rat := ((codes.getD o (0, 0)).2 : Rat) * 11 / (10 * 8388608) - (c.iOffset : Rat) / 1000000
            let k : Rat := (c.iScale : Rat) / 1000
            let i : Rat := if -(2 / 1000 * k) < vi * k ∧ vi * k < 2 / 1000 * k then 0 else vi * k
            let r : Rat := if c.lossComp = 1 then (c.rCable : Rat) / 1000000 else 0
            let e : Rat := (vu * ((c.uScale : Rat) / 1000) - i * r) * i / 8000
            let g := c.regs
            let g' := (t.chan o).regs
            (g'.delivered : Rat) * 36 / 10 + g'.deliveredRes = (g.delivered : Rat) * 36 / 10 + g.deliveredRes + (if 0 ≤ e then e else 0)
            ∧ (g'.reverse : Rat) * 36 / 10 + g'.reverseRes = (g.reverse : Rat) * 36 / 10 + g.reverseRes + (if 0 ≤ e then 0 else -e)
            ∧ (g'.loss : Rat) * 36 / 10 + g'.lossRes = (g.loss : Rat) * 36 / 10 + g.lossRes + i * i * r / 8000
            ∧ g.delivered ≤ g'.delivered ∧ g.reverse ≤ g'.reverse ∧ g.loss ≤ g'.loss
            ∧ (0 ≤ e → 0 ≤ g.deliveredRes → 0 ≤ g'.deliveredRes ∧ g'.deliveredRes < 36 / 10)
            ∧ (t.chan o).saved = c.saved ∧ (t.chan o).isOpen = c.isOpen ∧ (t.chan o).txn = c.txn ∧ (t.chan o).n = c.n + 1
            ∧ (t.chan o).modFail = stuck.getLsbD o))
  ∧ (∀ s : State,
      (s.met.ready = true → s.met.startedAt + 120000000000 ≤ s.now → Runs .warmupEnd s [.met] fun t => t.met = { s.met with warmup := false })
      ∧ ((s.met.ready = false ∨ s.now < s.met.startedAt + 120000000000) → Idles .warmupEnd s)
      ∧ (s.met.ready = true → s.met.commitAt + 10000000 ≤ s.now → Runs .caddisCommit s [.met] fun t =>
          t.met = { s.met with commitAt := s.now, ch := s.met.ch.map fun c => { c with saved := c.regs } })
      ∧ ((s.met.ready = false ∨ s.now < s.met.commitAt + 10000000) → Idles .caddisCommit s)
      ∧ ((s.met.ready = false ∨ s.now < s.met.refreshAt + 10000000) → Idles .metRefresh s)
      ∧ (s.met.ready = true → s.met.refreshAt + 10000000 ≤ s.now → Runs .metRefresh s [.met] fun t => t.met.seq = s.met.seq + 1 ∧ t.met.refreshAt = s.now
          ∧ t.met.log = s.met.log ∧ t.met.shown = metWords { s with met := { s.met with seq := s.met.seq + 1 } }
          ∧ ∀ o, o < s.met.ch.length → (t.chan o).n = 0 ∧ (t.chan o).uSum = 0 ∧ (t.chan o).iSum = 0 ∧ (t.chan o).pSum = 0 ∧ (t.chan o).above = false
            ∧ (t.chan o).regs = (s.chan o).regs)
      ∧ (s.met.powered = false → Idles .caddisSupplyLoss s)
      ∧ (s.met.powered = true → Runs .caddisSupplyLoss s [.met, .key] fun t => t.met.powered = false ∧ t.met.ready = false ∧ t.met.warmup = false
          ∧ t.met.log = s.met.log ∧ t.key.ident = none
          ∧ ∀ o, o < s.met.ch.length → (t.chan o).regs = (s.chan o).saved ∧ (t.chan o).saved = (s.chan o).saved
            ∧ (t.chan o).isOpen = (s.chan o).isOpen ∧ ((s.chan o).isOpen = true → (t.chan o).flags = orBits (s.chan o).flags 32)))
  ∧ (∀ (failed : Nat) (otherOk : Bool) (s : State),
      (s.met.ready = true → Idles (.caddisStart failed otherOk) s)
      ∧ (s.met.ready = false → Through serveMailbox (.caddisStart failed otherOk) s [.flt, .acq, .met, .key, .rcd] fun u =>
          let swap := bitOf failed 0 && otherOk
          u.met.powered = true ∧ u.met.ready = true ∧ u.met.warmup = true ∧ u.met.installing = false ∧ u.met.startedAt = s.now
          ∧ u.met.failed = s.met.failed / 4 * 4 + b2n (bitOf failed 0 && !swap) + 2 * b2n (bitOf failed 1)
          ∧ u.met.firmware = (if swap then s.met.otherBank else s.met.firmware) ∧ u.met.otherBank = (if swap then s.met.firmware else s.met.otherBank)
          ∧ u.met.log = s.met.log ∧ u.met.samples = s.met.samples
          ∧ ((bitOf failed 0 && !swap) = true → CaddisTells 86 1 0xFF (toLE 1 0) s u) ∧ (bitOf failed 1 = true → CaddisTells 86 1 0xFF (toLE 1 1) s u)
          ∧ (s.awake = true → ∃ i, u.key.ident = some i ∧ i.version = u.metFwVersion ∧ i.digest = u.metFwDigest)
          ∧ ∀ o, o < s.met.ch.length → (u.chan o).regs = (s.chan o).saved ∧ (u.chan o).isOpen = (s.chan o).isOpen ∧ (u.chan o).txn = (s.chan o).txn))
  ∧ (∀ p ∈ [(Instr.sealChange, fun m : Met => m.sealIntact, 2), (Instr.tamperChange, fun m : Met => m.tamperIntact, 4)], ∀ (b : Bool) (s : State),
      ((s.met.ready = false ∨ p.2.1 s.met = b) → Idles (p.1 b) s)
      ∧ (s.met.ready = true → p.2.1 s.met ≠ b → Runs (p.1 b) s [.flt, .acq, .met, .rcd] fun t => p.2.1 t.met = b
          ∧ (generalCount s < 8184 → ∃ e, t.met.log = s.met.log ++ [(generalCount s, e)] ∧ e.length = 32 ∧ u32 e 0 = generalCount s
              ∧ u8 e 4 = p.2.2 + b2n b ∧ u8 e 5 = 0xFF ∧ CaddisTells 82 (p.2.2 + b2n b - 1) 0xFF (toLE 4 (generalCount s)) s t)
          ∧ (8184 ≤ generalCount s → t.met.log = s.met.log ∧ CaddisTells 82 (p.2.2 + b2n b - 1) 0xFF (toLE 4 0xFFFFFFFF) s t)
          ∧ ∀ o, (t.chan o).regs = (s.chan o).regs))
  ∧ ∀ (test o : Nat) (passed : Bool) (s : State),
      ((s.met.ready = false ∨ 7 ≤ test ∨ 8 ≤ o ∨ testDue s test o = false) → Idles (.caddisSelfTestRun test o passed) s)
      ∧ (s.met.ready = true → test < 5 → o < 8 → testDue s test o = true → Runs (.caddisSelfTestRun test o passed) s [.flt, .acq, .met, .rcd] fun t =>
          (∀ k, k < 5 → bitOf t.met.failed k = if k = test then !passed else bitOf s.met.failed k)
          ∧ t.met.testAt = s.met.testAt.set test s.now
          ∧ ((passed = false ∨ bitOf s.met.failed test = true) → CaddisTells 86 (b2n !passed) 0xFF (toLE 1 test) s t)
          ∧ ∀ k, (t.chan k).regs = (s.chan k).regs)
      ∧ (s.met.ready = true → (test = 5 ∨ test = 6) → o < 8 → o < s.met.ch.length → testDue s test o = true →
          Runs (.caddisSelfTestRun test o passed) s [.flt, .acq, .met, .rcd] fun t =>
          (if test = 5 then (t.chan o).modFail else (t.chan o).openFail) = !passed ∧ t.met.failed = s.met.failed
          ∧ ((passed = false ∨ (if test = 5 then (s.chan o).modFail else (s.chan o).openFail) = true) → CaddisTells 86 (b2n !passed) o (toLE 1 test) s t)
          ∧ ∀ k, (t.chan k).regs = (s.chan k).regs)

/-- METER_REQUEST starts and stops transactions, reads registers, records, log and identity, sets parameters, and refuses with its reason -/
def Obligations.MeterRequestsAnswer : Prop :=
  (∀ p ∈ meterReads, ∀ (d : Desc) (s : State), admits p.2 d s = true → s.met.ready = false → s.caddisBusy = false →
      exec (p.1 d) s = .next (settle (completeDesc d stMeter 0x0B (fetched d s))))
  ∧ (∀ p ∈ (Instr.setParameter, setParameterInfo) :: meterReads, ∀ (d : Desc) (s : State), admits p.2 d s = true → s.caddisBusy = true →
      (s.host.mailbox.length < 16 → Starts (p.1 d) d s [.host, .rings] fun u =>
          u.host.mailbox = s.host.mailbox ++ [.host d] ∧ ∃ i, u.host.inflight = (fetched d s).host.inflight ++ [i] ∧ i.op = .meter d.tag ∧ i.tag = d.tag ∧ i.ring = d.ring)
      ∧ (16 ≤ s.host.mailbox.length → exec (p.1 d) s = .next (settle (completeDesc d stBusy 0 (fetched d s)))))
  ∧ (∀ (d : Desc) (s : State), admits (meterInfo 1 true false [(32, 16)] fun _ _ => 256) d s = true → s.met.ready = true → s.host.muted = false →
      (s.personality d.ix = 0 → exec (.txnStart d) s = .next (settle (completeDesc d stMeter 0x09 (fetched d s))))
      ∧ (s.personality d.ix ≠ 0 → s.personality d.ix ≠ 4 → exec (.txnStart d) s = .next (settle (completeDesc d stMeter 0x08 (fetched d s))))
      ∧ (s.personality d.ix = 4 → (s.chanError d.ix = true ∨ (s.chan d.ix).sensorSet = 0) →
          exec (.txnStart d) s = .next (settle (completeDesc d stMeter 0x06 (fetched d s))))
      ∧ (s.personality d.ix = 4 → s.chanError d.ix = false → (s.chan d.ix).sensorSet ≠ 0 → d.ix < s.met.ch.length → ∃ bytes,
          Finishes (.txnStart d) d s stOk bytes.length [.outs, .freeIx, .flt, .pair, .acq, .met, .rcd] fun u =>
            (u.chan d.ix).isOpen = true ∧ (u.chan d.ix).secondary = false ∧ (u.chan d.ix).sessionRef = argBytes d 32 16
            ∧ (u.chan d.ix).txn = (((s.chan d.ix).txn + 1) % 2 ^ 32)
            ∧ (u.chan d.ix).startDelivered = (s.chan d.ix).regs.delivered ∧ (((s.chan d.ix).txn + 1) % 2 ^ 32 ≠ 0 → u.met.log = s.met.log)
            ∧ { txn := (u.chan d.ix).txn, kind := 1, bytes := bytes } ∈ (u.chan d.ix).records
            ∧ u32 bytes 0 = 0x52544B43 ∧ u8 bytes 6 = 1 ∧ u8 bytes 7 = d.ix ∧ u32 bytes 8 = (u.chan d.ix).txn
            ∧ (∃ rest, u.outs = .hostWrite (d.q 16) bytes :: rest ∧ (s.member = false → rest = (fetched d s).outs))
            ∧ ∀ o, (u.chan o).regs = (s.chan o).regs ∧ (o ≠ d.ix → (u.chan o).isOpen = (s.chan o).isOpen ∧ (u.chan o).records = (s.chan o).records)))
  ∧ (∀ (d : Desc) (s : State), admits (meterInfo 2 true false [(32, 1)] fun _ _ => 256) d s = true → s.met.ready = true → s.host.muted = false →
      (s.personality d.ix ≠ 4 → exec (.txnStop d) s = .next (settle (completeDesc d stMeter 0x08 (fetched d s))))
      ∧ (s.personality d.ix = 4 → (s.chan d.ix).isOpen = false → exec (.txnStop d) s = .next (settle (completeDesc d stMeter 0x05 (fetched d s))))
      ∧ (s.personality d.ix = 4 → (s.chan d.ix).isOpen = true → d.ix < s.met.ch.length → ∃ bytes,
          Finishes (.txnStop d) d s stOk bytes.length [.outs, .freeIx, .flt, .pair, .acq, .met, .rcd] fun u =>
            (u.chan d.ix).isOpen = false ∧ (u.chan d.ix).txn = (s.chan d.ix).txn
            ∧ (u.chan d.ix).lastDelivered = (s.chan d.ix).regs.delivered - (s.chan d.ix).startDelivered
            ∧ { txn := (s.chan d.ix).txn, kind := 2, bytes := bytes } ∈ (u.chan d.ix).records ∧ u.met.log = s.met.log
            ∧ Arose 80 1 d.ix (toLE 4 (s.chan d.ix).txn ++ toLE 1 0x20 ++ toLE 4 (orBits (s.chan d.ix).flags (s.flagsNow d.ix))) s u
            ∧ u32 bytes 0 = 0x52544B43 ∧ u8 bytes 6 = 2 ∧ u8 bytes 7 = d.ix ∧ u32 bytes 8 = (s.chan d.ix).txn % 2 ^ 32
            ∧ (∃ rest, u.outs = .hostWrite (d.q 16) bytes :: rest ∧ (s.member = false → rest = (fetched d s).outs))
            ∧ ∀ o, (u.chan o).regs = (s.chan o).regs ∧ (o ≠ d.ix → (u.chan o).isOpen = (s.chan o).isOpen ∧ (u.chan o).records = (s.chan o).records)))
  ∧ (∀ (d : Desc) (s : State), admits (meterInfo 0x10 false false [] fun _ _ => 256) d s = true → s.met.ready = true → s.host.muted = false → ∃ bytes,
      u32 bytes 0 = 0x52544B43 ∧ u8 bytes 6 = 3 ∧ u8 bytes 7 = d.ix
      ∧ u32 bytes 8 = (if (s.chan d.ix).isOpen then (s.chan d.ix).txn % 2 ^ 32 else 0)
      ∧ Finishes (.readRegisters d) d s stOk bytes.length [.outs, .freeIx] fun u => u.outs = .hostWrite (d.q 16) bytes :: (fetched d s).outs)
  ∧ (∀ (d : Desc) (s : State), admits (meterInfo 0x11 false false [(32, 5)] fun _ _ => 256) d s = true → s.met.ready = true → s.host.muted = false →
      (d.b 36 ≠ 1 → d.b 36 ≠ 2 → exec (.readRecord d) s = .next (settle (completeDesc d stMeter 0x01 (fetched d s))))
      ∧ ((d.b 36 = 1 ∨ d.b 36 = 2) → (∀ r ∈ (s.chan d.ix).records, r.txn ≠ d.w 32 ∨ r.kind ≠ d.b 36) →
          exec (.readRecord d) s = .next (settle (completeDesc d stMeter 0x07 (fetched d s))))
      ∧ ((d.b 36 = 1 ∨ d.b 36 = 2) → (∃ r ∈ (s.chan d.ix).records, r.txn = d.w 32 ∧ r.kind = d.b 36) →
          ∃ r ∈ (s.chan d.ix).records, r.txn = d.w 32 ∧ r.kind = d.b 36 ∧ Finishes (.readRecord d) d s stOk r.bytes.length [.outs] fun u =>
            u.outs = .hostWrite (d.q 16) r.bytes :: (fetched d s).outs))
  ∧ (∀ (d : Desc) (s : State),
      admits (meterInfo 0x12 false false [(32, 6)] fun s d => 80 + 32 * (logFrom s (d.w 32) (d.h 36)).length) d s = true → s.met.ready = true → s.host.muted = false →
      let es := (s.met.log.filter fun e => decide (d.w 32 ≤ e.1) && decide (e.1 < d.w 32 + d.h 36)).map (·.2)
      ((d.h 36 = 0 ∨ 120 < d.h 36) → exec (.readLog d) s = .next (settle (completeDesc d stMeter 0x01 (fetched d s))))
      ∧ (0 < d.h 36 → d.h 36 ≤ 120 → es = [] → exec (.readLog d) s = .next (settle (completeDesc d stMeter 0x07 (fetched d s))))
      ∧ (0 < d.h 36 → d.h 36 ≤ 120 → es ≠ [] → ∃ sig : List Byte,
          let bytes := toLE 4 (d.w 32) ++ toLE 2 es.length ++ zeros 2 ++ toLE 4 s.met.log.length ++ zeros 4 ++ es.flatten ++ sig
          sig.length = 64 ∧ Finishes (.readLog d) d s stOk bytes.length [.outs, .freeIx] fun u => u.outs = .hostWrite (d.q 16) bytes :: (fetched d s).outs))
  ∧ (∀ (d : Desc) (s : State), admits (meterInfo 0x13 false true [] fun s _ => (identifyReply s).length) d s = true → s.met.ready = true → s.host.muted = false →
      Finishes (.identify d) d s stOk (identifyReply s).length [.outs] fun u => u.outs = .hostWrite (d.q 16) (identifyReply s) :: (fetched d s).outs)
  ∧ (∀ (d : Desc) (s : State), admits (meterInfo 0x21 false true [] fun _ _ => 8) d s = true → s.met.ready = true → s.host.muted = false →
      Finishes (.selfTest d) d s stOk 8 [.outs] fun u => u.outs = .hostWrite (d.q 16) (toLE 2 s.met.failed ++ zeros 6) :: (fetched d s).outs)
  ∧ ∀ (d : Desc) (s : State), admits setParameterInfo d s = true →
      let v := signed 64 (d.q 40)
      (∀ r, ((s.met.ready = false ∧ s.caddisBusy = false ∧ r = 0x0B)
          ∨ (s.met.ready = true ∧ s.met.sealIntact = true ∧ r = 0x02)
          ∨ (s.met.ready = true ∧ s.met.sealIntact = false ∧ 8184 ≤ generalCount s ∧ r = 0x03)
          ∨ (s.met.ready = true ∧ s.met.sealIntact = false ∧ generalCount s < 8184 ∧ (s.chan d.ix).isOpen = true ∧ r = 0x04)
          ∨ (s.met.ready = true ∧ s.met.sealIntact = false ∧ generalCount s < 8184 ∧ (s.chan d.ix).isOpen = false ∧ paramRange (d.h 32) v = false ∧ r = 0x01)) →
        Finishes (.setParameter d) d s stMeter r [.flt, .acq, .rcd] (Arose 85 r d.ix (toLE 4 (d.h 32)) s))
      ∧ (s.met.ready = true → s.met.sealIntact = false → generalCount s < 8184 → (s.chan d.ix).isOpen = false → paramRange (d.h 32) v = true →
          d.ix < s.met.ch.length → s.host.muted = false → (∀ x ∈ s.met.log, x.1 ≠ generalCount s) → ∃ e : List Byte,
            Finishes (.setParameter d) d s stOk e.length [.outs, .flt, .acq, .met, .rcd] fun u =>
              paramValue (u.chan d.ix) (d.h 32) = v
              ∧ (∀ p, 1 ≤ p → p ≤ 7 → p ≠ d.h 32 → paramValue (u.chan d.ix) p = paramValue (s.chan d.ix) p)
              ∧ (∀ o, (u.chan o).regs = (s.chan o).regs ∧ (u.chan o).isOpen = (s.chan o).isOpen)
              ∧ u.met.log = s.met.log ++ [(generalCount s, e)] ∧ e.length = 32 ∧ u32 e 0 = generalCount s ∧ u8 e 4 = 1 ∧ u8 e 5 = d.ix ∧ u16 e 6 = d.h 32
              ∧ u.outs = .hostWrite (d.q 16) e :: (fetched d s).outs)

/-- Pilot, proximity, links and timers move an outlet's session and end it with their reasons -/
def Obligations.VehicleHappeningsMoveTheSession : Prop :=
  ∀ (o : Nat) (s : State), s.veh.length = 8 → s.paths.length = 8 →
    (∀ (hi lo : Int) (a : Nat) (lv : Bool), s.ready = true →
      ∀ p ∈ [(Instr.pilotStateChange o hi lo, [1, 2]), (.ppClassChange o a, [1, 2]), (.ppFault o, [2]), (.slacMatched o, [1]), (.slacFailed o a, [1]),
          (.t1sFrameReceive o, [2]), (.t1sLinkDown o, [2]), (.tcpConnectRequest o, [1, 2]), (.canLoss o, [3]), (.authTimeout o, [1, 2]),
          (.chademoUnplugTimer o, [3]), (.msgTimeout o a, [1, 2, 3]), (.starved o, [1, 2, 3]), (.noStageRetry o, [1, 2, 3]),
          (.energyLimitPoll o, [1, 2, 3]), (.chargePermissionChange o lv, [3]), (.chademoTxTick o, [3])],
        s.engineOn o p.2 = false → Idles p.1 s)
    ∧ (s.engineOn o [1, 2] = true → ∀ (hi lo : Int),
        let st := if (s.ses o).pilotF then 5 else pilotClass ((s.ses o).duty && s.personality o == 1) hi lo
        (st = 6 → EngineVia (.pilotStateChange o hi lo) o s [.outs, .flt, .paths, .pair, .acq, .veh, .rcd] fun u => SessionEnds o 0x10 false true s u ∧ (u.vehOf o).pilot = 6
            ∧ Arose (56 + o) 8 o (toLEi 2 hi) s u)
        ∧ ((st = 0 ∨ st = 4) → (s.ses o).state ≠ .ended → EngineVia (.pilotStateChange o hi lo) o s [.outs, .flt, .stages, .paths, .pair, .acq, .veh, .rcd] fun u =>
            SessionEnds o 2 true true s u ∧ (u.vehOf o).pilot = st)
        ∧ (((st ≠ 6 ∧ st ≠ 0 ∧ st ≠ 4) ∨ (st ≠ 6 ∧ (s.ses o).state = .ended)) → EngineVia (.pilotStateChange o hi lo) o s [.veh] fun u =>
            u.veh = upd s.veh o fun v => { v with pilot := st, highMv := hi, lowMv := lo })
        ∧ ∀ ohm, EngineVia (.ppClassChange o ohm) o s [.veh] fun u => u.veh = upd s.veh o fun v => { v with
            ppClass := if 5000 < ohm then 0 else if 1200 ≤ ohm then 1 else if 100 ≤ ohm then 2 else 3
            ppOhm := min 0xFFFF ohm, ppBadAt := if v.ppClass = 2 then s.now else v.ppBadAt })
    ∧ (s.engineOn o [2] = true →
        ((s.path o).closed = true → (s.vehOf o).ppClass ≠ 2 → (s.vehOf o).ppBadAt + 10000000 ≤ s.now → EngineVia (.ppFault o) o s [.outs, .flt, .stages, .paths, .pair, .acq, .rcd] fun u =>
          ((s.path o).state.started = true → (u.path o).state = .stopping) ∧ ((s.path o).state.started = false → (u.path o).state = (s.path o).state)
          ∧ Arose (56 + o) 9 o (toLE 1 (s.vehOf o).ppClass) s u)
        ∧ (((s.path o).closed = false ∨ (s.vehOf o).ppClass = 2 ∨ s.now < (s.vehOf o).ppBadAt + 10000000) → EngineRests (.ppFault o) o s)
        ∧ (s.domainUp 11 = true → EngineVia (.t1sFrameReceive o) o s [.flt, .acq, .veh, .rcd] fun u => (u.vehOf o).t1sUp = true ∧ (u.vehOf o).t1sAt = s.now
          ∧ (u.ses o).state = (if (s.ses o).state = .plugged then .linked else (s.ses o).state))
        ∧ (s.domainUp 11 = false → EngineRests (.t1sFrameReceive o) o s)
        ∧ ((s.vehOf o).t1sUp = true → (s.ses o).state ≠ .idle → (s.vehOf o).t1sAt + 2000000000 ≤ s.now → EngineVia (.t1sLinkDown o) o s [.outs, .flt, .paths, .pair, .acq, .veh, .rcd] fun u =>
          SessionEnds o 8 false true s u ∧ (u.vehOf o).t1sUp = false ∧ (u.vehOf o).tcpOpen = false ∧ Arose (56 + o) 2 o (toLE 1 2) s u)
        ∧ (((s.vehOf o).t1sUp = false ∨ (s.ses o).state = .idle ∨ s.now < (s.vehOf o).t1sAt + 2000000000) → EngineRests (.t1sLinkDown o) o s))
    ∧ (s.engineOn o [1] = true →
        ((s.ses o).state = .plugged → EngineVia (.slacMatched o) o s [.flt, .acq, .veh, .rcd] fun u => (u.ses o).state = .linked
          ∧ Arose (56 + o) 1 o (toLE 1 1) s u)
        ∧ ((s.ses o).state ≠ .plugged → EngineRests (.slacMatched o) o s)
        ∧ (∀ a, (s.ses o).state = .plugged → (a ≠ 1 ∨ (s.ses o).pluggedAt + 50000000000 ≤ s.now) → EngineVia (.slacFailed o a) o s [.outs, .flt, .paths, .pair, .acq, .veh, .rcd] fun u =>
            SessionEnds o 7 false true s u ∧ (u.ses o).duty = false ∧ Arose (56 + o) 3 o (toLE 1 a) s u)
        ∧ (∀ a, ((s.ses o).state ≠ .plugged ∨ (a = 1 ∧ s.now < (s.ses o).pluggedAt + 50000000000)) → EngineRests (.slacFailed o a) o s))
    ∧ (s.engineOn o [1, 2] = true →
        (s.engineHere = true → EngineVia (.tcpConnectRequest o) o s [.outs, .veh] fun u =>
          let served := (s.ses o).state.talks && !(s.vehOf o).tcpOpen
          u.outs = .tcp o served :: s.outs ∧ u.veh = upd s.veh o fun v => { v with tcpOpen := v.tcpOpen || served })
        ∧ (s.engineHere = false → EngineRests (.tcpConnectRequest o) o s)
        ∧ ((s.ses o).state = .authorizing → (s.ses o).startWaits = none → (s.ses o).authAt + 55000000000 ≤ s.now →
            EngineVia (.authTimeout o) o s [.outs, .flt, .paths, .pair, .acq, .veh, .rcd] (SessionEnds o 6 false false s))
        ∧ (((s.ses o).state ≠ .authorizing ∨ (s.ses o).startWaits ≠ none ∨ s.now < (s.ses o).authAt + 55000000000) → EngineRests (.authTimeout o) o s))
    ∧ (s.engineOn o [3] = true →
        ((s.ses o).state.alive = true → max (s.vehOf o).canAt (s.ses o).pluggedAt + 1000000000 ≤ s.now → EngineVia (.canLoss o) o s [.outs, .flt, .stages, .paths, .pair, .acq, .veh, .rcd] fun u =>
            SessionEnds o 8 true true s u ∧ Arose (56 + o) 0x0A o (toLE 1 1) s u)
        ∧ (((s.ses o).state.alive = false ∨ s.now < max (s.vehOf o).canAt (s.ses o).pluggedAt + 1000000000) → EngineRests (.canLoss o) o s)
        ∧ ((s.ses o).state = .ended → (s.ses o).sig1At + 2000000000 ≤ s.now → EngineVia (.chademoUnplugTimer o) o s [.flt, .acq, .veh, .rcd] fun u =>
            u.ses o = { seq := (s.ses o).seq } ∧ Arose o 7 o (toLE 1 0) s u)
        ∧ (((s.ses o).state ≠ .ended ∨ s.now < (s.ses o).sig1At + 2000000000) → EngineRests (.chademoUnplugTimer o) o s)
        ∧ (s.engineHere = true → ((s.ses o).state = .preparing ∨ (s.ses o).state = .charging) → EngineVia (.chargePermissionChange o false) o s [.outs, .flt, .paths, .pair, .acq, .veh, .rcd] fun u =>
            SessionEnds o 1 false true s u ∧ (u.vehOf o).permission = false)
        ∧ (s.engineHere = true → (s.ses o).state = .preparing → (s.ses o).ready = true → (s.ses o).noStage = false →
            EngineVia (.chargePermissionChange o true) o s [.outs, .flt, .paths, .pair, .acq, .veh, .rcd] fun u => (u.vehOf o).permission = true ∧ (u.ses o).isolating = true
              ∧ ((s.ses o).isolating = false → s.portSource o = false → (u.ses o).seq = (s.ses o).seq + 1))
        ∧ (∀ lv, (s.engineHere = false ∨ ((s.ses o).state ≠ .preparing ∧ (s.ses o).state ≠ .charging)
              ∨ (lv = true ∧ ((s.ses o).state ≠ .preparing ∨ (s.ses o).ready = false ∨ (s.ses o).noStage = true))) →
            EngineVia (.chargePermissionChange o lv) o s [.veh] fun u => u.veh = upd s.veh o fun v => { v with permission := lv })
        ∧ (s.leaseHere = true → (s.ses o).state ≠ .idle → (s.vehOf o).canTxAt + 100000000 ≤ s.now → EngineVia (.chademoTxTick o) o s [.outs, .freeIx, .veh] fun u =>
            (∃ x y, x.length = 8 ∧ y.length = 8 ∧ u.outs = .can (s.chademoCan o) 0 0x109 false [] y :: .can (s.chademoCan o) 0 0x108 false [] x :: s.outs)
            ∧ u.veh = upd s.veh o fun v => { v with canTxAt := s.now })
        ∧ ((s.leaseHere = false ∨ (s.ses o).state = .idle ∨ s.now < (s.vehOf o).canTxAt + 100000000) → EngineRests (.chademoTxTick o) o s))
    ∧ (s.engineOn o [1, 2, 3] = true →
        (∀ a, ((s.ses o).state.alive = true ∨ (s.ses o).state = .ending) → EngineVia (.msgTimeout o a) o s [.outs, .flt, .paths, .pair, .acq, .veh, .rcd] fun u =>
            SessionEnds o 9 false true s u ∧ Arose (56 + o) 6 o (toLE 1 a) s u)
        ∧ (∀ a, ((s.ses o).state = .idle ∨ (s.ses o).state = .ended) → EngineRests (.msgTimeout o a) o s)
        ∧ (∀ t, (s.ses o).starvedSince = some t → t + 300000000000 ≤ s.now → EngineVia (.starved o) o s [.outs, .flt, .paths, .pair, .acq, .veh, .rcd] (SessionEnds o 0x0B false false s))
        ∧ ((∀ t, (s.ses o).starvedSince = some t → s.now < t + 300000000000) → EngineRests (.starved o) o s)
        ∧ ((s.ses o).state = .preparing → (s.ses o).noStage = true → (s.path o).state = .idle → (s.ses o).noStageAt + 5000000000 ≤ s.now →
            (s.ses o).isolating = false → (s.personality o ≠ 2 ∨ (s.vehOf o).ppClass = 2) → s.portSource o = false →
            EngineVia (.noStageRetry o) o s [.outs, .flt, .paths, .pair, .acq, .veh, .rcd] fun u => (u.ses o).isolating = true ∧ (u.ses o).noStage = false ∧ (u.ses o).seq = (s.ses o).seq + 1
              ∧ (u.ses o).state = .preparing)
        ∧ (((s.ses o).state ≠ .preparing ∨ (s.ses o).noStage = false ∨ (s.path o).state ≠ .idle ∨ s.now < (s.ses o).noStageAt + 5000000000) →
            EngineRests (.noStageRetry o) o s)
        ∧ ((s.ses o).energyLimitWh ≠ 0 → ((s.ses o).state = .preparing ∨ (s.ses o).state = .charging) → (s.chan o).isOpen = true →
            (s.ses o).energyLimitWh * 1000 ≤ s.windowEnergy o → EngineVia (.energyLimitPoll o) o s [.outs, .flt, .paths, .pair, .acq, .veh, .rcd] (SessionEnds o 0x0C false false s))
        ∧ (((s.ses o).energyLimitWh = 0 ∨ ((s.ses o).state ≠ .preparing ∧ (s.ses o).state ≠ .charging) ∨ (s.chan o).isOpen = false
              ∨ s.windowEnergy o < (s.ses o).energyLimitWh * 1000) → EngineRests (.energyLimitPoll o) o s))

/-- A vehicle's messages carry its session from LINKED to the end, each answered, and without a connection none acts -/
def Obligations.VehicleMessagesDriveTheSession : Prop :=
  (∀ (o : Nat) (step : V2gStep) (req : Request) (s : State), s.veh.length = 8 → s.paths.length = 8 → s.engineOn o [1, 2] = true →
      ((s.engineHere = false ∨ (s.vehOf o).tcpOpen = false ∨ (s.ses o).state = .idle ∨ (s.ses o).state = .ended) →
        EngineRests (.v2gMessageReceive o step req) o s)
      ∧ (s.engineHere = true → (s.vehOf o).tcpOpen = true → (s.ses o).state ≠ .idle → (s.ses o).state ≠ .ended →
        EngineVia (.v2gMessageReceive o step req) o s [.outs, .freeIx, .flt, .paths, .pair, .acq, .veh, .rcd] fun u =>
          let x := s.ses o
          let y := u.ses o
          let onlyReq := y = { x with req := req } ∧ u.paths = s.paths
          let far := max 1000 x.issuedI < 100 * natDist req.iTarget x.issuedI ∨ 10 < natDist req.vTarget x.issuedV
          let barred := s.leaseVoid = true ∧ (x.issuedI < req.iTarget ∨ x.issuedV < req.vTarget)
          (∃ bytes rest, u.outs = .vehicle o bytes :: rest) ∧ y.req = req
          ∧ (∀ p tls pnc, step = .setup p tls pnc → x.state = .linked →
              (protocolOk (s.personality o) p tls pnc s.contractAnchor = true → y.state = .setup ∧ y.protocol = p ∧ y.tls = decide (tls ≠ 0) ∧ y.pnc = pnc
                ∧ (u.vehOf o).sessions = (s.vehOf o).sessions + 1 ∧ u.paths = s.paths ∧ Arose o 2 o (toLE 1 p) s u)
              ∧ (protocolOk (s.personality o) p tls pnc s.contractAnchor = false → SessionEnds o 0x0A false true s u))
          ∧ (∀ t ident, step = .authRequest t ident → x.state = .setup → y.state = .authorizing ∧ y.authAt = s.now ∧ u.paths = s.paths
              ∧ Arose o 3 o (toLE 1 t ++ ident.take 12) s u)
          ∧ (((∃ p tls pnc, step = .setup p tls pnc) ∧ x.state ≠ .linked ∨ (∃ t ident, step = .authRequest t ident) ∧ x.state ≠ .setup
              ∨ step = .parameters ∨ step = .weldingDetection ∨ step = .cableCheck ∧ x.state ≠ .preparing
              ∨ step = .preCharge ∧ (x.state ≠ .preparing ∨ x.checked = false ∨ (x.precharging = true ∧ x.issuedV = req.vTarget))
              ∨ step = .powerStart ∧ (x.state ≠ .preparing ∨ x.precharging = false ∨ x.delivering = true)
              ∨ step = .demand ∧ (x.state ≠ .charging ∨ x.standby = true ∨ s.now < x.issuedAt + 25000000 ∨ ¬ far ∨ barred)
              ∨ step = .standby ∧ (x.state ≠ .charging ∨ x.protocol < 3) ∨ step = .resume ∧ (x.state ≠ .charging ∨ x.standby = false)) → onlyReq)
          ∧ (step = .cableCheck → x.state = .preparing → (s.personality o ≠ 2 ∨ (s.vehOf o).ppClass = 2) → y.isolating = true ∧ y.state = .preparing)
          ∧ (step = .cableCheck → x.isolating = false → s.personality o = 2 → (s.vehOf o).ppClass ≠ 2 → onlyReq)
          ∧ (step = .preCharge → x.state = .preparing → x.checked = true → (x.precharging = false ∨ x.issuedV ≠ req.vTarget) →
              y.precharging = true ∧ y.issuedV = req.vTarget ∧ y.issuedI = req.iTarget ∧ y.issuedAt = s.now)
          ∧ (step = .powerStart → x.state = .preparing → x.precharging = true → x.delivering = false →
              y.delivering = true ∧ y.issuedV = req.vTarget ∧ y.issuedI = req.iTarget ∧ y.state = .preparing)
          ∧ (step = .demand → x.state = .charging → x.standby = false → x.issuedAt + 25000000 ≤ s.now → far → ¬ barred →
              y.issuedV = req.vTarget ∧ y.issuedI = req.iTarget ∧ y.issuedAt = s.now)
          ∧ (step = .resume → x.state = .charging → x.standby = true → y.standby = false ∧ y.issuedV = req.vTarget ∧ y.issuedI = req.iTarget)
          ∧ (step = .standby → x.state = .charging → 3 ≤ x.protocol →
              y = { x with req := req, standby := true, seq := if s.portSource o then x.seq else x.seq + 1 })
          ∧ (step = .stop → SessionEnds o 1 false false s u)
          ∧ (step = .sessionStop → SessionEnds o 1 false true s u)
          ∧ (∀ a, step = .tlsFailed a → SessionEnds o 0x0F false true s u ∧ Arose (56 + o) 5 o (toLE 1 a) s u)
          ∧ (∀ c, step = .protocolError c → SessionEnds o 0x0A false true s u ∧ Arose (56 + o) 7 o (toLE 1 c) s u)))
  ∧ ∀ (o id : Nat) (r : ChademoReport) (s : State), s.veh.length = 8 → s.paths.length = 8 → s.engineOn o [3] = true →
      ((s.engineHere = false ∨ (s.ses o).state = .idle ∨ (s.ses o).state = .ended ∨ id < 0x100 ∨ 0x102 < id) →
          EngineRests (.chademoMessageReceive o id r) o s)
      ∧ (s.engineHere = true → (s.ses o).state ≠ .idle → (s.ses o).state ≠ .ended → (id = 0x101 ∨ (id = 0x100 ∧ (s.ses o).state ≠ .plugged)) →
          EngineVia (.chademoMessageReceive o id r) o s [.veh] fun u => u.veh = upd s.veh o fun v => { v with canAt := s.now })
      ∧ (s.engineHere = true → id = 0x100 → (s.ses o).state = .plugged → s.caddisBusy = true →
          EngineVia (.chademoMessageReceive o id r) o s [.outs, .freeIx, .flt, .alloc, .paths, .pair, .acq, .met, .veh, .rcd] fun u => (u.ses o).state = .authorizing
            ∧ (u.ses o).startWaits = some ((s.alcOut o).sessionLimit, (s.ses o).energyLimitWh, (s.ses o).sessionRef))
      ∧ (s.engineHere = true → id = 0x100 → (s.ses o).state = .plugged → s.caddisBusy = false → (s.leaseHere = false ∨ startRefusal s o = 0) →
          EngineVia (.chademoMessageReceive o id r) o s [.outs, .freeIx, .flt, .alloc, .paths, .pair, .acq, .met, .veh, .rcd] fun u => (u.ses o).state = .preparing ∧ (u.ses o).protocol = 5
            ∧ (u.vehOf o).sessions = (s.vehOf o).sessions + 1 ∧ (s.leaseHere = true → (o < s.met.ch.length → (u.chan o).isOpen = true)))
      ∧ (s.engineHere = true → id = 0x100 → (s.ses o).state = .plugged → s.caddisBusy = false → s.leaseHere = true → startRefusal s o ≠ 0 →
          EngineVia (.chademoMessageReceive o id r) o s [.outs, .freeIx, .flt, .alloc, .paths, .pair, .acq, .met, .veh, .rcd] fun u => (u.ses o).state = .ending ∧ (u.ses o).reason = 0x0D)
      ∧ (s.engineHere = true → id = 0x102 → (s.ses o).state ≠ .idle → (s.ses o).state ≠ .ended →
          EngineVia (.chademoMessageReceive o id r) o s [.outs, .freeIx, .flt, .alloc, .paths, .pair, .acq, .met, .veh, .rcd] fun u => (u.ses o).req = r.req ∧ (u.ses o).ready = r.ready ∧ (u.vehOf o).canAt = s.now
            ∧ (r.stop = true → SessionEnds o 1 false true s u)
            ∧ (r.stop = false → (s.ses o).state ≠ .preparing → (s.ses o).state ≠ .charging →
                u.veh = upd s.veh o fun v => { v with canAt := s.now, ses := { v.ses with req := r.req, ready := r.ready } })
            ∧ (r.stop = false → r.ready = true → (s.vehOf o).permission = true → (s.ses o).state = .preparing → (s.ses o).isolating = false → (s.ses o).noStage = false →
                (u.ses o).isolating = true)
            ∧ (r.stop = false → (s.ses o).state = .preparing → (s.ses o).isolating = true → (s.ses o).checked = true → (s.ses o).sig2 = true →
                r.contactorClosed = true → (s.ses o).precharging = false → (u.ses o).precharging = true ∧ (u.ses o).issuedV = s.inletDv o)
            ∧ (r.stop = false → (s.ses o).state = .preparing → (s.ses o).isolating = true → (s.ses o).precharging = true → r.enabled = true →
                (s.ses o).delivering = false → (u.ses o).delivering = true ∧ (u.ses o).issuedV = r.req.vTarget ∧ (u.ses o).issuedI = r.req.iTarget))

/-- A session starts when its conditions hold, SESSION_AUTHORIZE and SESSION_END act on it, and it ends once its path is safe -/
def Obligations.SessionsStartAreAuthorizedAndEnd : Prop :=
  (∀ (o : Nat) (s : State), o < s.veh.length → o < s.paths.length → (s.path o).lastAnswer = none →
      ((s.mayStart o = true → ((s.personality o = 1 ∧ (s.vehOf o).pilot = 1) ∨ (s.personality o = 2 ∧ (s.vehOf o).pilot = 1 ∧ (s.vehOf o).ppClass = 2)
            ∨ (s.personality o = 3 ∧ (s.ses o).authorized = true)) →
          ((afterVehicle o s).ses o).state = .plugged ∧ ((afterVehicle o s).ses o).duty = decide (s.personality o = 1)
          ∧ ((afterVehicle o s).ses o).sig1 = decide (s.personality o = 3) ∧ ((afterVehicle o s).ses o).pluggedAt = s.now
          ∧ Arose o 1 o (toLE 1 (s.personality o)) s (afterVehicle o s))
      ∧ (s.personality o = 2 → (s.vehOf o).ppClass = 0 → (s.path o).closed = true → (s.path o).state.started = true → (s.ses o).state.alive = true →
          ((afterVehicle o s).ses o).state = .ending ∧ ((afterVehicle o s).ses o).reason = 2 ∧ ((afterVehicle o s).path o).state = .stopping)
      ∧ ((s.ses o).state = .ending → (s.ses o).closed = true → (s.path o).state = .idle → 1 ≤ s.personality o → s.personality o ≤ 3 →
          (s.personality o = 3 ∨ (s.vehOf o).pilot ≠ 0) → ((afterVehicle o s).ses o).state = .ended ∧ ((afterVehicle o s).ses o).reason = (s.ses o).reason
            ∧ ((afterVehicle o s).vehOf o).tcpOpen = false ∧ ((afterVehicle o s).alcOut o).sessionLimit = 0
            ∧ ((s.leaseVoid = true ∨ s.met.ready = false) → ((afterVehicle o s).ses o).stopWaits = true ∧ (afterVehicle o s).met = s.met)
            ∧ (s.leaseHere = true → s.met.ready = true → ((afterVehicle o s).chan o).isOpen = false)
            ∧ Arose o 6 o (toLE 1 (s.ses o).reason) s (afterVehicle o s))
      ∧ ((s.ses o).state = .ended → ((s.personality o = 1 ∧ (s.vehOf o).pilot = 0) ∨ (s.personality o = 2 ∧ (s.vehOf o).pilot = 0 ∧ (s.vehOf o).ppClass = 0)) →
          (afterVehicle o s).ses o = { seq := (s.ses o).seq })))
  ∧ (∀ (d : Desc) (s : State), admits (sessionInfo 0x20 [(8, 1), (10, 22)]) d s = true → d.ix < s.veh.length → d.ix < s.alloc.outlets.length →
      let runs := fun (w : List Part) (P : State → Prop) => ∃ v, exec (.sessionAuthorize d) s = .next (settle (completeDesc d stOk 0 (afterVehicle d.ix v)))
        ∧ Kept w (fetched d s) v ∧ P v
      ((s.ses d.ix).state = .authorizing → d.b 8 = 1 → s.caddisBusy = false → (s.leaseHere = false ∨ startRefusal s d.ix = 0) → runs [.outs, .freeIx, .flt, .alloc, .paths, .pair, .acq, .met, .veh, .rcd] fun v =>
          (v.ses d.ix).state = .preparing ∧ (v.ses d.ix).energyLimitWh = d.w 12 ∧ (v.ses d.ix).sessionRef = bytesAt d.body 8 16
          ∧ (v.alcOut d.ix).sessionLimit = d.h 10 ∧ (s.leaseHere = true → d.ix < s.met.ch.length → (v.chan d.ix).isOpen = true))
      ∧ ((s.ses d.ix).state = .authorizing → d.b 8 = 1 → s.caddisBusy = true → runs [.veh] fun v =>
          v.veh = upd s.veh d.ix fun x => { x with ses := { x.ses with startWaits := some (d.h 10, d.w 12, bytesAt d.body 8 16) } })
      ∧ ((s.ses d.ix).state = .authorizing → d.b 8 = 1 → s.caddisBusy = false → s.leaseHere = true → startRefusal s d.ix ≠ 0 → runs [.outs, .freeIx, .flt, .alloc, .paths, .pair, .acq, .met, .veh, .rcd] fun v =>
          (v.ses d.ix).state = .ending ∧ (v.ses d.ix).reason = 0x0D)
      ∧ ((s.ses d.ix).state = .authorizing → d.b 8 = 0 → runs [.outs, .flt, .paths, .pair, .acq, .veh, .rcd] (SessionEnds d.ix 5 false false s))
      ∧ ((s.ses d.ix).state = .idle → s.personality d.ix = 3 → d.b 8 = 1 → runs [.alloc, .veh] fun v =>
          (v.ses d.ix).authorized = true ∧ (v.ses d.ix).energyLimitWh = d.w 12 ∧ (v.ses d.ix).state = .idle ∧ (v.alcOut d.ix).sessionLimit = d.h 10)
      ∧ ((s.ses d.ix).state = .idle → s.personality d.ix = 3 → d.b 8 = 0 → exec (.sessionAuthorize d) s = .next (settle (completeDesc d stOk 0 (fetched d s))))
      ∧ ((s.ses d.ix).state ≠ .authorizing → ((s.ses d.ix).state ≠ .idle ∨ s.personality d.ix ≠ 3) →
          exec (.sessionAuthorize d) s = .next (settle (completeDesc d stState 0 (fetched d s)))))
  ∧ ∀ (d : Desc) (s : State), admits (sessionInfo 0x21 [(8, 1)]) d s = true → d.ix < s.veh.length →
      ((s.ses d.ix).state = .idle → exec (.sessionEnd d) s = .next (settle (completeDesc d stState 0 (fetched d s))))
      ∧ ((s.ses d.ix).state ≠ .idle → ∃ v, exec (.sessionEnd d) s = .next (settle (completeDesc d stOk 0 (afterVehicle d.ix v)))
          ∧ Kept [.outs, .flt, .paths, .pair, .acq, .veh, .rcd] (fetched d s) v ∧ SessionEnds d.ix 3 false false s v)

/-- A CAN controller filters and stores received frames, writes them to the host ring in order, and sends its pending buffers -/
def Obligations.CanFramesAreStoredDeliveredAndSent : Prop :=
  (∀ (n : Nat) (f : CanFrame) (s : State), s.ready = true →
      ((8 ≤ n ∨ (s.ctlr n).running = false ∨ s.domainUp 11 = false) →
          Idles (.canFrameReceive n f) s ∧ Idles (.canTxComplete n) s ∧ Idles (.canRxRingWrite n) s)
      ∧ (n < 8 → s.can.length = 8 → (s.ctlr n).running = true → s.domainUp 11 = true →
          ((s.canReads n f.fmt = false ∨ (s.ctlr n).busOff = true ∨ ((s.ctlr n).mode = .detecting ∧ (s.ctlr n).accepted = true)) →
            Idles (.canFrameReceive n f) s)
          ∧ (s.canReads n f.fmt = true → (s.ctlr n).busOff = false → (s.ctlr n).mode = .detecting → (s.ctlr n).accepted = false →
              ((s.ctlr n).good ≠ 2 → Runs (.canFrameReceive n f) s [.can] fun t => t.can = upd s.can n fun c => { c with
                  good := c.good + 1, dataVerified := c.dataVerified || decide (2 ≤ f.fmt) })
              ∧ ((s.ctlr n).good = 2 → Runs (.canFrameReceive n f) s [.flt, .acq, .can, .rcd] fun t => (t.ctlr n).accepted = true ∧ (t.ctlr n).quietAt = s.now
                  ∧ (t.ctlr n).rateIndex = (s.ctlr n).candidate ∧ (t.ctlr n).fifo = (s.ctlr n).fifo ∧ Arose (64 + n) 9 n (toLE 1 (s.ctlr n).candidate) s t))
          ∧ (s.canReads n f.fmt = true → (s.ctlr n).busOff = false → (s.ctlr n).mode ≠ .detecting →
              Runs (.canFrameReceive n f) s [.flt, .acq, .can, .rcd] fun t =>
                (t.ctlr n).recc = (if (s.ctlr n).mode = .normal then (if (s.ctlr n).recc ≤ 127 then (s.ctlr n).recc - 1 else 120) else (s.ctlr n).recc)
                ∧ (t.ctlr n).tx = (s.ctlr n).tx ∧ (∀ k, k ≠ n → t.ctlr k = s.ctlr k)
                ∧ (frameFate (s.canRec n) f = .reject → (t.ctlr n).fifo = (s.ctlr n).fifo ∧ (t.ctlr n).prio = (s.ctlr n).prio
                    ∧ (t.ctlr n).rxFrames = (s.ctlr n).rxFrames)
                ∧ (∀ i, frameFate (s.canRec n) f = .accept i → (t.ctlr n).rxFrames = (s.ctlr n).rxFrames + 1 ∧ (t.ctlr n).prio = (s.ctlr n).prio
                    ∧ ((s.ctlr n).fifo.length < 64 → (t.ctlr n).fifo = (s.ctlr n).fifo ++ [{ frame := f, filter := i, overrun := (s.ctlr n).dropping }]
                        ∧ (t.ctlr n).overruns = (s.ctlr n).overruns)
                    ∧ (64 ≤ (s.ctlr n).fifo.length → (t.ctlr n).fifo = (s.ctlr n).fifo ∧ (t.ctlr n).overruns = satAdd 16 (s.ctlr n).overruns 1
                        ∧ (t.ctlr n).dropping = true ∧ ((s.ctlr n).dropping = false → Arose (64 + n) 7 n [] s t)))
                ∧ (frameFate (s.canRec n) f = .prio → (t.ctlr n).rxFrames = (s.ctlr n).rxFrames + 1
                    ∧ ((s.ctlr n).prio = none → (t.ctlr n).prio = some { frame := f, prio := true } ∧ (t.ctlr n).fifo = (s.ctlr n).fifo
                        ∧ Arose (64 + n) 6 n (toLE 4 f.id) s t)
                    ∧ ((s.ctlr n).prio ≠ none → (s.ctlr n).fifo.length < 64 → (t.ctlr n).prio = (s.ctlr n).prio
                        ∧ (t.ctlr n).fifo = (s.ctlr n).fifo ++ [{ frame := f, prio := true, overrun := (s.ctlr n).dropping }])))))
  ∧ (∀ (n : Nat) (s : State), s.ready = true → n < 8 → s.can.length = 8 → (s.ctlr n).running = true → s.domainUp 11 = true →
      (((s.ctlr n).rx.enable = false ∨ s.domainUp 6 = false ∨ ((s.ctlr n).prio = none ∧ (s.ctlr n).fifo = [])) → Idles (.canRxRingWrite n) s)
      ∧ (∀ e r, (s.ctlr n).rx.enable = true → s.domainUp 6 = true →
            ((s.ctlr n).prio = some e ∧ r = (s.ctlr n).fifo ∨ (s.ctlr n).prio = none ∧ (s.ctlr n).fifo = e :: r) →
          Runs (.canRxRingWrite n) s [.outs, .host, .can] fun t => (t.ctlr n).prio = none ∧ (t.ctlr n).fifo = r
            ∧ (t.ctlr n).rx.index = (if (s.ctlr n).rx.index + 1 = 2 ^ (s.ctlr n).rx.sizeLog2 then 0 else (s.ctlr n).rx.index + 1)
            ∧ (t.ctlr n).rx.phase = xor (s.ctlr n).rx.phase (decide ((s.ctlr n).rx.index + 1 = 2 ^ (s.ctlr n).rx.sizeLog2))
            ∧ (∀ k, k ≠ n → t.ctlr k = s.ctlr k)
            ∧ ∃ bytes, t.outs = .hostWrite ((s.ctlr n).rx.baseLo.toNat + 2 ^ 32 * (s.ctlr n).rx.baseHi.toNat
                  + bytes.length * (s.ctlr n).rx.index) bytes :: s.outs
              ∧ bytes.length = (if s.canFeature n 1 then 2080 else 96)
              ∧ u8 bytes 0 = (e.frame.fmt + 32 * b2n e.overrun + 64 * b2n e.prio + 128 * b2n (s.ctlr n).rx.phase) % 256
              ∧ u16 bytes 2 = e.frame.data.length % 65536 ∧ u32 bytes 4 = e.frame.id % 2 ^ 32 ∧ u64 bytes 8 = e.frame.time % 2 ^ 64))
  ∧ (∀ (n : Nat) (s : State), s.ready = true → n < 8 → s.can.length = 8 → (s.ctlr n).running = true → s.domainUp 11 = true →
      (((s.ctlr n).mode ≠ .normal ∨ (s.ctlr n).busOff = true ∨ ((s.ctlr n).onWire = none ∧ s.canOwner n = none)) → Idles (.canTxComplete n) s)
      ∧ ((s.ctlr n).mode = .normal → (s.ctlr n).busOff = false → (s.ctlr n).onWire = none → s.canOwner n ≠ none →
          Runs (.canTxComplete n) s [.outs, .freeIx, .host, .flt, .acq, .can, .rcd, .rings] fun t => (t.ctlr n).txFrames = (s.ctlr n).txFrames + 1 ∧ (t.ctlr n).tec = min 511 ((s.ctlr n).tec - 1)
            ∧ (t.ctlr n).tx = (s.ctlr n).tx)
      ∧ (∀ b x, (s.ctlr n).mode = .normal → (s.ctlr n).busOff = false → (s.ctlr n).onWire = some b → nth (s.ctlr n).tx b = some x → b < (s.ctlr n).tx.length →
          Runs (.canTxComplete n) s [.outs, .freeIx, .host, .flt, .acq, .can, .rcd, .rings] fun t =>
            (t.ctlr n).txFrames = (s.ctlr n).txFrames + 1
            ∧ ((s.ctlr n).leaving = 0 → (t.ctlr n).tec = min 511 ((s.ctlr n).tec - 1) ∧ (t.ctlr n).tx = (s.ctlr n).tx.set b none)
            ∧ (((s.ctlr n).leaving = 4 ∨ (s.ctlr n).leaving = 5) → (t.ctlr n).leaving = 0 ∧ (t.ctlr n).tx = [none, none, none])
            ∧ ((s.ctlr n).leaving = 4 → (t.ctlr n).mode = if s.leaseHere then .normal else .restricted)
            ∧ ∃ r, t.outs = r ++ .can n x.frame.fmt x.frame.id x.frame.ide
                (if x.frame.fmt = 3 then [x.frame.sdt, x.frame.vcid] ++ toLE 4 x.frame.af.toNat else []) x.frame.data :: s.outs))
  ∧ ∀ (d : Desc) (s : State), admits canSendInfo d s = true →
      ((s.ctlr d.ix).mode = .detecting → exec (.canSend d) s = .next (settle (completeDesc d stState 3 (fetched d s))))
      ∧ ((s.ctlr d.ix).mode ≠ .detecting → (s.ctlr d.ix).leaving = 5 → exec (.canSend d) s = .next (settle (completeDesc d stState 5 (fetched d s))))
      ∧ ((s.ctlr d.ix).mode ≠ .detecting → (s.ctlr d.ix).leaving ≠ 5 →
          ((s.ctlr d.ix).busOff = true → s.canFeature d.ix 4 = true → exec (.canSend d) s = .next (settle (completeDesc d stState 2 (fetched d s))))
          ∧ (((s.ctlr d.ix).busOff = false ∨ s.canFeature d.ix 4 = false) →
            ((∀ b, b < 3 → nth (s.ctlr d.ix).tx b ≠ none) → exec (.canSend d) s = .next (settle (completeDesc d stBusy 0 (fetched d s))))
            ∧ (∀ b, b < 3 → nth (s.ctlr d.ix).tx b = none → (∀ k, k < b → nth (s.ctlr d.ix).tx k ≠ none) →
              (d.input = none → exec (.canSend d) s = .next (settle (completeDesc d stBuffer 0 (fetched d s))))
              ∧ (∀ bytes, d.input = some bytes → s.can.length = 8 → Starts (.canSend d) d s [.host, .rings, .can] fun t =>
                  (t.ctlr d.ix).tx = (s.ctlr d.ix).tx.set b (some { frame := descFrame d bytes }) ∧ (∀ k, k ≠ d.ix → t.ctlr k = s.ctlr k)
                  ∧ (t.host.inflight.any fun i => i.tag == d.tag) = true ∧ ((s.ctlr d.ix).onWire.isSome = true → (t.ctlr d.ix).onWire = (s.ctlr d.ix).onWire)))))

/-- Errors move the counters into bus-off, recovery clears them, and detection walks the candidates -/
def Obligations.CanErrorsConfineAndDetectionFindsTheRate : Prop :=
  (∀ (n : Nat) (h : CanHappening) (v : Word) (s : State), s.ready = true → (8 ≤ n ∨ (s.ctlr n).running = false ∨ s.domainUp 11 = false) →
      ∀ c ∈ [Instr.canError n h, .busOffRecoveryDone n, .detectWindowExpiry n, .canRestrictedExit n, .recover n v, .redetect n v], Idles c s)
  ∧ (∀ (n : Nat) (h : CanHappening) (s : State), s.ready = true → n < 8 → s.can.length = 8 → (s.ctlr n).running = true → s.domainUp 11 = true →
      let data := ∃ t code arb nod, h = .error t code true arb nod
      let next := if s.candCount n ≤ (s.ctlr n).candidate + 1 then 0 else (s.ctlr n).candidate + 1
      ((s.ctlr n).busOff = true → exec (.canError n h) s = .next (settle (settleVehicles s)))
      ∧ ((s.ctlr n).busOff = false → (s.ctlr n).mode = .restricted → unverifiedData n h s = false → (s.ctlr n).tec ≤ 255 →
          Through settleVehicles (.canError n h) s [.outs, .freeIx, .host, .flt, .stages, .paths, .pair, .acq, .veh, .can, .rcd, .rings] fun u =>
          (u.ctlr n).busOff = false ∧ ((s.ctlr n).leaving = 0 → (u.ctlr n).tec = (s.ctlr n).tec ∧ (u.ctlr n).recc = (s.ctlr n).recc ∧ (u.ctlr n).tx = (s.ctlr n).tx))
      ∧ ((s.ctlr n).busOff = false → (s.ctlr n).mode = .detecting → (s.ctlr n).accepted = false →
          Through settleVehicles (.canError n h) s [.outs, .freeIx, .host, .flt, .stages, .paths, .pair, .acq, .veh, .can, .rcd, .rings] fun u =>
          (u.ctlr n).candidate = next ∧ (u.ctlr n).good = 0 ∧ (u.ctlr n).tec = (s.ctlr n).tec ∧ (u.ctlr n).recc = (s.ctlr n).recc
          ∧ (s.candCount n ≤ (s.ctlr n).candidate + 1 → Arose (64 + n) 0x0A n [] s u))
      ∧ ((s.ctlr n).busOff = false → (s.ctlr n).mode = .detecting → (s.ctlr n).accepted = true →
          Through settleVehicles (.canError n h) s [.outs, .freeIx, .host, .flt, .stages, .paths, .pair, .acq, .veh, .can, .rcd, .rings] fun u =>
          (data → (s.ctlr n).dataVerified = false → (u.ctlr n).accepted = false ∧ (u.ctlr n).candidate = next ∧ (u.ctlr n).good = 0)
          ∧ ((¬ data ∨ (s.ctlr n).dataVerified = true) → (u.ctlr n).accepted = true ∧ (u.ctlr n).candidate = (s.ctlr n).candidate))
      ∧ ((s.ctlr n).busOff = false → (s.ctlr n).mode ≠ .detecting → (s.ctlr n).leaving = 0 → unverifiedData n h s = true →
          Through settleVehicles (.canError n h) s [.outs, .freeIx, .host, .flt, .stages, .paths, .pair, .acq, .veh, .can, .rcd, .rings] fun u => (u.ctlr n).mode = .detecting ∧ (u.ctlr n).accepted = false ∧ (u.ctlr n).good = 0
            ∧ (u.ctlr n).candidate = (if s.candCount n ≤ (s.ctlr n).rateIndex + 1 then 0 else (s.ctlr n).rateIndex + 1)
            ∧ (u.ctlr n).tx = [none, none, none] ∧ (u.ctlr n).onWire = none)
      ∧ (∀ tec rec, (s.ctlr n).busOff = false → (s.ctlr n).mode = .normal → (s.ctlr n).leaving = 0 → unverifiedData n h s = false →
          ((∃ code dat arb nod, h = .error false code dat arb nod ∧ tec = (s.ctlr n).tec ∧ rec = (s.ctlr n).recc + 1)
            ∨ (∃ code dat arb nod, h = .error true code dat arb nod ∧ rec = (s.ctlr n).recc
                ∧ tec = (s.ctlr n).tec + (if (code = 3 ∧ (s.ctlr n).passive = true ∧ nod = true) ∨ (code = 1 ∧ arb = true) then 0 else 8))
            ∨ (h = .firstDominant ∧ tec = (s.ctlr n).tec ∧ rec = (s.ctlr n).recc + 8)
            ∨ ((h = .flagBit true ∨ h = .dominantRun true) ∧ tec = (s.ctlr n).tec + 8 ∧ rec = (s.ctlr n).recc)
            ∨ ((h = .flagBit false ∨ h = .dominantRun false) ∧ tec = (s.ctlr n).tec ∧ rec = (s.ctlr n).recc + 8)) →
          Through settleVehicles (.canError n h) s [.outs, .freeIx, .host, .flt, .stages, .paths, .pair, .acq, .veh, .can, .rcd, .rings] fun u => (u.ctlr n).tec = min 511 tec ∧ (u.ctlr n).recc = min 255 rec
            ∧ (u.ctlr n).busOff = decide (255 < tec) ∧ (∀ k, k ≠ n → u.ctlr k = s.ctlr k)
            ∧ (255 < tec → (u.ctlr n).busOffs = satAdd 16 (s.ctlr n).busOffs 1 ∧ (u.ctlr n).recovering = s.canFeature n 3 ∧ (u.ctlr n).recoverAt = s.now
                ∧ (u.ctlr n).onWire = none ∧ Posted (64 + n) 4 n s u)
            ∧ (tec ≤ 255 → (u.ctlr n).busOffs = (s.ctlr n).busOffs)))
  ∧ (∀ (n : Nat) (s : State), s.ready = true → n < 8 → s.can.length = 8 → (s.ctlr n).running = true → s.domainUp 11 = true →
      let next := if s.candCount n ≤ (s.ctlr n).candidate + 1 then 0 else (s.ctlr n).candidate + 1
      ((s.ctlr n).busOff = true → (s.ctlr n).recovering = true → (s.ctlr n).recoverAt + s.canBitsNs n 1408 ≤ s.now →
          Runs (.busOffRecoveryDone n) s [.flt, .acq, .can, .rcd] fun t => Posted (64 + n) 5 n s t
          ∧ (t.ctlr n).tec = 0 ∧ (t.ctlr n).recc = 0 ∧ (t.ctlr n).busOff = false ∧ (t.ctlr n).recovering = false ∧ (t.ctlr n).tx = (s.ctlr n).tx)
      ∧ (((s.ctlr n).busOff = false ∨ (s.ctlr n).recovering = false ∨ s.now < (s.ctlr n).recoverAt + s.canBitsNs n 1408) → Idles (.busOffRecoveryDone n) s)
      ∧ ((s.ctlr n).mode = .detecting → (s.ctlr n).accepted = false → (s.ctlr n).candAt + 1000000 * detectWindowMs s n ≤ s.now →
          Runs (.detectWindowExpiry n) s [.flt, .acq, .can, .rcd] fun t => (t.ctlr n).good = 0 ∧ (t.ctlr n).candAt = s.now ∧ (t.ctlr n).dataVerified = false
            ∧ (t.ctlr n).candidate = next ∧ (s.candCount n ≤ (s.ctlr n).candidate + 1 → Arose (64 + n) 0x0A n [] s t))
      ∧ (((s.ctlr n).mode ≠ .detecting ∨ (s.ctlr n).accepted = true ∨ s.now < (s.ctlr n).candAt + 1000000 * detectWindowMs s n) →
          Idles (.detectWindowExpiry n) s)
      ∧ ((((s.ctlr n).mode = .detecting ∧ (s.ctlr n).accepted = true) ∨ ((s.ctlr n).mode = .restricted ∧ s.leaseHere = true)) →
          (s.ctlr n).quietAt + s.canBitsNs n 11 ≤ s.now →
          Runs (.canRestrictedExit n) s [.can] fun t => (t.ctlr n).mode = (if s.leaseHere then .normal else .restricted) ∧ (t.ctlr n).tx = (s.ctlr n).tx
            ∧ (t.ctlr n).tec = (s.ctlr n).tec ∧ ∀ k, k ≠ n → t.ctlr k = s.ctlr k)
      ∧ (((s.ctlr n).mode = .normal ∨ ((s.ctlr n).mode = .detecting ∧ (s.ctlr n).accepted = false) ∨ ((s.ctlr n).mode = .restricted ∧ s.leaseHere = false)
            ∨ s.now < (s.ctlr n).quietAt + s.canBitsNs n 11) → Idles (.canRestrictedExit n) s))
  ∧ ∀ (n : Nat) (v : Word) (s : State), s.ready = true → ∀ p ∈ [(Instr.recover n v, 0), (Instr.redetect n v, 1)],
      ((v.getLsbD p.2 = false ∨ s.domainUp 6 = false) → Idles p.1 s)
      ∧ (n < 8 → s.can.length = 8 → (s.ctlr n).running = true → s.domainUp 11 = true → s.domainUp 6 = true → v.getLsbD p.2 = true →
          let starts := v.getLsbD 0 && (s.ctlr n).busOff && !(s.ctlr n).recovering && !s.canFeature n 3
          ((v.getLsbD 1 = false ∨ s.canFeature n 6 = false) → Runs p.1 s [.can] fun t => t.can = upd s.can n fun c => { c with
              recovering := c.recovering || starts, recoverAt := if starts then s.now else c.recoverAt })
          ∧ (v.getLsbD 1 = true → s.canFeature n 6 = true → Runs p.1 s [.outs, .freeIx, .host, .can, .rings] fun t => (t.ctlr n).mode = .detecting ∧ (t.ctlr n).candidate = 0
              ∧ (t.ctlr n).good = 0 ∧ (t.ctlr n).candAt = s.now ∧ (t.ctlr n).accepted = false ∧ (t.ctlr n).tx = [none, none, none] ∧ (t.ctlr n).onWire = none
              ∧ (t.ctlr n).recovering = ((s.ctlr n).recovering || starts) ∧ (t.ctlr n).tec = (s.ctlr n).tec ∧ ∀ k, k ≠ n → t.ctlr k = s.ctlr k))

/-- Zero crossings measure the mains, the coordinator's beacons carry the cycle, and a node locks, loses lock and takes over -/
def Obligations.MainsCrossingsAndBeaconsKeepTime : Prop :=
  (∀ (time : Nat) (s : State), s.ready = true →
      let zc := (time / 1000 * 1000 :: s.plc.zc).take 17
      let n := zc.length - 1
      let m := (zc.headD 0 - zc.getLastD 0) / n
      let ok := decide (1 ≤ n) && decide (45 * m ≤ 1000000000) && decide (1000000000 ≤ 66 * m)
      Runs (.zeroCrossing time) s [.flt, .acq, .plc, .rcd] fun t => t.plc.zc = zc ∧ t.plc.zcValid = ok ∧ t.plc.zcBad = (decide (1 ≤ n) && !ok)
        ∧ (ok = true → t.plc.zcRun = s.plc.zcRun + 1 ∧ t.plc.zcPeriod = m
            ∧ (s.plc.zcFault = true → 16 ≤ s.plc.zcRun + 1 → Arose 74 0 0xFF (toLE 4 m) s t ∧ t.plc.zcFault = false))
        ∧ (ok = false → t.plc.zcRun = 0 ∧ t.plc.zcPeriod = s.plc.zcPeriod)
        ∧ (ok = false → 1 ≤ n → s.plc.zcBad = false → Arose 74 2 0xFF (toLE 4 m) s t ∧ t.plc.zcFault = true)
        ∧ t.plc.role = s.plc.role ∧ t.plc.msgs = s.plc.msgs)
  ∧ (∀ s : State, s.ready = true →
      (s.plc.zc = [] → Idles .zcLost s)
      ∧ (∀ x r, s.plc.zc = x :: r → s.now < x + 50000000 → Idles .zcLost s)
      ∧ (∀ x r, s.plc.zc = x :: r → x + 50000000 ≤ s.now → Runs .zcLost s [.flt, .acq, .plc, .rcd] fun t =>
          t.plc = { s.plc with zc := [], zcRun := 0, zcValid := false, zcBad := false, zcFault := true } ∧ Arose 74 1 0xFF [] s t))
  ∧ (∀ (slot : Nat) (f : PlcFrame) (start rank : Nat) (s : State), s.pwr.undefinedLogic = false → s.beaconOn = false →
      Idles (.beaconWindow slot) s ∧ Idles (.beacon f start rank) s ∧ Idles .beaconLockLoss s ∧ Idles .coordStart s)
  ∧ (∀ (slot : Nat) (s : State), s.beaconOn = true →
      ((s.isFrozen 0x21 = true ∨ (s.plc.role = 3 ∧ (slot ≠ 0 ∨ s.beaconDue = false)) ∨ (s.plc.role ≠ 3 ∧ s.relaysSlot slot = false)) →
        Idles (.beaconWindow slot) s)
      ∧ (s.isFrozen 0x21 = false → s.plc.role = 3 → slot = 0 → s.beaconDue = true → Runs (.beaconWindow slot) s [.outs, .plc] fun t =>
          t.plc.cycle = s.plc.cycle + 2 ∧ t.plc.cycleStart = s.coordCycle ∧ t.plc.periodNs = s.coordPeriod ∧ t.plc.heardAt = s.now ∧ t.plc.depth = 0
          ∧ t.plc.nodes = s.plc.table.length ∧ t.plc.assocOpen = true ∧ t.plc.synthetic = !s.plc.zcValid ∧ t.plc.role = 3 ∧ t.plc.table = s.plc.table
          ∧ t.plc.nextSeq = s.plc.nextSeq + 1
          ∧ t.plc.wake = ((s.plc.wake.take 8).map fun w => (w.1, w.2 - 1)).filter (fun w => w.2 != 0) ++ s.plc.wake.drop 8
          ∧ ∃ bytes, t.outs = .plc 1 255 s.txLevelDb bytes :: s.outs ∧ u8 bytes 0 = 1 ∧ u16 bytes 2 = s.plc.nid % 65536 ∧ u8 bytes 4 = s.plc.addr % 256
            ∧ u8 bytes 5 = 255 ∧ u16 bytes 10 = s.plc.nextSeq.toNat)
      ∧ (s.isFrozen 0x21 = false → s.plc.role ≠ 3 → s.relaysSlot slot = true → Runs (.beaconWindow slot) s [.outs, .plc] fun t =>
          t.plc = { s.plc with nextSeq := s.plc.nextSeq + 1, nonceAt := s.nonceTime }
          ∧ ∃ bytes, t.outs = .plc 1 255 s.txLevelDb bytes :: s.outs ∧ u8 bytes 0 = 1 ∧ u8 bytes 4 = s.plc.addr % 256))
  ∧ (∀ (f : PlcFrame) (start rank : Nat) (s : State), s.beaconOn = true →
      let c := FrameControl.ofBytes f.fc
      ((s.isFrozen 0x21 = true ∨ fcAccepted s f.fc = false ∨ c.type ≠ 1) → Idles (.beacon f start rank) s)
      ∧ (s.isFrozen 0x21 = false → fcAccepted s f.fc = true → c.type = 1 → f.auth = none →
          Runs (.beacon f start rank) s [.flt, .acq, .plc, .rcd] fun t => t.plc.lock = s.plc.lock ∧ t.plc.cycle = s.plc.cycle ∧ t.plc.role = s.plc.role
            ∧ t.plc.msgs.length = s.plc.msgs.length)
      ∧ (∀ at_ pl, s.isFrozen 0x21 = false → fcAccepted s f.fc = true → c.type = 1 → BeaconVerifies f at_ pl s →
          let slot := match [u8 pl 12, u8 pl 13, u8 pl 14].findIdx? (fun a => a == c.src && a != 0) with | some i => i + 1 | none => 0
          (s.plc.role ≠ 3 → (s.plc.lock = false ∨ s.plc.cycle ≠ BitVec.ofNat 32 (u32 pl 4) ∨ u8 pl 1 < s.plc.depth) →
            Runs (.beacon f start rank) s [.flt, .acq, .plc, .rcd] fun t => t.plc.lock = true ∧ t.plc.coordAddr = u8 pl 0 ∧ t.plc.depth = u8 pl 1 % 4
              ∧ t.plc.cycle = BitVec.ofNat 32 (u32 pl 4) ∧ t.plc.periodNs = u32 pl 8 ∧ t.plc.nodes = u8 pl 3 ∧ t.plc.heardAt = s.now
              ∧ t.plc.cycleStart = start - slot * u32 pl 8 / 2 ∧ t.plc.addr = s.plc.addr
              ∧ t.plc.role = (if s.plc.lock then s.plc.role else if s.plc.addr = 0 then 1 else 2))
          ∧ (s.plc.role ≠ 3 → s.plc.lock = true → s.plc.cycle = BitVec.ofNat 32 (u32 pl 4) → s.plc.depth ≤ u8 pl 1 →
            Runs (.beacon f start rank) s [.flt, .acq, .plc, .rcd] fun t => t.plc.lock = true ∧ t.plc.cycle = s.plc.cycle ∧ t.plc.cycleStart = s.plc.cycleStart
              ∧ t.plc.role = s.plc.role ∧ t.plc.depth = s.plc.depth)
          ∧ (s.plc.role = 3 → u8 pl 0 ≠ s.plc.addr → (rank < s.coordRank ∨ (rank = s.coordRank ∧ u8 pl 0 < s.plc.addr)) →
            Runs (.beacon f start rank) s [.flt, .acq, .plc, .rcd] fun t => t.plc.lock = true ∧ t.plc.role = (if s.plc.addr = 0 then 1 else 2) ∧ t.plc.table = []
              ∧ t.plc.coordAddr = u8 pl 0 ∧ t.plc.addr = s.plc.addr ∧ Arose 72 7 (u8 pl 0) (toLE 1 s.plc.addr) s t)
          ∧ (s.plc.role = 3 → (u8 pl 0 = s.plc.addr ∨ s.coordRank < rank ∨ (rank = s.coordRank ∧ s.plc.addr ≤ u8 pl 0)) →
            Runs (.beacon f start rank) s [.flt, .acq, .plc, .rcd] fun t => t.plc.role = 3 ∧ t.plc.cycle = s.plc.cycle ∧ t.plc.table.length = s.plc.table.length)))
  ∧ ∀ s : State, s.beaconOn = true →
      let waited := s.plc.heardAt + 2 * s.mainsNs * (4 + (s.coordRank + 1) * 2) ≤ s.now
      (s.plc.lock = true → s.plc.heardAt + 8 * s.mainsNs ≤ s.now → Runs .beaconLockLoss s [.flt, .acq, .plc, .rcd] fun t =>
        t.plc = { s.plc with lock := false, role := 1, await := none } ∧ (s.plc.addr ≠ 0 → Arose 72 2 s.plc.addr (toLE 1 1) s t))
      ∧ ((s.plc.lock = false ∨ s.now < s.plc.heardAt + 8 * s.mainsNs) → Idles .beaconLockLoss s)
      ∧ ((s.isFrozen 0x21 = true ∨ s.plcFlag 0 = false ∨ s.plc.role = 3 ∨ s.plc.lock = true ∨ ¬ waited) → Idles .coordStart s)
      ∧ (s.isFrozen 0x21 = false → s.plcFlag 0 = true → s.plc.role ≠ 3 → s.plc.lock = false → waited →
          let a := if s.plc.addr ≠ 0 then s.plc.addr else if s.plcFlag 2 then s.plcStatic else 1
          Runs .coordStart s [.plc] fun t => t.plc = { s.plc with
            role := 3, addr := a, coordAddr := a, ask := 0, cycleStart := s.now, table := [(a, leAt s.nodeId 0 8, s.now)] })

/-- A node that wins contention sends the next message's frame, and SACKs, timeouts and timers move its queue -/
def Obligations.PlcMessagesAreSentAndAcknowledged : Prop :=
  (∀ (won : Bool) (backoff a : Nat) (fc : List Byte) (s : State), s.ready = true → s.plcRuns = false →
      ∀ c ∈ [Instr.plcContention won backoff, .sack fc, .sackTimeout, .routeTimer, .assocRetry, .addressHoldExpiry a], Idles c s)
  ∧ (∀ (won : Bool) (backoff : Nat) (s : State), s.plcRuns = true →
      ((won = false ∨ s.mayContend backoff = false ∨ s.maySend = false ∨ nextMsg s s.regionNow.1 = none) → NetRests (.plcContention won backoff) s)
      ∧ (∀ m want re, won = true → s.mayContend backoff = true → s.maySend = true → nextMsg s s.regionNow.1 = some (m, want, re) →
          let r := s.regionNow.1
          let s0 := takeHop m.final r s
          let hop := chooseHop s0 m.final r
          let bits := if re || m.robust || hop == 255 then robustBits s0 else (((s0.plcNode hop).region r).bits s0).1
          let k := fitBlocks bits (s.regionNow.2 - 56800 * (2 + backoff)) (hop == 255) (min 16 want.length)
          (k = 0 → exec (.plcContention won backoff) s = .next (settle (refreshPaths s0)))
          ∧ (0 < k → NetVia (.plcContention won backoff) s [.outs, .flt, .acq, .plc, .rcd] fun t =>
              (∃ bytes, t.outs = .plc m.type hop s.txLevelDb bytes :: s.outs ∧ bytes.length = 32 + 128 * k ∧ u8 bytes 0 = m.type % 256 ∧ u8 bytes 5 = hop % 256
                ∧ u16 bytes 10 = m.seq.toNat)
              ∧ t.plc.await = (if hop = 255 then none
                  else some { num := m.num, dst := hop, region := r, map := ((want.take k).map fun i => 2 ^ i).foldl (· + ·) 0 })
              ∧ t.plc.busyUntil = s.now + ceilDiv (56800 * (2 + backoff) + frameThirds (symbolsFor bits k) (hop == 255)) 3
              ∧ t.plc.collided = false ∧ t.plc.role = s.plc.role ∧ t.plc.ask = (if m.type = 5 then 0 else s.plc.ask)
              ∧ (hop = 255 → k = want.length → t.plc.msgs.all (fun x => x.num != m.num) = true))))
  ∧ (∀ (fc : List Byte) (s : State), s.plcRuns = true →
      let c := FrameControl.ofBytes fc
      (s.plc.await = none → NetRests (.sack fc) s)
      ∧ ((s.plc.await = none ∨ s.now < s.plc.busyUntil) → NetRests .sackTimeout s)
      ∧ (s.plc.await ≠ none → s.plc.busyUntil ≤ s.now → NetVia .sackTimeout s [.plc] fun t => t.plc = { s.plc with await := none, collided := true })
      ∧ (∀ a m, s.plc.await = some a → (s.plc.msgs.find? fun x => x.num == a.num) = some m →
          ((fcAccepted s fc = false ∨ c.type ≠ 3 ∨ c.src ≠ a.dst ∨ c.seq ≠ m.seq) → NetRests (.sack fc) s)
          ∧ (fcAccepted s fc = true → c.type = 3 → c.src = a.dst → c.seq = m.seq →
              (c.blockMap &&& a.map = 0 → (∀ i, i < m.blocks.length → bitOf a.map i = false → m.blocks.getD i .good = .good) →
                NetVia (.sack fc) s [.outs, .freeIx, .host, .flt, .acq, .plc, .rcd, .rings] fun t => t.plc.await = none ∧ t.plc.collided = false
                  ∧ ((m.own = true ∧ a.dst ≠ m.final) → ∃ x ∈ t.plc.msgs, x.num = m.num ∧ x.waitAck = true)
                  ∧ ((m.own = false ∨ a.dst = m.final) → (∀ x ∈ t.plc.msgs, x.num ≠ m.num)
                      ∧ (t.host.inflight.any fun i => i.op == .plcSend m.num) = false))
              ∧ ((∃ i, i < m.blocks.length ∧ ((bitOf a.map i = true ∧ bitOf (c.blockMap &&& a.map) i = true)
                    ∨ (bitOf a.map i = false ∧ m.blocks.getD i .good ≠ .good))) →
                (∀ i, i < m.blocks.length → ∀ g w n, m.blocks.getD i .good = .bad g w n → n < s.resendLimit) → 0 < s.resendLimit →
                NetVia (.sack fc) s [.outs, .freeIx, .host, .flt, .acq, .plc, .rcd, .rings] fun t => t.plc.await = none ∧ ∃ x ∈ t.plc.msgs, x.num = m.num ∧ x.blocks.length = m.blocks.length
                  ∧ ∀ i, i < m.blocks.length →
                    (bitOf a.map i = false → x.blocks.getD i .good = m.blocks.getD i .good)
                    ∧ (bitOf a.map i = true → bitOf (c.blockMap &&& a.map) i = false → x.blocks.getD i .good = .good)
                    ∧ (bitOf a.map i = true → bitOf (c.blockMap &&& a.map) i = true → ∃ from_ n, x.blocks.getD i .good = .bad a.region from_ n
                        ∧ s.now < from_))
              ∧ ((∃ i g w n, i < m.blocks.length ∧ m.blocks.getD i .good = .bad g w n ∧ s.resendLimit ≤ n
                    ∧ (bitOf a.map i = false ∨ bitOf (c.blockMap &&& a.map) i = true)) →
                NetVia (.sack fc) s [.outs, .freeIx, .host, .flt, .acq, .plc, .rcd, .rings] fun t => t.plc.await = none ∧ (∀ x ∈ t.plc.msgs, x.num ≠ m.num)
                  ∧ (m.own = true → (t.host.inflight.any fun i => i.op == .plcSend m.num) = false)))))
  ∧ (∀ s : State, s.plcRuns = true →
      let due := fun q : Nat => q + 32 * s.mainsNs ≤ s.now
      (s.plcSynced = true → s.plc.addr ≠ 0 → due s.plc.routeAt → NetVia .routeTimer s [.plc] fun t => t.plc.routeAt = s.now
          ∧ ∃ m, t.plc.msgs = s.plc.msgs ++ [m] ∧ m.type = 8 ∧ m.final = 255 ∧ m.robust = true ∧ m.own = false ∧ m.num = s.plc.nextNum)
      ∧ ((s.plcSynced = false ∨ s.plc.addr = 0 ∨ ¬ due s.plc.routeAt) → NetRests .routeTimer s)
      ∧ (s.plc.lock = true → s.plc.addr = 0 → s.plc.assocOpen = true → due s.plc.askedAt → NetVia .assocRetry s [.plc] fun t => t.plc.askedAt = s.now
          ∧ ∃ m, t.plc.msgs = s.plc.msgs ++ [m] ∧ m.type = 5 ∧ m.final = s.plc.coordAddr ∧ m.num = s.plc.nextNum)
      ∧ ((s.plc.lock = false ∨ s.plc.addr ≠ 0 ∨ s.plc.assocOpen = false ∨ ¬ due s.plc.askedAt) → NetRests .assocRetry s)
      ∧ ∀ a, NetVia (.addressHoldExpiry a) s [.flt, .acq, .plc, .rcd] fun t =>
          t.plc.table = s.plc.table.filter (fun e => !(e.1 == a && e.1 != s.plc.addr && decide (e.2.2 + s.assocHoldS * 1000000000 ≤ s.now)))
          ∧ ((s.plcNode a).direct = true → (s.plcNode a).lastHeard + s.assocHoldS * 1000000000 ≤ s.now → (t.plcNode a).direct = false
              ∧ Arose 72 4 a (toLE 1 (rateMask s a)) s t)
          ∧ (((s.plcNode a).direct = false ∨ s.now < (s.plcNode a).lastHeard + s.assocHoldS * 1000000000) → t.plc.known = s.plc.known ∧ t.flt = s.flt))
  ∧ (∀ (seq : Half) (s : State), s.ready = true →
      (s.plcOn = false → Idles (.plcMsgTimeout seq) s)
      ∧ (s.plcOn = true → Runs (.plcMsgTimeout seq) s [.outs, .freeIx, .host, .plc, .rings] fun t =>
          t.plc.msgs = s.plc.msgs.filter (fun m => !(m.own && m.seq == seq && decide (m.queuedAt + s.plcTimeoutMs * 1000000 ≤ s.now)))
          ∧ ∀ m ∈ s.plc.msgs, m.own = true → m.seq = seq → m.queuedAt + s.plcTimeoutMs * 1000000 ≤ s.now →
              (t.host.inflight.any fun i => i.op == .plcSend m.num) = false))
  ∧ ∀ (d : Desc) (s : State), admits plcSendInfo d s = true →
      ((s.plcOn = false ∨ s.plc.addr = 0 ∨ s.plcSynced = false) → Finishes (.plcSend d) d s stState 1 [.plc] fun u =>
          u.plc = { s.plc with failed := satAdd 16 s.plc.failed 1 })
      ∧ (s.plcOn = true → s.plc.addr ≠ 0 → s.plcSynced = true →
          (16 ≤ (s.plc.msgs.filter fun m => m.own && m.prio == d.b 8).length → exec (.plcSend d) s = .next (settle (completeDesc d stBusy 0 (fetched d s))))
          ∧ ((s.plc.msgs.filter fun m => m.own && m.prio == d.b 8).length < 16 →
            (hasRoute s d.ix = false → Finishes (.plcSend d) d s stState 2 [.plc] fun u => u.plc = { s.plc with failed := satAdd 16 s.plc.failed 1 })
            ∧ (hasRoute s d.ix = true → d.input = none → exec (.plcSend d) s = .next (settle (completeDesc d stBuffer 0 (fetched d s))))
            ∧ (∀ bytes, hasRoute s d.ix = true → d.input = some bytes → Starts (.plcSend d) d s [.host, .rings, .plc] fun t =>
                ∃ m pre, t.plc.msgs = pre ++ [m] ∧ m.type = 2 ∧ m.prio = d.b 8 ∧ m.final = d.ix ∧ m.orig = s.plc.addr ∧ m.own = true
                  ∧ m.held = (s.plcNode d.ix).asleep ∧ m.bytes.length = d.h 24 + 16
                  ∧ ((s.plcNode d.ix).asleep = false → pre = s.plc.msgs)
                  ∧ (t.host.inflight.any fun i => i.op == .plcSend m.num) = true)))

/-- A frame that completes an authentic message delivers data, ends a message, answers an association, or updates links, routes and wake lists -/
def Obligations.PlcFramesActOnTheirReceiver : Prop :=
  (∀ p ∈ [(Instr.data, 2), (Instr.e2eAck, 4), (Instr.assocReq, 5), (Instr.assocRes, 6), (Instr.tonemap, 7), (Instr.route, 8), (Instr.wakeReq, 9)],
      ∀ (f : PlcFrame) (s : State), s.ready = true →
        (s.plcRuns = false → Idles (p.1 f) s)
        ∧ (s.plcRuns = true → (s.plcSynced = false ∨ fcAccepted s f.fc = false ∨ (FrameControl.ofBytes f.fc).type ≠ p.2) → NetRests (p.1 f) s)
        ∧ (s.plcRuns = true → (takeFrame p.2 f s).2 = none → exec (p.1 f) s = .next (settle (refreshPaths (takeFrame p.2 f s).1))))
  ∧ (∀ (ty : Nat) (f : PlcFrame) (s : State), Kept [.outs, .flt, .acq, .plc, .rcd] s (takeFrame ty f s).1 ∧ (takeFrame ty f s).1.plc.role = s.plc.role
      ∧ (takeFrame ty f s).1.plc.addr = s.plc.addr ∧ (takeFrame ty f s).1.plc.lock = s.plc.lock ∧ (takeFrame ty f s).1.plc.wake = s.plc.wake
      ∧ (f.auth = none → (takeFrame ty f s).2 = none) ∧ ∀ at_ pl d, f.auth = some (at_, pl) → (takeFrame ty f s).2 = some d → d = pl)
  ∧ (∀ (f : PlcFrame) (d : List Byte) (s : State), s.plcRuns = true → (takeFrame 2 f s).2 = some d →
      let c := FrameControl.ofBytes f.fc
      let u := (takeFrame 2 f s).1
      NetVia (.data f) s [.outs, .host, .flt, .acq, .plc, .rcd] fun t =>
        (u.plc.rx.enable = false → t.outs = u.outs ∧ ∃ e, t.plc.waiting = u.plc.waiting ++ [e] ∧ e.length = 1536 ∧ u8 e 1 = c.orig ∧ u16 e 4 = d.length % 65536)
        ∧ (u.plc.rx.enable = true → u.plc.waiting = [] → s.domainUp 6 = true → t.plc.waiting = [] ∧ ∃ e, t.outs = .hostWrite (u.plc.rx.baseLo.toNat
              + 2 ^ 32 * u.plc.rx.baseHi.toNat + 1536 * u.plc.rx.index) e :: u.outs ∧ e.length = 1536 ∧ u8 e 1 = c.orig ∧ u16 e 4 = d.length % 65536)
        ∧ ((c.hopsLeft = 4 ∨ c.final = 255) → t.plc.msgs = u.plc.msgs)
        ∧ (c.hopsLeft ≠ 4 → c.final ≠ 255 → ∃ m, t.plc.msgs = u.plc.msgs ++ [m] ∧ m.type = 4 ∧ m.final = c.orig ∧ m.own = false))
  ∧ (∀ (f : PlcFrame) (d : List Byte) (s : State), s.plcRuns = true → (takeFrame 4 f s).2 = some d →
      let u := (takeFrame 4 f s).1
      (∀ m, (u.plc.msgs.find? fun m => m.own && m.waitAck && m.seq.toNat == u16 d 0 && u8 d 2 == u.plc.addr) = some m →
        NetVia (.e2eAck f) s [.outs, .freeIx, .host, .flt, .acq, .plc, .rcd, .rings] fun t => t.plc.msgs = u.plc.msgs.filter (fun x => x.num != m.num)
          ∧ (t.host.inflight.any fun i => i.op == .plcSend m.num) = false)
      ∧ ((∀ m ∈ u.plc.msgs, m.own = false ∨ m.waitAck = false ∨ m.seq.toNat ≠ u16 d 0 ∨ u8 d 2 ≠ u.plc.addr) →
          exec (.e2eAck f) s = .next (settle (refreshPaths u))))
  ∧ (∀ (f : PlcFrame) (d : List Byte) (s : State), s.plcRuns = true → (takeFrame 5 f s).2 = some d →
      let u := (takeFrame 5 f s).1
      let id := leAt d 0 8
      let want := u8 d 8
      let held := fun p : Nat → Bool => ∃ e, (u.plc.table.find? fun e => e.1 == want) = some e ∧ p e.2.1 = true
      (s.plc.role ≠ 3 → exec (.assocReq f) s = .next (settle (refreshPaths u)))
      ∧ (s.plc.role = 3 → ∀ addr, ((want ≠ 0 ∧ addr = want ∧ ((want ≤ 254 ∧ ∀ e ∈ u.plc.table, e.1 ≠ want) ∨ held (· == id))) ∨ (want = 0 ∧ freeAddr u = some addr)) →
          NetVia (.assocReq f) s [.outs, .flt, .acq, .plc, .rcd] fun t => t.plc.table = u.plc.table.filter (fun e => e.1 != addr) ++ [(addr, id, s.now)]
            ∧ t.plc.refused = u.plc.refused ∧ ∃ m, t.plc.msgs = u.plc.msgs ++ [m] ∧ m.type = 6 ∧ m.final = 255)
      ∧ (s.plc.role = 3 → ((want ≠ 0 ∧ held (· != id)) ∨ (want = 255 ∧ ∀ e ∈ u.plc.table, e.1 ≠ want) ∨ (want = 0 ∧ freeAddr u = none)) →
          NetVia (.assocReq f) s [.outs, .flt, .acq, .plc, .rcd] fun t => t.plc.table = u.plc.table ∧ t.plc.refused = satAdd 16 u.plc.refused 1
            ∧ (want = 0 → Arose 72 8 0xFF (toLE 8 id) s t)
            ∧ ∃ m, t.plc.msgs = u.plc.msgs ++ [m] ∧ m.type = 6 ∧ m.final = 255))
  ∧ (∀ (f : PlcFrame) (d : List Byte) (s : State), s.plcRuns = true → (takeFrame 6 f s).2 = some d →
      let u := (takeFrame 6 f s).1
      (leAt d 0 8 ≠ leAt s.nodeId 0 8 → exec (.assocRes f) s = .next (settle (refreshPaths u)))
      ∧ (leAt d 0 8 = leAt s.nodeId 0 8 → u8 d 9 = 0 → NetVia (.assocRes f) s [.outs, .flt, .acq, .plc, .rcd] fun t => t.plc = { u.plc with addr := u8 d 8, role := 2 }
          ∧ Arose 72 1 (u8 d 8) (toLE 1 u.plc.coordAddr) s t)
      ∧ (leAt d 0 8 = leAt s.nodeId 0 8 → u8 d 9 = 2 → s.plc.addr ≠ 0 → NetVia (.assocRes f) s [.outs, .flt, .acq, .plc, .rcd] fun t => t.plc.addr = 0 ∧ t.plc.role = 1
          ∧ t.plc.askedAt = s.now ∧ ∃ m, t.plc.msgs = u.plc.msgs ++ [m] ∧ m.type = 5)
      ∧ (leAt d 0 8 = leAt s.nodeId 0 8 → u8 d 9 ≠ 0 → (u8 d 9 ≠ 2 ∨ s.plc.addr = 0) → NetVia (.assocRes f) s [.outs, .flt, .acq, .plc, .rcd] fun t =>
          t.plc = { u.plc with askedAt := s.now }))
  ∧ (∀ (f : PlcFrame) (d : List Byte) (s : State), s.plcRuns = true → (takeFrame 7 f s).2 = some d →
      let c := FrameControl.ofBytes f.fc
      ((takeFrame 7 f s).1.plcNode c.orig).regions.length = 8 → NetVia (.tonemap f) s [.outs, .flt, .acq, .plc, .rcd] fun t => ∃ m,
        ((t.plcNode c.orig).region (u8 d 0 % 8)).map = some m ∧ m.version = u8 d 1 % 16 ∧ m.rate = u8 d 2 ∧ m.load.length = 355
        ∧ ((t.plcNode c.orig).region (u8 d 0 % 8)).down = 0 ∧ ((t.plcNode c.orig).region (u8 d 0 % 8)).failures = 0
        ∧ ∀ r, r ≠ u8 d 0 % 8 → (t.plcNode c.orig).region r = ((takeFrame 7 f s).1.plcNode c.orig).region r)
  ∧ (∀ (f : PlcFrame) (d : List Byte) (s : State), s.plcRuns = true → (takeFrame 8 f s).2 = some d →
      let c := FrameControl.ofBytes f.fc
      NetVia (.route f) s [.outs, .flt, .acq, .plc, .rcd] fun t => (t.plcNode c.orig).strider = bitOf (u8 d 0) 0 ∧ (t.plcNode c.orig).asleep = bitOf (u8 d 0) 1
        ∧ (t.plcNode c.orig).nodeId = leAt d 1 8 ∧ (t.plcNode c.orig).links.length = (d.length - 9) / 5
        ∧ (s.plc.role = 3 → ∃ e ∈ t.plc.table, e.1 = c.orig) ∧ (s.plc.role ≠ 3 → t.plc.table = (takeFrame 8 f s).1.plc.table))
  ∧ ∀ (f : PlcFrame) (d : List Byte) (s : State), s.plcRuns = true → (takeFrame 9 f s).2 = some d →
      (s.plc.role ≠ 3 → exec (.wakeReq f) s = .next (settle (refreshPaths (takeFrame 9 f s).1)))
      ∧ (s.plc.role = 3 → NetVia (.wakeReq f) s [.outs, .flt, .acq, .plc, .rcd] fun t => t.plc.wake = s.plc.wake.filter (fun w => w.1 != u8 d 0) ++ [(u8 d 0, 2)])

/-- Each second adds one sample to every open page, boundaries close pages, a failed FRAM goes volatile, and time steps are recorded -/
def Obligations.RecorderKeepsHistory : Prop :=
  (∀ s : State, s.ready = true →
      (s.thm.halting ≠ none → Idles .recorderSecond s ∧ Idles .pageClose s)
      ∧ (s.second ≤ s.rcd.secondAt → Idles .recorderSecond s)
      ∧ (s.thm.halting = none → s.rcd.secondAt < s.second → s.rcd.data.opens.length = 178 → s.rcd.data.extremes.length = 178 → s.rcd.acc.length = 178 →
        Runs .recorderSecond s [.flt, .acq, .rcd] fun t => t.rcd.data.steps = s.rcd.data.steps ∧ t.rcd.secondAt = s.second ∧ ∀ i, i < 178 →
          let a := nth s.rcd.acc i
          let v : Option Int := if a.2 = 0 then none else some (ratRound (a.1 / ((a.2 : Nat) : Rat)))
          (s.recPresent i = false → nth t.rcd.data.extremes i = nth s.rcd.data.extremes i
            ∧ (∀ p, nth s.rcd.data.opens i = some p → s.second * 1000000000 ≤ p.boundary s.civil → nth t.rcd.data.opens i = some p)
            ∧ (∀ p, nth s.rcd.data.opens i = some p → p.boundary s.civil < s.second * 1000000000 → nth t.rcd.data.opens i = none)
            ∧ (nth s.rcd.data.opens i = none → nth t.rcd.data.opens i = none))
          ∧ (s.recPresent i = true → nth t.rcd.acc i = (0, 0) ∧ ∃ p, nth t.rcd.data.opens i = some p ∧ p.isVolatile = s.rcd.isVolatile
            ∧ (nth s.rcd.data.opens i = none → p.number = i ∧ p.time = s.now ∧ p.civil = s.civil ∧ p.samples = (if a.2 = 0 then 0 else 1)
                ∧ p.invalid = (if a.2 = 0 then 1 else 0) ∧ p.sum = v.getD 0 ∧ p.kind = (slotKind i).1 ∧ p.inst = (slotKind i).2)
            ∧ (∀ q, nth s.rcd.data.opens i = some q → q.boundary s.civil < s.second * 1000000000 → p.samples = (if a.2 = 0 then 0 else 1)
                ∧ p.invalid = (if a.2 = 0 then 1 else 0) ∧ p.sum = v.getD 0 ∧ p.kind = (slotKind i).1 ∧ p.inst = (slotKind i).2
                ∧ (q.passed s.civil (s.second * 1000000000 - 1) = 1 → p.time = q.boundary s.civil ∧ p.seq = q.seq + 2 + 2))
            ∧ (∀ q, nth s.rcd.data.opens i = some q → s.second * 1000000000 ≤ q.boundary s.civil →
                p.seq = q.seq + 2 ∧ p.time = q.time ∧ p.samples = q.samples + (if a.2 = 0 then 0 else 1)
                ∧ p.invalid = q.invalid + (if a.2 = 0 then 1 else 0) ∧ p.sum = q.sum + v.getD 0
                ∧ (∀ x, v = some x → q.samples ≠ 0 → p.min = min q.min x ∧ p.max = max q.max x)
                ∧ (v = none → p.bins = q.bins ∧ p.under = q.under ∧ p.above = q.above))
            ∧ (∀ x, v = some x → (∀ e, nth s.rcd.data.extremes i = some e → e.min ≤ e.max) →
                ∃ e, nth t.rcd.data.extremes i = some e ∧ e.min ≤ x ∧ x ≤ e.max)))
      ∧ (s.thm.halting = none → s.rcd.secondAt < s.second → exec .pageClose s = .next (settle (closeReached s.now (sampleSecond s))))
      ∧ (s.thm.halting = none → s.second ≤ s.rcd.secondAt → s.rcd.data.opens.length = 178 → Runs .pageClose s [.flt, .acq, .rcd] fun t =>
          t.rcd.data.extremes = s.rcd.data.extremes ∧ t.rcd.data.steps = s.rcd.data.steps ∧ ∀ i, i < 178 →
            (nth s.rcd.data.opens i = none → nth t.rcd.data.opens i = none)
            ∧ (∀ p, nth s.rcd.data.opens i = some p → s.now < p.boundary s.civil → nth t.rcd.data.opens i = some p)
            ∧ (∀ p, nth s.rcd.data.opens i = some p → p.boundary s.civil ≤ s.now →
                (s.recPresent i = false → nth t.rcd.data.opens i = none)
                ∧ (s.recPresent i = true → ∃ q, nth t.rcd.data.opens i = some q ∧ q.samples = 0 ∧ q.isOpen = true
                    ∧ (p.passed s.civil s.now = 1 → q.time = p.boundary s.civil ∧ q.seq = p.seq + 2))
                ∧ ((∀ j q, nth s.rcd.data.opens j = some q → q.passed s.civil s.now ≤ 1) → ∃ x ∈ t.rcd.data.pages, x.kind = p.kind ∧ x.inst = p.inst
                    ∧ x.samples = p.samples ∧ x.sum = p.sum ∧ x.endTime = p.boundary s.civil ∧ x.isOpen = false))))
  ∧ (∀ (cause addr : Nat) (s : State), s.ready = true →
      (s.rcd.isVolatile = true → Idles (.framFailure cause addr) s)
      ∧ (s.rcd.isVolatile = false → Runs (.framFailure cause addr) s [.flt, .acq, .rcd] fun t => t.rcd.isVolatile = true ∧ t.rcd.marked = true
          ∧ t.rcd.faultCause = cause ∧ t.rcd.faultAddr = addr ∧ t.rcd.base = s.rcd.data ∧ t.rcd.data = { s.rcd.data with pages := [], excursions := [], steps := [] }
          ∧ Arose 88 cause 0xFF (toLE 4 (cause + 256 * (addr % 2 ^ 22))) s t ∧ Arose 90 1 0xFF [] s t))
  ∧ (∀ (d : Desc) (s : State), admits setCivilInfo d s = true →
      (s.ptpSteers = true → exec (.setCivilTime d) s = .next (settle (completeDesc d stState 0 (fetched d s))))
      ∧ (s.ptpSteers = false → Finishes (.setCivilTime d) d s stOk 0 [.flt, .acq, .civil, .rcd] fun u => u.civil = signed 64 (d.q 8)
          ∧ (s.thm.halting ≠ none → u.rcd = s.rcd)
          ∧ (s.thm.halting = none → ∃ x ∈ u.rcd.data.steps, x.time = s.now ∧ x.civil = signed 64 (d.q 8) ∧ x.old = s.civil ∧ x.source = 1)
          ∧ (s.thm.halting = none → s.rcd.data.opens.length = 178 → ∀ i p, i < 178 → nth s.rcd.data.opens i = some p →
              ((signed 64 (d.q 8) < s.civil ∨ p.boundary (signed 64 (d.q 8)) ≤ s.now) →
                ∃ x ∈ u.rcd.data.pages, x.kind = p.kind ∧ x.inst = p.inst ∧ x.samples = p.samples ∧ x.endTime = s.now ∧ x.stepped = true)
              ∧ (s.civil ≤ signed 64 (d.q 8) → s.now < p.boundary (signed 64 (d.q 8)) → nth u.rcd.data.opens i = some p))))
  ∧ ∀ (d : Desc) (s : State), admits recordReadInfo d s = true → s.host.muted = false →
      let room := d.w 24 / (if d.b 8 ≤ 2 then 512 else if d.b 8 = 4 then 128 else 64)
      let all := regionRecords s (d.b 8) (d.w 12)
      let out := (all.take room).flatten
      Finishes (.recordRead d) d s (if all.length < room then stPartial else stOk) out.length [.outs, .host] fun u =>
        u.outs = .hostWrite (d.q 16) out :: (fetched d s).outs

/-- SELECT_PROFILE locks and takes effect or is refused, PROFILE_WRITE and FIRMWARE_WRITE store and commit, FIRMWARE_ACTIVATE arms the reset -/
def Obligations.ProfilesAreSelectedAndStored : Prop :=
  (∀ (d : Desc) (s : State), s.ready = true → passesChecks selectInfo d s = true →
      let u := fetched d s
      (s.prof.lock = true → exec (.selectProfile d) s = .next (settle (completeDesc d stState 0 u)))
      ∧ (s.prof.lock = false → s.allIdle = false → exec (.selectProfile d) s = .next (settle (completeDesc d stNotIdle 0 u)))
      ∧ (s.prof.lock = false → s.allIdle = true → s.paired = false → Starts (.selectProfile d) d s [.host, .rings, .prof] fun t =>
          t.prof = { s.prof with lock := true, lockAt := s.now, change := some d.ix, changeCount := 0 }
            ∧ (t.host.inflight.any fun i => i.op == .selectProfile d.ix && i.tag == d.tag) = true)
      ∧ (s.prof.lock = false → s.allIdle = true → s.paired = true → Starts (.selectProfile d) d s [.outs, .host, .rings, .prof, .pair] fun t =>
          t.prof = { s.prof with lock := true, lockAt := s.now, change := some d.ix, changeCount := s.nextAllocCount }
            ∧ (t.host.inflight.any fun i => i.op == .selectProfile d.ix && i.tag == d.tag) = true
            ∧ ∃ frames, t.outs = .mirror s.pair.recordSeq (.descriptor d 0 (.period s.nextAllocCount)) frames :: u.outs))
  ∧ (∀ s : State, s.ready = true →
      (s.prof.change = none → Idles .profileTakeEffect s)
      ∧ (s.mayChange = false → Idles .profileTakeEffect s)
      ∧ (∀ slot, s.mayChange = true → s.prof.change = some slot → Runs .profileTakeEffect s [.outs, .freeIx, .host, .flt, .prof, .stages, .alloc, .paths, .law, .lanes, .pair, .acq, .thm, .sw, .met, .veh, .key, .can, .plc, .rcd, .rings] fun t => t.prof.change = none
          ∧ t.prof.slots = s.prof.slots
          ∧ t.prof.active = (match profileCause s slot true with | none => some { slot := slot, image := (nth s.prof.slots slot).bytes } | some _ => s.prof.active)
          ∧ Arose 122 ((profileCause s slot true).getD 1) slot (toLE 4 (profileVersion ((slotImage s slot).getD []))) s t
          ∧ (profileCause s slot true ≠ none → t.prof.lock = false ∧ t.prof.waiting = [])
          ∧ (t.prof.lock = true → s.prof.lock = true ∧ s.now < s.prof.lockAt + 250000000)
          ∧ (t.host.inflight.any fun i => i.op == .selectProfile slot) = false))
  ∧ (∀ (d : Desc) (s : State), admits (storeInfo 0x40 (kindBelow 7 4) maxImage) d s = true →
      (s.thm.halting ≠ none → Idles (.profileWrite d) s)
      ∧ (s.thm.halting = none → isActiveSlot s d.ix = true → exec (.profileWrite d) s = .next (settle (completeDesc d stSlotActive 0 (fetched d s))))
      ∧ (s.thm.halting = none → isActiveSlot s d.ix = false → d.input = none → exec (.profileWrite d) s = .next (settle (completeDesc d stBuffer 0 (fetched d s))))
      ∧ (∀ b, s.thm.halting = none → isActiveSlot s d.ix = false → d.input = some b → d.ix < s.prof.slots.length →
          let old := if d.b 8 % 2 = 1 then [] else (nth s.prof.slots d.ix).bytes
          let stored := fun (ok busy : Bool) (u : State) => (nth u.prof.slots d.ix).committed = ok ∧ (nth u.prof.slots d.ix).writing = busy
            ∧ ((nth u.prof.slots d.ix).bytes.drop (d.w 12)).take (d.w 24) = padTo (d.w 24) b
            ∧ (∀ i, i < d.w 12 → i < old.length → byteAt (nth u.prof.slots d.ix).bytes i = byteAt old i)
            ∧ u.prof.active = s.prof.active ∧ ∀ k, k ≠ d.ix → nth u.prof.slots k = nth s.prof.slots k
          (d.b 8 / 2 % 2 = 0 → Finishes (.profileWrite d) d s stOk (d.w 24) [.freeIx, .prof] (stored false true))
          ∧ (d.b 8 / 2 % 2 = 1 →
              match storeCause (storePart d (padTo (d.w 24) b) (fetched d s)) (nth (storePart d (padTo (d.w 24) b) (fetched d s)).prof.slots d.ix).bytes with
              | some c => Finishes (.profileWrite d) d s stProfile c [.freeIx, .prof] (stored false false)
              | none => Finishes (.profileWrite d) d s stOk (d.w 24) [.freeIx, .prof, .key] fun u => stored true false u
                  ∧ ∃ w ∈ u.key.store.wraps, w.1 = d.ix)))
  ∧ (∀ (d : Desc) (s : State), admits (storeInfo 0x41 kindNone (2 ^ 32 + 65536)) d s = true →
      (s.thm.halting ≠ none → Idles (.firmwareWrite d) s)
      ∧ (s.thm.halting = none → d.input = none → exec (.firmwareWrite d) s = .next (settle (completeDesc d stBuffer 0 (fetched d s))))
      ∧ (∀ b, s.thm.halting = none → d.input = some b → 1 - s.key.active < s.key.banks.length →
          Finishes (.firmwareWrite d) d s stOk (d.w 24) [.freeIx, .key] fun u =>
            ((u.bank (1 - s.key.active)).drop (d.w 12)).take (d.w 24) = padTo (d.w 24) b ∧ u.key.active = s.key.active
            ∧ u.key.fwWriting = decide (d.b 8 / 2 % 2 = 0) ∧ u.key.staged = decide (d.b 8 / 2 % 2 = 1)
            ∧ ∀ k, k ≠ 1 - s.key.active → u.bank k = s.bank k))
  ∧ (∀ (d : Desc) (s : State), admits activateInfo d s = true →
      (s.thm.halting ≠ none → Idles (.firmwareActivate d) s)
      ∧ (s.thm.halting = none → s.allIdle = false → exec (.firmwareActivate d) s = .next (settle (completeDesc d stNotIdle 0 (fetched d s))))
      ∧ (s.thm.halting = none → s.allIdle = true → s.key.staged = false → exec (.firmwareActivate d) s = .next (settle (completeDesc d stProfile 0 (fetched d s))))
      ∧ (s.thm.halting = none → s.allIdle = true → s.key.staged = true →
          if Config.fwVerify (s.bank (1 - s.key.active)) = true ∧ s.key.floor ≤ (Config.fwVersion (s.bank (1 - s.key.active))).toNat
          then Finishes (.firmwareActivate d) d s stOk 0 [.flt, .acq, .met, .key, .rcd] fun u =>
            u.key.bootBank = some (1 - s.key.active) ∧ u.key.resetDue = some s.now ∧ u.key.active = s.key.active ∧ u.key.prev = some (s.key.prev.getD s.key.store)
            ∧ (let image := Config.caddisImage (s.bank (1 - s.key.active))
               let r := caddisImageRefusal s image.1
               (r = 0 → u.met.firmware = some (image.2.1.toNat, image.2.2) ∧ u.met.otherBank = s.met.firmware ∧ u.met.ready = false ∧ u.met.installing = true)
               ∧ (r ≠ 0 → Posted 85 r 0xFF s u ∧ u.met.firmware = s.met.firmware ∧ u.met.ready = s.met.ready ∧ u.met.installing = s.met.installing))
          else exec (.firmwareActivate d) s = .next (settle (completeDesc d stProfile 0 (fetched d s)))))
  ∧ (∀ (d : Desc) (s : State), admits snapshotInfo d s = true → Starts (.snapshot d) d s [.host, .rings] fun t =>
      (t.host.inflight.any fun i => i.op == .snapshot d.kind.toNat d.ix (d.q 8) (d.h 16) && i.tag == d.tag) = true)
  ∧ ∀ (d : Desc) (s : State), s.ready = true → d.ring < 4 → passesChecks { snapshotInfo with range := fun _ _ => true } d s = true →
      let len := if d.kind = 1 then 144 else if d.kind = 2 then 72 else 416
      d.h 16 < len → exec (.snapshot d) s = .next (settle (completeDesc d stRange len (paid d s)))

/-- DERIVE, GENERATE and the imports check their block and place a key in the target slot or the lowest empty one -/
def Obligations.KeysAreMadeAndPlaced : Prop :=
  (∀ p ∈ [(Instr.derive, 1), (Instr.generate, 2), (Instr.importWrapped, 3), (Instr.importPublic, 4)], ∀ (d : Desc) (s : State),
      admits (keyOpInfo p.2 generalSlot) d s = true →
      ((s.isFrozen 0x23 = true ∨ s.thm.halting ≠ none) → Idles (p.1 d) s)
      ∧ (s.isFrozen 0x23 = false → s.thm.halting = none → keyInput d = none → exec (p.1 d) s = .next (settle (completeDesc d stBuffer 0 (fetched d s))))
      ∧ (∀ l, s.isFrozen 0x23 = false → s.thm.halting = none → keyInput d = some l →
          (l.length < 16 → exec (p.1 d) s = .next (settle (completeDesc d stRange 0 (fetched d s))))
          ∧ (16 ≤ l.length → (if p.2 = 4 then privateType (u8 l 0) else publicType (u8 l 0)) = true →
              exec (p.1 d) s = .next (settle (completeDesc d stTarget 0 (fetched d s))))
          ∧ (16 ≤ l.length → p.2 ≠ 1 → (if p.2 = 4 then privateType (u8 l 0) else publicType (u8 l 0)) = false →
              ((privateType (u8 l 0) = false ∧ publicType (u8 l 0) = false) ∨ 4 ≤ u8 l 2 ∨ u8 l 3 ≠ 0xFF ∨ u8 l 4 ≠ 0 ∨ allZero l 5 11 = false ∨ u8 l 1 &&& typeUses (u8 l 0) ≠ u8 l 1) →
              exec (p.1 d) s = .next (settle (completeDesc d stRange 0 (fetched d s))))))
  ∧ (∀ (d : Desc) (l : List Byte) (s : State), admits (keyOpInfo 1 generalSlot) d s = true → s.isFrozen 0x23 = false → s.thm.halting = none → s.host.muted = false → keyInput d = some l → 16 ≤ l.length →
      privateType (u8 l 0) = true →
      (u8 l 3 ≠ 0xFF → (64 ≤ u8 l 3 ∨ (s.slot (u8 l 3)).state ≠ .ready ∨ (s.slot (u8 l 3)).type ≠ 1) →
        exec (.derive d) s = .next (settle (completeDesc d stTarget 0 (fetched d s))))
      ∧ ((u8 l 3 = 0xFF ∨ (u8 l 3 < 64 ∧ (s.slot (u8 l 3)).state = .ready ∧ (s.slot (u8 l 3)).type = 1)) →
        (4 ≤ u8 l 2 ∨ allZero l 5 11 = false ∨ u8 l 1 &&& typeUses (u8 l 0) ≠ u8 l 1 ∨ u8 l 4 = 0 ∨ 32 < u8 l 4 ∨ l.length ≠ 16 + u8 l 4
          ∨ (∃ b ∈ l.drop 16, 128 ≤ b.toNat)) → exec (.derive d) s = .next (settle (completeDesc d stRange 0 (fetched d s))))
      ∧ (u8 l 3 < 64 → (s.slot (u8 l 3)).state = .ready → (s.slot (u8 l 3)).type = 1 → (s.slot (u8 l 3)).tagOk = false → s.key.slots.length = 64 →
        u8 l 3 ∉ liveDescendants s (u8 l 3) → u8 l 1 &&& typeUses (u8 l 0) = u8 l 1 → u8 l 2 < 4 → allZero l 5 11 = true → 1 ≤ u8 l 4 → u8 l 4 ≤ 32 →
        l.length = 16 + u8 l 4 → (∀ b ∈ l.drop 16, b.toNat < 128) → Finishes (.derive d) d s 0x16 0 [.flt, .acq, .key, .rcd] fun u =>
          (u.slot (u8 l 3)).state = .invalid ∧ Arose 92 1 (u8 l 3) (toLE 1 1) s u)
      ∧ ((u8 l 3 = 0xFF ∨ (u8 l 3 < 64 ∧ (s.slot (u8 l 3)).state = .ready ∧ (s.slot (u8 l 3)).type = 1 ∧ (s.slot (u8 l 3)).tagOk = true)) →
        u8 l 1 &&& typeUses (u8 l 0) = u8 l 1 → u8 l 2 < 4 → allZero l 5 11 = true → 1 ≤ u8 l 4 → u8 l 4 ≤ 32 → l.length = 16 + u8 l 4 →
        (∀ b ∈ l.drop 16, b.toNat < 128) →
        (placeSlot s d.ix = none → exec (.derive d) s = .next (settle (completeDesc d stSlotsFull 0 (fetched d s))))
        ∧ (∀ i, placeSlot s d.ix = some i →
          let n := 1 + (if ecType (u8 l 0) then pubLen (u8 l 0) else 0)
          (d.h 40 < n → exec (.derive d) s = .next (settle (completeDesc d stRange 0 (fetched d s))))
          ∧ (n ≤ d.h 40 → i < s.key.slots.length → Finishes (.derive d) d s stOk n [.outs, .freeIx, .host, .key] fun u =>
              let k := u.slot i
              k.state = .ready ∧ k.type = u8 l 0 ∧ k.usage = u8 l 1 ∧ k.flags = u8 l 2 ∧ k.parent = u8 l 3 ∧ k.label = l.drop 16 ∧ k.origin = .derived
              ∧ k.material = deriveKey (u8 l 0) i (l.drop 16) (if u8 l 3 = 0xFF then s.key.well.root else (s.slot (u8 l 3)).material)
                  (if u8 l 2 % 2 = 1 then s.key.meas else zeros 32)
              ∧ (∃ bytes, u.outs = .hostWrite (d.q 32) bytes :: (fetched d s).outs ∧ bytes.length = n ∧ u8 bytes 0 = i % 256)
              ∧ ∀ j, j ≠ i → u.slot j = s.slot j))))
  ∧ (∀ (d : Desc) (l : List Byte) (s : State), admits (keyOpInfo 2 generalSlot) d s = true → s.isFrozen 0x23 = false → s.thm.halting = none → s.host.muted = false → keyInput d = some l → l.length = 16 →
      privateType (u8 l 0) = true → u8 l 1 &&& typeUses (u8 l 0) = u8 l 1 → u8 l 2 < 4 → u8 l 3 = 0xFF → u8 l 4 = 0 → allZero l 5 11 = true →
        (placeSlot s d.ix = none → exec (.generate d) s = .next (settle (completeDesc d stSlotsFull 0 (fetched d s))))
        ∧ (∀ i, placeSlot s d.ix = some i → i < s.key.slots.length →
          let n := 1 + (if 3 ≤ u8 l 0 then pubLen (u8 l 0) else 0)
          (d.h 40 < n → exec (.generate d) s = .next (settle (completeDesc d stRange 0 (fetched d s))))
          ∧ (n ≤ d.h 40 → Finishes (.generate d) d s stOk n [.outs, .freeIx, .host, .key] fun u =>
              (u.slot i).state = .ready ∧ (u.slot i).type = u8 l 0 ∧ (u.slot i).usage = u8 l 1 ∧ (u.slot i).origin = .placed
              ∧ (u.slot i).material.length = privLen (u8 l 0)
              ∧ (∃ bytes, u.outs = .hostWrite (d.q 32) bytes :: (fetched d s).outs ∧ bytes.length = n ∧ u8 bytes 0 = i % 256)
              ∧ ∀ j, j ≠ i → u.slot j = s.slot j)))
  ∧ (∀ (d : Desc) (l : List Byte) (s : State), admits (keyOpInfo 4 generalSlot) d s = true → s.isFrozen 0x23 = false → s.thm.halting = none → s.host.muted = false → keyInput d = some l →
      publicType (u8 l 0) = true → l.length = 16 + pubLen (u8 l 0) → (u8 l 0 = 0x14 ∨ u8 l 16 = 4) → u8 l 1 &&& typeUses (u8 l 0) = u8 l 1 → u8 l 2 < 4 →
      u8 l 3 = 0xFF → u8 l 4 = 0 → allZero l 5 11 = true →
        (placeSlot s d.ix = none → exec (.importPublic d) s = .next (settle (completeDesc d stSlotsFull 0 (fetched d s))))
        ∧ (∀ i, placeSlot s d.ix = some i → d.h 40 = 0 → exec (.importPublic d) s = .next (settle (completeDesc d stRange 0 (fetched d s))))
        ∧ ∀ i, placeSlot s d.ix = some i → i < s.key.slots.length → 1 ≤ d.h 40 → Finishes (.importPublic d) d s stOk 1 [.outs, .freeIx, .host, .key] fun u =>
          (u.slot i).state = .ready ∧ (u.slot i).type = u8 l 0 ∧ (u.slot i).usage = u8 l 1 ∧ (u.slot i).origin = .pub ∧ (u.slot i).material = l.drop 16
          ∧ u.outs = .hostWrite (d.q 32) [BitVec.ofNat 8 i] :: (fetched d s).outs ∧ ∀ j, j ≠ i → u.slot j = s.slot j)
  ∧ ∀ (d : Desc) (l : List Byte) (s : State), admits (keyOpInfo 3 generalSlot) d s = true → s.isFrozen 0x23 = false → s.thm.halting = none → s.host.muted = false → keyInput d = some l →
      privateType (u8 l 0) = true → l.length = 16 + 65 + 12 + privLen (u8 l 0) + 16 → u8 l 1 &&& typeUses (u8 l 0) = u8 l 1 → u8 l 2 < 4 →
      u8 l 3 = 0xFF → u8 l 4 = 0 → allZero l 5 11 = true →
        ((s.slot 1).state = .empty → exec (.importWrapped d) s = .next (settle (completeDesc d 0x08 0 (fetched d s))))
        ∧ ((s.slot 1).state = .orphaned → exec (.importWrapped d) s = .next (settle (completeDesc d 0x14 0 (fetched d s))))
        ∧ ((s.slot 1).state = .invalid → exec (.importWrapped d) s = .next (settle (completeDesc d 0x16 0 (fetched d s))))
        ∧ (∀ i, (s.slot 1).state = .ready → (s.slot 1).tagOk = true → placeSlot s d.ix = some i → i < s.key.slots.length → 1 ≤ d.h 40 →
          match Config.gcmOpen (importKey s ((l.drop 16).take 65) (u8 l 0)) (bytesAt (l.drop 16) 65 12) [] (l.drop 93) with
          | none => exec (.importWrapped d) s = .next (settle (completeDesc d stRange 0 (fetched d s)))
          | some key => Finishes (.importWrapped d) d s stOk 1 [.outs, .freeIx, .host, .key] fun u =>
              (u.slot i).state = .ready ∧ (u.slot i).type = u8 l 0 ∧ (u.slot i).usage = u8 l 1 ∧ (u.slot i).origin = .placed ∧ (u.slot i).material = key
              ∧ u.outs = .hostWrite (d.q 32) [BitVec.ofNat 8 i] :: (fetched d s).outs ∧ ∀ j, j ≠ i → u.slot j = s.slot j)

/-- Keys are read, used, revoked and deleted, certificates stored, the owner enrolled, masks renewed, and the unit attested -/
def Obligations.KeysAreUsedRevokedAndAttested : Prop :=
  (∀ p ∈ [(Instr.readPublic, keyOpInfo 5 publicSlot), (Instr.sign, keyOpInfo 6 generalSlot), (Instr.info, keyOpInfo 7 fun _ => true),
        (Instr.revoke, keyOpInfo 8 generalSlot), (Instr.delete, keyOpInfo 9 generalSlot), (Instr.certWrite, keyOpInfo 0x0A certSlot),
        (Instr.certRead, keyOpInfo 0x0B publicSlot), (Instr.enrollOwner, keyOpInfo 0x0C (· == 3)), (Instr.attest, attestInfo)],
      ∀ (d : Desc) (s : State), admits p.2 d s = true → s.isFrozen 0x23 = true → Idles (p.1 d) s)
  ∧ (∀ p ∈ [(Instr.revoke, keyOpInfo 8 generalSlot), (Instr.delete, keyOpInfo 9 generalSlot), (Instr.certWrite, keyOpInfo 0x0A certSlot),
        (Instr.enrollOwner, keyOpInfo 0x0C (· == 3))],
      ∀ (d : Desc) (s : State), admits p.2 d s = true → s.thm.halting ≠ none → Idles (p.1 d) s)
  ∧ (∀ (d : Desc) (s : State), s.isFrozen 0x23 = false → ∀ op c, (op = Instr.readPublic d ∧ admits (keyOpInfo 5 publicSlot) d s = true
        ∨ op = Instr.sign d ∧ admits (keyOpInfo 6 generalSlot) d s = true ∧ d.input ≠ none) →
      (((s.slot d.ix).state = .empty ∧ c = 0x08) ∨ ((s.slot d.ix).state = .orphaned ∧ c = 0x14) ∨ ((s.slot d.ix).state = .invalid ∧ c = 0x16)) →
      exec op s = .next (settle (completeDesc d c 0 (fetched d s))))
  ∧ (∀ (d : Desc) (s : State), admits (keyOpInfo 5 publicSlot) d s = true → s.isFrozen 0x23 = false → s.host.muted = false → (s.slot d.ix).state = .ready →
      ((s.slot d.ix).type < 3 → exec (.readPublic d) s = .next (settle (completeDesc d stTarget 0 (fetched d s))))
      ∧ (3 ≤ (s.slot d.ix).type → (s.slot d.ix).tagOk = false → s.key.slots.length = 64 → d.ix ∉ liveDescendants s d.ix →
          Finishes (.readPublic d) d s 0x16 0 [.flt, .acq, .key, .rcd] fun u => (u.slot d.ix).state = .invalid ∧ Arose 92 1 d.ix (toLE 1 (s.slot d.ix).type) s u)
      ∧ (3 ≤ (s.slot d.ix).type → (s.slot d.ix).tagOk = true →
          ((d.h 24 ≠ 0 ∨ d.h 40 < pubLen (s.slot d.ix).type) → exec (.readPublic d) s = .next (settle (completeDesc d stRange 0 (fetched d s))))
          ∧ (d.h 24 = 0 → pubLen (s.slot d.ix).type ≤ d.h 40 → slotPublic (s.slot d.ix) ≠ [] →
              Finishes (.readPublic d) d s stOk (slotPublic (s.slot d.ix)).length [.outs, .host] fun u =>
                u.outs = .hostWrite (d.q 32) (slotPublic (s.slot d.ix)) :: (fetched d s).outs)))
  ∧ (∀ (d : Desc) (l : List Byte) (s : State), admits (keyOpInfo 6 generalSlot) d s = true → s.isFrozen 0x23 = false → s.host.muted = false → keyInput d = some l →
      (s.slot d.ix).state = .ready →
      (((s.slot d.ix).type < 3 ∨ 6 < (s.slot d.ix).type ∨ (s.slot d.ix).usage % 2 = 0) → exec (.sign d) s = .next (settle (completeDesc d stTarget 0 (fetched d s))))
      ∧ (3 ≤ (s.slot d.ix).type → (s.slot d.ix).type ≤ 6 → (s.slot d.ix).usage % 2 = 1 → (s.slot d.ix).tagOk = true →
          let ty := (s.slot d.ix).type
          let n := if ty = 3 then 64 else if ty = 4 then 96 else if ty = 5 then 132 else 114
          let fits := (if ty = 6 then decide (1 ≤ l.length) else l.length == (if ty = 3 then 32 else if ty = 4 then 48 else 64)) && decide (n ≤ d.h 40)
          (fits = false → exec (.sign d) s = .next (settle (completeDesc d stRange 0 (fetched d s))))
          ∧ (fits = true → Finishes (.sign d) d s stOk n [.outs, .freeIx, .host] fun u => ∃ sig, u.outs = .hostWrite (d.q 32) sig :: (fetched d s).outs ∧ sig.length = n)))
  ∧ (∀ (d : Desc) (s : State), admits (keyOpInfo 7 fun _ => true) d s = true → s.isFrozen 0x23 = false → s.host.muted = false →
      let k := s.slot d.ix
      ((d.h 24 ≠ 0 ∨ d.h 40 < 40) → exec (.info d) s = .next (settle (completeDesc d stRange 0 (fetched d s))))
      ∧ (d.h 24 = 0 → 40 ≤ d.h 40 → Finishes (.info d) d s stOk 40 [.outs, .host] fun u => u.outs = .hostWrite (d.q 32)
          (toLE 1 (match k.state with | .empty => 0 | .ready => 1 | .orphaned => 2 | .invalid => 3) ++ toLE 1 k.type ++ toLE 1 k.usage ++ toLE 1 k.flags
            ++ toLE 1 k.parent ++ toLE 1 k.label.length ++ zeros 2 ++ padTo 32 k.label) :: (fetched d s).outs))
  ∧ (∀ p ∈ [(Instr.revoke, 8, false), (Instr.delete, 9, true)], ∀ (d : Desc) (s : State), admits (keyOpInfo p.2.1 generalSlot) d s = true →
      s.isFrozen 0x23 = false → s.thm.halting = none →
      ((s.slot d.ix).state = .empty → exec (p.1 d) s = .next (settle (completeDesc d stTarget 0 (fetched d s))))
      ∧ ((s.slot d.ix).state ≠ .empty → d.h 24 ≠ 0 → exec (p.1 d) s = .next (settle (completeDesc d stRange 0 (fetched d s))))
      ∧ ((s.slot d.ix).state ≠ .empty → d.h 24 = 0 → s.key.slots.length = 64 → d.ix ∉ liveDescendants s d.ix →
          Finishes (p.1 d) d s stOk 0 [.flt, .acq, .key, .rcd] fun u =>
            (p.2.2 = true → u.slot d.ix = {} ∧ nth u.key.certs d.ix = [])
            ∧ (p.2.2 = false → (s.slot d.ix).state = .ready → u.slot d.ix = { s.slot d.ix with state := .orphaned, zeroised := false })
            ∧ (p.2.2 = false → (s.slot d.ix).state ≠ .ready → u.slot d.ix = s.slot d.ix)
            ∧ (∀ j, j ≠ d.ix → j ∈ liveDescendants s d.ix → u.slot j = { s.slot j with state := .orphaned, zeroised := false })
            ∧ (∀ j, j ≠ d.ix → j ∉ liveDescendants s d.ix → u.slot j = s.slot j)
            ∧ (liveDescendants s d.ix = [] → u.flt = s.flt)
            ∧ (liveDescendants s d.ix ≠ [] → Arose 94 1 d.ix (toLE 1 (liveDescendants s d.ix).length) s u)))
  ∧ (∀ (d : Desc) (s : State), admits (keyOpInfo 0x0A certSlot) d s = true → s.isFrozen 0x23 = false → s.thm.halting = none →
      (d.input = none → exec (.certWrite d) s = .next (settle (completeDesc d stBuffer 0 (fetched d s))))
      ∧ (∀ b, d.input = some b → d.h 24 = 0 → exec (.certWrite d) s = .next (settle (completeDesc d stRange 0 (fetched d s))))
      ∧ (∀ b, d.input = some b → d.h 24 ≠ 0 → Finishes (.certWrite d) d s stOk 0 [.key] fun u =>
          u.key = { s.key with certs := s.key.certs.set d.ix (padTo (d.h 24) b) }))
  ∧ (∀ (d : Desc) (s : State), admits (keyOpInfo 0x0B publicSlot) d s = true → s.isFrozen 0x23 = false → s.host.muted = false →
      (d.ix ≠ 0 → nth s.key.certs d.ix = [] → exec (.certRead d) s = .next (settle (completeDesc d stTarget 0 (fetched d s))))
      ∧ (d.ix ≠ 0 → nth s.key.certs d.ix ≠ [] →
          ((d.h 24 ≠ 0 ∨ d.h 40 < (nth s.key.certs d.ix).length) → exec (.certRead d) s = .next (settle (completeDesc d stRange 0 (fetched d s))))
          ∧ (d.h 24 = 0 → (nth s.key.certs d.ix).length ≤ d.h 40 → Finishes (.certRead d) d s stOk (nth s.key.certs d.ix).length [.outs, .host] fun u =>
              u.outs = .hostWrite (d.q 32) (nth s.key.certs d.ix) :: (fetched d s).outs)))
  ∧ (∀ (d : Desc) (l : List Byte) (s : State), admits (keyOpInfo 0x0C (· == 3)) d s = true → s.isFrozen 0x23 = false → s.thm.halting = none → keyInput d = some l →
      s.key.slots.length = 64 →
      let set := fun (key : List Byte) => Finishes (.enrollOwner d) d s stOk 0 [.freeIx, .key] fun u => u.ownerKey = some key ∧ (u.slot 3).usage = 0x40
        ∧ (u.slot 3).origin = .pub ∧ (u.slot 3).type = (if key.length = 65 then 0x11 else 0x12) ∧ ∀ j, j ≠ 3 → u.slot j = s.slot j
      (s.ownerKey = none → s.pwr.opState ≠ .setup → exec (.enrollOwner d) s = .next (settle (completeDesc d stState 0 (fetched d s))))
      ∧ (s.ownerKey = none → s.pwr.opState = .setup → ownerKeyOk l = false → exec (.enrollOwner d) s = .next (settle (completeDesc d stRange 0 (fetched d s))))
      ∧ (s.ownerKey = none → s.pwr.opState = .setup → ownerKeyOk l = true → set l)
      ∧ (s.ownerKey ≠ none → (s.slot 3).tagOk = false → 3 ∉ liveDescendants s 3 → Finishes (.enrollOwner d) d s 0x16 0 [.flt, .acq, .key, .rcd] fun u =>
          (u.slot 3).state = .invalid ∧ Arose 92 1 3 (toLE 1 (s.slot 3).type) s u)
      ∧ (∀ old, s.ownerKey = some old → (s.slot 3).tagOk = true →
          let n := if old.length = 65 then 64 else 96
          ((l.length ≤ n ∨ ownerKeyOk (l.take (l.length - n)) = false) → exec (.enrollOwner d) s = .next (settle (completeDesc d stRange 0 (fetched d s))))
          ∧ (n < l.length → ownerKeyOk (l.take (l.length - n)) = true →
            if Config.ecdsaVerify old (ascii "CK832-OWNER1" ++ l.take (l.length - n) ++ s.nodeId) (l.drop (l.length - n)) = true
            then set (l.take (l.length - n)) else exec (.enrollOwner d) s = .next (settle (completeDesc d stKeyInvalid 0 (fetched d s))))))
  ∧ (∀ (bad : List Nat) (s : State), s.ready = true → s.key.slots.length = 64 →
      (s.quarter ≤ s.key.passAt → Idles (.remaskPass bad) s)
      ∧ (s.key.passAt < s.quarter → s.isFrozen 0x23 = true → Runs (.remaskPass bad) s [.key] fun t => t.key = { s.key with passAt := s.quarter })
      ∧ (s.key.passAt < s.quarter → s.isFrozen 0x23 = false → (∀ i, i < 64 → (s.slot i).tagOk = true) → bad = [] → Runs (.remaskPass bad) s [.freeIx, .flt, .acq, .key, .rcd] fun t =>
          t.key.orphaning = [] ∧ t.key.passAt = s.quarter ∧ t.key.passes = s.key.passes + 1 ∧ ∀ i, i < 64 →
            ((s.slot i).state = .ready → ∃ m, s.freeIx ≤ m ∧ t.slot i = { s.slot i with mask := m })
            ∧ ((s.slot i).state = .orphaned → (s.slot i).zeroised = false → t.slot i = { s.slot i with material := [], zeroised := true })
            ∧ (((s.slot i).state = .empty ∨ (s.slot i).state = .invalid ∨ ((s.slot i).state = .orphaned ∧ (s.slot i).zeroised = true)) → t.slot i = s.slot i))
      ∧ (∀ i n, s.key.passAt < s.quarter → s.isFrozen 0x23 = false → (i, n) ∈ s.key.orphaning →
          Runs (.remaskPass bad) s [.freeIx, .flt, .acq, .key, .rcd] fun t => Arose 94 2 i (toLE 1 n) s t)
      ∧ (∀ i, i < 64 → s.key.passAt < s.quarter → s.isFrozen 0x23 = false → (∀ k, k < 64 → (s.slot k).tagOk = true) → bad = [i] → (s.slot i).state = .ready → i ∉ liveDescendants s i →
          Runs (.remaskPass bad) s [.freeIx, .flt, .acq, .key, .rcd] fun t => (t.slot i).state = .invalid ∧ Arose 92 2 i (toLE 1 (s.slot i).type) s t))
  ∧ ∀ (d : Desc) (s : State), admits attestInfo d s = true → s.isFrozen 0x23 = false →
      (d.h 48 < attestLen s → exec (.attest d) s = .next (settle (completeDesc d stRange (attestLen s) (fetched d s))))
      ∧ (attestLen s ≤ d.h 48 → s.host.muted = false → (s.slot 0).state = .ready → (s.slot 0).tagOk = true →
          Finishes (.attest d) d s stOk (attestLen s) [.outs, .freeIx, .host, .flt, .acq, .key, .rcd] fun u => Arose 93 1 0xFF (toLE 4 (attestLen s)) s u
            ∧ ∃ sig, sig.length = 64 ∧ u.outs = .hostWrite (d.q 40) (attestBody (bytesAt d.body 0 32) (fetched d s) ++ sig) :: (fetched d s).outs)
      ∧ (attestLen s ≤ d.h 48 → (s.slot 0).state = .ready → (s.slot 0).tagOk = false → s.key.slots.length = 64 → 0 ∉ liveDescendants s 0 →
          Finishes (.attest d) d s 0x16 0 [.flt, .acq, .key, .rcd] fun u => (u.slot 0).state = .invalid ∧ Arose 92 1 0 (toLE 1 (s.slot 0).type) s u)

/-- The interlock, the pair link and the HELLO exchange move AUTH and the pair state as the tables of the pair say -/
def Obligations.AuthorityFollowsInterlockAndLink : Prop :=
  (∀ (s : State) (cls : IlkClass) (ty : Byte) (bl : List Block) (seq : Word) (h : Hello), s.ready = true → s.member = false →
      ∀ c ∈ [Instr.ilkInClassChange cls, Instr.ilkReadbackFail, Instr.authYield, Instr.authCollision, Instr.doubleFault, Instr.period ty bl, Instr.pairLinkDown,
        Instr.mirrorAckTimeout seq, Instr.ack seq, Instr.hello seq h], Idles c s)
  ∧ (∀ (cls : IlkClass) (s : State), s.pwr.undefinedLogic = false → s.member = true →
      ((s.pwr.held = true ∨ (cls = s.pair.ilk ∧ s.awake = true)) → Idles (.ilkInClassChange cls) s)
      ∧ (s.pwr.held = false → s.pwr.opState = .boot → s.awake = false → Runs (.ilkInClassChange cls) s [.pair] fun t =>
          t.pair = if cls = s.pair.ilk then s.pair else { s.pair with ilk := cls, ilkAt := s.now })
      ∧ (s.pwr.held = false → s.pwr.opState ≠ .boot → s.awake = false → Runs (.ilkInClassChange cls) s [.pair] fun t =>
          t.pair = { s.pair with ilkAsleep := some (cls, s.now) })
      ∧ (s.pwr.held = false → s.awake = true → cls ≠ s.pair.ilk → PairVia (.ilkInClassChange cls) s [.outs, .freeIx, .flt, .stages, .alloc, .paths, .pair, .acq, .sw, .met, .veh, .rcd, .auth] fun u =>
          let v : State := { s with pair := { s.pair with ilk := cls, handover := if cls = .low then none else s.pair.handover } }
          u.pair.ilk = cls ∧ u.pair.ilkAt = s.now ∧ u.pair.auth = (s.pair.auth || v.authDue) ∧ u.pair.doubleFault = (s.pair.doubleFault && cls.broken)
          ∧ u.pair.linkUp = s.pair.linkUp
          ∧ u.pair.ilkLost = (if s.pair.ilk.good = true ∧ cls.good = false then true else if cls.good = true then false else s.pair.ilkLost)
          ∧ (cls = .low → u.pair.handover = none ∧ u.pair.granted = none)
          ∧ (cls = .low → s.pair.linkUp = false → s.pair.state ≠ .refused → u.pair.state = if u.pair.auth = true then .active else .alone)
          ∧ (s.pair.ilk.good = true → cls.good = false →
              Arose 96 (if cls = .low then 1 else if cls = .high then 2 else 3) 0xFF (toLE 1 cls.code) s u)
          ∧ (s.pair.ilk.broken = false → cls.broken = true → s.pair.linkUp = true → Arose 103 1 0xFF (toLE 1 cls.code) s u)
          ∧ (s.pair.ilk.good = false → cls.good = true → s.pair.ilkLost = true → Arose 96 0 0xFF (toLE 1 cls.code) s u)
          ∧ (v.authDue = true → Posted 98 1 0xFF s u)
          ∧ (cls ≠ .low → v.authDue = false → u.pair.state = s.pair.state ∧ u.stages = s.stages ∧ u.sw = s.sw)
          ∧ (cls.good = true → s.pair.ilkLost = false → v.authDue = false → u.flt = s.flt)))
  ∧ (∀ s : State, s.ready = true → s.member = true →
      ((s.pwr.ilkOut = false ∨ s.now < s.pair.pulsesAt + 3000) → Idles .ilkReadbackFail s)
      ∧ (s.pwr.ilkOut = true → s.pair.pulsesAt + 3000 ≤ s.now → s.running = true → Runs .ilkReadbackFail s [.outs, .freeIx, .pwr, .flt, .stages, .alloc, .paths, .law, .pair, .acq, .met, .veh, .rcd, .auth, .opState, .faults] fun t =>
          t.pwr.opState = .safe ∧ t.pair.auth = false ∧ t.pwr.ilkOut = false ∧ t.pair.readbackOk = false
          ∧ t.flt.safeCause = s.flt.safeCause ||| 8 ∧ Arose 103 2 0xFF (toLE 1 s.pair.ilk.code) s t)
      ∧ (s.pwr.ilkOut = true → s.pair.pulsesAt + 3000 ≤ s.now → s.running = false → Runs .ilkReadbackFail s [.outs, .freeIx, .pwr, .flt, .stages, .alloc, .paths, .law, .pair, .acq, .met, .veh, .rcd, .auth, .opState, .faults] fun t =>
          t.pwr = s.pwr ∧ t.pair.readbackOk = false ∧ t.flt.safeCause = s.flt.safeCause ||| 8 ∧ Arose 103 2 0xFF (toLE 1 s.pair.ilk.code) s t)
      ∧ ((s.unitB = false ∨ s.pair.auth = false ∨ s.sawActive 4000 = false) → Idles .authYield s)
      ∧ (s.unitB = true → s.pair.auth = true → s.sawActive 4000 = true → Runs .authYield s [.flt, .pair, .acq, .sw, .rcd, .auth] fun t => ClearsAuth (some 4) s t)
      ∧ ((s.unitB = true ∨ s.pair.auth = false ∨ s.sawActive 20000 = false) → Idles .authCollision s)
      ∧ (s.unitB = false → s.pair.auth = true → s.sawActive 20000 = true → s.running = true → Runs .authCollision s [.outs, .freeIx, .pwr, .flt, .stages, .alloc, .paths, .law, .pair, .acq, .met, .veh, .rcd, .auth, .opState, .faults] fun t =>
          t.pwr.opState = .safe ∧ t.pair.auth = false ∧ t.pwr.ilkOut = false ∧ t.flt.safeCause = s.flt.safeCause ||| 16
          ∧ Arose 103 3 0xFF (toLE 1 s.pair.ilk.code) s t)
      ∧ ((∀ d, s.sawActive d = true → s.pair.ilk = .active ∧ s.inHandoverWindow = false ∧ s.pair.ilkAt + d ≤ s.now)
          ∧ (s.pair.ilk = .active → s.pair.handover = none → ∀ d, s.pair.ilkAt + d ≤ s.now → s.pair.windowEndAt + d ≤ s.now → s.sawActive d = true))
      ∧ ((s.pair.doubleFault = true ∨ s.pair.ilk.broken = false ∨ s.pair.linkUp = true ∨ s.running = false ∨ s.now < s.pair.ilkAt + 1000000
          ∨ s.now < s.pair.linkDownAt + 1000000) → Idles .doubleFault s)
      ∧ (s.pair.doubleFault = false → s.pair.ilk.broken = true → s.pair.linkUp = false → s.running = true → s.pair.ilkAt + 1000000 ≤ s.now →
          s.pair.linkDownAt + 1000000 ≤ s.now →
          let v : State := { s with pair := { s.pair with doubleFault := true, doubleAt := s.now } }
          let holds := if s.unitB = true then s.leaseWitnessed = true
            else s.leaseHere = true ∨ (s.pair.held = false ∧ v.witnessAnswered = false ∧ s.claimFrom ≤ s.now)
          let leaves := if s.unitB = true then s.leaseWitnessed = false else s.leaseHere = false ∧ s.pair.held = true
          (holds → s.pair.auth = false → s.pair.state ≠ .refused → PairVia .doubleFault s [.outs, .freeIx, .flt, .stages, .alloc, .paths, .pair, .acq, .sw, .met, .veh, .rcd, .auth] fun u => SetsAuth 5 v u)
          ∧ (leaves → s.pair.auth = true → PairVia .doubleFault s [.outs, .freeIx, .flt, .stages, .alloc, .paths, .pair, .acq, .sw, .met, .veh, .rcd, .auth] fun u => ClearsAuth none v u)
          ∧ ((¬ holds ∧ ¬ leaves ∨ holds ∧ (s.pair.auth = true ∨ s.pair.state = .refused) ∨ leaves ∧ s.pair.auth = false) →
              PairVia .doubleFault s [.pair] fun u => u = v)))
  ∧ (∀ (ty : Byte) (l : List Block) (s : State), s.ready = true → s.member = true →
      ((periodOk s ty l = false ∨ (∀ p ∈ s.pair.lanes, p.blockLock = false)) → Idles (.period ty l) s)
      ∧ (periodOk s ty l = true → (∃ p ∈ s.pair.lanes, p.blockLock = true) → PairVia (.period ty l) s [.outs, .freeIx, .host, .flt, .stages, .alloc, .paths, .lanes, .pair, .acq, .sw, .met, .veh, .can, .plc, .rcd, .auth, .rings] fun u =>
          let counts := frSeq l = s.lanes.q ∧ bits (blk l 2) 32 1 = 1 ∧ s.pair.digestOk = true
          let same := bits (blk l 2) 0 32 = s.pair.digest.toNat
          let term : Word := BitVec.ofNat 32 (bits (blk l 3) 0 32)
          let holderB := bits (blk l 3) 32 1 == 1
          let loss := toLE 1 (b2n s.pair.inputLoss) ++ toLE 1 (bits (blk l 2) 33 1)
          u.pair.linkUp = true ∧ u.pair.peerAuth = (bits (blk l 0) 8 1 == 1) ∧ u.pair.periodAt = some s.now
          ∧ (¬ (counts ∧ ¬ same ∧ s.pair.auth = true) → u.pair.peerState = PairState.ofCode (bits (blk l 0) 16 3))
          ∧ (s.pair.auth = true → u.pair.auth = true)
          ∧ (s.pair.linkUp = false → u.pair.doubleFault = false ∧ u.pair.ackedSeqs = [] ∧ Arose 97 2 0xFF [] s u
              ∧ (s.pair.state = .isolated → Arose 102 0 0xFF (toLE 1 6) s u)
              ∧ (s.pair.ilk.broken = true → Arose 103 1 0xFF (toLE 1 s.pair.ilk.code) s u)
              ∧ (∃ sig frames, .mirror s.pair.recordSeq (.hello { s.ownHello with signature := sig }) frames ∈ u.outs)
              ∧ ((s.pair.state = .alone ∨ s.pair.state = .isolated) → ¬ (counts ∧ ¬ same) → u.pair.state = .forming))
          ∧ (s.pair.linkUp = true → s.pair.state = .forming → s.pair.auth = false → ¬ (counts ∧ ¬ same) →
              u.lanes.q = frSeq l ∧ u.pair.periodCount.toNat = bits (blk l 1) 0 48)
          ∧ (frSeq l = s.lanes.q + 1 → s.pair.linkUp = true → u.pair.early = l)
          ∧ (s.pair.linkUp = true → ¬ counts → u.pair.mismatches = s.pair.mismatches ∧ u.pair.resyncs = s.pair.resyncs ∧ u.pair.hotRun = s.pair.hotRun)
          ∧ (s.pair.linkUp = true → counts → ¬ same → u.pair.mismatches = satAdd 16 s.pair.mismatches 1 ∧ u.pair.hotRun = 0
            ∧ (s.pair.auth = true → u.pair.peerState = .resync)
            ∧ (s.pair.auth = false → Arose 101 1 0xFF loss s u)
            ∧ (u.pair.auth = false → s.pair.state ≠ .refused → u.pair.state = .resync ∧ u.pair.snapWanted = true ∧ u.pair.snapApplied = false)
            ∧ (∀ h, s.pair.handover = some h → h.since = s.pair.periodCount.toNat → u.pair.handover = none))
          ∧ (s.pair.linkUp = true → counts → same → (s.pair.state ≠ .resync ∨ s.pair.snapApplied = false) →
              u.pair.hotRun = s.pair.hotRun ∧ u.pair.resyncs = s.pair.resyncs)
          ∧ (s.pair.linkUp = true → counts → same → s.pair.state = .resync → s.pair.snapApplied = true → s.pair.hotRun + 1 < s.hotPeriods →
              u.pair.hotRun = s.pair.hotRun + 1 ∧ u.pair.resyncs = s.pair.resyncs)
          ∧ (s.pair.linkUp = true → counts → same → s.pair.state = .resync → s.pair.snapApplied = true → s.hotPeriods ≤ s.pair.hotRun + 1 →
              u.pair.resyncs = satAdd 16 s.pair.resyncs 1 ∧ u.pair.everResynced = true ∧ Arose 101 7 0xFF loss s u ∧ (u.pair.auth = false → u.pair.state = .hot))
          ∧ (s.pair.term.toNat < term.toNat → s.givesTerm term = false → u.pair.term = term ∧ u.pair.holderB = holderB
              ∧ u.pair.held = (holderB != s.unitB && bits (blk l 3) 33 1 == 1) ∧ u.pair.expiresAt = s.now + s.leaseNs)
          ∧ (term.toNat ≤ s.pair.term.toNat → u.pair.term = s.pair.term ∧ u.pair.held = s.pair.held)))
  ∧ (∀ s : State, s.ready = true → s.member = true →
      ((s.peerHeard = true ∨ s.pair.linkUp = false) → Idles .pairLinkDown s)
      ∧ (s.peerHeard = false → s.pair.linkUp = true → Runs .pairLinkDown s [.outs, .freeIx, .flt, .pair, .acq, .rcd] fun t => LinkFalls false s t))
  ∧ (∀ (seq : Word) (s : State), s.ready = true → s.member = true →
      ((∀ r ∈ s.pair.unacked, r.seq ≠ seq) → Idles (.mirrorAckTimeout seq) s)
      ∧ (∀ a b r, s.pair.unacked = a ++ r :: b → (∀ x ∈ a, x.seq ≠ seq) → r.seq = seq →
          (s.now < r.sentAt + 10000 → Idles (.mirrorAckTimeout seq) s)
          ∧ (r.sentAt + 10000 ≤ s.now → r.tries ≤ 8 → Runs (.mirrorAckTimeout seq) s [.outs, .pair] fun t =>
            (∃ frames, t.outs = .mirror seq r.content frames :: s.outs)
            ∧ t.pair = { s.pair with unacked := s.pair.unacked.map fun x => if x.seq = seq then { x with tries := x.tries + 1, sentAt := s.now } else x })
          ∧ (r.sentAt + 10000 ≤ s.now → 8 < r.tries → s.pair.linkUp = true →
              Runs (.mirrorAckTimeout seq) s [.outs, .freeIx, .flt, .pair, .acq, .rcd] fun t => LinkFalls true s t))
      ∧ (s.pair.linkUp = false → Idles (.ack seq) s)
      ∧ (s.pair.linkUp = true → Runs (.ack seq) s [.pair] fun t =>
          (∀ r, r ∈ t.pair.unacked ↔ r ∈ s.pair.unacked ∧ r.seq ≠ seq)
          ∧ (∀ h, s.pair.handover = some h → h.taking = false → s.now + 2000 ≤ s.handoverTime h → (∃ r ∈ s.pair.unacked, r.seq = seq ∧ r.content.rtype = 4) →
              t.pair.handover = some { h with acked := true })
          ∧ ((s.pair.handover = none ∨ (∃ h, s.pair.handover = some h ∧ (h.taking = true ∨ s.handoverTime h < s.now + 2000))
              ∨ (∀ r ∈ s.pair.unacked, r.seq = seq → r.content.rtype ≠ 4)) → t.pair.handover = s.pair.handover)
          ∧ t.pair.auth = s.pair.auth ∧ t.pair.state = s.pair.state))
  ∧ ∀ (seq : Word) (h : Hello) (s : State), s.ready = true → s.member = true → RecordVia (.hello seq h) seq s [.outs, .flt, .stages, .paths, .pair, .acq, .sw, .key, .rcd, .auth] fun v u =>
      let owner := padTo 16 (ownerKeyId (v.ownerKey.getD []))
      let ok1 := h.identityOk = true
      let ok2 := ok1 ∧ h.unitB ≠ v.unitB
      let ok3 := ok2 ∧ h.pairId = v.host.pairId
      let ok4 := ok3 ∧ h.ownerKeyId = owner
      let ok5 := ok4 ∧ h.firmware = v.fwVersion
      let ok6 := ok5 ∧ h.digest = v.payloadDigest
      let ok7 := ok6 ∧ h.meas = v.key.meas
      let both := fun ev cause payload => Arose ev cause 0xFF payload v u ∧ u.pair = { v.pair with state := .refused, helloOk := false, mayRejoin := false }
      let one := fun ev cause payload => Arose ev cause 0xFF payload v u
        ∧ u.pair = if v.unitB then { v.pair with state := .refused, helloOk := false, mayRejoin := false } else v.pair
      let shut := v.pair.state = .refused ∧ v.pair.mayRejoin = false
      (shut → u = v)
      ∧ (¬ shut → ¬ ok1 → both 101 6 [])
      ∧ (¬ shut → ok1 → ¬ ok2 → both 103 4 (toLE 1 v.pair.ilk.code))
      ∧ (¬ shut → ok2 → ¬ ok3 → one 101 3 (toLE 1 h.pairId.toNat))
      ∧ (¬ shut → ok3 → ¬ ok4 → one 101 5 (bytesAt h.ownerKeyId 0 16))
      ∧ (¬ shut → ok4 → ¬ ok5 → one 101 4 (toLE 4 h.firmware))
      ∧ (¬ shut → ok5 → ¬ ok6 → one 101 2 (bytesAt h.digest 0 16))
      ∧ (¬ shut → ok6 → ¬ ok7 → v.pair.helloOk = false → one 101 4 (bytesAt h.meas 0 16))
      ∧ (¬ shut → ok6 → ¬ ok7 → v.pair.helloOk = true → Arose 101 4 0xFF (bytesAt h.meas 0 16) v u
          ∧ u.pair = if v.pair.auth then v.pair else { v.pair with state := .refused, helloOk := false, mayRejoin := false })
      ∧ (¬ shut → ok7 →
          let f : State := { v with pair := { v.pair with state := if v.pair.state = .refused then .forming else v.pair.state } }
          u.pair.helloOk = true ∧ u.pair.peerPublic = h.publicKey ∧ u.pair.peerNode = h.nodeId ∧ u.pair.mayRejoin = false
          ∧ (2 < v.key.slots.length → (u.slot 2).state = .ready ∧ (u.slot 2).type = 2 ∧ (u.slot 2).usage = 0x20 ∧ (u.slot 2).flags = 2
            ∧ (u.slot 2).material = pairKey { v with pair := { v.pair with peerPublic := h.publicKey, peerNode := h.nodeId } })
          ∧ u.pair.auth = (v.pair.auth || f.authDue)
          ∧ (f.pair.state ≠ .forming → u.pair.state = if f.authDue = true then .active else f.pair.state)
          ∧ (f.pair.state = .forming → u.pair.state = (if u.pair.auth = true then .active else .resync) ∧ (u.pair.auth = false → u.pair.snapWanted = true))
          ∧ (v.unitB = false → v.pair.held = false → u.pair.proposed = some (v.pair.term + 1) ∧ u.pair.renewAt = v.now
              ∧ ∃ n frames, u.outs.head? = some (.mirror n (.lease (leaseBody v 1 (v.pair.term + 1) 0)) frames))
          ∧ ((v.unitB = true ∨ v.pair.held = true) → u.pair.proposed = v.pair.proposed))

/-- Handovers pass AUTH and the lease, mirror records carry the peer's state, and a resync loads the ACTIVE unit's image -/
def Obligations.HandoversRecordsAndResyncMoveThePair : Prop :=
  (∀ (s : State) (seq : Word) (a b o txn at_ : Nat) (p : SnapPart) (d : Desc) (st : Byte) (tick : EffectTick) (x : Session) (y : Path) (z : Stage)
      (r : List (Nat × Half)) (fl : List (Nat × Nat)) (ref id key : List Byte) (start : Bool) (act : Half), s.ready = true → s.member = false →
      ∀ c ∈ [Instr.handover seq a b, Instr.handoverTaken, Instr.handoverGiven, Instr.handoverWindowEnd, Instr.snapshotRequest seq, Instr.snapshotRecord seq a b p,
        Instr.resyncPoint, Instr.descriptor seq d st tick, Instr.mirroredDescriptorEffect, Instr.session seq o x key, Instr.target seq o y, Instr.transfer seq o z,
        Instr.sensor seq at_ r fl, Instr.caddis seq o start ref txn id, Instr.lane seq act], Idles c s)
  ∧ (∀ (seq : Word) (at_ kind : Nat) (s : State), s.ready = true → s.member = true → RecordVia (.handover seq at_ kind) seq s [.outs, .flt, .stages, .paths, .pair, .acq, .sw, .rcd] fun v u =>
      let crossed := kind = 2 ∧ ∃ h, v.pair.handover = some h ∧ h.taking = false ∧ h.kind = 2
      let takes := v.pair.state = .hot ∧ v.pair.auth = false ∧ v.pair.handover = none ∧ (kind = 1 ∨ kind = 2)
      (crossed → u.pair.handover = none ∧ ∀ n, n < 16 → (v.lane n).state = .down → ∀ i, i / 2 = n → (v.stage i).xfer ≠ .blocked → (u.stage i).outEn = false)
      ∧ (¬ crossed → ¬ takes → u = v)
      ∧ (takes →
          let h : Handover := { atCount := at_, kind := kind, taking := true, acked := true, since := v.pair.periodCount.toNat }
          u.pair = { v.pair with handover := some h }
          ∧ u.sw.preDrive = true ∧ u.stages = v.stages ∧ u.flt = v.flt
          ∧ (v.sw.frozen = false → v.sw.lost = false → v.sw.ch.length = 12 → ∀ n, n < 12 → v.swFollows n = false → v.swProfile n ≠ 0 →
              (u.swCh n).enabled = ((v.swCh n).enabled || (v.swCh n).commanded))))
  ∧ (∀ s : State, s.ready = true → s.member = true →
      let pending := s.inHandoverWindow = true ∧ ∃ h, s.pair.handover = some h ∧ h.taking = true ∧ h.acked = true
      let grants := fun t : Word => s.pair.granted = some t ∧ ∃ h, s.pair.handover = some h ∧ h.kind = 1 ∧ h.atCount ≤ s.pair.periodCount.toNat
      let gives := s.pair.auth = true ∧ s.inHandoverWindow = true
        ∧ ∃ h, s.pair.handover = some h ∧ h.taking = false ∧ h.acked = true ∧ s.handoverTime h + 500 ≤ s.now
      let may := s.pair.auth = false ∧ s.running = true ∧ s.pair.state ≠ .refused
      (¬ pending → Idles .handoverTaken s)
      ∧ (pending → (∀ t, ¬ grants t) → s.pair.auth = true → LeaseVia .handoverTaken s [] fun u => u = s)
      ∧ (pending → s.pair.auth = false → ¬ may → LeaseVia .handoverTaken s [] fun u => u = s)
      ∧ (pending → (∀ t, ¬ grants t) → may → LeaseVia .handoverTaken s [.outs, .freeIx, .flt, .stages, .alloc, .paths, .pair, .acq, .sw, .met, .veh, .can, .rcd, .auth] fun u => SetsAuth 3 s u)
      ∧ (∀ t, pending → grants t → s.pair.auth = true → LeaseVia .handoverTaken s [.outs, .freeIx, .flt, .stages, .alloc, .paths, .pair, .acq, .sw, .met, .veh, .can, .rcd, .auth] fun u => Acquires 2 1 t s u)
      ∧ (∀ t, pending → grants t → may →
          let v : State := { s with pair := { s.pair with auth := true } }
          LeaseVia .handoverTaken s [.outs, .freeIx, .flt, .stages, .alloc, .paths, .pair, .acq, .sw, .met, .veh, .can, .rcd, .auth] fun u => Authors 3 s u ∧ Acquires 2 1 t v u)
      ∧ (¬ gives → Idles .handoverGiven s)
      ∧ (gives → ((∀ h, s.pair.handover = some h → h.kind ≠ 1) ∨ s.leaseHere = false) → Runs .handoverGiven s [.outs, .freeIx, .host, .flt, .stages, .alloc, .paths, .pair, .acq, .sw, .met, .veh, .can, .plc, .rcd, .auth, .rings] fun t => ClearsAuth (some 2) s t)
      ∧ (gives → (∃ h, s.pair.handover = some h ∧ h.kind = 1) → s.leaseHere = true → LeaseVia .handoverGiven s [.outs, .freeIx, .host, .flt, .stages, .alloc, .paths, .pair, .acq, .sw, .met, .veh, .can, .plc, .rcd, .auth, .rings] fun u =>
          u.pair.auth = false ∧ u.pair.term = s.pair.term + 1 ∧ u.pair.holderB = !s.unitB ∧ u.pair.held = true ∧ u.pair.expiresAt = s.now + s.leaseNs
          ∧ u.pair.granted = none ∧ u.leaseHere = false ∧ u.pair.handovers = satAdd 16 s.pair.handovers 1
          ∧ Authors 2 s u ∧ Arose 99 2 0xFF (toLE 4 s.pair.term.toNat) s u)
      ∧ (s.pair.handover = none → Idles .handoverWindowEnd s)
      ∧ (∀ h, s.pair.handover = some h →
          let v : State := { s with
            pair := { s.pair with handover := none, granted := none, windowEndAt := s.handoverTime h + 8000 }, sw := { s.sw with preDrive := false } }
          (s.now < s.handoverTime h + 8000 → Idles .handoverWindowEnd s)
          ∧ (s.handoverTime h + 8000 ≤ s.now → v.authDue = true → PairVia .handoverWindowEnd s [.outs, .freeIx, .flt, .stages, .alloc, .paths, .pair, .acq, .sw, .met, .veh, .rcd, .auth] fun u => SetsAuth 1 v u)
          ∧ (s.handoverTime h + 8000 ≤ s.now → v.authDue = false → PairVia .handoverWindowEnd s [.pair, .sw] fun u => u = v)))
  ∧ (∀ (value : Word) (s : State), s.ready = true → s.domainUp 6 = true →
      let may := s.member = true ∧ value.getLsbD 0 = true ∧ s.pair.state = .active ∧ s.pair.auth = true ∧ s.leaseHere = true ∧ s.pair.peerState = .hot
        ∧ s.pair.linkUp = true ∧ s.pair.handover = none
      let at_ := s.pair.periodCount.toNat + max 8 (ceilDiv 220000 s.periodQns + 1)
      let asks := s.member = true ∧ value.getLsbD 1 = true ∧ (s.pair.state = .hot ∨ s.pair.state = .resync)
      (¬ may → Idles (.switchover value) s)
      ∧ (may → Runs (.switchover value) s [.outs, .pair] fun t =>
          t.pair.handover = some { atCount := at_, kind := 1, since := s.pair.periodCount.toNat } ∧ t.pair.auth = true ∧ t.pair.term = s.pair.term
          ∧ ∃ f1 f2, t.outs = .mirror (s.pair.recordSeq + 1) (.lease (leaseBody s 3 (s.pair.term + 1) 0)) f1
              :: .mirror s.pair.recordSeq (.handover at_ 1) f2 :: s.outs)
      ∧ (¬ asks → Idles (.resync value) s)
      ∧ (asks → Runs (.resync value) s [.outs, .pair] fun t =>
          t.pair.state = .resync ∧ t.pair.snapWanted = true ∧ t.pair.snapApplied = false ∧ t.pair.snapParts = [] ∧ t.pair.hotRun = 0 ∧ t.pair.resyncAt = none
          ∧ (s.pair.linkUp = true → ∃ f, t.outs = .mirror s.pair.recordSeq .snapshotRequest f :: s.outs)))
  ∧ (∀ (seq : Word) (s : State), s.ready = true → s.member = true → RecordVia (.snapshotRequest seq) seq s [.outs, .pair] fun v u =>
      (v.pair.state ≠ .active → u = v)
      ∧ (v.pair.state = .active → let parts := snapshotParts v.resyncPoint v
          u.outs.length = v.outs.length + parts.length ∧ u.pair.resyncAt = some v.resyncPoint
          ∧ u.pair.unacked.map (fun r => r.content) = v.pair.unacked.map (fun r => r.content) ++ parts.mapIdx fun i p => .snapshot i parts.length p))
  ∧ (∀ (seq : Word) (frag frags : Nat) (part : SnapPart) (s : State), s.ready = true → s.member = true →
      RecordVia (.snapshotRecord seq frag frags part) seq s [.outs, .pair] fun v u =>
        let parts := v.pair.snapParts.filter (fun p => p.1 != frag) ++ [(frag, part)]
        ((v.pair.state ≠ .resync ∨ v.pair.snapWanted = false ∨ frags ≤ frag) → u = v)
        ∧ (v.pair.state = .resync → v.pair.snapWanted = true → frag < frags → u.pair.snapParts = parts
            ∧ (parts.length ≠ frags → u.pair.resyncAt = none)
            ∧ (∀ c, part = .point c → parts.length = frags → (∀ p ∈ v.pair.snapParts, ∀ x, p.2 ≠ .point x) → u.pair.resyncAt = some c)))
  ∧ (∀ s : State, s.ready = true → s.member = true →
      ((s.pair.resyncAt = none ∨ (∃ c, s.pair.resyncAt = some c ∧ s.pair.periodCount.toNat ≠ c)) → Idles .resyncPoint s)
      ∧ (s.pair.resyncAt = some s.pair.periodCount.toNat → s.pair.state ≠ .resync → Runs .resyncPoint s [.pair] fun t =>
          t.pair = { s.pair with resyncAt := none })
      ∧ (s.pair.resyncAt = some s.pair.periodCount.toNat → s.pair.state = .resync → Runs .resyncPoint s [.stages, .alloc, .paths, .law, .pair, .thm, .veh] fun t =>
          t.pair = { s.pair with snapParts := [], resyncAt := none, snapWanted := false, snapApplied := true, hotRun := 0 }
          ∧ (∀ k x, k < s.law.slots.length → LastPart s (fun p => match p with | .law j _ => j == k | _ => false) (.law k x) → (nth t.law.slots k).st = x)
          ∧ (∀ k x, k < s.stages.length → LastPart s (fun p => match p with | .stage j _ => j == k | _ => false) (.stage k x) → t.stage k = x)
          ∧ (∀ k x, k < s.paths.length → LastPart s (fun p => match p with | .path j _ => j == k | _ => false) (.path k x) → t.path k = x)
          ∧ (∀ k x, k < s.alloc.outlets.length → LastPart s (fun p => match p with | .outlet j _ => j == k | _ => false) (.outlet k x) → t.alcOut k = x)
          ∧ (∀ k x, k < s.thm.objs.length → LastPart s (fun p => match p with | .thermal j _ => j == k | _ => false) (.thermal k x) → (t.obj k).theta = x)
          ∧ (∀ k x, k < s.veh.length → LastPart s (fun p => match p with | .session j _ => j == k | _ => false) (.session k x) → t.ses k = x)))
  ∧ (∀ (seq : Word) (d : Desc) (status : Byte) (tick : EffectTick) (s : State), s.ready = true → s.member = true →
      RecordVia (.descriptor seq d status tick) seq s [.outs, .prof, .pair] fun v u =>
        let good := status.toNat = stOk ∨ status.toNat = stDeferred
        (¬ good → u = v)
        ∧ (∀ c, good → d.opcode = 0x23 → tick = .period c → 
            u = { v with prof := { v.prof with lock := true, lockAt := v.now, change := some d.ix, changeCount := c } })
        ∧ (∀ n, good → d.opcode = 0x23 → tick = .time n → u = v)
        ∧ (good → atTick d.opcode.toNat = true → u = { v with pair := { v.pair with effects := v.pair.effects ++ [(tick, d)] } })
        ∧ (good → d.opcode ≠ 0x23 → atTick d.opcode.toNat = false → u = v))
  ∧ (∀ s : State, s.ready = true → s.member = true →
      let due := s.pair.effects.filter fun e => s.reached e.1
      (due = [] → Idles .mirroredDescriptorEffect s)
      ∧ (due ≠ [] → PairVia .mirroredDescriptorEffect s [.outs, .freeIx, .flt, .stages, .alloc, .paths, .law, .pair, .acq, .met, .veh, .rcd] fun u =>
          u = forAll due (fun e t => mirroredEffect e.2 t) { s with pair := { s.pair with effects := s.pair.effects.filter fun e => !s.reached e.1 } }))
  ∧ (∀ (d : Desc) (s : State),
      (∀ p ∈ [(0x06, gridCapOp), (0x07, outletHaltOp), (0x08, outletResumeOp), (0x09, stageHaltOp), (0x0A, stageResumeOp), (0x20, sessionAuthorizeOp),
          (0x21, sessionEndOp), (0x22, outletPolicyOp)], d.opcode.toNat = p.1 → mirroredEffect d s = (p.2 d s).1)
      ∧ (∀ c, d.opcode = 0x45 → d.input = some c → mirroredEffect d s = if u8 c 0 = 0 then (injectOffOp d s).1 else (injectOp d s).1))
  ∧ (∀ (seq : Word) (o : Nat) (s : State), s.ready = true → s.member = true →
      (∀ (copy : Session) (key : List Byte),
        (s.pairKeyOpens key = false → Idles (.session seq o copy key) s)
        ∧ (s.pairKeyOpens key = true → RecordVia (.session seq o copy key) seq s [.outs, .pair, .veh] fun v u =>
          ((v.leaseHere = true ∨ 8 ≤ o) → u = v)
          ∧ (v.leaseHere = false → o < 8 → o < v.veh.length → u.ses o = copy ∧ (∀ k, k ≠ o → u.ses k = v.ses k) ∧ u.pair = v.pair)))
      ∧ (∀ copy : Path, RecordVia (.target seq o copy) seq s [.outs, .paths, .pair] fun v u =>
        ((v.leaseHere = true ∨ 8 ≤ o) → u = v)
        ∧ (v.leaseHere = false → o < 8 → o < v.paths.length → u.path o = copy ∧ (∀ k, k ≠ o → u.path k = v.path k) ∧ u.pair = v.pair))
      ∧ (∀ copy : Stage, RecordVia (.transfer seq o copy) seq s [.outs, .stages, .pair] fun v u =>
        ((v.pair.state = .active ∨ 32 ≤ o) → u = v)
        ∧ (v.pair.state ≠ .active → o < 32 → o < v.stages.length → u.stage o = copy ∧ (∀ k, k ≠ o → u.stage k = v.stage k) ∧ u.pair = v.pair))
      ∧ (∀ (at_ : Nat) (rtds : List (Nat × Half)) (flows : List (Nat × Nat)),
        RecordVia (.sensor seq at_ rtds flows) seq s [.outs, .pair, .thm] fun v u =>
          u.thm = { v.thm with
            queue := v.thm.queue
              ++ (rtds.filter fun r => decide (r.1 < 24)).map (fun r =>
                  ((if v.unitB then 0x1000 else 0x1800) + r.1, (if r.2 = 0x8000 then none else some r.2.toInt), at_))
              ++ (flows.filter fun f => decide (f.1 < 8)).map (fun f => (flowId f.1, some (f.2 : Int), at_)) })
      ∧ (∀ (start : Bool) (ref : List Byte) (txn : Nat) (id : List Byte), RecordVia (.caddis seq o start ref txn id) seq s [.outs, .freeIx, .host, .flt, .pair, .acq, .met, .rcd, .rings] (CaddisRecord o start ref txn id))
      ∧ ∀ act : Half, RecordVia (.lane seq act) seq s [.outs, .pair] fun v u => u = { v with pair := { v.pair with peerLanes := act } })
  ∧ (∀ (f : PlcFrame) (s : State), s.ready = true → s.plcRuns = false → Idles (.pairFrame f) s ∧ Idles .pairFrameTimer s)
  ∧ (∀ (f : PlcFrame) (s : State), s.plcRuns = true → ∀ s1 r, takeFrame 0x0A f s = (s1, r) →
      NetVia (.pairFrame f) s [.outs, .freeIx, .host, .flt, .stages, .alloc, .paths, .pair, .acq, .sw, .met, .veh, .can, .plc, .rcd, .auth, .rings] (fun u => u.pair.linkUp = s.pair.linkUp)
      ∧ ((r = none ∨ s.member = false) → exec (.pairFrame f) s = .next (settle (refreshPaths s1)))
      ∧ (∀ body, s.member = true → body.length = 16 → r = some (toLE 1 3 ++ toLE 2 16 ++ body) →
          exec (.pairFrame f) s = .next (settle (refreshPaths (leaseBodyEffect true body s1)))
          ∧ ∀ seq, exec (.lease seq body true) s1 = .next (settle (leaseBodyEffect true body s1)))
      ∧ (∀ o start ref txn id, s.member = true → o < 256 → ref.length = 16 → txn < 2 ^ 32 → id.length = 16 →
          r = some (toLE 1 0x0A ++ toLE 2 38 ++ toLE 1 o ++ toLE 1 (b2n start) ++ ref ++ toLE 4 txn ++ id) →
          ∃ u, exec (.pairFrame f) s = .next (settle (refreshPaths u)) ∧ CaddisRecord o start ref txn id s1 u))
  ∧ ∀ s : State, s.plcRuns = true →
      let kept := s.plc.msgs.filter fun m => !(m.orig == s.plc.addr && m.type == 0x0A)
      ((s.plcFallback = false ∨ s.pairFrameDue = false) → NetRests .pairFrameTimer s)
      ∧ (s.plcFallback = true → s.pairFrameDue = true → (s.pair.plcOut = [] ∨ s.peerAddr = 0) → NetVia .pairFrameTimer s [.pair, .plc] fun u =>
          u = { s with pair := { s.pair with frameAt := s.now }, plc := { s.plc with msgs := kept } })
      ∧ (s.plcFallback = true → s.pairFrameDue = true → s.pair.plcOut ≠ [] → s.peerAddr ≠ 0 → NetVia .pairFrameTimer s [.pair, .plc] fun u =>
          u.pair = { s.pair with frameAt := s.now, plcOut := s.pair.plcOut.drop 8 }
          ∧ ∃ m, u.plc.msgs = kept ++ [m] ∧ m.type = 0x0A ∧ m.prio = 0 ∧ m.final = s.peerAddr ∧ m.own = false ∧ m.orig = s.plc.addr
            ∧ m.bytes = sealPayload (plcKey s 0x0A) 0x0A s.plc.addr s.plc.nid s.nonceTime
                ((s.pair.plcOut.take 8).flatMap fun r => toLE 1 r.1 ++ toLE 2 r.2.length ++ r.2))

/-- LEASE records, renewals, expiry, claims and the host board move the lease by its rules -/
def Obligations.LeasesAreRenewedLapseAndAreClaimed : Prop :=
  (∀ (s : State) (seq : Word) (body : List Byte) (plc : Bool) (w : Option (BitVec 64)), s.ready = true → s.member = false →
      ∀ c ∈ [Instr.lease seq body plc, Instr.leaseRenew, Instr.leaseExpiry, Instr.leaseClaim, Instr.hostBoardPoll w, Instr.hostCasComplete w], Idles c s)
  ∧ (∀ (seq : Word) (body : List Byte) (plc : Bool) (s : State), s.ready = true → s.member = true →
      let v := if plc = true then s else acknowledged seq s
      let term : Word := BitVec.ofNat 32 (u32 body 4)
      let taken := plc = true ∨ (s.pair.linkUp = true ∧ seq ∉ s.pair.ackedSeqs)
      let foreign := body.length = 16 ∧ (u8 body 1 % 2 == 1) ≠ s.unitB
      let via := fun P : State → Prop => LeaseVia (.lease seq body plc) s [.outs, .freeIx, .host, .flt, .stages, .alloc, .paths, .pair, .acq, .sw, .met, .veh, .can, .plc, .rcd, .auth, .rings] P
      let bit : BitVec 3 := if plc = true then 2 else 1
      let mine := v.leaseHere = true ∧ term = v.pair.term
      let answered : State := { v with pair := { v.pair with answeredAt := some v.now } }
      (plc = false → s.pair.linkUp = false → Idles (.lease seq body plc) s)
      ∧ (plc = false → s.pair.linkUp = true → seq ∈ s.pair.ackedSeqs → exec (.lease seq body plc) s = .next (settle { acknowledged seq s with
          pair := { s.pair with recordSeq := s.pair.recordSeq + 1 } }))
      ∧ (taken → ¬ foreign → exec (.lease seq body plc) s = .next (settle v))
      ∧ (taken → foreign → u8 body 0 = 1 →
          ((term.toNat < v.pair.term.toNat ∨ mine) → via fun u => u = v)
          ∧ (v.pair.term.toNat ≤ term.toNat → ¬ mine → via fun u =>
              (v.pair.term.toNat < term.toNat → LearnsTerm term (!v.unitB) true v u)
              ∧ (term = v.pair.term → u.pair.held = true ∧ u.pair.holderB = !v.unitB ∧ u.pair.expiresAt = v.now + v.leaseNs ∧ u.flt = v.flt)
              ∧ (plc = false → ∃ n frames, u.outs.head? = some (.mirror n (.lease (leaseBody v 2 term (u32 body 8))) frames))
              ∧ (plc = true → v.plcFallback = true → u.pair.plcOut = v.pair.plcOut ++ [(3, leaseBody v 2 term (u32 body 8))])))
      ∧ (taken → foreign → u8 body 0 = 2 →
          (v.pair.proposed = some term → via fun u => Acquires 1 bit.toNat term answered u)
          ∧ (v.pair.proposed ≠ some term → term = v.pair.term → v.pair.holderB = v.unitB → v.pair.lapsed = true →
              via fun u => Acquires 4 bit.toNat (term + 1) answered u)
          ∧ (v.pair.proposed ≠ some term → mine → v.pair.lapsed = false → via fun u => u = { v with pair := { v.pair with
              answeredAt := some v.now, witnessOk := v.pair.witnessOk ||| bit, witnessedAt := some v.pair.renewAt
              expiresAt := max v.pair.expiresAt (v.pair.renewAt + v.leaseNs) } })
          ∧ (v.pair.proposed ≠ some term → ¬ mine → ¬ (term = v.pair.term ∧ v.pair.holderB = v.unitB ∧ v.pair.lapsed = true) →
              via fun u => u = answered))
      ∧ (taken → foreign → u8 body 0 = 3 →
          let due := v.pair.doubleFault = true ∧ v.pair.held = false ∧ v.claimFrom ≤ v.now
          (term.toNat ≤ v.pair.term.toNat → via fun u => u = v)
          ∧ (v.pair.term.toNat < term.toNat → plc = false → via fun u => u = { v with pair := { v.pair with granted := some term } })
          ∧ (v.pair.term.toNat < term.toNat → plc = true → due → via fun u => Acquires 3 2 term v u)
          ∧ (v.pair.term.toNat < term.toNat → plc = true → ¬ due → via fun u => u = { v with pair := { v.pair with grantedPlc := some term } }))
      ∧ (taken → foreign → u8 body 0 = 4 →
          (term = v.pair.term → v.pair.holderB ≠ v.unitB → via fun u => u = { v with pair := { v.pair with
            held := false, expiresAt := min v.pair.expiresAt v.now } })
          ∧ ((term ≠ v.pair.term ∨ v.pair.holderB = v.unitB) → via fun u => u = v))
      ∧ (taken → foreign → (u8 body 0 = 0 ∨ 5 ≤ u8 body 0) → via fun u => u = v))
  ∧ (∀ s : State, s.ready = true → s.member = true →
      let mine := s.leaseHere = true ∨ (s.pair.lapsed = true ∧ s.pair.holderB = s.unitB)
      let renew := leaseBody s 1 s.pair.term (s.pair.renewCount + 1)
      let word := hostBoardWord s.pair.term s.unitB true (hbCount s.pair.hostWord + 1)
      let asks := s.witness 2 = true ∧ s.pair.cas = none
      let early := s.now < s.pair.renewAt + s.renewMs * 1000000
      (early → Idles .leaseRenew s)
      ∧ (mine → ¬ early → s.domainUp 6 = true → Runs .leaseRenew s [.outs, .host, .pair] fun t =>
        t.pair.renewCount = s.pair.renewCount + 1 ∧ t.pair.renewAt = s.now ∧ t.pair.witnessOk = 0 ∧ t.pair.term = s.pair.term ∧ t.pair.held = s.pair.held
        ∧ t.pair.expiresAt = (if s.pair.ilk = .low ∧ s.leaseHere = true then s.now + s.leaseNs else s.pair.expiresAt)
        ∧ t.pair.plcOut = (if s.witness 1 = true then s.pair.plcOut ++ [(3, renew)] else s.pair.plcOut)
        ∧ t.pair.cas = (if asks then some (word, false) else s.pair.cas)
        ∧ ∃ frames, t.outs = (if asks then [.cas s.boardAddr s.pair.hostWord.toNat word.toNat] else [])
            ++ (if s.witness 0 = true then [.mirror s.pair.recordSeq (.lease renew) frames] else []) ++ s.outs)
      ∧ (¬ mine → s.pair.proposed = none → Idles .leaseRenew s)
      ∧ (∀ p, ¬ mine → ¬ early → s.pair.proposed = some p → Runs .leaseRenew s [.outs, .host, .pair] fun t =>
          t.pair.renewAt = s.now ∧ t.pair.term = s.pair.term ∧ t.pair.proposed = some p
          ∧ (s.pair.linkUp = false → t.outs = s.outs)
          ∧ (s.pair.linkUp = true → ∃ frames, t.outs = .mirror s.pair.recordSeq (.lease (leaseBody s 1 p 0)) frames :: s.outs))
      ∧ ((s.pair.held = false ∨ s.now < s.pair.expiresAt) → Idles .leaseExpiry s)
      ∧ (s.leaseHere = true → s.pair.expiresAt ≤ s.now → LeaseVia .leaseExpiry s [.outs, .freeIx, .host, .flt, .stages, .alloc, .paths, .pair, .acq, .sw, .met, .veh, .can, .plc, .rcd, .auth, .rings] fun u =>
          u.pair = { s.pair with held := false, lapsed := true } ∧ Arose 99 1 0xFF (toLE 4 s.pair.term.toNat) s u
          ∧ ∀ n, n < 8 → n < s.can.length → (s.ctlr n).mode = .normal → (s.ctlr n).onWire = none → (u.ctlr n).mode = .restricted)
      ∧ (s.pair.held = true → s.leaseHere = false → s.pair.expiresAt ≤ s.now → LeaseVia .leaseExpiry s [.pair] fun u =>
          u = { s with pair := { s.pair with held := false } })
      ∧ (let may := s.running = true ∧ s.pair.held = false ∧ s.claimFrom ≤ s.now
         let claim := hostBoardWord (s.pair.term + 1) s.unitB true 0
         s.claimFrom = s.guardNs + (if s.pair.term = 0 then s.pair.startAt + s.leaseNs else s.pair.expiresAt)
         ∧ (¬ may → Idles .leaseClaim s)
         ∧ (may → s.pair.ilk ≠ .low → s.pair.doubleFault = false → Idles .leaseClaim s)
         ∧ (may → s.pair.ilk = .low → LeaseVia .leaseClaim s [.outs, .freeIx, .host, .flt, .stages, .alloc, .paths, .pair, .acq, .sw, .met, .veh, .can, .rcd, .auth] fun u => Acquires 3 0 (s.pair.term + 1) s u)
         ∧ (∀ p, may → s.pair.ilk ≠ .low → s.pair.doubleFault = true → s.pair.grantedPlc = some p → LeaseVia .leaseClaim s [.outs, .freeIx, .host, .flt, .stages, .alloc, .paths, .pair, .acq, .sw, .met, .veh, .can, .rcd, .auth] fun u => Acquires 3 2 p s u)
         ∧ (may → s.pair.ilk ≠ .low → s.pair.doubleFault = true → s.pair.grantedPlc = none → asks → s.domainUp 6 = true →
             LeaseVia .leaseClaim s [.outs, .host, .pair] fun u =>
               u.outs = .cas s.boardAddr s.pair.hostWord.toNat claim.toNat :: s.outs ∧ u.pair = { s.pair with cas := some (claim, true) })
         ∧ (may → s.pair.ilk ≠ .low → s.pair.doubleFault = true → s.pair.grantedPlc = none → ¬ asks → LeaseVia .leaseClaim s [] fun u => u = s)))
  ∧ ∀ s : State, s.ready = true → s.member = true →
      let polled : State := { s with pair := { s.pair with polledAt := s.now } }
      let seen : State := { s with pair := { s.pair with polledAt := s.now, answeredAt := some s.now } }
      let off := s.witness 2 = false ∨ s.leaseHere = true ∨ s.now < s.pair.polledAt + s.hostPollMs * 1000000
      (∀ w, off → Idles (.hostBoardPoll w) s)
      ∧ (¬ off → exec (.hostBoardPoll none) s = .next (settle polled))
      ∧ (∀ w, ¬ off → LeaseVia (.hostBoardPoll (some w)) s [.outs, .freeIx, .host, .flt, .stages, .alloc, .paths, .pair, .acq, .sw, .met, .veh, .can, .plc, .rcd, .auth, .rings] fun u => BoardSeen w seen u)
      ∧ (∀ found, s.pair.cas = none → Idles (.hostCasComplete found) s)
      ∧ ∀ new claims, s.pair.cas = some (new, claims) →
          let v : State := { s with pair := { s.pair with cas := none, answeredAt := some s.now } }
          let x : State := { v with pair := { v.pair with hostWord := new } }
          let old := s.pair.held = true ∨ s.pair.ilk.good = true ∨ (hbTerm new).toNat ≤ s.pair.term.toNat
          exec (.hostCasComplete none) s = .next (settle { s with pair := { s.pair with cas := none } })
          ∧ (∀ w, w ≠ s.pair.hostWord → LeaseVia (.hostCasComplete (some w)) s [.outs, .freeIx, .host, .flt, .stages, .alloc, .paths, .pair, .acq, .sw, .met, .veh, .can, .plc, .rcd, .auth, .rings] fun u => BoardSeen w v u)
          ∧ (claims = true → old → exec (.hostCasComplete (some s.pair.hostWord)) s = .next (settle x))
          ∧ (claims = true → ¬ old → LeaseVia (.hostCasComplete (some s.pair.hostWord)) s [.outs, .freeIx, .host, .flt, .stages, .alloc, .paths, .pair, .acq, .sw, .met, .veh, .can, .plc, .rcd, .auth, .rings] fun u => Acquires 3 4 (hbTerm new) x u)
          ∧ (claims = false → s.pair.lapsed = true → LeaseVia (.hostCasComplete (some s.pair.hostWord)) s [.outs, .freeIx, .host, .flt, .stages, .alloc, .paths, .pair, .acq, .sw, .met, .veh, .can, .plc, .rcd, .auth, .rings] fun u =>
              Acquires 4 4 (s.pair.term + 1) x u)
          ∧ (claims = false → s.pair.lapsed = false → s.leaseHere = true → LeaseVia (.hostCasComplete (some s.pair.hostWord)) s [.pair] fun u =>
              u = { x with pair := { x.pair with
                witnessOk := s.pair.witnessOk ||| 4, witnessedAt := some s.pair.renewAt, expiresAt := max s.pair.expiresAt (s.pair.renewAt + s.leaseNs) } })
          ∧ (claims = false → s.pair.lapsed = false → s.leaseHere = false → LeaseVia (.hostCasComplete (some s.pair.hostWord)) s [.pair] fun u => u = x)

end
end

