-- ==== Sys2Proof/Laws/Kept.lean ====
section
/-! SUPPORT. How frames compose: `Kept w s t` is a preorder, and an operation that keeps all but `v ⊆ w` does not disturb it. -/

set_option linter.all false

namespace Sys2Proof.Machine

theorem kept_iff {w : List Part} {s t : State} : Kept w s t ↔ ∀ p, p ∉ w → p.same s t := by unfold Kept; exact Iff.rfl

theorem Kept.same {w : List Part} {s t : State} (h : Kept w s t) (p : Part) (hp : p ∉ w) : p.same s t := kept_iff.1 h p hp

@[simp] theorem Kept.refl (w : List Part) (s : State) : Kept w s s := kept_iff.2 fun p _ => by cases p <;> first | rfl | exact ⟨rfl, rfl⟩

theorem Part.same_trans {p : Part} {s t u : State} (h : p.same s t) (k : p.same t u) : p.same s u := by
  cases p with
  | faults => exact ⟨k.1.trans h.1, k.2.trans h.2⟩
  | _ => exact Eq.trans k h

theorem Part.same_symm {p : Part} {s t : State} (h : p.same s t) : p.same t s := by
  cases p with
  | faults => exact ⟨h.1.symm, h.2.symm⟩
  | _ => exact Eq.symm h

theorem Kept.trans {w : List Part} {s t u : State} (h : Kept w s t) (k : Kept w t u) : Kept w s u :=
  kept_iff.2 fun p hp => Part.same_trans (h.same p hp) (k.same p hp)

theorem Kept.symm {w : List Part} {s t : State} (h : Kept w s t) : Kept w t s :=
  kept_iff.2 fun p hp => Part.same_symm (h.same p hp)

theorem Kept.mono {v w : List Part} {s t : State} (h : Kept v s t) (hv : v ⊆ w) : Kept w s t :=
  kept_iff.2 fun p hp => h.same p fun hv' => hp (hv hv')

theorem Kept.iff {v w : List Part} {s t u : State} (h : Kept v t u) (hv : v ⊆ w) : Kept w s u ↔ Kept w s t :=
  ⟨fun k => k.trans (h.mono hv).symm, fun k => k.trans (h.mono hv)⟩

theorem forAll_keeps {ι : Type} {w : List Part} (f : ι → State → State) (h : ∀ i s, Kept w s (f i s)) :
    ∀ (l : List ι) (s : State), Kept w s (forAll l f s)
  | [], s => Kept.refl w s
  | i :: l, s => (h i s).trans (forAll_keeps f h l (f i s))

@[simp] theorem forAll_kept {ι : Type} {w : List Part} {s t : State} (l : List ι) (f : ι → State → State)
    (h : ∀ i s, Kept w s (f i s)) : Kept w s (forAll l f t) ↔ Kept w s t := (forAll_keeps f h l t).iff (fun _ h => h)

theorem forAll_step {ι : Type} {w : List Part} {s t : State} {q : Prop} (l : List ι) (f : ι → State → State)
    (h : ∀ i s, Kept w s (f i s)) (k : Kept w s t ↔ q) : Kept w s (forAll l f t) ↔ q := (forAll_kept l f h).trans k

theorem forAll_keep {ι : Type} {w : List Part} {s t : State} (l : List ι) (f : ι → State → State)
    (h : ∀ i s, Kept w s (f i s)) (k : Kept w s t) : Kept w s (forAll l f t) := (forAll_kept l f h).2 k

theorem foldl_keeps {ι : Type} {w : List Part} (f : State → ι → State) (h : ∀ s i, Kept w s (f s i)) :
    ∀ (l : List ι) (s : State), Kept w s (l.foldl f s)
  | [], s => Kept.refl w s
  | i :: l, s => (h s i).trans (foldl_keeps f h l (f s i))

theorem foldl_step {ι : Type} {w : List Part} {s t : State} {q : Prop} (l : List ι) (f : State → ι → State)
    (h : ∀ s i, Kept w s (f s i)) (k : Kept w s t ↔ q) : Kept w s (l.foldl f t) ↔ q :=
  ((foldl_keeps f h l t).iff (fun _ h => h)).trans k

theorem foldl_keep {ι : Type} {w : List Part} {s t : State} (l : List ι) (f : State → ι → State)
    (h : ∀ s i, Kept w s (f s i)) (k : Kept w s t) : Kept w s (l.foldl f t) := k.trans (foldl_keeps f h l t)

@[simp] theorem when_kept {w : List Part} {s t : State} (b : Bool) (f : State → State) :
    Kept w s (when b f t) ↔ if b then Kept w s (f t) else Kept w s t := by unfold when; split <;> exact Iff.rfl

@[simp] theorem ite_kept {w : List Part} {s t u : State} {c : Prop} [Decidable c] :
    Kept w s (if c then t else u) ↔ if c then Kept w s t else Kept w s u := by split <;> exact Iff.rfl

@[simp] theorem ite_fst {α β : Type} {c : Prop} [Decidable c] (a b : α × β) : (if c then a else b).1 = if c then a.1 else b.1 := by
  split <;> rfl

@[simp] theorem id_kept {w : List Part} {s t : State} : Kept w s (id t) ↔ Kept w s t := Iff.rfl

/-! ### Commands -/

/-- A command keeps what its effect keeps; what `settle` then changes stands in its own lemmas. -/
theorem run_keeps {w : List Part} {f : State → State} {s t : State} (h : Kept w s (f s)) (e : run f s = .next t) :
    ∃ u, t = settle u ∧ Kept w s u := by cases e; exact ⟨_, rfl, h⟩

theorem ctl_keeps {w : List Part} {f : State → State} {s t : State} (h : Kept w s (f s)) (e : ctl f s = .next t) :
    ∃ u, t = settle u ∧ Kept w s u := by unfold ctl at e; split at e; cases e; exact run_keeps h e

theorem quiet_keeps {w : List Part} {f : State → State} {s t : State} (h : Kept w s (if s.awake then f s else s)) (e : quiet f s = .next t) :
    Kept w s t := by unfold quiet at e; split at e <;> cases e; exact h

/-! ### The sub-record updates -/

@[simp] theorem State.modPair_kept {w : List Part} {s t : State} {f : Pair → Pair} (h : [.pair] ⊆ w) (ha : ∀ p, (f p).auth = p.auth) :
    Kept w s (t.modPair f) ↔ Kept w s t :=
  Kept.iff (v := [.pair]) (kept_iff.2 <| by intro p hp; cases p <;> first | rfl | exact ⟨rfl, rfl⟩ | exact ha _ | exact absurd (by decide) hp) h

@[simp] theorem State.modPair_kept_auth {w : List Part} {s t : State} {f : Pair → Pair} (h : [.pair, .auth] ⊆ w) :
    Kept w s (t.modPair f) ↔ Kept w s t :=
  Kept.iff (v := [.pair, .auth]) (kept_iff.2 <| by intro p hp; cases p <;> first | rfl | exact ⟨rfl, rfl⟩ | exact absurd (by decide) hp) h

@[simp] theorem State.modPwr_kept {w : List Part} {s t : State} {f : Pwr → Pwr} (h : [.pwr] ⊆ w) (ha : ∀ p, (f p).opState = p.opState) :
    Kept w s (t.modPwr f) ↔ Kept w s t :=
  Kept.iff (v := [.pwr]) (kept_iff.2 <| by intro p hp; cases p <;> first | rfl | exact ⟨rfl, rfl⟩ | exact ha _ | exact absurd (by decide) hp) h

@[simp] theorem State.modPwr_kept_op {w : List Part} {s t : State} {f : Pwr → Pwr} (h : [.pwr, .opState] ⊆ w) :
    Kept w s (t.modPwr f) ↔ Kept w s t :=
  Kept.iff (v := [.pwr, .opState]) (kept_iff.2 <| by intro p hp; cases p <;> first | rfl | exact ⟨rfl, rfl⟩ | exact absurd (by decide) hp) h

@[simp] theorem HostIf.rings_msix (h : HostIf) (x : List MsixEntry) : HostIf.rings { h with msix := x } = h.rings := by cases h; rfl
@[simp] theorem HostIf.rings_msgs (h : HostIf) (x : List (Nat × Nat)) : HostIf.rings { h with msgs := x } = h.rings := by cases h; rfl
@[simp] theorem HostIf.rings_stalled (h : HostIf) (x : List Out) : HostIf.rings { h with stalled := x } = h.rings := by cases h; rfl
@[simp] theorem HostIf.rings_evq (h : HostIf) (x : Evq) : HostIf.rings { h with evq := x } = h.rings := by cases h; rfl

@[simp] theorem State.modHost_kept {w : List Part} {s t : State} {f : HostIf → HostIf} (h : [.host] ⊆ w) (ha : ∀ x, (f x).rings = x.rings) :
    Kept w s (t.modHost f) ↔ Kept w s t :=
  Kept.iff (v := [.host]) (kept_iff.2 <| by intro p hp; cases p <;> first | rfl | exact ⟨rfl, rfl⟩ | exact ha _ | exact absurd (by decide) hp) h

@[simp] theorem State.modHost_kept_rings {w : List Part} {s t : State} {f : HostIf → HostIf} (h : [.host, .rings] ⊆ w) :
    Kept w s (t.modHost f) ↔ Kept w s t :=
  Kept.iff (v := [.host, .rings]) (kept_iff.2 <| by intro p hp; cases p <;> first | rfl | exact ⟨rfl, rfl⟩ | exact absurd (by decide) hp) h

@[simp] theorem State.modFlt_kept {w : List Part} {s t : State} {f : Flt → Flt} (h : [.flt] ⊆ w) (ha : ∀ x, (f x).frozen = x.frozen)
    (hb : ∀ x, (f x).safeCause = x.safeCause) : Kept w s (t.modFlt f) ↔ Kept w s t :=
  Kept.iff (v := [.flt]) (kept_iff.2 <| by intro p hp; cases p <;> first | rfl | exact ⟨ha _, hb _⟩ | exact absurd (by decide) hp) h

@[simp] theorem State.modFlt_kept_faults {w : List Part} {s t : State} {f : Flt → Flt} (h : [.flt, .faults] ⊆ w) :
    Kept w s (t.modFlt f) ↔ Kept w s t :=
  Kept.iff (v := [.flt, .faults]) (kept_iff.2 <| by intro p hp; cases p <;> first | rfl | exact absurd (by decide) hp) h

/-! ### Fields set at the top -/

@[simp] theorem set_now_kept {w : List Part} {s t : State} {x : Nat} (h : [.now] ⊆ w) : Kept w s { t with now := x } ↔ Kept w s t :=
  Kept.iff (v := [.now]) (kept_iff.2 <| by intro p hp; cases p <;> first | rfl | exact ⟨rfl, rfl⟩ | exact absurd (by decide) hp) h

@[simp] theorem set_civil_kept {w : List Part} {s t : State} {x : Int} (h : [.civil] ⊆ w) : Kept w s { t with civil := x } ↔ Kept w s t :=
  Kept.iff (v := [.civil]) (kept_iff.2 <| by intro p hp; cases p <;> first | rfl | exact ⟨rfl, rfl⟩ | exact absurd (by decide) hp) h

@[simp] theorem set_lanes_kept {w : List Part} {s t : State} {x : Lanes} (h : [.lanes] ⊆ w) : Kept w s { t with lanes := x } ↔ Kept w s t :=
  Kept.iff (v := [.lanes]) (kept_iff.2 <| by intro p hp; cases p <;> first | rfl | exact ⟨rfl, rfl⟩ | exact absurd (by decide) hp) h

@[simp] theorem set_acq_kept {w : List Part} {s t : State} {x : Acq} (h : [.acq] ⊆ w) : Kept w s { t with acq := x } ↔ Kept w s t :=
  Kept.iff (v := [.acq]) (kept_iff.2 <| by intro p hp; cases p <;> first | rfl | exact ⟨rfl, rfl⟩ | exact absurd (by decide) hp) h

@[simp] theorem set_rcd_kept {w : List Part} {s t : State} {x : Recorder} (h : [.rcd] ⊆ w) : Kept w s { t with rcd := x } ↔ Kept w s t :=
  Kept.iff (v := [.rcd]) (kept_iff.2 <| by intro p hp; cases p <;> first | rfl | exact ⟨rfl, rfl⟩ | exact absurd (by decide) hp) h

@[simp] theorem set_can_kept {w : List Part} {s t : State} {x : List CanCtl} (h : [.can] ⊆ w) : Kept w s { t with can := x } ↔ Kept w s t :=
  Kept.iff (v := [.can]) (kept_iff.2 <| by intro p hp; cases p <;> first | rfl | exact ⟨rfl, rfl⟩ | exact absurd (by decide) hp) h

@[simp] theorem set_pending_kept {w : List Part} {s t : State} {x : List Instr} (h : [.pending] ⊆ w) : Kept w s { t with pending := x } ↔ Kept w s t :=
  Kept.iff (v := [.pending]) (kept_iff.2 <| by intro p hp; cases p <;> first | rfl | exact ⟨rfl, rfl⟩ | exact absurd (by decide) hp) h

end Sys2Proof.Machine
end

