-- ==== Sys2Proof/Laws/FrameOps.lean ====
section
/-! SUPPORT. Frames of the operations of Ops: what each may change. -/

set_option linter.all false

namespace Sys2Proof.Machine

variable {F : List Part} {s₀ : State}

@[simp] theorem State.modProf_kept (f : ProfileStore → ProfileStore) (s : State) (hW : [.prof] ⊆ F) : Kept F s₀ (State.modProf f s) ↔ Kept F s₀ s := Kept.iff (v := [.prof]) (kept_iff.2 <| by intro p hp; cases p <;> first | rfl | exact ⟨rfl, rfl⟩ | exact absurd (by decide) hp) hW

@[simp] theorem State.modStage_kept (i : Nat) (f : Stage → Stage) (s : State) (hW : [.stages] ⊆ F) : Kept F s₀ (State.modStage i f s) ↔ Kept F s₀ s := Kept.iff (v := [.stages]) (kept_iff.2 <| by intro p hp; cases p <;> first | rfl | exact ⟨rfl, rfl⟩ | exact absurd (by decide) hp) hW

@[simp] theorem State.modAlloc_kept (f : Alloc → Alloc) (s : State) (hW : [.alloc] ⊆ F) : Kept F s₀ (State.modAlloc f s) ↔ Kept F s₀ s := Kept.iff (v := [.alloc]) (kept_iff.2 <| by intro p hp; cases p <;> first | rfl | exact ⟨rfl, rfl⟩ | exact absurd (by decide) hp) hW

@[simp] theorem State.modAlcOut_kept (o : Nat) (f : AlcOutlet → AlcOutlet) (s : State) (hW : [.alloc] ⊆ F) : Kept F s₀ (State.modAlcOut o f s) ↔ Kept F s₀ s := Kept.iff (v := [.alloc]) (kept_iff.2 <| by intro p hp; cases p <;> first | rfl | exact ⟨rfl, rfl⟩ | exact absurd (by decide) hp) hW

@[simp] theorem State.modPath_kept (o : Nat) (f : Path → Path) (s : State) (hW : [.paths] ⊆ F) : Kept F s₀ (State.modPath o f s) ↔ Kept F s₀ s := Kept.iff (v := [.paths]) (kept_iff.2 <| by intro p hp; cases p <;> first | rfl | exact ⟨rfl, rfl⟩ | exact absurd (by decide) hp) hW

@[simp] theorem State.modLaw_kept (f : Law → Law) (s : State) (hW : [.law] ⊆ F) : Kept F s₀ (State.modLaw f s) ↔ Kept F s₀ s := Kept.iff (v := [.law]) (kept_iff.2 <| by intro p hp; cases p <;> first | rfl | exact ⟨rfl, rfl⟩ | exact absurd (by decide) hp) hW

@[simp] theorem State.modEngine_kept (e : Nat) (f : Engine → Engine) (s : State) (hW : [.law] ⊆ F) : Kept F s₀ (State.modEngine e f s) ↔ Kept F s₀ s := Kept.iff (v := [.law]) (kept_iff.2 <| by intro p hp; cases p <;> first | rfl | exact ⟨rfl, rfl⟩ | exact absurd (by decide) hp) hW

@[simp] theorem State.modLawSlot_kept (i : Nat) (f : LawSlot → LawSlot) (s : State) (hW : [.law] ⊆ F) : Kept F s₀ (State.modLawSlot i f s) ↔ Kept F s₀ s := Kept.iff (v := [.law]) (kept_iff.2 <| by intro p hp; cases p <;> first | rfl | exact ⟨rfl, rfl⟩ | exact absurd (by decide) hp) hW

@[simp] theorem State.modLane_kept (n : Nat) (f : Lane → Lane) (s : State) (hW : [.lanes] ⊆ F) : Kept F s₀ (State.modLane n f s) ↔ Kept F s₀ s := Kept.iff (v := [.lanes]) (kept_iff.2 <| by intro p hp; cases p <;> first | rfl | exact ⟨rfl, rfl⟩ | exact absurd (by decide) hp) hW

@[simp] theorem State.modAcq_kept (f : Acq → Acq) (s : State) (hW : [.acq] ⊆ F) : Kept F s₀ (State.modAcq f s) ↔ Kept F s₀ s := Kept.iff (v := [.acq]) (kept_iff.2 <| by intro p hp; cases p <;> first | rfl | exact ⟨rfl, rfl⟩ | exact absurd (by decide) hp) hW

@[simp] theorem State.modUnit_kept (u : Nat) (f : CapUnit → CapUnit) (s : State) (hW : [.acq] ⊆ F) : Kept F s₀ (State.modUnit u f s) ↔ Kept F s₀ s := Kept.iff (v := [.acq]) (kept_iff.2 <| by intro p hp; cases p <;> first | rfl | exact ⟨rfl, rfl⟩ | exact absurd (by decide) hp) hW

@[simp] theorem State.modRec_kept (f : Recorder → Recorder) (s : State) (hW : [.rcd] ⊆ F) : Kept F s₀ (State.modRec f s) ↔ Kept F s₀ s := Kept.iff (v := [.rcd]) (kept_iff.2 <| by intro p hp; cases p <;> first | rfl | exact ⟨rfl, rfl⟩ | exact absurd (by decide) hp) hW

@[simp] theorem State.modKey_kept (f : Keys → Keys) (s : State) (hW : [.key] ⊆ F) : Kept F s₀ (State.modKey f s) ↔ Kept F s₀ s := Kept.iff (v := [.key]) (kept_iff.2 <| by intro p hp; cases p <;> first | rfl | exact ⟨rfl, rfl⟩ | exact absurd (by decide) hp) hW

@[simp] theorem State.modSlot_kept (i : Nat) (f : KeySlot → KeySlot) (s : State) (hW : [.key] ⊆ F) : Kept F s₀ (State.modSlot i f s) ↔ Kept F s₀ s := Kept.iff (v := [.key]) (kept_iff.2 <| by intro p hp; cases p <;> first | rfl | exact ⟨rfl, rfl⟩ | exact absurd (by decide) hp) hW

@[simp] theorem State.modPlc_kept (f : Plc → Plc) (s : State) (hW : [.plc] ⊆ F) : Kept F s₀ (State.modPlc f s) ↔ Kept F s₀ s := Kept.iff (v := [.plc]) (kept_iff.2 <| by intro p hp; cases p <;> first | rfl | exact ⟨rfl, rfl⟩ | exact absurd (by decide) hp) hW

@[simp] theorem State.modSq_kept (n : Nat) (f : Sq → Sq) (s : State) (hW : [.host, .rings] ⊆ F) : Kept F s₀ (State.modSq n f s) ↔ Kept F s₀ s := Kept.iff (v := [.host, .rings]) (kept_iff.2 <| by intro p hp; cases p <;> first | rfl | exact ⟨rfl, rfl⟩ | exact absurd (by decide) hp) hW

@[simp] theorem State.modCq_kept (m : Nat) (f : Cq → Cq) (s : State) (hW : [.host, .rings] ⊆ F) : Kept F s₀ (State.modCq m f s) ↔ Kept F s₀ s := Kept.iff (v := [.host, .rings]) (kept_iff.2 <| by intro p hp; cases p <;> first | rfl | exact ⟨rfl, rfl⟩ | exact absurd (by decide) hp) hW

@[simp] theorem State.modEvq_kept (f : Evq → Evq) (s : State) (hW : [.host] ⊆ F) : Kept F s₀ (State.modEvq f s) ↔ Kept F s₀ s := Kept.iff (v := [.host]) (kept_iff.2 <| by intro p hp; cases p <;> first | rfl | exact ⟨rfl, rfl⟩ | exact absurd (by decide) hp) hW

@[simp] theorem emit_kept (o : Out) (s : State) (hW : [.outs] ⊆ F) : Kept F s₀ (emit o s) ↔ Kept F s₀ s := Kept.iff (v := [.outs]) (kept_iff.2 <| by intro p hp; cases p <;> first | rfl | exact ⟨rfl, rfl⟩ | exact absurd (by decide) hp) hW

@[simp] theorem useFree_kept (s : State) (hW : [.freeIx] ⊆ F) : Kept F s₀ (useFree s) ↔ Kept F s₀ s := Kept.iff (v := [.freeIx]) (kept_iff.2 <| by intro p hp; cases p <;> first | rfl | exact ⟨rfl, rfl⟩ | exact absurd (by decide) hp) hW

@[simp] theorem toHost_kept (o : Out) (s : State) (hW : [.outs, .host] ⊆ F) : Kept F s₀ (toHost o s) ↔ Kept F s₀ s := by
  simp at hW; (unfold toHost; try simp [hW]) <;> repeat' ((first | split | apply forAll_step | apply forAll_keep | apply foldl_step | apply foldl_keep | intro _) <;> try simp [hW])

@[simp] theorem flushStalled_kept (s : State) (hW : [.outs, .host] ⊆ F) : Kept F s₀ (flushStalled s) ↔ Kept F s₀ s := by
  simp at hW; (unfold flushStalled; try simp [hW]) <;> repeat' ((first | split | apply forAll_step | apply forAll_keep | apply foldl_step | apply foldl_keep | intro _) <;> try simp [hW])

@[simp] theorem hostReads_kept (addr len : Nat) (s : State) (hW : [.outs, .host] ⊆ F) : Kept F s₀ (hostReads addr len s) ↔ Kept F s₀ s := by
  simp at hW; (unfold hostReads; try simp [hW]) <;> repeat' ((first | split | apply forAll_step | apply forAll_keep | apply foldl_step | apply foldl_keep | intro _) <;> try simp [hW])

@[simp] theorem sendMsix_kept (v : Nat) (s0 : State) (hW : [.outs, .host] ⊆ F) : Kept F s₀ (sendMsix v s0) ↔ Kept F s₀ s0 := by
  simp at hW; (unfold sendMsix; try simp [hW]) <;> repeat' ((first | split | apply forAll_step | apply forAll_keep | apply foldl_step | apply foldl_keep | intro _) <;> try simp [hW])

@[simp] theorem askMsix_kept (source v : Nat) (s : State) (hW : [.host] ⊆ F) : Kept F s₀ (askMsix source v s) ↔ Kept F s₀ s := by
  simp at hW; (unfold askMsix; try simp [hW]) <;> repeat' ((first | split | apply forAll_step | apply forAll_keep | apply foldl_step | apply foldl_keep | intro _) <;> try simp [hW])

@[simp] theorem settleMsgs_kept (s : State) (hW : [.outs, .host] ⊆ F) : Kept F s₀ (settleMsgs s) ↔ Kept F s₀ s := by
  simp at hW; (unfold settleMsgs; try simp [hW]) <;> repeat' ((first | split | apply forAll_step | apply forAll_keep | apply foldl_step | apply foldl_keep | intro _) <;> try simp [hW])

@[simp] theorem writeEvent_kept (rec : List Byte) (s : State) (hW : [.outs, .host] ⊆ F) : Kept F s₀ (writeEvent rec s) ↔ Kept F s₀ s := by
  simp at hW; (unfold writeEvent; try simp [hW]) <;> repeat' ((first | split | apply forAll_step | apply forAll_keep | apply foldl_step | apply foldl_keep | intro _) <;> try simp [hW])

@[simp] theorem signalEvent_kept (c0 : Bool) (s : State) (hW : [.host] ⊆ F) : Kept F s₀ (signalEvent c0 s) ↔ Kept F s₀ s := by
  simp at hW; (unfold signalEvent; try simp [hW]) <;> repeat' ((first | split | apply forAll_step | apply forAll_keep | apply foldl_step | apply foldl_keep | intro _) <;> try simp [hW])

@[simp] theorem placeEvent_kept (c0 : Bool) (rec : List Byte) (s : State) (hW : [.outs, .host] ⊆ F) : Kept F s₀ (placeEvent c0 rec s) ↔ Kept F s₀ s := by
  simp at hW; (unfold placeEvent; try simp [hW]) <;> repeat' ((first | split | apply forAll_step | apply forAll_keep | apply foldl_step | apply foldl_keep | intro _) <;> try simp [hW])

@[simp] theorem nextEvSeq_kept (s : State) (hW : [.flt] ⊆ F) : Kept F s₀ (nextEvSeq s) ↔ Kept F s₀ s := by
  simp at hW; (unfold nextEvSeq; try simp [hW]) <;> repeat' ((first | split | apply forAll_step | apply forAll_keep | apply foldl_step | apply foldl_keep | intro _) <;> try simp [hW])

@[simp] theorem recFeed_kept (slot : Nat) (v : Rat) (s : State) (hW : [.rcd] ⊆ F) : Kept F s₀ (recFeed slot v s) ↔ Kept F s₀ s := by
  simp at hW; (unfold recFeed; try simp [hW]) <;> repeat' ((first | split | apply forAll_step | apply forAll_keep | apply foldl_step | apply foldl_keep | intro _) <;> try simp [hW])

@[simp] theorem recNote_kept (kind inst : Nat) (v : Int) (s : State) (hW : [.rcd] ⊆ F) : Kept F s₀ (recNote kind inst v s) ↔ Kept F s₀ s := by
  simp at hW; (unfold recNote; try simp [hW]) <;> repeat' ((first | split | apply forAll_step | apply forAll_keep | apply foldl_step | apply foldl_keep | intro _) <;> try simp [hW])

@[simp] theorem recEvent_kept (src cause inst : Nat) (s : State) (hW : [.rcd] ⊆ F) : Kept F s₀ (recEvent src cause inst s) ↔ Kept F s₀ s := by
  simp at hW; (unfold recEvent; try simp [hW]) <;> repeat' ((first | split | apply forAll_step | apply forAll_keep | apply foldl_step | apply foldl_keep | intro _) <;> try simp [hW])

@[simp] theorem arise_kept (src cause inst : Nat) (payload : List Byte) (s : State) (hW : [.flt, .acq] ⊆ F) : Kept F s₀ (arise src cause inst payload s) ↔ Kept F s₀ s := by
  simp at hW; (unfold arise; try simp [hW]) <;> repeat' ((first | split | apply forAll_step | apply forAll_keep | apply foldl_step | apply foldl_keep | intro _) <;> try simp [hW])

@[simp] theorem raiseWraps_kept (s : State) (hW : [.flt, .acq, .rcd] ⊆ F) : Kept F s₀ (raiseWraps s) ↔ Kept F s₀ s := by
  simp at hW; (unfold raiseWraps; try simp [hW]) <;> repeat' ((first | split | apply forAll_step | apply forAll_keep | apply foldl_step | apply foldl_keep | intro _) <;> try simp [hW])

@[simp] theorem raise_kept (src cause inst : Nat) (payload : List Byte) (s : State) (hW : [.flt, .acq, .rcd] ⊆ F) : Kept F s₀ (raise src cause inst payload s) ↔ Kept F s₀ s := by
  simp at hW; (unfold raise; try simp [hW]) <;> repeat' ((first | split | apply forAll_step | apply forAll_keep | apply foldl_step | apply foldl_keep | intro _) <;> try simp [hW])

@[simp] theorem recordEvent_kept (e : Arising) (s : State) (hW : [.outs, .host, .flt] ⊆ F) : Kept F s₀ (recordEvent e s) ↔ Kept F s₀ s := by
  simp at hW; (unfold recordEvent; try simp [hW]) <;> repeat' ((first | split | apply forAll_step | apply forAll_keep | apply foldl_step | apply foldl_keep | intro _) <;> try simp [hW])

@[simp] theorem settleEvents_kept (s : State) (hW : [.outs, .host, .flt] ⊆ F) : Kept F s₀ (settleEvents s) ↔ Kept F s₀ s := by
  simp at hW; (unfold settleEvents; try simp [hW]) <;> repeat' ((first | split | apply forAll_step | apply forAll_keep | apply foldl_step | apply foldl_keep | intro _) <;> try simp [hW])

@[simp] theorem settle_kept (s : State) (hW : [.outs, .host, .flt] ⊆ F) : Kept F s₀ (settle s) ↔ Kept F s₀ s := by
  simp at hW; (unfold settle; try simp [hW]) <;> repeat' ((first | split | apply forAll_step | apply forAll_keep | apply foldl_step | apply foldl_keep | intro _) <;> try simp [hW])

@[simp] theorem countEvent_kept (src cause inst : Nat) (s : State) (hW : [.flt] ⊆ F) : Kept F s₀ (countEvent src cause inst s) ↔ Kept F s₀ s := by
  unfold countEvent; exact State.modFlt_kept hW (fun _ => by dsimp only; split <;> rfl) (fun _ => by dsimp only; split <;> rfl)

@[simp] theorem raiseOnceFor_kept (key src cause inst : Nat) (payload : List Byte) (s : State) (hW : [.flt, .acq, .rcd] ⊆ F) : Kept F s₀ (raiseOnceFor key src cause inst payload s) ↔ Kept F s₀ s := by
  simp at hW; (unfold raiseOnceFor; try simp [hW]) <;> repeat' ((first | split | apply forAll_step | apply forAll_keep | apply foldl_step | apply foldl_keep | intro _) <;> try simp [hW])

@[simp] theorem raiseOnce_kept (src cause inst : Nat) (payload : List Byte) (s : State) (hW : [.flt, .acq, .rcd] ⊆ F) : Kept F s₀ (raiseOnce src cause inst payload s) ↔ Kept F s₀ s := by
  simp at hW; (unfold raiseOnce; try simp [hW]) <;> repeat' ((first | split | apply forAll_step | apply forAll_keep | apply foldl_step | apply foldl_keep | intro _) <;> try simp [hW])

@[simp] theorem complete_kept (ring : Nat) (tag : BitVec 7) (seq : Half) (silent : Bool) (startedAt status result : Nat) (s : State) (hW : [.outs, .freeIx, .host, .rings] ⊆ F) : Kept F s₀ (complete ring tag seq silent startedAt status result s) ↔ Kept F s₀ s := by
  simp at hW; (unfold complete; try simp [hW]) <;> repeat' ((first | split | apply forAll_step | apply forAll_keep | apply foldl_step | apply foldl_keep | intro _) <;> try simp [hW])

@[simp] theorem completeDesc_kept (d : Desc) (status result : Nat) (s : State) (hW : [.outs, .freeIx, .host, .rings] ⊆ F) : Kept F s₀ (completeDesc d status result s) ↔ Kept F s₀ s := by
  simp at hW; (unfold completeDesc; try simp [hW]) <;> repeat' ((first | split | apply forAll_step | apply forAll_keep | apply foldl_step | apply foldl_keep | intro _) <;> try simp [hW])

@[simp] theorem startOp_kept (d : Desc) (op : OpKind) (s : State) (hW : [.host, .rings] ⊆ F) : Kept F s₀ (startOp d op s) ↔ Kept F s₀ s := by
  simp at hW; (unfold startOp; try simp [hW]) <;> repeat' ((first | split | apply forAll_step | apply forAll_keep | apply foldl_step | apply foldl_keep | intro _) <;> try simp [hW])

@[simp] theorem muted_kept {f : State → State} {s : State} (h : [.host, .rings] ⊆ F) (hf : ∀ s, Kept F s (f s)) : Kept F s₀ (muted f s) ↔ Kept F s₀ s := by
  have k := fun u => (hf u).iff (s := s₀) (fun _ h => h)
  simp at h; unfold muted; simp [h, k]

@[simp] theorem endOps_kept (p : OpKind → Bool) (status result : Nat) (s : State) (hW : [.outs, .freeIx, .host, .rings] ⊆ F) : Kept F s₀ (endOps p status result s) ↔ Kept F s₀ s := by
  simp at hW; (unfold endOps; try simp [hW]) <;> repeat' ((first | split | apply forAll_step | apply forAll_keep | apply foldl_step | apply foldl_keep | intro _) <;> try simp [hW])

@[simp] theorem writeBuffer_kept (addr : Nat) (bytes : List Byte) (s : State) (hW : [.outs, .host] ⊆ F) : Kept F s₀ (writeBuffer addr bytes s) ↔ Kept F s₀ s := by
  simp at hW; (unfold writeBuffer; try simp [hW]) <;> repeat' ((first | split | apply forAll_step | apply forAll_keep | apply foldl_step | apply foldl_keep | intro _) <;> try simp [hW])

@[simp] theorem freezeMaster_kept (m kind addr : Nat) (s : State) (hW : [.flt, .acq, .rcd, .faults] ⊆ F) : Kept F s₀ (freezeMaster m kind addr s) ↔ Kept F s₀ s := by
  simp at hW; (unfold freezeMaster; try simp [hW]) <;> repeat' ((first | split | apply forAll_step | apply forAll_keep | apply foldl_step | apply foldl_keep | intro _) <;> try simp [hW])

@[simp] theorem markViolated_kept (m : Nat) (tag : Option (BitVec 7)) (s : State) (hW : [.host, .rings] ⊆ F) : Kept F s₀ (markViolated m tag s) ↔ Kept F s₀ s := by
  simp at hW; (unfold markViolated; try simp [hW]) <;> repeat' ((first | split | apply forAll_step | apply forAll_keep | apply foldl_step | apply foldl_keep | intro _) <;> try simp [hW])

@[simp] theorem putRecord_kept (seq : Word) (r : MirrorRec) (s : State) (hW : [.outs] ⊆ F) : Kept F s₀ (putRecord seq r s) ↔ Kept F s₀ s := by
  simp at hW; (unfold putRecord; try simp [hW]) <;> repeat' ((first | split | apply forAll_step | apply forAll_keep | apply foldl_step | apply foldl_keep | intro _) <;> try simp [hW])

@[simp] theorem sendRecord_kept (r : MirrorRec) (s : State) (hW : [.outs, .pair] ⊆ F) : Kept F s₀ (sendRecord r s) ↔ Kept F s₀ s := by
  simp at hW; (unfold sendRecord; try simp [hW]) <;> repeat' ((first | split | apply forAll_step | apply forAll_keep | apply foldl_step | apply foldl_keep | intro _) <;> try simp [hW])

end Sys2Proof.Machine
end

