-- ==== Sys2Proof/Laws/FrameOperands.lean ====
section
/-! SUPPORT. Frames of the operations of Operands: what each may change. -/

set_option linter.all false

namespace Sys2Proof.Machine

variable {F : List Part} {s₀ : State}

@[simp] theorem queuePlc_kept (rtype : Nat) (body : List Byte) (s : State) (hW : [.pair] ⊆ F) : Kept F s₀ (queuePlc rtype body s) ↔ Kept F s₀ s := by
  simp at hW; (unfold queuePlc; try simp [hW]) <;> repeat' ((first | split | apply forAll_step | apply forAll_keep | apply foldl_step | apply foldl_keep | intro _) <;> try simp [hW])

end Sys2Proof.Machine
end

