-- ==== Sys2Proof/Laws/FrameAcqOps.lean ====
section
/-! SUPPORT. Frames of the operations of AcqOps: what each may change. -/

set_option linter.all false

namespace Sys2Proof.Machine

variable {F : List Part} {s₀ : State}

@[simp] theorem raiseNewGaps_kept (u : Nat) (before : CapUnit) (s : State) (hW : [.flt, .acq, .rcd] ⊆ F) : Kept F s₀ (raiseNewGaps u before s) ↔ Kept F s₀ s := by
  simp at hW; (unfold raiseNewGaps; try simp [hW]) <;> repeat' ((first | split | apply forAll_step | apply forAll_keep | apply foldl_step | apply foldl_keep | intro _) <;> try simp [hW])

@[simp] theorem onUnit_kept (u : Nat) (f : CapUnit → CapUnit) (s : State) (hW : [.flt, .acq, .rcd] ⊆ F) : Kept F s₀ (onUnit u f s) ↔ Kept F s₀ s := by
  simp at hW; (unfold onUnit; try simp [hW]) <;> repeat' ((first | split | apply forAll_step | apply forAll_keep | apply foldl_step | apply foldl_keep | intro _) <;> try simp [hW])

@[simp] theorem drainUnit_kept (u : Nat) (s : State) (hW : [.flt, .acq, .rcd] ⊆ F) : Kept F s₀ (drainUnit u s) ↔ Kept F s₀ s := by
  simp at hW; (unfold drainUnit; try simp [hW]) <;> repeat' ((first | split | apply forAll_step | apply forAll_keep | apply foldl_step | apply foldl_keep | intro _) <;> try simp [hW])

@[simp] theorem acqGap_kept (kind index : Nat) (nominal : Int) (s : State) (hW : [.flt, .acq, .rcd] ⊆ F) : Kept F s₀ (acqGap kind index nominal s) ↔ Kept F s₀ s := by
  simp at hW; (unfold acqGap; try simp [hW]) <;> repeat' ((first | split | apply forAll_step | apply forAll_keep | apply foldl_step | apply foldl_keep | intro _) <;> try simp [hW])

@[simp] theorem acqFeed_kept (kind index : Nat) (nominal : Int) (x : Half) (s : State) (hW : [.flt, .acq, .rcd] ⊆ F) : Kept F s₀ (acqFeed kind index nominal x s) ↔ Kept F s₀ s := by
  simp at hW; (unfold acqFeed; try simp [hW]) <;> repeat' ((first | split | apply forAll_step | apply forAll_keep | apply foldl_step | apply foldl_keep | intro _) <;> try simp [hW])

@[simp] theorem acqLane_kept (n : Nat) (blocks : List Block) (s : State) (hW : [.flt, .acq, .rcd] ⊆ F) : Kept F s₀ (acqLane n blocks s) ↔ Kept F s₀ s := by
  simp at hW; (unfold acqLane; try simp [hW]) <;> repeat' ((first | split | apply forAll_step | apply forAll_keep | apply foldl_step | apply foldl_keep | intro _) <;> try simp [hW])

@[simp] theorem acqLaneGap_kept (n : Nat) (s : State) (hW : [.flt, .acq, .rcd] ⊆ F) : Kept F s₀ (acqLaneGap n s) ↔ Kept F s₀ s := by
  simp at hW; (unfold acqLaneGap; try simp [hW]) <;> repeat' ((first | split | apply forAll_step | apply forAll_keep | apply foldl_step | apply foldl_keep | intro _) <;> try simp [hW])

@[simp] theorem acqLawFlags_kept (s : State) (hW : [.acq] ⊆ F) : Kept F s₀ (acqLawFlags s) ↔ Kept F s₀ s := by
  simp at hW; (unfold acqLawFlags; try simp [hW]) <;> repeat' ((first | split | apply forAll_step | apply forAll_keep | apply foldl_step | apply foldl_keep | intro _) <;> try simp [hW])

@[simp] theorem raiseStale_kept (u : Nat) (s : State) (hW : [.flt, .acq, .rcd] ⊆ F) : Kept F s₀ (raiseStale u s) ↔ Kept F s₀ s := by
  simp at hW; (unfold raiseStale; try simp [hW]) <;> repeat' ((first | split | apply forAll_step | apply forAll_keep | apply foldl_step | apply foldl_keep | intro _) <;> try simp [hW])

@[simp] theorem acqRetrained_kept (n : Nat) (s : State) (hW : [.flt, .acq, .rcd] ⊆ F) : Kept F s₀ (acqRetrained n s) ↔ Kept F s₀ s := by
  simp at hW; (unfold acqRetrained; try simp [hW]) <;> repeat' ((first | split | apply forAll_step | apply forAll_keep | apply foldl_step | apply foldl_keep | intro _) <;> try simp [hW])

@[simp] theorem armUnit_kept (u : Nat) (byInject : Bool) (s : State) (hW : [.flt, .acq, .rcd] ⊆ F) : Kept F s₀ (armUnit u byInject s) ↔ Kept F s₀ s := by
  simp at hW; (unfold armUnit; try simp [hW]) <;> repeat' ((first | split | apply forAll_step | apply forAll_keep | apply foldl_step | apply foldl_keep | intro _) <;> try simp [hW])

@[simp] theorem abortUnit_kept (u reason : Nat) (s : State) (hW : [.flt, .acq, .rcd] ⊆ F) : Kept F s₀ (abortUnit u reason s) ↔ Kept F s₀ s := by
  simp at hW; (unfold abortUnit; try simp [hW]) <;> repeat' ((first | split | apply forAll_step | apply forAll_keep | apply foldl_step | apply foldl_keep | intro _) <;> try simp [hW])

@[simp] theorem acqInject_kept (u f0 : Nat) (s : State) (hW : [.flt, .acq, .rcd] ⊆ F) : Kept F s₀ (acqInject u f0 s) ↔ Kept F s₀ s := by
  simp at hW; (unfold acqInject; try simp [hW]) <;> repeat' ((first | split | apply forAll_step | apply forAll_keep | apply foldl_step | apply foldl_keep | intro _) <;> try simp [hW])

@[simp] theorem acqInjectEnd_kept (u : Nat) (s : State) (hW : [.flt, .acq, .rcd] ⊆ F) : Kept F s₀ (acqInjectEnd u s) ↔ Kept F s₀ s := by
  simp at hW; (unfold acqInjectEnd; try simp [hW]) <;> repeat' ((first | split | apply forAll_step | apply forAll_keep | apply foldl_step | apply foldl_keep | intro _) <;> try simp [hW])

@[simp] theorem acqFirstRun_kept (u : Nat) (s : State) (hW : [.acq] ⊆ F) : Kept F s₀ (acqFirstRun u s) ↔ Kept F s₀ s := by
  simp at hW; (unfold acqFirstRun; try simp [hW]) <;> repeat' ((first | split | apply forAll_step | apply forAll_keep | apply foldl_step | apply foldl_keep | intro _) <;> try simp [hW])

@[simp] theorem acqProfile_kept (s : State) (hW : [.flt, .acq, .rcd] ⊆ F) : Kept F s₀ (acqProfile s) ↔ Kept F s₀ s := by
  simp at hW; (unfold acqProfile; try simp [hW]) <;> repeat' ((first | split | apply forAll_step | apply forAll_keep | apply foldl_step | apply foldl_keep | intro _) <;> try simp [hW])

@[simp] theorem acqEnergised_kept (s : State) (hW : [.flt, .acq, .rcd] ⊆ F) : Kept F s₀ (acqEnergised s) ↔ Kept F s₀ s := by
  simp at hW; (unfold acqEnergised; try simp [hW]) <;> repeat' ((first | split | apply forAll_step | apply forAll_keep | apply foldl_step | apply foldl_keep | intro _) <;> try simp [hW])

@[simp] theorem closeRecord_kept (u : Nat) (stopped : Bool) (last : Int) (s : State) (hW : [.freeIx, .flt, .acq, .rcd] ⊆ F) : Kept F s₀ (closeRecord u stopped last s) ↔ Kept F s₀ s := by
  simp at hW; (unfold closeRecord; try simp [hW]) <;> repeat' ((first | split | apply forAll_step | apply forAll_keep | apply foldl_step | apply foldl_keep | intro _) <;> try simp [hW])

@[simp] theorem startCalibration_kept (u : Nat) (cfg : List Byte) (s : State) (hW : [.outs, .acq] ⊆ F) : Kept F s₀ (startCalibration u cfg s) ↔ Kept F s₀ s := by
  simp at hW; (unfold startCalibration; try simp [hW]) <;> repeat' ((first | split | apply forAll_step | apply forAll_keep | apply foldl_step | apply foldl_keep | intro _) <;> try simp [hW])

@[simp] theorem closeCalibration_kept (u : Nat) (s : State) (hW : [.flt, .acq, .rcd] ⊆ F) : Kept F s₀ (closeCalibration u s) ↔ Kept F s₀ s := by
  simp at hW; (unfold closeCalibration; try simp [hW]) <;> repeat' ((first | split | apply forAll_step | apply forAll_keep | apply foldl_step | apply foldl_keep | intro _) <;> try simp [hW])

end Sys2Proof.Machine
end

