-- ==== Sys2Proof/Laws/FrameSwitchOps.lean ====
section
/-! SUPPORT. Frames of the operations of SwitchOps: what each may change. -/

set_option linter.all false

namespace Sys2Proof.Machine

variable {F : List Part} {s₀ : State}

@[simp] theorem State.modSw_kept (f : Switch → Switch) (s : State) (hW : [.sw] ⊆ F) : Kept F s₀ (State.modSw f s) ↔ Kept F s₀ s := Kept.iff (v := [.sw]) (kept_iff.2 <| by intro p hp; cases p <;> first | rfl | exact ⟨rfl, rfl⟩ | exact absurd (by decide) hp) hW

@[simp] theorem State.modSwCh_kept (n : Nat) (f : SwCh → SwCh) (s : State) (hW : [.sw] ⊆ F) : Kept F s₀ (State.modSwCh n f s) ↔ Kept F s₀ s := Kept.iff (v := [.sw]) (kept_iff.2 <| by intro p hp; cases p <;> first | rfl | exact ⟨rfl, rfl⟩ | exact absurd (by decide) hp) hW

@[simp] theorem loadSwitch_kept (s : State) (hW : [.sw] ⊆ F) : Kept F s₀ (loadSwitch s) ↔ Kept F s₀ s := by
  simp at hW; (unfold loadSwitch; try simp [hW]) <;> repeat' ((first | split | apply forAll_step | apply forAll_keep | apply foldl_step | apply foldl_keep | intro _) <;> try simp [hW])

@[simp] theorem State.modGang_kept (n : Nat) (f : SwCh → SwCh) (s : State) (hW : [.sw] ⊆ F) : Kept F s₀ (State.modGang n f s) ↔ Kept F s₀ s := by
  simp at hW; (unfold State.modGang; try simp [hW]) <;> repeat' ((first | split | apply forAll_step | apply forAll_keep | apply foldl_step | apply foldl_keep | intro _) <;> try simp [hW])

@[simp] theorem openInrush_kept (n : Nat) (s : State) (hW : [.sw] ⊆ F) : Kept F s₀ (openInrush n s) ↔ Kept F s₀ s := by
  simp at hW; (unfold openInrush; try simp [hW]) <;> repeat' ((first | split | apply forAll_step | apply forAll_keep | apply foldl_step | apply foldl_keep | intro _) <;> try simp [hW])

@[simp] theorem dieRaise_kept (src cause inst : Nat) (payload : List Byte) (s : State) (hW : [.flt, .acq, .rcd] ⊆ F) : Kept F s₀ (dieRaise src cause inst payload s) ↔ Kept F s₀ s := by
  simp at hW; (unfold dieRaise; try simp [hW]) <;> repeat' ((first | split | apply forAll_step | apply forAll_keep | apply foldl_step | apply foldl_keep | intro _) <;> try simp [hW])

@[simp] theorem setEnable_kept (n : Nat) (on : Bool) (s : State) (hW : [.sw] ⊆ F) : Kept F s₀ (setEnable n on s) ↔ Kept F s₀ s := by
  simp at hW; (unfold setEnable; try simp [hW]) <;> repeat' ((first | split | apply forAll_step | apply forAll_keep | apply foldl_step | apply foldl_keep | intro _) <;> try simp [hW])

@[simp] theorem driveChannel_kept (n : Nat) (s : State) (hW : [.sw] ⊆ F) : Kept F s₀ (driveChannel n s) ↔ Kept F s₀ s := by
  simp at hW; (unfold driveChannel; try simp [hW]) <;> repeat' ((first | split | apply forAll_step | apply forAll_keep | apply foldl_step | apply foldl_keep | intro _) <;> try simp [hW])

@[simp] theorem driveAll_kept (s : State) (hW : [.sw] ⊆ F) : Kept F s₀ (driveAll s) ↔ Kept F s₀ s := by
  simp at hW; (unfold driveAll; try simp [hW]) <;> repeat' ((first | split | apply forAll_step | apply forAll_keep | apply foldl_step | apply foldl_keep | intro _) <;> try simp [hW])

@[simp] theorem driveAllOff_kept (s : State) (hW : [.sw] ⊆ F) : Kept F s₀ (driveAllOff s) ↔ Kept F s₀ s := by
  simp at hW; (unfold driveAllOff; try simp [hW]) <;> repeat' ((first | split | apply forAll_step | apply forAll_keep | apply foldl_step | apply foldl_keep | intro _) <;> try simp [hW])

@[simp] theorem preDriveOn_kept (s : State) (hW : [.sw] ⊆ F) : Kept F s₀ (preDriveOn s) ↔ Kept F s₀ s := by
  simp at hW; (unfold preDriveOn; try simp [hW]) <;> repeat' ((first | split | apply forAll_step | apply forAll_keep | apply foldl_step | apply foldl_keep | intro _) <;> try simp [hW])

@[simp] theorem commandChannel_kept (n : Nat) (on : Bool) (s : State) (hW : [.sw] ⊆ F) : Kept F s₀ (commandChannel n on s) ↔ Kept F s₀ s := by
  simp at hW; (unfold commandChannel; try simp [hW]) <;> repeat' ((first | split | apply forAll_step | apply forAll_keep | apply foldl_step | apply foldl_keep | intro _) <;> try simp [hW])

@[simp] theorem clearChannel_kept (n : Nat) (tjDc : Int) (s : State) (hW : [.flt, .acq, .sw, .rcd] ⊆ F) : Kept F s₀ (clearChannel n tjDc s) ↔ Kept F s₀ s := by
  simp at hW; (unfold clearChannel; try simp [hW]) <;> repeat' ((first | split | apply forAll_step | apply forAll_keep | apply foldl_step | apply foldl_keep | intro _) <;> try simp [hW])

@[simp] theorem swcWrite_kept (n : Nat) (value : Nat) (tjDc : Int) (s : State) (hW : [.flt, .acq, .sw, .rcd] ⊆ F) : Kept F s₀ (swcWrite n value tjDc s) ↔ Kept F s₀ s := by
  simp at hW; (unfold swcWrite; try simp [hW]) <;> repeat' ((first | split | apply forAll_step | apply forAll_keep | apply foldl_step | apply foldl_keep | intro _) <;> try simp [hW])

@[simp] theorem stopBeat_kept (s : State) (hW : [.sw] ⊆ F) : Kept F s₀ (stopBeat s) ↔ Kept F s₀ s := by
  simp at hW; (unfold stopBeat; try simp [hW]) <;> repeat' ((first | split | apply forAll_step | apply forAll_keep | apply foldl_step | apply foldl_keep | intro _) <;> try simp [hW])

@[simp] theorem adoptSwitch_kept (s : State) (hW : [.flt, .acq, .sw, .rcd] ⊆ F) : Kept F s₀ (adoptSwitch s) ↔ Kept F s₀ s := by
  simp at hW; (unfold adoptSwitch; try simp [hW]) <;> repeat' ((first | split | apply forAll_step | apply forAll_keep | apply foldl_step | apply foldl_keep | intro _) <;> try simp [hW])

end Sys2Proof.Machine
end

