-- ==== Sys2Proof/Laws/FrameThermalOps.lean ====
section
/-! SUPPORT. Frames of the operations of ThermalOps: what each may change. -/

set_option linter.all false

namespace Sys2Proof.Machine

variable {F : List Part} {s₀ : State}

@[simp] theorem State.modThm_kept (f : Thm → Thm) (s : State) (hW : [.thm] ⊆ F) : Kept F s₀ (State.modThm f s) ↔ Kept F s₀ s := Kept.iff (v := [.thm]) (kept_iff.2 <| by intro p hp; cases p <;> first | rfl | exact ⟨rfl, rfl⟩ | exact absurd (by decide) hp) hW

@[simp] theorem State.modObj_kept (j : Nat) (f : ThmObj → ThmObj) (s : State) (hW : [.thm] ⊆ F) : Kept F s₀ (State.modObj j f s) ↔ Kept F s₀ s := Kept.iff (v := [.thm]) (kept_iff.2 <| by intro p hp; cases p <;> first | rfl | exact ⟨rfl, rfl⟩ | exact absurd (by decide) hp) hW

@[simp] theorem State.modLoop_kept (l : Nat) (f : CoolLoop → CoolLoop) (s : State) (hW : [.thm] ⊆ F) : Kept F s₀ (State.modLoop l f s) ↔ Kept F s₀ s := Kept.iff (v := [.thm]) (kept_iff.2 <| by intro p hp; cases p <;> first | rfl | exact ⟨rfl, rfl⟩ | exact absurd (by decide) hp) hW

@[simp] theorem thmLane_kept (n : Nat) (blocks : List Block) (s : State) (hW : [.thm] ⊆ F) : Kept F s₀ (thmLane n blocks s) ↔ Kept F s₀ s := by
  simp at hW; (unfold thmLane; try simp [hW]) <;> repeat' ((first | split | apply forAll_step | apply forAll_keep | apply foldl_step | apply foldl_keep | intro _) <;> try simp [hW])

@[simp] theorem lossTickObj_kept (j : Nat) (s : State) (hW : [.thm] ⊆ F) : Kept F s₀ (lossTickObj j s) ↔ Kept F s₀ s := by
  simp at hW; (unfold lossTickObj; try simp [hW]) <;> repeat' ((first | split | apply forAll_step | apply forAll_keep | apply foldl_step | apply foldl_keep | intro _) <;> try simp [hW])

@[simp] theorem applyReading_kept (id : Nat) (v : Option Int) (at_ : Nat) (s : State) (hW : [.thm] ⊆ F) : Kept F s₀ (applyReading id v at_ s) ↔ Kept F s₀ s := by
  simp at hW; (unfold applyReading; try simp [hW]) <;> repeat' ((first | split | apply forAll_step | apply forAll_keep | apply foldl_step | apply foldl_keep | intro _) <;> try simp [hW])

@[simp] theorem validity_kept (was now : Bool) (cause id : Nat) (inst : Nat) (s : State) (hW : [.flt, .acq, .rcd] ⊆ F) : Kept F s₀ (validity was now cause id inst s) ↔ Kept F s₀ s := by
  simp at hW; (unfold validity; try simp [hW]) <;> repeat' ((first | split | apply forAll_step | apply forAll_keep | apply foldl_step | apply foldl_keep | intro _) <;> try simp [hW])

@[simp] theorem thmNodeTemps_kept (n : Nat) (s : State) (hW : [.flt, .acq, .thm, .rcd] ⊆ F) : Kept F s₀ (thmNodeTemps n s) ↔ Kept F s₀ s := by
  simp at hW; (unfold thmNodeTemps; try simp [hW]) <;> repeat' ((first | split | apply forAll_step | apply forAll_keep | apply foldl_step | apply foldl_keep | intro _) <;> try simp [hW])

@[simp] theorem convertRtd_kept (i mohm : Nat) (s : State) (hW : [.flt, .acq, .thm, .rcd] ⊆ F) : Kept F s₀ (convertRtd i mohm s) ↔ Kept F s₀ s := by
  simp at hW; (unfold convertRtd; try simp [hW]) <;> repeat' ((first | split | apply forAll_step | apply forAll_keep | apply foldl_step | apply foldl_keep | intro _) <;> try simp [hW])

@[simp] theorem advanceObj_kept (j : Nat) (h p : Rat) (s : State) (hW : [.thm] ⊆ F) : Kept F s₀ (advanceObj j h p s) ↔ Kept F s₀ s := by
  simp at hW; (unfold advanceObj; try simp [hW]) <;> repeat' ((first | split | apply forAll_step | apply forAll_keep | apply foldl_step | apply foldl_keep | intro _) <;> try simp [hW])

@[simp] theorem correctObj_kept (j : Nat) (h : Rat) (s : State) (hW : [.flt, .acq, .thm, .rcd] ⊆ F) : Kept F s₀ (correctObj j h s) ↔ Kept F s₀ s := by
  simp at hW; (unfold correctObj; try simp [hW]) <;> repeat' ((first | split | apply forAll_step | apply forAll_keep | apply foldl_step | apply foldl_keep | intro _) <;> try simp [hW])

@[simp] theorem commandLoop_kept (l : Nat) (on : Bool) (s : State) (hW : [.thm, .sw] ⊆ F) : Kept F s₀ (commandLoop l on s) ↔ Kept F s₀ s := by
  simp at hW; (unfold commandLoop; try simp [hW]) <;> repeat' ((first | split | apply forAll_step | apply forAll_keep | apply foldl_step | apply foldl_keep | intro _) <;> try simp [hW])

@[simp] theorem updateLoop_kept (l : Nat) (s : State) (hW : [.thm, .sw] ⊆ F) : Kept F s₀ (updateLoop l s) ↔ Kept F s₀ s := by
  simp at hW; (unfold updateLoop; try simp [hW]) <;> repeat' ((first | split | apply forAll_step | apply forAll_keep | apply foldl_step | apply foldl_keep | intro _) <;> try simp [hW])

@[simp] theorem updateLoops_kept (s : State) (hW : [.thm, .sw] ⊆ F) : Kept F s₀ (updateLoops s) ↔ Kept F s₀ s := by
  simp at hW; (unfold updateLoops; try simp [hW]) <;> repeat' ((first | split | apply forAll_step | apply forAll_keep | apply foldl_step | apply foldl_keep | intro _) <;> try simp [hW])

@[simp] theorem setFlow_kept (l f : Nat) (s : State) (hW : [.thm, .rcd] ⊆ F) : Kept F s₀ (setFlow l f s) ↔ Kept F s₀ s := by
  simp at hW; (unfold setFlow; try simp [hW]) <;> repeat' ((first | split | apply forAll_step | apply forAll_keep | apply foldl_step | apply foldl_keep | intro _) <;> try simp [hW])

@[simp] theorem enterFlowLow_kept (l : Nat) (s : State) (hW : [.flt, .acq, .thm, .rcd] ⊆ F) : Kept F s₀ (enterFlowLow l s) ↔ Kept F s₀ s := by
  simp at hW; (unfold enterFlowLow; try simp [hW]) <;> repeat' ((first | split | apply forAll_step | apply forAll_keep | apply foldl_step | apply foldl_keep | intro _) <;> try simp [hW])

@[simp] theorem pumpFailed_kept (n : Nat) (s : State) (hW : [.flt, .acq, .thm, .rcd] ⊆ F) : Kept F s₀ (pumpFailed n s) ↔ Kept F s₀ s := by
  simp at hW; (unfold pumpFailed; try simp [hW]) <;> repeat' ((first | split | apply forAll_step | apply forAll_keep | apply foldl_step | apply foldl_keep | intro _) <;> try simp [hW])

@[simp] theorem thmProfile_kept (s : State) (hW : [.thm] ⊆ F) : Kept F s₀ (thmProfile s) ↔ Kept F s₀ s := by
  simp at hW; (unfold thmProfile; try simp [hW]) <;> repeat' ((first | split | apply forAll_step | apply forAll_keep | apply foldl_step | apply foldl_keep | intro _) <;> try simp [hW])

@[simp] theorem thmWake_kept (asleep : Nat) (s : State) (hW : [.thm] ⊆ F) : Kept F s₀ (thmWake asleep s) ↔ Kept F s₀ s := by
  simp at hW; (unfold thmWake; try simp [hW]) <;> repeat' ((first | split | apply forAll_step | apply forAll_keep | apply foldl_step | apply foldl_keep | intro _) <;> try simp [hW])

end Sys2Proof.Machine
end

