-- ==== Sys2Proof/Laws/FrameStageOps.lean ====
section
/-! SUPPORT. Frames of the operations of StageOps: what each may change. -/

set_option linter.all false

namespace Sys2Proof.Machine

variable {F : List Part} {s₀ : State}

@[simp] theorem openCoils_kept (i : Nat) (mask : BitVec 8) (s : State) (hW : [.stages] ⊆ F) : Kept F s₀ (openCoils i mask s) ↔ Kept F s₀ s := by
  simp at hW; (unfold openCoils; try simp [hW]) <;> repeat' ((first | split | apply forAll_step | apply forAll_keep | apply foldl_step | apply foldl_keep | intro _) <;> try simp [hW])

@[simp] theorem closeCoil_kept (i o : Nat) (s : State) (hW : [.flt, .stages, .acq, .rcd] ⊆ F) : Kept F s₀ (closeCoil i o s) ↔ Kept F s₀ s := by
  simp at hW; (unfold closeCoil; try simp [hW]) <;> repeat' ((first | split | apply forAll_step | apply forAll_keep | apply foldl_step | apply foldl_keep | intro _) <;> try simp [hW])

@[simp] theorem disableOut_kept (i : Nat) (s : State) (hW : [.stages] ⊆ F) : Kept F s₀ (disableOut i s) ↔ Kept F s₀ s := by
  simp at hW; (unfold disableOut; try simp [hW]) <;> repeat' ((first | split | apply forAll_step | apply forAll_keep | apply foldl_step | apply foldl_keep | intro _) <;> try simp [hW])

@[simp] theorem recomputeShares_kept (o : Nat) (s : State) (hW : [.stages] ⊆ F) : Kept F s₀ (recomputeShares o s) ↔ Kept F s₀ s := by
  simp at hW; (unfold recomputeShares; try simp [hW]) <;> repeat' ((first | split | apply forAll_step | apply forAll_keep | apply foldl_step | apply foldl_keep | intro _) <;> try simp [hW])

@[simp] theorem recomputeAllShares_kept (s : State) (hW : [.stages] ⊆ F) : Kept F s₀ (recomputeAllShares s) ↔ Kept F s₀ s := by
  simp at hW; (unfold recomputeAllShares; try simp [hW]) <;> repeat' ((first | split | apply forAll_step | apply forAll_keep | apply foldl_step | apply foldl_keep | intro _) <;> try simp [hW])

@[simp] theorem mirrorTransfer_kept (i : Nat) (s : State) (hW : [.outs, .pair] ⊆ F) : Kept F s₀ (mirrorTransfer i s) ↔ Kept F s₀ s := by
  simp at hW; (unfold mirrorTransfer; try simp [hW]) <;> repeat' ((first | split | apply forAll_step | apply forAll_keep | apply foldl_step | apply foldl_keep | intro _) <;> try simp [hW])

@[simp] theorem raiseXfer_kept (ev cause i : Nat) (s : State) (hW : [.flt, .acq, .rcd] ⊆ F) : Kept F s₀ (raiseXfer ev cause i s) ↔ Kept F s₀ s := by
  simp at hW; (unfold raiseXfer; try simp [hW]) <;> repeat' ((first | split | apply forAll_step | apply forAll_keep | apply foldl_step | apply foldl_keep | intro _) <;> try simp [hW])

@[simp] theorem stepTo_kept (x : Xfer) (i : Nat) (s : State) (hW : [.stages] ⊆ F) : Kept F s₀ (stepTo x i s) ↔ Kept F s₀ s := by
  simp at hW; (unfold stepTo; try simp [hW]) <;> repeat' ((first | split | apply forAll_step | apply forAll_keep | apply foldl_step | apply foldl_keep | intro _) <;> try simp [hW])

@[simp] theorem startRampDown_kept (i : Nat) (s : State) (hW : [.stages] ⊆ F) : Kept F s₀ (startRampDown i s) ↔ Kept F s₀ s := by
  simp at hW; (unfold startRampDown; try simp [hW]) <;> repeat' ((first | split | apply forAll_step | apply forAll_keep | apply foldl_step | apply foldl_keep | intro _) <;> try simp [hW])

@[simp] theorem startTracking_kept (i : Nat) (s : State) (hW : [.stages] ⊆ F) : Kept F s₀ (startTracking i s) ↔ Kept F s₀ s := by
  simp at hW; (unfold startTracking; try simp [hW]) <;> repeat' ((first | split | apply forAll_step | apply forAll_keep | apply foldl_step | apply foldl_keep | intro _) <;> try simp [hW])

@[simp] theorem issueOrder_kept (ord : StageOrder) (i : Nat) (dest : Option Nat) (s : State) (hW : [.outs, .stages, .pair] ⊆ F) : Kept F s₀ (issueOrder ord i dest s) ↔ Kept F s₀ s := by
  simp at hW; (unfold issueOrder; try simp [hW]) <;> repeat' ((first | split | apply forAll_step | apply forAll_keep | apply foldl_step | apply foldl_keep | intro _) <;> try simp [hW])

@[simp] theorem endUnassigned_kept (i : Nat) (s : State) (hW : [.outs, .stages, .pair] ⊆ F) : Kept F s₀ (endUnassigned i s) ↔ Kept F s₀ s := by
  simp at hW; (unfold endUnassigned; try simp [hW]) <;> repeat' ((first | split | apply forAll_step | apply forAll_keep | apply foldl_step | apply foldl_keep | intro _) <;> try simp [hW])

@[simp] theorem block_kept (i : Nat) (s : State) (hW : [.outs, .stages, .pair] ⊆ F) : Kept F s₀ (block i s) ↔ Kept F s₀ s := by
  simp at hW; (unfold block; try simp [hW]) <;> repeat' ((first | split | apply forAll_step | apply forAll_keep | apply foldl_step | apply foldl_keep | intro _) <;> try simp [hW])

@[simp] theorem failXfer_kept (i cause : Nat) (s : State) (hW : [.outs, .flt, .stages, .pair, .acq, .rcd] ⊆ F) : Kept F s₀ (failXfer i cause s) ↔ Kept F s₀ s := by
  simp at hW; (unfold failXfer; try simp [hW]) <;> repeat' ((first | split | apply forAll_step | apply forAll_keep | apply foldl_step | apply foldl_keep | intro _) <;> try simp [hW])

@[simp] theorem safeStopStage_kept (i : Nat) (s : State) (hW : [.outs, .flt, .stages, .pair, .acq, .rcd] ⊆ F) : Kept F s₀ (safeStopStage i s) ↔ Kept F s₀ s := by
  simp at hW; (unfold safeStopStage; try simp [hW]) <;> repeat' ((first | split | apply forAll_step | apply forAll_keep | apply foldl_step | apply foldl_keep | intro _) <;> try simp [hW])

@[simp] theorem settleStage_kept (i : Nat) (s : State) (hW : [.stages] ⊆ F) : Kept F s₀ (settleStage i s) ↔ Kept F s₀ s := by
  simp at hW; (unfold settleStage; try simp [hW]) <;> repeat' ((first | split | apply forAll_step | apply forAll_keep | apply foldl_step | apply foldl_keep | intro _) <;> try simp [hW])

@[simp] theorem haltStage_kept (i : Nat) (fast : Bool) (s : State) (hW : [.stages] ⊆ F) : Kept F s₀ (haltStage i fast s) ↔ Kept F s₀ s := by
  simp at hW; (unfold haltStage; try simp [hW]) <;> repeat' ((first | split | apply forAll_step | apply forAll_keep | apply foldl_step | apply foldl_keep | intro _) <;> try simp [hW])

@[simp] theorem abortHalt_kept (i : Nat) (fast : Bool) (s : State) (hW : [.outs, .flt, .stages, .pair, .acq, .rcd] ⊆ F) : Kept F s₀ (abortHalt i fast s) ↔ Kept F s₀ s := by
  simp at hW; (unfold abortHalt; try simp [hW]) <;> repeat' ((first | split | apply forAll_step | apply forAll_keep | apply foldl_step | apply foldl_keep | intro _) <;> try simp [hW])

@[simp] theorem abortToward_kept (o : Nat) (fast : Bool) (s : State) (hW : [.outs, .flt, .stages, .pair, .acq, .rcd] ⊆ F) : Kept F s₀ (abortToward o fast s) ↔ Kept F s₀ s := by
  simp at hW; (unfold abortToward; try simp [hW]) <;> repeat' ((first | split | apply forAll_step | apply forAll_keep | apply foldl_step | apply foldl_keep | intro _) <;> try simp [hW])

@[simp] theorem takeResume_kept (i : Nat) (s : State) (hW : [.outs, .stages, .pair] ⊆ F) : Kept F s₀ (takeResume i s) ↔ Kept F s₀ s := by
  simp at hW; (unfold takeResume; try simp [hW]) <;> repeat' ((first | split | apply forAll_step | apply forAll_keep | apply foldl_step | apply foldl_keep | intro _) <;> try simp [hW])

end Sys2Proof.Machine
end

