-- ==== Sys2Proof/Laws/FrameDescriptor.lean ====
section
/-! SUPPORT. Frames of the operations of Descriptor: what each may change. -/

set_option linter.all false

namespace Sys2Proof.Machine

variable {F : List Part} {s₀ : State}

@[simp] theorem answer_kept (status result : Nat) (s : State) : Kept F s₀ (answer status result s).1 ↔ Kept F s₀ s := by
  (unfold answer; try simp ) <;> repeat' ((first | split | apply forAll_step | apply forAll_keep | apply foldl_step | apply foldl_keep | intro _) <;> try simp )

@[simp] theorem ringError_kept (n cause : Nat) (s : State) (hW : [.host, .flt, .acq, .rcd, .rings] ⊆ F) : Kept F s₀ (ringError n cause s) ↔ Kept F s₀ s := by
  simp at hW; (unfold ringError; try simp [hW]) <;> repeat' ((first | split | apply forAll_step | apply forAll_keep | apply foldl_step | apply foldl_keep | intro _) <;> try simp [hW])

@[simp] theorem flushRefusals_kept (n : Nat) (s : State) (hW : [.host, .flt, .acq, .rcd, .rings] ⊆ F) : Kept F s₀ (flushRefusals n s) ↔ Kept F s₀ s := by
  simp at hW; (unfold flushRefusals; try simp [hW]) <;> repeat' ((first | split | apply forAll_step | apply forAll_keep | apply foldl_step | apply foldl_keep | intro _) <;> try simp [hW])

@[simp] theorem refuseToken_kept (n : Nat) (s : State) (hW : [.host, .rings] ⊆ F) : Kept F s₀ (refuseToken n s) ↔ Kept F s₀ s := by
  simp at hW; (unfold refuseToken; try simp [hW]) <;> repeat' ((first | split | apply forAll_step | apply forAll_keep | apply foldl_step | apply foldl_keep | intro _) <;> try simp [hW])

@[simp] theorem takeDesc_kept (n : Nat) (s : State) (hW : [.host, .rings] ⊆ F) : Kept F s₀ (takeDesc n s) ↔ Kept F s₀ s := by
  simp at hW; (unfold takeDesc; try simp [hW]) <;> repeat' ((first | split | apply forAll_step | apply forAll_keep | apply foldl_step | apply foldl_keep | intro _) <;> try simp [hW])

@[simp] theorem violatedDesc_kept {a : Access} {eff : Desc → State → Answer} {d : Desc} {s : State}
    (h : [.outs, .freeIx, .host, .flt, .pair, .acq, .rcd, .rings, .faults] ⊆ F) (he : ∀ d s, Kept F s (eff d s).1) :
    Kept F s₀ (violatedDesc a eff d s) ↔ Kept F s₀ s := by
  simp at h; unfold violatedDesc; dsimp only; repeat' (split <;> try simp [h, he])

@[simp] theorem mirrorDesc_kept (d : Desc) (status : Nat) (s : State) (hW : [.outs, .pair] ⊆ F) : Kept F s₀ (mirrorDesc d status s) ↔ Kept F s₀ s := by
  simp at hW; (unfold mirrorDesc; try simp [hW]) <;> repeat' ((first | split | apply forAll_step | apply forAll_keep | apply foldl_step | apply foldl_keep | intro _) <;> try simp [hW])

@[simp] theorem awaitTick_kept (d : Desc) (s : State) (hW : [.pair] ⊆ F) : Kept F s₀ (awaitTick d s) ↔ Kept F s₀ s := by
  simp at hW; (unfold awaitTick; try simp [hW]) <;> repeat' ((first | split | apply forAll_step | apply forAll_keep | apply foldl_step | apply foldl_keep | intro _) <;> try simp [hW])

@[simp] theorem answer_fst (st r : Nat) (s : State) : (answer st r s).1 = s := rfl

@[simp] theorem performDesc_kept {op : OpInfo} {eff : Desc → State → Answer} {d : Desc} {s : State}
    (h : [.outs, .freeIx, .host, .pair, .rings] ⊆ F) (he : ∀ d s, Kept F s (eff d s).1) : Kept F s₀ (performDesc op eff d s) ↔ Kept F s₀ s := by
  have k := (he d s).iff (s := s₀) (fun _ h => h)
  simp at h; unfold performDesc; dsimp only; repeat' (split <;> try simp [h, k])

@[simp] theorem readBuffers_kept (d : Desc) (s : State) (hW : [.outs, .host] ⊆ F) : Kept F s₀ (readBuffers d s) ↔ Kept F s₀ s := by
  simp at hW; (unfold readBuffers; try simp [hW]) <;> repeat' ((first | split | apply forAll_step | apply forAll_keep | apply foldl_step | apply foldl_keep | intro _) <;> try simp [hW])

@[simp] theorem executeDesc_kept {op : OpInfo} {eff : Desc → State → Answer} {d : Desc} {s : State}
    (h : [.outs, .freeIx, .host, .flt, .pair, .acq, .rcd, .rings, .faults] ⊆ F) (he : ∀ d s, Kept F s (eff d s).1) :
    Kept F s₀ (executeDesc op eff d s) ↔ Kept F s₀ s := by
  simp at h; unfold executeDesc; dsimp only; repeat' (split <;> try simp [h, he])

@[simp] theorem admitted_kept {op : OpInfo} {eff : Desc → State → Answer} {d : Desc} {s : State}
    (h : [.outs, .freeIx, .host, .flt, .pair, .acq, .rcd, .rings, .faults] ⊆ F) (he : ∀ d s, Kept F s (eff d s).1) :
    Kept F s₀ (admitted op eff d s) ↔ Kept F s₀ s := by
  simp at h; unfold admitted; repeat' (split <;> try simp [h, he])

@[simp] theorem beginOrWait_kept {op : OpInfo} {eff : Desc → State → Answer} {d : Desc} {s : State}
    (h : [.outs, .freeIx, .host, .flt, .pair, .acq, .rcd, .rings, .faults] ⊆ F) (he : ∀ d s, Kept F s (eff d s).1) :
    Kept F s₀ (beginOrWait op eff d s) ↔ Kept F s₀ s := by
  simp at h; unfold beginOrWait; repeat' (split <;> try simp [h, he])

@[simp] theorem beginWaiting_kept {op : OpInfo} {eff : Desc → State → Answer} {d : Desc} {s : State}
    (h : [.outs, .freeIx, .host, .flt, .pair, .acq, .rcd, .rings, .faults] ⊆ F) (he : ∀ d s, Kept F s (eff d s).1) :
    Kept F s₀ (beginWaiting op eff d s) ↔ Kept F s₀ s := by
  simp at h; unfold beginWaiting; dsimp only; repeat' (split <;> try simp [h, he])

@[simp] theorem throughToken_kept {op : OpInfo} {eff : Desc → State → Answer} {d : Desc} {s : State}
    (h : [.outs, .freeIx, .host, .flt, .pair, .acq, .rcd, .rings, .faults] ⊆ F) (he : ∀ d s, Kept F s (eff d s).1) :
    Kept F s₀ (throughToken op eff d s) ↔ Kept F s₀ s := by
  simp at h; unfold throughToken; repeat' (split <;> try simp [h, he])

@[simp] theorem runDesc_kept {op : OpInfo} {eff : Desc → State → Answer} {d : Desc} {s : State}
    (h : [.outs, .freeIx, .host, .flt, .pair, .acq, .rcd, .rings, .faults] ⊆ F) (he : ∀ d s, Kept F s (eff d s).1) :
    Kept F s₀ (runDesc op eff d s) ↔ Kept F s₀ s := by
  simp at h; unfold runDesc; repeat' (split <;> try simp [h, he])

end Sys2Proof.Machine
end

