-- ==== Sys2Proof/Laws/FrameMetOps.lean ====
section
/-! SUPPORT. Frames of the operations of MetOps: what each may change. -/

set_option linter.all false

namespace Sys2Proof.Machine

variable {F : List Part} {s₀ : State}

@[simp] theorem State.modMet_kept (f : Met → Met) (s : State) (hW : [.met] ⊆ F) : Kept F s₀ (State.modMet f s) ↔ Kept F s₀ s := Kept.iff (v := [.met]) (kept_iff.2 <| by intro p hp; cases p <;> first | rfl | exact ⟨rfl, rfl⟩ | exact absurd (by decide) hp) hW

@[simp] theorem State.modCh_kept (o : Nat) (f : MetChan → MetChan) (s : State) (hW : [.met] ⊆ F) : Kept F s₀ (State.modCh o f s) ↔ Kept F s₀ s := Kept.iff (v := [.met]) (kept_iff.2 <| by intro p hp; cases p <;> first | rfl | exact ⟨rfl, rfl⟩ | exact absurd (by decide) hp) hW

@[simp] theorem metRaise_kept (src cause inst : Nat) (payload : List Byte) (s : State) (hW : [.flt, .acq, .met, .rcd] ⊆ F) : Kept F s₀ (metRaise src cause inst payload s) ↔ Kept F s₀ s := by
  simp at hW; (unfold metRaise; try simp [hW]) <;> repeat' ((first | split | apply forAll_step | apply forAll_keep | apply foldl_step | apply foldl_keep | intro _) <;> try simp [hW])

@[simp] theorem metFlush_kept (s : State) (hW : [.flt, .acq, .met, .rcd] ⊆ F) : Kept F s₀ (metFlush s) ↔ Kept F s₀ s := by
  simp at hW; (unfold metFlush; try simp [hW]) <;> repeat' ((first | split | apply forAll_step | apply forAll_keep | apply foldl_step | apply foldl_keep | intro _) <;> try simp [hW])

@[simp] theorem noteFlags_kept (s : State) (hW : [.met] ⊆ F) : Kept F s₀ (noteFlags s) ↔ Kept F s₀ s := by
  simp at hW; (unfold noteFlags; try simp [hW]) <;> repeat' ((first | split | apply forAll_step | apply forAll_keep | apply foldl_step | apply foldl_keep | intro _) <;> try simp [hW])

@[simp] theorem writeLog_kept (index kind outlet param : Nat) (old new : Int) (s : State) (hW : [.flt, .acq, .met, .rcd] ⊆ F) : Kept F s₀ (writeLog index kind outlet param old new s) ↔ Kept F s₀ s := by
  simp at hW; (unfold writeLog; try simp [hW]) <;> repeat' ((first | split | apply forAll_step | apply forAll_keep | apply foldl_step | apply foldl_keep | intro _) <;> try simp [hW])

@[simp] theorem logGeneral_kept (kind outlet param : Nat) (old new : Int) (s : State) (hW : [.flt, .acq, .met, .rcd] ⊆ F) : Kept F s₀ (logGeneral kind outlet param old new s) ↔ Kept F s₀ s := by
  simp at hW; (unfold logGeneral; try simp [hW]) <;> repeat' ((first | split | apply forAll_step | apply forAll_keep | apply foldl_step | apply foldl_keep | intro _) <;> try simp [hW])

@[simp] theorem takeIdent_kept (s : State) (hW : [.key] ⊆ F) : Kept F s₀ (takeIdent s) ↔ Kept F s₀ s := by
  simp at hW; (unfold takeIdent; try simp [hW]) <;> repeat' ((first | split | apply forAll_step | apply forAll_keep | apply foldl_step | apply foldl_keep | intro _) <;> try simp [hW])

@[simp] theorem keepRecord_kept (o kind : Nat) (bytes : List Byte) (s : State) (hW : [.freeIx, .met] ⊆ F) : Kept F s₀ (keepRecord o kind bytes s) ↔ Kept F s₀ s := by
  simp at hW; (unfold keepRecord; try simp [hW]) <;> repeat' ((first | split | apply forAll_step | apply forAll_keep | apply foldl_step | apply foldl_keep | intro _) <;> try simp [hW])

@[simp] theorem commitAll_kept (s : State) (hW : [.met] ⊆ F) : Kept F s₀ (commitAll s) ↔ Kept F s₀ s := by
  simp at hW; (unfold commitAll; try simp [hW]) <;> repeat' ((first | split | apply forAll_step | apply forAll_keep | apply foldl_step | apply foldl_keep | intro _) <;> try simp [hW])

@[simp] theorem metStop_kept (o reason : Nat) (s : State) (hW : [.freeIx, .flt, .acq, .met, .rcd] ⊆ F) : Kept F s₀ (metStop o reason s).1 ↔ Kept F s₀ s := by
  simp at hW; (unfold metStop; try simp [hW]) <;> repeat' ((first | split | apply forAll_step | apply forAll_keep | apply foldl_step | apply foldl_keep | intro _) <;> try simp [hW])

@[simp] theorem metOpen_kept (o : Nat) (ref : List Byte) (primary : Option (Nat × List Byte)) (s : State) (hW : [.freeIx, .flt, .acq, .met, .rcd] ⊆ F) : Kept F s₀ (metOpen o ref primary s).1 ↔ Kept F s₀ s := by
  simp at hW; (unfold metOpen; try simp [hW]) <;> repeat' ((first | split | apply forAll_step | apply forAll_keep | apply foldl_step | apply foldl_keep | intro _) <;> try simp [hW])

@[simp] theorem mirrorStart_kept (o : Nat) (s : State) (hW : [.outs, .flt, .pair, .acq, .met, .rcd] ⊆ F) : Kept F s₀ (mirrorStart o s) ↔ Kept F s₀ s := by
  simp at hW; (unfold mirrorStart; try simp [hW]) <;> repeat' ((first | split | apply forAll_step | apply forAll_keep | apply foldl_step | apply foldl_keep | intro _) <;> try simp [hW])

@[simp] theorem mirrorStop_kept (o : Nat) (s : State) (hW : [.outs, .pair] ⊆ F) : Kept F s₀ (mirrorStop o s) ↔ Kept F s₀ s := by
  simp at hW; (unfold mirrorStop; try simp [hW]) <;> repeat' ((first | split | apply forAll_step | apply forAll_keep | apply foldl_step | apply foldl_keep | intro _) <;> try simp [hW])

@[simp] theorem mirroredRequest_kept (o : Nat) (start : Bool) (ref : List Byte) (txn : Nat) (id : List Byte) (s : State) (hW : [.freeIx, .flt, .acq, .met, .rcd] ⊆ F) : Kept F s₀ (mirroredRequest o start ref txn id s) ↔ Kept F s₀ s := by
  simp at hW; (unfold mirroredRequest; try simp [hW]) <;> repeat' ((first | split | apply forAll_step | apply forAll_keep | apply foldl_step | apply foldl_keep | intro _) <;> try simp [hW])

@[simp] theorem mirroredArrives_kept (o : Nat) (start : Bool) (ref : List Byte) (txn : Nat) (id : List Byte) (s : State) (hW : [.freeIx, .host, .flt, .acq, .met, .rcd, .rings] ⊆ F) : Kept F s₀ (mirroredArrives o start ref txn id s) ↔ Kept F s₀ s := by
  simp at hW; (unfold mirroredArrives; try simp [hW]) <;> repeat' ((first | split | apply forAll_step | apply forAll_keep | apply foldl_step | apply foldl_keep | intro _) <;> try simp [hW])

@[simp] theorem engineStart_kept (o : Nat) (ref : List Byte) (s : State) (hW : [.outs, .freeIx, .flt, .pair, .acq, .met, .rcd] ⊆ F) : Kept F s₀ (engineStart o ref s).1 ↔ Kept F s₀ s := by
  simp at hW; (unfold engineStart; try simp [hW]) <;> repeat' ((first | split | apply forAll_step | apply forAll_keep | apply foldl_step | apply foldl_keep | intro _) <;> try simp [hW])

@[simp] theorem engineStop_kept (o reason : Nat) (s : State) (hW : [.outs, .freeIx, .flt, .pair, .acq, .met, .rcd] ⊆ F) : Kept F s₀ (engineStop o reason s) ↔ Kept F s₀ s := by
  simp at hW; (unfold engineStop; try simp [hW]) <;> repeat' ((first | split | apply forAll_step | apply forAll_keep | apply foldl_step | apply foldl_keep | intro _) <;> try simp [hW])

end Sys2Proof.Machine
end

