-- ==== Sys2Proof/Laws/FramePathOps.lean ====
section
/-! SUPPORT. Frames of the operations of PathOps: what each may change. -/

set_option linter.all false

namespace Sys2Proof.Machine

variable {F : List Part} {s₀ : State}

@[simp] theorem setPathState_kept (o : Nat) (st : PathState) (s : State) (hW : [.flt, .paths, .acq, .rcd] ⊆ F) : Kept F s₀ (setPathState o st s) ↔ Kept F s₀ s := by
  simp at hW; (unfold setPathState; try simp [hW]) <;> repeat' ((first | split | apply forAll_step | apply forAll_keep | apply foldl_step | apply foldl_keep | intro _) <;> try simp [hW])

@[simp] theorem setDrive_kept (o : Nat) (on : Bool) (s : State) (hW : [.paths] ⊆ F) : Kept F s₀ (setDrive o on s) ↔ Kept F s₀ s := by
  simp at hW; (unfold setDrive; try simp [hW]) <;> repeat' ((first | split | apply forAll_step | apply forAll_keep | apply foldl_step | apply foldl_keep | intro _) <;> try simp [hW])

@[simp] theorem mirrorTarget_kept (o : Nat) (s : State) (hW : [.outs, .pair] ⊆ F) : Kept F s₀ (mirrorTarget o s) ↔ Kept F s₀ s := by
  simp at hW; (unfold mirrorTarget; try simp [hW]) <;> repeat' ((first | split | apply forAll_step | apply forAll_keep | apply foldl_step | apply foldl_keep | intro _) <;> try simp [hW])

@[simp] theorem sendAnswer_kept (o : Nat) (t frame : List Byte) (a : PathAnswer) (s : State) (hW : [.outs, .paths, .pair] ⊆ F) : Kept F s₀ (sendAnswer o t frame a s) ↔ Kept F s₀ s := by
  simp at hW; (unfold sendAnswer; try simp [hW]) <;> repeat' ((first | split | apply forAll_step | apply forAll_keep | apply foldl_step | apply foldl_keep | intro _) <;> try simp [hW])

@[simp] theorem sendNak_kept (o : Nat) (t : List Byte) (reason detail : Nat) (s : State) (hW : [.outs, .paths, .pair] ⊆ F) : Kept F s₀ (sendNak o t reason detail s) ↔ Kept F s₀ s := by
  simp at hW; (unfold sendNak; try simp [hW]) <;> repeat' ((first | split | apply forAll_step | apply forAll_keep | apply foldl_step | apply foldl_keep | intro _) <;> try simp [hW])

@[simp] theorem refusePort_kept (o : Nat) (t : List Byte) (s : State) (hW : [.outs, .paths, .pair] ⊆ F) : Kept F s₀ (refusePort o t s) ↔ Kept F s₀ s := by
  simp at hW; (unfold refusePort; try simp [hW]) <;> repeat' ((first | split | apply forAll_step | apply forAll_keep | apply foldl_step | apply foldl_keep | intro _) <;> try simp [hW])

@[simp] theorem nakOpen_kept (o reason detail : Nat) (s : State) (hW : [.outs, .paths, .pair] ⊆ F) : Kept F s₀ (nakOpen o reason detail s) ↔ Kept F s₀ s := by
  simp at hW; (unfold nakOpen; try simp [hW]) <;> repeat' ((first | split | apply forAll_step | apply forAll_keep | apply foldl_step | apply foldl_keep | intro _) <;> try simp [hW])

@[simp] theorem ackOpen_kept (o : Nat) (s : State) (hW : [.outs, .paths, .pair] ⊆ F) : Kept F s₀ (ackOpen o s) ↔ Kept F s₀ s := by
  simp at hW; (unfold ackOpen; try simp [hW]) <;> repeat' ((first | split | apply forAll_step | apply forAll_keep | apply foldl_step | apply foldl_keep | intro _) <;> try simp [hW])

@[simp] theorem setFallback_kept (o code : Nat) (s : State) (hW : [.flt, .paths, .acq, .rcd] ⊆ F) : Kept F s₀ (setFallback o code s) ↔ Kept F s₀ s := by
  simp at hW; (unfold setFallback; try simp [hW]) <;> repeat' ((first | split | apply forAll_step | apply forAll_keep | apply foldl_step | apply foldl_keep | intro _) <;> try simp [hW])

@[simp] theorem planAxes_kept (o : Nat) (retarget : Bool) (goals : List (Bool × Rat)) (s : State) (hW : [.flt, .paths, .acq, .rcd] ⊆ F) : Kept F s₀ (planAxes o retarget goals s) ↔ Kept F s₀ s := by
  simp at hW; (unfold planAxes; try simp [hW]) <;> repeat' ((first | split | apply forAll_step | apply forAll_keep | apply foldl_step | apply foldl_keep | intro _) <;> try simp [hW])

@[simp] theorem clipTargets_kept (o : Nat) (s : State) (hW : [.paths] ⊆ F) : Kept F s₀ (clipTargets o s) ↔ Kept F s₀ s := by
  simp at hW; (unfold clipTargets; try simp [hW]) <;> repeat' ((first | split | apply forAll_step | apply forAll_keep | apply foldl_step | apply foldl_keep | intro _) <;> try simp [hW])

@[simp] theorem ceilingAxis_kept (o : Nat) (volt : Bool) (was new eff : Nat) (s : State) (hW : [.flt, .paths, .acq, .rcd] ⊆ F) : Kept F s₀ (ceilingAxis o volt was new eff s) ↔ Kept F s₀ s := by
  simp at hW; (unfold ceilingAxis; try simp [hW]) <;> repeat' ((first | split | apply forAll_step | apply forAll_keep | apply foldl_step | apply foldl_keep | intro _) <;> try simp [hW])

@[simp] theorem ceilingHeld_kept (o : Nat) (was new : AlcOutlet) (s : State) (hW : [.flt, .paths, .acq, .rcd] ⊆ F) : Kept F s₀ (ceilingHeld o was new s) ↔ Kept F s₀ s := by
  simp at hW; (unfold ceilingHeld; try simp [hW]) <;> repeat' ((first | split | apply forAll_step | apply forAll_keep | apply foldl_step | apply foldl_keep | intro _) <;> try simp [hW])

@[simp] theorem ceilingToZero_kept (o : Nat) (was new : AlcOutlet) (s : State) (hW : [.flt, .paths, .acq, .rcd] ⊆ F) : Kept F s₀ (ceilingToZero o was new s) ↔ Kept F s₀ s := by
  simp at hW; (unfold ceilingToZero; try simp [hW]) <;> repeat' ((first | split | apply forAll_step | apply forAll_keep | apply foldl_step | apply foldl_keep | intro _) <;> try simp [hW])

@[simp] theorem applyCeilings_kept (was : Nat → AlcOutlet) (o : Nat) (s : State) (hW : [.flt, .paths, .acq, .rcd] ⊆ F) : Kept F s₀ (applyCeilings was o s) ↔ Kept F s₀ s := by
  simp at hW; (unfold applyCeilings; try simp [hW]) <;> repeat' ((first | split | apply forAll_step | apply forAll_keep | apply foldl_step | apply foldl_keep | intro _) <;> try simp [hW])

@[simp] theorem stopPath_kept (o : Nat) (fast : Bool) (nak : Option (Nat × Nat)) (s : State) (hW : [.outs, .flt, .paths, .pair, .acq, .rcd] ⊆ F) : Kept F s₀ (stopPath o fast nak s) ↔ Kept F s₀ s := by
  simp at hW; (unfold stopPath; try simp [hW]) <;> repeat' ((first | split | apply forAll_step | apply forAll_keep | apply foldl_step | apply foldl_keep | intro _) <;> try simp [hW])

@[simp] theorem stopFast_kept (o : Nat) (nak : Option (Nat × Nat)) (s : State) (hW : [.outs, .flt, .stages, .paths, .pair, .acq, .rcd] ⊆ F) : Kept F s₀ (stopFast o nak s) ↔ Kept F s₀ s := by
  simp at hW; (unfold stopFast; try simp [hW]) <;> repeat' ((first | split | apply forAll_step | apply forAll_keep | apply foldl_step | apply foldl_keep | intro _) <;> try simp [hW])

@[simp] theorem pathSafe_kept (o : Nat) (s : State) (hW : [.outs, .flt, .paths, .pair, .acq, .rcd] ⊆ F) : Kept F s₀ (pathSafe o s) ↔ Kept F s₀ s := by
  simp at hW; (unfold pathSafe; try simp [hW]) <;> repeat' ((first | split | apply forAll_step | apply forAll_keep | apply foldl_step | apply foldl_keep | intro _) <;> try simp [hW])

@[simp] theorem afterStageLoss_kept (o : Option Nat) (s : State) (hW : [.outs, .flt, .stages, .paths, .pair, .acq, .rcd] ⊆ F) : Kept F s₀ (afterStageLoss o s) ↔ Kept F s₀ s := by
  simp at hW; (unfold afterStageLoss; try simp [hW]) <;> repeat' ((first | split | apply forAll_step | apply forAll_keep | apply foldl_step | apply foldl_keep | intro _) <;> try simp [hW])

@[simp] theorem safeStop_kept (i : Nat) (s : State) (hW : [.outs, .flt, .stages, .paths, .pair, .acq, .rcd] ⊆ F) : Kept F s₀ (safeStop i s) ↔ Kept F s₀ s := by
  simp at hW; (unfold safeStop; try simp [hW]) <;> repeat' ((first | split | apply forAll_step | apply forAll_keep | apply foldl_step | apply foldl_keep | intro _) <;> try simp [hW])

@[simp] theorem safeStopOutlet_kept (o : Nat) (s : State) (hW : [.outs, .flt, .stages, .pair, .acq, .rcd] ⊆ F) : Kept F s₀ (safeStopOutlet o s) ↔ Kept F s₀ s := by
  simp at hW; (unfold safeStopOutlet; try simp [hW]) <;> repeat' ((first | split | apply forAll_step | apply forAll_keep | apply foldl_step | apply foldl_keep | intro _) <;> try simp [hW])

@[simp] theorem faultPath_kept (o cause : Nat) (payload : List Byte) (reason detail : Nat) (s : State) (hW : [.outs, .flt, .paths, .pair, .acq, .rcd] ⊆ F) : Kept F s₀ (faultPath o cause payload reason detail s) ↔ Kept F s₀ s := by
  simp at hW; (unfold faultPath; try simp [hW]) <;> repeat' ((first | split | apply forAll_step | apply forAll_keep | apply foldl_step | apply foldl_keep | intro _) <;> try simp [hW])

@[simp] theorem enterIdle_kept (o : Nat) (s : State) (hW : [.flt, .paths, .acq, .rcd] ⊆ F) : Kept F s₀ (enterIdle o s) ↔ Kept F s₀ s := by
  simp at hW; (unfold enterIdle; try simp [hW]) <;> repeat' ((first | split | apply forAll_step | apply forAll_keep | apply foldl_step | apply foldl_keep | intro _) <;> try simp [hW])

@[simp] theorem startCommand_kept (o : Nat) (t : List Byte) (s : State) (hW : [.outs, .flt, .paths, .pair, .acq, .rcd] ⊆ F) : Kept F s₀ (startCommand o t s) ↔ Kept F s₀ s := by
  simp at hW; (unfold startCommand; try simp [hW]) <;> repeat' ((first | split | apply forAll_step | apply forAll_keep | apply foldl_step | apply foldl_keep | intro _) <;> try simp [hW])

@[simp] theorem notePlan_kept (o cmd : Nat) (s : State) (hW : [.paths] ⊆ F) : Kept F s₀ (notePlan o cmd s) ↔ Kept F s₀ s := by
  simp at hW; (unfold notePlan; try simp [hW]) <;> repeat' ((first | split | apply forAll_step | apply forAll_keep | apply foldl_step | apply foldl_keep | intro _) <;> try simp [hW])

@[simp] theorem acceptTarget_kept (o : Nat) (t : List Byte) (s : State) (hW : [.outs, .flt, .paths, .pair, .acq, .rcd] ⊆ F) : Kept F s₀ (acceptTarget o t s) ↔ Kept F s₀ s := by
  simp at hW; (unfold acceptTarget; try simp [hW]) <;> repeat' ((first | split | apply forAll_step | apply forAll_keep | apply foldl_step | apply foldl_keep | intro _) <;> try simp [hW])

@[simp] theorem newTarget_kept (o : Nat) (t : List Byte) (s : State) (hW : [.outs, .flt, .paths, .pair, .acq, .rcd] ⊆ F) : Kept F s₀ (newTarget o t s) ↔ Kept F s₀ s := by
  simp at hW; (unfold newTarget; try simp [hW]) <;> repeat' ((first | split | apply forAll_step | apply forAll_keep | apply foldl_step | apply foldl_keep | intro _) <;> try simp [hW])

@[simp] theorem disablePhase_kept {s : State} {i k : Nat} {note : State → State} (h : [.outs, .flt, .stages, .paths, .pair, .acq, .rcd] ⊆ F)
    (hn : ∀ s, Kept F s (note s)) : Kept F s₀ (disablePhase i k note s) ↔ Kept F s₀ s := by
  have q := fun u => (hn u).iff (s := s₀) (fun _ h => h)
  simp at h; unfold disablePhase; dsimp only; repeat' (split <;> try simp [h, q])

@[simp] theorem dropPhase_kept (i k cause : Nat) (s : State) (hW : [.outs, .flt, .stages, .paths, .pair, .acq, .rcd] ⊆ F) : Kept F s₀ (dropPhase i k cause s) ↔ Kept F s₀ s := by
  simp at hW; (unfold dropPhase; try simp [hW]) <;> repeat' ((first | split | apply forAll_step | apply forAll_keep | apply foldl_step | apply foldl_keep | intro _) <;> try simp [hW])

@[simp] theorem showSpp_kept (s : State) (hW : [.stages, .paths] ⊆ F) : Kept F s₀ (showSpp s) ↔ Kept F s₀ s := by
  simp at hW; (unfold showSpp; try simp [hW]) <;> repeat' ((first | split | apply forAll_step | apply forAll_keep | apply foldl_step | apply foldl_keep | intro _) <;> try simp [hW])

end Sys2Proof.Machine
end

