-- ==== Sys2Proof/Laws/FrameVehicleOps.lean ====
section
/-! SUPPORT. Frames of the operations of VehicleOps: what each may change. -/

set_option linter.all false

namespace Sys2Proof.Machine

variable {F : List Part} {s₀ : State}

@[simp] theorem State.modVeh_kept (o : Nat) (f : Veh → Veh) (s : State) (hW : [.veh] ⊆ F) : Kept F s₀ (State.modVeh o f s) ↔ Kept F s₀ s := Kept.iff (v := [.veh]) (kept_iff.2 <| by intro p hp; cases p <;> first | rfl | exact ⟨rfl, rfl⟩ | exact absurd (by decide) hp) hW

@[simp] theorem State.modSes_kept (o : Nat) (f : Session → Session) (s : State) (hW : [.veh] ⊆ F) : Kept F s₀ (State.modSes o f s) ↔ Kept F s₀ s := by
  simp at hW; (unfold State.modSes; try simp [hW]) <;> repeat' ((first | split | apply forAll_step | apply forAll_keep | apply foldl_step | apply foldl_keep | intro _) <;> try simp [hW])

@[simp] theorem mirrorSession_kept (o : Nat) (s : State) (hW : [.outs, .pair] ⊆ F) : Kept F s₀ (mirrorSession o s) ↔ Kept F s₀ s := by
  simp at hW; (unfold mirrorSession; try simp [hW]) <;> repeat' ((first | split | apply forAll_step | apply forAll_keep | apply foldl_step | apply foldl_keep | intro _) <;> try simp [hW])

@[simp] theorem sesEvent_kept (o cause : Nat) (payload : List Byte) (s : State) (hW : [.flt, .acq, .rcd] ⊆ F) : Kept F s₀ (sesEvent o cause payload s) ↔ Kept F s₀ s := by
  simp at hW; (unfold sesEvent; try simp [hW]) <;> repeat' ((first | split | apply forAll_step | apply forAll_keep | apply foldl_step | apply foldl_keep | intro _) <;> try simp [hW])

@[simp] theorem issue_kept (o cmd v i k : Nat) (s : State) (hW : [.outs, .flt, .paths, .pair, .acq, .veh, .rcd] ⊆ F) : Kept F s₀ (issue o cmd v i k s) ↔ Kept F s₀ s := by
  simp at hW; (unfold issue; try simp [hW]) <;> repeat' ((first | split | apply forAll_step | apply forAll_keep | apply foldl_step | apply foldl_keep | intro _) <;> try simp [hW])

@[simp] theorem issueLevel_kept (o cmd v i : Nat) (s : State) (hW : [.outs, .flt, .paths, .pair, .acq, .veh, .rcd] ⊆ F) : Kept F s₀ (issueLevel o cmd v i s) ↔ Kept F s₀ s := by
  simp at hW; (unfold issueLevel; try simp [hW]) <;> repeat' ((first | split | apply forAll_step | apply forAll_keep | apply foldl_step | apply foldl_keep | intro _) <;> try simp [hW])

@[simp] theorem beginIsolation_kept (o : Nat) (s : State) (hW : [.outs, .flt, .paths, .pair, .acq, .veh, .rcd] ⊆ F) : Kept F s₀ (beginIsolation o s) ↔ Kept F s₀ s := by
  simp at hW; (unfold beginIsolation; try simp [hW]) <;> repeat' ((first | split | apply forAll_step | apply forAll_keep | apply foldl_step | apply foldl_keep | intro _) <;> try simp [hW])

@[simp] theorem issueCheck_kept (o : Nat) (s : State) (hW : [.outs, .flt, .paths, .pair, .acq, .veh, .rcd] ⊆ F) : Kept F s₀ (issueCheck o s) ↔ Kept F s₀ s := by
  simp at hW; (unfold issueCheck; try simp [hW]) <;> repeat' ((first | split | apply forAll_step | apply forAll_keep | apply foldl_step | apply foldl_keep | intro _) <;> try simp [hW])

@[simp] theorem trySessionStart_kept (o : Nat) (s : State) (hW : [.outs, .flt, .pair, .acq, .veh, .rcd] ⊆ F) : Kept F s₀ (trySessionStart o s) ↔ Kept F s₀ s := by
  simp at hW; (unfold trySessionStart; try simp [hW]) <;> repeat' ((first | split | apply forAll_step | apply forAll_keep | apply foldl_step | apply foldl_keep | intro _) <;> try simp [hW])

@[simp] theorem markEnding_kept (o reason : Nat) (closed : Bool) (s : State) (hW : [.veh] ⊆ F) : Kept F s₀ (markEnding o reason closed s) ↔ Kept F s₀ s := by
  simp at hW; (unfold markEnding; try simp [hW]) <;> repeat' ((first | split | apply forAll_step | apply forAll_keep | apply foldl_step | apply foldl_keep | intro _) <;> try simp [hW])

@[simp] theorem endingStill_kept (o : Nat) (closed : Bool) (s : State) (hW : [.veh] ⊆ F) : Kept F s₀ (endingStill o closed s) ↔ Kept F s₀ s := by
  simp at hW; (unfold endingStill; try simp [hW]) <;> repeat' ((first | split | apply forAll_step | apply forAll_keep | apply foldl_step | apply foldl_keep | intro _) <;> try simp [hW])

@[simp] theorem endSession_kept (o reason : Nat) (closed : Bool) (s : State) (hW : [.outs, .flt, .paths, .pair, .acq, .veh, .rcd] ⊆ F) : Kept F s₀ (endSession o reason closed s) ↔ Kept F s₀ s := by
  simp at hW; (unfold endSession; try simp [hW]) <;> repeat' ((first | split | apply forAll_step | apply forAll_keep | apply foldl_step | apply foldl_keep | intro _) <;> try simp [hW])

@[simp] theorem endSessionFast_kept (o reason : Nat) (closed : Bool) (s : State) (hW : [.outs, .flt, .stages, .paths, .pair, .acq, .veh, .rcd] ⊆ F) : Kept F s₀ (endSessionFast o reason closed s) ↔ Kept F s₀ s := by
  simp at hW; (unfold endSessionFast; try simp [hW]) <;> repeat' ((first | split | apply forAll_step | apply forAll_keep | apply foldl_step | apply foldl_keep | intro _) <;> try simp [hW])

@[simp] theorem tryEnded_kept (o : Nat) (s : State) (hW : [.outs, .freeIx, .flt, .alloc, .pair, .acq, .met, .veh, .rcd] ⊆ F) : Kept F s₀ (tryEnded o s) ↔ Kept F s₀ s := by
  simp at hW; (unfold tryEnded; try simp [hW]) <;> repeat' ((first | split | apply forAll_step | apply forAll_keep | apply foldl_step | apply foldl_keep | intro _) <;> try simp [hW])

@[simp] theorem sessionUnplugged_kept (o : Nat) (s : State) (hW : [.flt, .acq, .veh, .rcd] ⊆ F) : Kept F s₀ (sessionUnplugged o s) ↔ Kept F s₀ s := by
  simp at hW; (unfold sessionUnplugged; try simp [hW]) <;> repeat' ((first | split | apply forAll_step | apply forAll_keep | apply foldl_step | apply foldl_keep | intro _) <;> try simp [hW])

@[simp] theorem lateStops_kept (s : State) (hW : [.outs, .freeIx, .flt, .pair, .acq, .met, .veh, .rcd] ⊆ F) : Kept F s₀ (lateStops s) ↔ Kept F s₀ s := by
  simp at hW; (unfold lateStops; try simp [hW]) <;> repeat' ((first | split | apply forAll_step | apply forAll_keep | apply foldl_step | apply foldl_keep | intro _) <;> try simp [hW])

@[simp] theorem reactAnswer_kept (o : Nat) (a : PathAnswer) (s : State) (hW : [.outs, .flt, .paths, .pair, .acq, .veh, .rcd] ⊆ F) : Kept F s₀ (reactAnswer o a s) ↔ Kept F s₀ s := by
  simp at hW; (unfold reactAnswer; try simp [hW]) <;> repeat' ((first | split | apply forAll_step | apply forAll_keep | apply foldl_step | apply foldl_keep | intro _) <;> try simp [hW])

@[simp] theorem tryUnplugged_kept (o : Nat) (s : State) (hW : [.flt, .acq, .veh, .rcd] ⊆ F) : Kept F s₀ (tryUnplugged o s) ↔ Kept F s₀ s := by
  simp at hW; (unfold tryUnplugged; try simp [hW]) <;> repeat' ((first | split | apply forAll_step | apply forAll_keep | apply foldl_step | apply foldl_keep | intro _) <;> try simp [hW])

@[simp] theorem tryPpOpen_kept (o : Nat) (s : State) (hW : [.outs, .flt, .stages, .paths, .pair, .acq, .veh, .rcd] ⊆ F) : Kept F s₀ (tryPpOpen o s) ↔ Kept F s₀ s := by
  simp at hW; (unfold tryPpOpen; try simp [hW]) <;> repeat' ((first | split | apply forAll_step | apply forAll_keep | apply foldl_step | apply foldl_keep | intro _) <;> try simp [hW])

@[simp] theorem settleVehicle_kept (o : Nat) (s : State) (hW : [.outs, .freeIx, .flt, .stages, .alloc, .paths, .pair, .acq, .met, .veh, .rcd] ⊆ F) : Kept F s₀ (settleVehicle o s) ↔ Kept F s₀ s := by
  simp at hW; (unfold settleVehicle; try simp [hW]) <;> repeat' ((first | split | apply forAll_step | apply forAll_keep | apply foldl_step | apply foldl_keep | intro _) <;> try simp [hW])

@[simp] theorem settleVehicles_kept (s : State) (hW : [.outs, .freeIx, .flt, .stages, .alloc, .paths, .pair, .acq, .met, .veh, .rcd] ⊆ F) : Kept F s₀ (settleVehicles s) ↔ Kept F s₀ s := by
  simp at hW; (unfold settleVehicles; try simp [hW]) <;> repeat' ((first | split | apply forAll_step | apply forAll_keep | apply foldl_step | apply foldl_keep | intro _) <;> try simp [hW])

@[simp] theorem noteStarved_kept (o : Nat) (s : State) (hW : [.veh] ⊆ F) : Kept F s₀ (noteStarved o s) ↔ Kept F s₀ s := by
  simp at hW; (unfold noteStarved; try simp [hW]) <;> repeat' ((first | split | apply forAll_step | apply forAll_keep | apply foldl_step | apply foldl_keep | intro _) <;> try simp [hW])

@[simp] theorem answerVehicle_kept (o : Nat) (s : State) (hW : [.outs] ⊆ F) : Kept F s₀ (answerVehicle o s) ↔ Kept F s₀ s := by
  simp at hW; (unfold answerVehicle; try simp [hW]) <;> repeat' ((first | split | apply forAll_step | apply forAll_keep | apply foldl_step | apply foldl_keep | intro _) <;> try simp [hW])

@[simp] theorem retarget_kept (o : Nat) (s : State) (hW : [.outs, .flt, .paths, .pair, .acq, .veh, .rcd] ⊆ F) : Kept F s₀ (retarget o s) ↔ Kept F s₀ s := by
  simp at hW; (unfold retarget; try simp [hW]) <;> repeat' ((first | split | apply forAll_step | apply forAll_keep | apply foldl_step | apply foldl_keep | intro _) <;> try simp [hW])

@[simp] theorem dueRetargets_kept (s : State) (hW : [.outs, .freeIx, .flt, .stages, .alloc, .paths, .pair, .acq, .met, .veh, .rcd] ⊆ F) : Kept F s₀ (dueRetargets s) ↔ Kept F s₀ s := by
  simp at hW; (unfold dueRetargets; try simp [hW]) <;> repeat' ((first | split | apply forAll_step | apply forAll_keep | apply foldl_step | apply foldl_keep | intro _) <;> try simp [hW])

end Sys2Proof.Machine
end

