-- ==== Sys2Proof/Laws/FrameVehicle.lean ====
section
/-! SUPPORT. Frames of the operations of Vehicle: what each may change. -/

set_option linter.all false

namespace Sys2Proof.Machine

variable {F : List Part} {s₀ : State}

@[simp] theorem afterVehicle_kept (o : Nat) (s : State) (hW : [.outs, .freeIx, .flt, .stages, .alloc, .paths, .pair, .acq, .met, .veh, .rcd] ⊆ F) : Kept F s₀ (afterVehicle o s) ↔ Kept F s₀ s := by
  simp at hW; (unfold afterVehicle; try simp [hW]) <;> repeat' ((first | split | apply forAll_step | apply forAll_keep | apply foldl_step | apply foldl_keep | intro _) <;> try simp [hW])

@[simp] theorem linkEvent_kept (o cause : Nat) (payload : List Byte) (s : State) (hW : [.flt, .acq, .rcd] ⊆ F) : Kept F s₀ (linkEvent o cause payload s) ↔ Kept F s₀ s := by
  simp at hW; (unfold linkEvent; try simp [hW]) <;> repeat' ((first | split | apply forAll_step | apply forAll_keep | apply foldl_step | apply foldl_keep | intro _) <;> try simp [hW])

@[simp] theorem pilotEffect_kept (o : Nat) (hi lo : Int) (s : State) (hW : [.outs, .flt, .stages, .paths, .pair, .acq, .veh, .rcd] ⊆ F) : Kept F s₀ (pilotEffect o hi lo s) ↔ Kept F s₀ s := by
  simp at hW; (unfold pilotEffect; try simp [hW]) <;> repeat' ((first | split | apply forAll_step | apply forAll_keep | apply foldl_step | apply foldl_keep | intro _) <;> try simp [hW])

theorem execPilotStateChange_keeps {t : State} (outlet : Nat) (highMv lowMv : Int) (s : State) (e : execPilotStateChange outlet highMv lowMv s = .next t) : ∃ u, t = settle u ∧ Kept [.outs, .freeIx, .flt, .stages, .alloc, .paths, .pair, .acq, .met, .veh, .rcd] s u := by
  unfold execPilotStateChange vehicleRow live at e; refine ctl_keeps ?_ e; (try simp) <;> repeat' ((first | split | apply forAll_keep | apply foldl_keep | intro _) <;> try simp)

@[simp] theorem ppClassEffect_kept (o ohm : Nat) (s : State) (hW : [.veh] ⊆ F) : Kept F s₀ (ppClassEffect o ohm s) ↔ Kept F s₀ s := by
  simp at hW; (unfold ppClassEffect; try simp [hW]) <;> repeat' ((first | split | apply forAll_step | apply forAll_keep | apply foldl_step | apply foldl_keep | intro _) <;> try simp [hW])

theorem execPpClassChange_keeps {t : State} (outlet ohm : Nat) (s : State) (e : execPpClassChange outlet ohm s = .next t) : ∃ u, t = settle u ∧ Kept [.outs, .freeIx, .flt, .stages, .alloc, .paths, .pair, .acq, .met, .veh, .rcd] s u := by
  unfold execPpClassChange vehicleRow live at e; refine ctl_keeps ?_ e; (try simp) <;> repeat' ((first | split | apply forAll_keep | apply foldl_keep | intro _) <;> try simp)

@[simp] theorem ppFaultEffect_kept (o : Nat) (s : State) (hW : [.outs, .flt, .stages, .paths, .pair, .acq, .rcd] ⊆ F) : Kept F s₀ (ppFaultEffect o s) ↔ Kept F s₀ s := by
  simp at hW; (unfold ppFaultEffect; try simp [hW]) <;> repeat' ((first | split | apply forAll_step | apply forAll_keep | apply foldl_step | apply foldl_keep | intro _) <;> try simp [hW])

theorem execPpFault_keeps {t : State} (outlet : Nat) (s : State) (e : execPpFault outlet s = .next t) : ∃ u, t = settle u ∧ Kept [.outs, .freeIx, .flt, .stages, .alloc, .paths, .pair, .acq, .met, .veh, .rcd] s u := by
  unfold execPpFault vehicleRow live at e; refine ctl_keeps ?_ e; (try simp) <;> repeat' ((first | split | apply forAll_keep | apply foldl_keep | intro _) <;> try simp)

@[simp] theorem linked_kept (o medium : Nat) (s : State) (hW : [.flt, .acq, .veh, .rcd] ⊆ F) : Kept F s₀ (linked o medium s) ↔ Kept F s₀ s := by
  simp at hW; (unfold linked; try simp [hW]) <;> repeat' ((first | split | apply forAll_step | apply forAll_keep | apply foldl_step | apply foldl_keep | intro _) <;> try simp [hW])

theorem execSlacMatched_keeps {t : State} (outlet : Nat) (s : State) (e : execSlacMatched outlet s = .next t) : ∃ u, t = settle u ∧ Kept [.outs, .freeIx, .flt, .stages, .alloc, .paths, .pair, .acq, .met, .veh, .rcd] s u := by
  unfold execSlacMatched vehicleRow live at e; refine ctl_keeps ?_ e; (try simp) <;> repeat' ((first | split | apply forAll_keep | apply foldl_keep | intro _) <;> try simp)

@[simp] theorem slacFailedEffect_kept (o detail : Nat) (s : State) (hW : [.outs, .flt, .paths, .pair, .acq, .veh, .rcd] ⊆ F) : Kept F s₀ (slacFailedEffect o detail s) ↔ Kept F s₀ s := by
  simp at hW; (unfold slacFailedEffect; try simp [hW]) <;> repeat' ((first | split | apply forAll_step | apply forAll_keep | apply foldl_step | apply foldl_keep | intro _) <;> try simp [hW])

theorem execSlacFailed_keeps {t : State} (outlet detail : Nat) (s : State) (e : execSlacFailed outlet detail s = .next t) : ∃ u, t = settle u ∧ Kept [.outs, .freeIx, .flt, .stages, .alloc, .paths, .pair, .acq, .met, .veh, .rcd] s u := by
  unfold execSlacFailed vehicleRow live at e; refine ctl_keeps ?_ e; (try simp) <;> repeat' ((first | split | apply forAll_keep | apply foldl_keep | intro _) <;> try simp)

@[simp] theorem t1sFrameEffect_kept (o : Nat) (s : State) (hW : [.flt, .acq, .veh, .rcd] ⊆ F) : Kept F s₀ (t1sFrameEffect o s) ↔ Kept F s₀ s := by
  simp at hW; (unfold t1sFrameEffect; try simp [hW]) <;> repeat' ((first | split | apply forAll_step | apply forAll_keep | apply foldl_step | apply foldl_keep | intro _) <;> try simp [hW])

theorem execT1sFrameReceive_keeps {t : State} (outlet : Nat) (s : State) (e : execT1sFrameReceive outlet s = .next t) : ∃ u, t = settle u ∧ Kept [.outs, .freeIx, .flt, .stages, .alloc, .paths, .pair, .acq, .met, .veh, .rcd] s u := by
  unfold execT1sFrameReceive vehicleRow live at e; refine ctl_keeps ?_ e; (try simp) <;> repeat' ((first | split | apply forAll_keep | apply foldl_keep | intro _) <;> try simp)

@[simp] theorem t1sDownEffect_kept (o : Nat) (s : State) (hW : [.outs, .flt, .paths, .pair, .acq, .veh, .rcd] ⊆ F) : Kept F s₀ (t1sDownEffect o s) ↔ Kept F s₀ s := by
  simp at hW; (unfold t1sDownEffect; try simp [hW]) <;> repeat' ((first | split | apply forAll_step | apply forAll_keep | apply foldl_step | apply foldl_keep | intro _) <;> try simp [hW])

theorem execT1sLinkDown_keeps {t : State} (outlet : Nat) (s : State) (e : execT1sLinkDown outlet s = .next t) : ∃ u, t = settle u ∧ Kept [.outs, .freeIx, .flt, .stages, .alloc, .paths, .pair, .acq, .met, .veh, .rcd] s u := by
  unfold execT1sLinkDown vehicleRow live at e; refine ctl_keeps ?_ e; (try simp) <;> repeat' ((first | split | apply forAll_keep | apply foldl_keep | intro _) <;> try simp)

@[simp] theorem tcpEffect_kept (o : Nat) (s : State) (hW : [.outs, .veh] ⊆ F) : Kept F s₀ (tcpEffect o s) ↔ Kept F s₀ s := by
  simp at hW; (unfold tcpEffect; try simp [hW]) <;> repeat' ((first | split | apply forAll_step | apply forAll_keep | apply foldl_step | apply foldl_keep | intro _) <;> try simp [hW])

theorem execTcpConnectRequest_keeps {t : State} (outlet : Nat) (s : State) (e : execTcpConnectRequest outlet s = .next t) : ∃ u, t = settle u ∧ Kept [.outs, .freeIx, .flt, .stages, .alloc, .paths, .pair, .acq, .met, .veh, .rcd] s u := by
  unfold execTcpConnectRequest vehicleRow live at e; refine ctl_keeps ?_ e; (try simp) <;> repeat' ((first | split | apply forAll_keep | apply foldl_keep | intro _) <;> try simp)

@[simp] theorem protocolError_kept (o code : Nat) (s : State) (hW : [.outs, .flt, .paths, .pair, .acq, .veh, .rcd] ⊆ F) : Kept F s₀ (protocolError o code s) ↔ Kept F s₀ s := by
  simp at hW; (unfold protocolError; try simp [hW]) <;> repeat' ((first | split | apply forAll_step | apply forAll_keep | apply foldl_step | apply foldl_keep | intro _) <;> try simp [hW])

@[simp] theorem sessionSetup_kept (o protocol tls : Nat) (pnc : Bool) (s : State) (hW : [.outs, .freeIx, .flt, .paths, .pair, .acq, .veh, .rcd] ⊆ F) : Kept F s₀ (sessionSetup o protocol tls pnc s) ↔ Kept F s₀ s := by
  simp at hW; (unfold sessionSetup; try simp [hW]) <;> repeat' ((first | split | apply forAll_step | apply forAll_keep | apply foldl_step | apply foldl_keep | intro _) <;> try simp [hW])

@[simp] theorem v2gEffect_kept (o : Nat) (step : V2gStep) (s : State) (hW : [.outs, .freeIx, .flt, .paths, .pair, .acq, .veh, .rcd] ⊆ F) : Kept F s₀ (v2gEffect o step s) ↔ Kept F s₀ s := by
  simp at hW; (unfold v2gEffect; try simp [hW]) <;> repeat' ((first | split | apply forAll_step | apply forAll_keep | apply foldl_step | apply foldl_keep | intro _) <;> try simp [hW])

@[simp] theorem v2gMessageEffect_kept (o : Nat) (step : V2gStep) (req : Request) (s : State) (hW : [.outs, .freeIx, .flt, .paths, .pair, .acq, .veh, .rcd] ⊆ F) : Kept F s₀ (v2gMessageEffect o step req s) ↔ Kept F s₀ s := by
  simp at hW; (unfold v2gMessageEffect; try simp [hW]) <;> repeat' ((first | split | apply forAll_step | apply forAll_keep | apply foldl_step | apply foldl_keep | intro _) <;> try simp [hW])

theorem execV2gMessageReceive_keeps {t : State} (outlet : Nat) (step : V2gStep) (req : Request) (s : State) (e : execV2gMessageReceive outlet step req s = .next t) : ∃ u, t = settle u ∧ Kept [.outs, .freeIx, .flt, .stages, .alloc, .paths, .pair, .acq, .met, .veh, .rcd] s u := by
  unfold execV2gMessageReceive vehicleRow live at e; refine ctl_keeps ?_ e; (try simp) <;> repeat' ((first | split | apply forAll_keep | apply foldl_keep | intro _) <;> try simp)

@[simp] theorem authorize_kept (o limitKw energyWh : Nat) (ref : List Byte) (s : State) (hW : [.outs, .freeIx, .flt, .alloc, .paths, .pair, .acq, .met, .veh, .rcd] ⊆ F) :
    Kept F s₀ (authorize o limitKw energyWh ref s) ↔ Kept F s₀ s := by
  unfold authorize
  generalize hu : State.modAlcOut o _ _ = u
  have k0 : Kept F s₀ u ↔ Kept F s₀ s := by subst hu; simp at hW; simp [hW]
  have k : Kept F s₀ (if u.leaseHere then engineStart o ref u else (u, none)).1 ↔ Kept F s₀ s := by
    rw [← k0]; simp at hW; split <;> simp [hW]
  simp at hW
  dsimp only
  split <;> rename_i e <;> rw [e] at k <;> simpa [hW] using k

@[simp] theorem authorizeOrWait_kept (o limitKw energyWh : Nat) (ref : List Byte) (s : State) (hW : [.outs, .freeIx, .flt, .alloc, .paths, .pair, .acq, .met, .veh, .rcd] ⊆ F) : Kept F s₀ (authorizeOrWait o limitKw energyWh ref s) ↔ Kept F s₀ s := by
  simp at hW; (unfold authorizeOrWait; try simp [hW]) <;> repeat' ((first | split | apply forAll_step | apply forAll_keep | apply foldl_step | apply foldl_keep | intro _) <;> try simp [hW])

@[simp] theorem lateStarts_kept (s : State) (hW : [.outs, .freeIx, .flt, .alloc, .paths, .pair, .acq, .met, .veh, .rcd] ⊆ F) : Kept F s₀ (lateStarts s) ↔ Kept F s₀ s := by
  simp at hW; (unfold lateStarts; try simp [hW]) <;> repeat' ((first | split | apply forAll_step | apply forAll_keep | apply foldl_step | apply foldl_keep | intro _) <;> try simp [hW])

@[simp] theorem chademoLinked_kept (o : Nat) (s : State) (hW : [.outs, .freeIx, .flt, .alloc, .paths, .pair, .acq, .met, .veh, .rcd] ⊆ F) : Kept F s₀ (chademoLinked o s) ↔ Kept F s₀ s := by
  simp at hW; (unfold chademoLinked; try simp [hW]) <;> repeat' ((first | split | apply forAll_step | apply forAll_keep | apply foldl_step | apply foldl_keep | intro _) <;> try simp [hW])

@[simp] theorem chademoSteps_kept (o : Nat) (r : ChademoReport) (s : State) (hW : [.outs, .flt, .paths, .pair, .acq, .veh, .rcd] ⊆ F) : Kept F s₀ (chademoSteps o r s) ↔ Kept F s₀ s := by
  simp at hW; (unfold chademoSteps; try simp [hW]) <;> repeat' ((first | split | apply forAll_step | apply forAll_keep | apply foldl_step | apply foldl_keep | intro _) <;> try simp [hW])

@[simp] theorem chademoMessageEffect_kept (o id : Nat) (r : ChademoReport) (s : State) (hW : [.outs, .freeIx, .flt, .alloc, .paths, .pair, .acq, .met, .veh, .rcd] ⊆ F) : Kept F s₀ (chademoMessageEffect o id r s) ↔ Kept F s₀ s := by
  simp at hW; (unfold chademoMessageEffect; try simp [hW]) <;> repeat' ((first | split | apply forAll_step | apply forAll_keep | apply foldl_step | apply foldl_keep | intro _) <;> try simp [hW])

theorem execChademoMessageReceive_keeps {t : State} (outlet id : Nat) (report : ChademoReport) (s : State) (e : execChademoMessageReceive outlet id report s = .next t) : ∃ u, t = settle u ∧ Kept [.outs, .freeIx, .flt, .stages, .alloc, .paths, .pair, .acq, .met, .veh, .rcd] s u := by
  unfold execChademoMessageReceive vehicleRow live at e; refine ctl_keeps ?_ e; (try simp) <;> repeat' ((first | split | apply forAll_keep | apply foldl_keep | intro _) <;> try simp)

@[simp] theorem chademoTxEffect_kept (o : Nat) (s : State) (hW : [.outs, .freeIx, .veh] ⊆ F) : Kept F s₀ (chademoTxEffect o s) ↔ Kept F s₀ s := by
  simp at hW; (unfold chademoTxEffect; try simp [hW]) <;> repeat' ((first | split | apply forAll_step | apply forAll_keep | apply foldl_step | apply foldl_keep | intro _) <;> try simp [hW])

theorem execChademoTxTick_keeps {t : State} (outlet : Nat) (s : State) (e : execChademoTxTick outlet s = .next t) : ∃ u, t = settle u ∧ Kept [.outs, .freeIx, .flt, .stages, .alloc, .paths, .pair, .acq, .met, .veh, .rcd] s u := by
  unfold execChademoTxTick vehicleRow live at e; refine ctl_keeps ?_ e; (try simp) <;> repeat' ((first | split | apply forAll_keep | apply foldl_keep | intro _) <;> try simp)

@[simp] theorem canLost_kept (o detail : Nat) (s : State) (hW : [.outs, .flt, .stages, .paths, .pair, .acq, .veh, .rcd] ⊆ F) : Kept F s₀ (canLost o detail s) ↔ Kept F s₀ s := by
  simp at hW; (unfold canLost; try simp [hW]) <;> repeat' ((first | split | apply forAll_step | apply forAll_keep | apply foldl_step | apply foldl_keep | intro _) <;> try simp [hW])

@[simp] theorem canLossEffect_kept (o : Nat) (s : State) (hW : [.outs, .flt, .stages, .paths, .pair, .acq, .veh, .rcd] ⊆ F) : Kept F s₀ (canLossEffect o s) ↔ Kept F s₀ s := by
  simp at hW; (unfold canLossEffect; try simp [hW]) <;> repeat' ((first | split | apply forAll_step | apply forAll_keep | apply foldl_step | apply foldl_keep | intro _) <;> try simp [hW])

theorem execCanLoss_keeps {t : State} (outlet : Nat) (s : State) (e : execCanLoss outlet s = .next t) : ∃ u, t = settle u ∧ Kept [.outs, .freeIx, .flt, .stages, .alloc, .paths, .pair, .acq, .met, .veh, .rcd] s u := by
  unfold execCanLoss vehicleRow live at e; refine ctl_keeps ?_ e; (try simp) <;> repeat' ((first | split | apply forAll_keep | apply foldl_keep | intro _) <;> try simp)

@[simp] theorem authTimeoutEffect_kept (o : Nat) (s : State) (hW : [.outs, .flt, .paths, .pair, .acq, .veh, .rcd] ⊆ F) : Kept F s₀ (authTimeoutEffect o s) ↔ Kept F s₀ s := by
  simp at hW; (unfold authTimeoutEffect; try simp [hW]) <;> repeat' ((first | split | apply forAll_step | apply forAll_keep | apply foldl_step | apply foldl_keep | intro _) <;> try simp [hW])

theorem execAuthTimeout_keeps {t : State} (outlet : Nat) (s : State) (e : execAuthTimeout outlet s = .next t) : ∃ u, t = settle u ∧ Kept [.outs, .freeIx, .flt, .stages, .alloc, .paths, .pair, .acq, .met, .veh, .rcd] s u := by
  unfold execAuthTimeout vehicleRow live at e; refine ctl_keeps ?_ e; (try simp) <;> repeat' ((first | split | apply forAll_keep | apply foldl_keep | intro _) <;> try simp)

theorem execChademoUnplugTimer_keeps {t : State} (outlet : Nat) (s : State) (e : execChademoUnplugTimer outlet s = .next t) : ∃ u, t = settle u ∧ Kept [.outs, .freeIx, .flt, .stages, .alloc, .paths, .pair, .acq, .met, .veh, .rcd] s u := by
  unfold execChademoUnplugTimer vehicleRow live at e; refine ctl_keeps ?_ e; (try simp) <;> repeat' ((first | split | apply forAll_keep | apply foldl_keep | intro _) <;> try simp)

theorem execMsgTimeout_keeps {t : State} (outlet code : Nat) (s : State) (e : execMsgTimeout outlet code s = .next t) : ∃ u, t = settle u ∧ Kept [.outs, .freeIx, .flt, .stages, .alloc, .paths, .pair, .acq, .met, .veh, .rcd] s u := by
  unfold execMsgTimeout vehicleRow live at e; refine ctl_keeps ?_ e; (try simp) <;> repeat' ((first | split | apply forAll_keep | apply foldl_keep | intro _) <;> try simp)

theorem execStarved_keeps {t : State} (outlet : Nat) (s : State) (e : execStarved outlet s = .next t) : ∃ u, t = settle u ∧ Kept [.outs, .freeIx, .flt, .stages, .alloc, .paths, .pair, .acq, .met, .veh, .rcd] s u := by
  unfold execStarved vehicleRow live at e; refine ctl_keeps ?_ e; (try simp) <;> repeat' ((first | split | apply forAll_keep | apply foldl_keep | intro _) <;> try simp)

theorem execNoStageRetry_keeps {t : State} (outlet : Nat) (s : State) (e : execNoStageRetry outlet s = .next t) : ∃ u, t = settle u ∧ Kept [.outs, .freeIx, .flt, .stages, .alloc, .paths, .pair, .acq, .met, .veh, .rcd] s u := by
  unfold execNoStageRetry vehicleRow live at e; refine ctl_keeps ?_ e; (try simp) <;> repeat' ((first | split | apply forAll_keep | apply foldl_keep | intro _) <;> try simp)

theorem execEnergyLimitPoll_keeps {t : State} (outlet : Nat) (s : State) (e : execEnergyLimitPoll outlet s = .next t) : ∃ u, t = settle u ∧ Kept [.outs, .freeIx, .flt, .stages, .alloc, .paths, .pair, .acq, .met, .veh, .rcd] s u := by
  unfold execEnergyLimitPoll vehicleRow live at e; refine ctl_keeps ?_ e; (try simp) <;> repeat' ((first | split | apply forAll_keep | apply foldl_keep | intro _) <;> try simp)

@[simp] theorem permissionEffect_kept (o : Nat) (high : Bool) (s : State) (hW : [.outs, .flt, .paths, .pair, .acq, .veh, .rcd] ⊆ F) : Kept F s₀ (permissionEffect o high s) ↔ Kept F s₀ s := by
  simp at hW; (unfold permissionEffect; try simp [hW]) <;> repeat' ((first | split | apply forAll_step | apply forAll_keep | apply foldl_step | apply foldl_keep | intro _) <;> try simp [hW])

theorem execChargePermissionChange_keeps {t : State} (outlet : Nat) (high : Bool) (s : State) (e : execChargePermissionChange outlet high s = .next t) : ∃ u, t = settle u ∧ Kept [.outs, .freeIx, .flt, .stages, .alloc, .paths, .pair, .acq, .met, .veh, .rcd] s u := by
  unfold execChargePermissionChange vehicleRow live at e; refine ctl_keeps ?_ e; (try simp) <;> repeat' ((first | split | apply forAll_keep | apply foldl_keep | intro _) <;> try simp)

@[simp] theorem sessionAuthorizeOp_kept (d : Desc) (s : State) (hW : [.outs, .freeIx, .flt, .stages, .alloc, .paths, .pair, .acq, .met, .veh, .rcd] ⊆ F) : Kept F s₀ (sessionAuthorizeOp d s).1 ↔ Kept F s₀ s := by
  simp at hW; (unfold sessionAuthorizeOp; try simp [hW]) <;> repeat' ((first | split | apply forAll_step | apply forAll_keep | apply foldl_step | apply foldl_keep | intro _) <;> try simp [hW])

theorem execSessionAuthorize_keeps {t : State} (d : Desc) (s : State) (e : execSessionAuthorize d s = .next t) : ∃ u, t = settle u ∧ Kept [.outs, .freeIx, .host, .flt, .stages, .alloc, .paths, .pair, .acq, .met, .veh, .rcd, .rings, .faults] s u := by
  unfold execSessionAuthorize live at e; refine ctl_keeps ?_ e; (try simp) <;> repeat' ((first | split | apply forAll_keep | apply foldl_keep | intro _) <;> try simp)

@[simp] theorem sessionEndOp_kept (d : Desc) (s : State) (hW : [.outs, .freeIx, .flt, .stages, .alloc, .paths, .pair, .acq, .met, .veh, .rcd] ⊆ F) : Kept F s₀ (sessionEndOp d s).1 ↔ Kept F s₀ s := by
  simp at hW; (unfold sessionEndOp; try simp [hW]) <;> repeat' ((first | split | apply forAll_step | apply forAll_keep | apply foldl_step | apply foldl_keep | intro _) <;> try simp [hW])

theorem execSessionEnd_keeps {t : State} (d : Desc) (s : State) (e : execSessionEnd d s = .next t) : ∃ u, t = settle u ∧ Kept [.outs, .freeIx, .host, .flt, .stages, .alloc, .paths, .pair, .acq, .met, .veh, .rcd, .rings, .faults] s u := by
  unfold execSessionEnd live at e; refine ctl_keeps ?_ e; (try simp) <;> repeat' ((first | split | apply forAll_keep | apply foldl_keep | intro _) <;> try simp)

end Sys2Proof.Machine
end

