-- ==== Sys2Proof/Laws/State.lean ====
section
/-! SUPPORT. One lemma for each field under each named update of the state. -/

namespace Sys2Proof.Machine

@[simp] theorem State.modPwr_pending (f : Pwr → Pwr) (s : State) : (s.modPwr f).pending = s.pending := rfl
@[simp] theorem State.modPwr_now (f : Pwr → Pwr) (s : State) : (s.modPwr f).now = s.now := rfl
@[simp] theorem State.modPwr_outs (f : Pwr → Pwr) (s : State) : (s.modPwr f).outs = s.outs := rfl
@[simp] theorem State.modPwr_freeIx (f : Pwr → Pwr) (s : State) : (s.modPwr f).freeIx = s.freeIx := rfl
@[simp] theorem State.modPwr_pwr (f : Pwr → Pwr) (s : State) : (s.modPwr f).pwr = f s.pwr := rfl
@[simp] theorem State.modPwr_host (f : Pwr → Pwr) (s : State) : (s.modPwr f).host = s.host := rfl
@[simp] theorem State.modPwr_flt (f : Pwr → Pwr) (s : State) : (s.modPwr f).flt = s.flt := rfl
@[simp] theorem State.modPwr_prof (f : Pwr → Pwr) (s : State) : (s.modPwr f).prof = s.prof := rfl
@[simp] theorem State.modPwr_stages (f : Pwr → Pwr) (s : State) : (s.modPwr f).stages = s.stages := rfl
@[simp] theorem State.modPwr_alloc (f : Pwr → Pwr) (s : State) : (s.modPwr f).alloc = s.alloc := rfl
@[simp] theorem State.modPwr_paths (f : Pwr → Pwr) (s : State) : (s.modPwr f).paths = s.paths := rfl
@[simp] theorem State.modPwr_law (f : Pwr → Pwr) (s : State) : (s.modPwr f).law = s.law := rfl
@[simp] theorem State.modPwr_lanes (f : Pwr → Pwr) (s : State) : (s.modPwr f).lanes = s.lanes := rfl
@[simp] theorem State.modPwr_pair (f : Pwr → Pwr) (s : State) : (s.modPwr f).pair = s.pair := rfl
@[simp] theorem State.modPwr_acq (f : Pwr → Pwr) (s : State) : (s.modPwr f).acq = s.acq := rfl
@[simp] theorem State.modPwr_thm (f : Pwr → Pwr) (s : State) : (s.modPwr f).thm = s.thm := rfl
@[simp] theorem State.modPwr_sw (f : Pwr → Pwr) (s : State) : (s.modPwr f).sw = s.sw := rfl
@[simp] theorem State.modPwr_met (f : Pwr → Pwr) (s : State) : (s.modPwr f).met = s.met := rfl
@[simp] theorem State.modPwr_veh (f : Pwr → Pwr) (s : State) : (s.modPwr f).veh = s.veh := rfl
@[simp] theorem State.modPwr_civil (f : Pwr → Pwr) (s : State) : (s.modPwr f).civil = s.civil := rfl
@[simp] theorem State.modPwr_key (f : Pwr → Pwr) (s : State) : (s.modPwr f).key = s.key := rfl
@[simp] theorem State.modPwr_can (f : Pwr → Pwr) (s : State) : (s.modPwr f).can = s.can := rfl
@[simp] theorem State.modPwr_plc (f : Pwr → Pwr) (s : State) : (s.modPwr f).plc = s.plc := rfl
@[simp] theorem State.modPwr_rcd (f : Pwr → Pwr) (s : State) : (s.modPwr f).rcd = s.rcd := rfl

@[simp] theorem State.modHost_pending (f : HostIf → HostIf) (s : State) : (s.modHost f).pending = s.pending := rfl
@[simp] theorem State.modHost_now (f : HostIf → HostIf) (s : State) : (s.modHost f).now = s.now := rfl
@[simp] theorem State.modHost_outs (f : HostIf → HostIf) (s : State) : (s.modHost f).outs = s.outs := rfl
@[simp] theorem State.modHost_freeIx (f : HostIf → HostIf) (s : State) : (s.modHost f).freeIx = s.freeIx := rfl
@[simp] theorem State.modHost_pwr (f : HostIf → HostIf) (s : State) : (s.modHost f).pwr = s.pwr := rfl
@[simp] theorem State.modHost_host (f : HostIf → HostIf) (s : State) : (s.modHost f).host = f s.host := rfl
@[simp] theorem State.modHost_flt (f : HostIf → HostIf) (s : State) : (s.modHost f).flt = s.flt := rfl
@[simp] theorem State.modHost_prof (f : HostIf → HostIf) (s : State) : (s.modHost f).prof = s.prof := rfl
@[simp] theorem State.modHost_stages (f : HostIf → HostIf) (s : State) : (s.modHost f).stages = s.stages := rfl
@[simp] theorem State.modHost_alloc (f : HostIf → HostIf) (s : State) : (s.modHost f).alloc = s.alloc := rfl
@[simp] theorem State.modHost_paths (f : HostIf → HostIf) (s : State) : (s.modHost f).paths = s.paths := rfl
@[simp] theorem State.modHost_law (f : HostIf → HostIf) (s : State) : (s.modHost f).law = s.law := rfl
@[simp] theorem State.modHost_lanes (f : HostIf → HostIf) (s : State) : (s.modHost f).lanes = s.lanes := rfl
@[simp] theorem State.modHost_pair (f : HostIf → HostIf) (s : State) : (s.modHost f).pair = s.pair := rfl
@[simp] theorem State.modHost_acq (f : HostIf → HostIf) (s : State) : (s.modHost f).acq = s.acq := rfl
@[simp] theorem State.modHost_thm (f : HostIf → HostIf) (s : State) : (s.modHost f).thm = s.thm := rfl
@[simp] theorem State.modHost_sw (f : HostIf → HostIf) (s : State) : (s.modHost f).sw = s.sw := rfl
@[simp] theorem State.modHost_met (f : HostIf → HostIf) (s : State) : (s.modHost f).met = s.met := rfl
@[simp] theorem State.modHost_veh (f : HostIf → HostIf) (s : State) : (s.modHost f).veh = s.veh := rfl
@[simp] theorem State.modHost_civil (f : HostIf → HostIf) (s : State) : (s.modHost f).civil = s.civil := rfl
@[simp] theorem State.modHost_key (f : HostIf → HostIf) (s : State) : (s.modHost f).key = s.key := rfl
@[simp] theorem State.modHost_can (f : HostIf → HostIf) (s : State) : (s.modHost f).can = s.can := rfl
@[simp] theorem State.modHost_plc (f : HostIf → HostIf) (s : State) : (s.modHost f).plc = s.plc := rfl
@[simp] theorem State.modHost_rcd (f : HostIf → HostIf) (s : State) : (s.modHost f).rcd = s.rcd := rfl

@[simp] theorem State.modFlt_pending (f : Flt → Flt) (s : State) : (s.modFlt f).pending = s.pending := rfl
@[simp] theorem State.modFlt_now (f : Flt → Flt) (s : State) : (s.modFlt f).now = s.now := rfl
@[simp] theorem State.modFlt_outs (f : Flt → Flt) (s : State) : (s.modFlt f).outs = s.outs := rfl
@[simp] theorem State.modFlt_freeIx (f : Flt → Flt) (s : State) : (s.modFlt f).freeIx = s.freeIx := rfl
@[simp] theorem State.modFlt_pwr (f : Flt → Flt) (s : State) : (s.modFlt f).pwr = s.pwr := rfl
@[simp] theorem State.modFlt_host (f : Flt → Flt) (s : State) : (s.modFlt f).host = s.host := rfl
@[simp] theorem State.modFlt_flt (f : Flt → Flt) (s : State) : (s.modFlt f).flt = f s.flt := rfl
@[simp] theorem State.modFlt_prof (f : Flt → Flt) (s : State) : (s.modFlt f).prof = s.prof := rfl
@[simp] theorem State.modFlt_stages (f : Flt → Flt) (s : State) : (s.modFlt f).stages = s.stages := rfl
@[simp] theorem State.modFlt_alloc (f : Flt → Flt) (s : State) : (s.modFlt f).alloc = s.alloc := rfl
@[simp] theorem State.modFlt_paths (f : Flt → Flt) (s : State) : (s.modFlt f).paths = s.paths := rfl
@[simp] theorem State.modFlt_law (f : Flt → Flt) (s : State) : (s.modFlt f).law = s.law := rfl
@[simp] theorem State.modFlt_lanes (f : Flt → Flt) (s : State) : (s.modFlt f).lanes = s.lanes := rfl
@[simp] theorem State.modFlt_pair (f : Flt → Flt) (s : State) : (s.modFlt f).pair = s.pair := rfl
@[simp] theorem State.modFlt_acq (f : Flt → Flt) (s : State) : (s.modFlt f).acq = s.acq := rfl
@[simp] theorem State.modFlt_thm (f : Flt → Flt) (s : State) : (s.modFlt f).thm = s.thm := rfl
@[simp] theorem State.modFlt_sw (f : Flt → Flt) (s : State) : (s.modFlt f).sw = s.sw := rfl
@[simp] theorem State.modFlt_met (f : Flt → Flt) (s : State) : (s.modFlt f).met = s.met := rfl
@[simp] theorem State.modFlt_veh (f : Flt → Flt) (s : State) : (s.modFlt f).veh = s.veh := rfl
@[simp] theorem State.modFlt_civil (f : Flt → Flt) (s : State) : (s.modFlt f).civil = s.civil := rfl
@[simp] theorem State.modFlt_key (f : Flt → Flt) (s : State) : (s.modFlt f).key = s.key := rfl
@[simp] theorem State.modFlt_can (f : Flt → Flt) (s : State) : (s.modFlt f).can = s.can := rfl
@[simp] theorem State.modFlt_plc (f : Flt → Flt) (s : State) : (s.modFlt f).plc = s.plc := rfl
@[simp] theorem State.modFlt_rcd (f : Flt → Flt) (s : State) : (s.modFlt f).rcd = s.rcd := rfl

@[simp] theorem State.modProf_pending (f : ProfileStore → ProfileStore) (s : State) : (s.modProf f).pending = s.pending := rfl
@[simp] theorem State.modProf_now (f : ProfileStore → ProfileStore) (s : State) : (s.modProf f).now = s.now := rfl
@[simp] theorem State.modProf_outs (f : ProfileStore → ProfileStore) (s : State) : (s.modProf f).outs = s.outs := rfl
@[simp] theorem State.modProf_freeIx (f : ProfileStore → ProfileStore) (s : State) : (s.modProf f).freeIx = s.freeIx := rfl
@[simp] theorem State.modProf_pwr (f : ProfileStore → ProfileStore) (s : State) : (s.modProf f).pwr = s.pwr := rfl
@[simp] theorem State.modProf_host (f : ProfileStore → ProfileStore) (s : State) : (s.modProf f).host = s.host := rfl
@[simp] theorem State.modProf_flt (f : ProfileStore → ProfileStore) (s : State) : (s.modProf f).flt = s.flt := rfl
@[simp] theorem State.modProf_prof (f : ProfileStore → ProfileStore) (s : State) : (s.modProf f).prof = f s.prof := rfl
@[simp] theorem State.modProf_stages (f : ProfileStore → ProfileStore) (s : State) : (s.modProf f).stages = s.stages := rfl
@[simp] theorem State.modProf_alloc (f : ProfileStore → ProfileStore) (s : State) : (s.modProf f).alloc = s.alloc := rfl
@[simp] theorem State.modProf_paths (f : ProfileStore → ProfileStore) (s : State) : (s.modProf f).paths = s.paths := rfl
@[simp] theorem State.modProf_law (f : ProfileStore → ProfileStore) (s : State) : (s.modProf f).law = s.law := rfl
@[simp] theorem State.modProf_lanes (f : ProfileStore → ProfileStore) (s : State) : (s.modProf f).lanes = s.lanes := rfl
@[simp] theorem State.modProf_pair (f : ProfileStore → ProfileStore) (s : State) : (s.modProf f).pair = s.pair := rfl
@[simp] theorem State.modProf_acq (f : ProfileStore → ProfileStore) (s : State) : (s.modProf f).acq = s.acq := rfl
@[simp] theorem State.modProf_thm (f : ProfileStore → ProfileStore) (s : State) : (s.modProf f).thm = s.thm := rfl
@[simp] theorem State.modProf_sw (f : ProfileStore → ProfileStore) (s : State) : (s.modProf f).sw = s.sw := rfl
@[simp] theorem State.modProf_met (f : ProfileStore → ProfileStore) (s : State) : (s.modProf f).met = s.met := rfl
@[simp] theorem State.modProf_veh (f : ProfileStore → ProfileStore) (s : State) : (s.modProf f).veh = s.veh := rfl
@[simp] theorem State.modProf_civil (f : ProfileStore → ProfileStore) (s : State) : (s.modProf f).civil = s.civil := rfl
@[simp] theorem State.modProf_key (f : ProfileStore → ProfileStore) (s : State) : (s.modProf f).key = s.key := rfl
@[simp] theorem State.modProf_can (f : ProfileStore → ProfileStore) (s : State) : (s.modProf f).can = s.can := rfl
@[simp] theorem State.modProf_plc (f : ProfileStore → ProfileStore) (s : State) : (s.modProf f).plc = s.plc := rfl
@[simp] theorem State.modProf_rcd (f : ProfileStore → ProfileStore) (s : State) : (s.modProf f).rcd = s.rcd := rfl

@[simp] theorem State.modStage_pending (i : Nat) (f : Stage → Stage) (s : State) : (s.modStage i f).pending = s.pending := rfl
@[simp] theorem State.modStage_now (i : Nat) (f : Stage → Stage) (s : State) : (s.modStage i f).now = s.now := rfl
@[simp] theorem State.modStage_outs (i : Nat) (f : Stage → Stage) (s : State) : (s.modStage i f).outs = s.outs := rfl
@[simp] theorem State.modStage_freeIx (i : Nat) (f : Stage → Stage) (s : State) : (s.modStage i f).freeIx = s.freeIx := rfl
@[simp] theorem State.modStage_pwr (i : Nat) (f : Stage → Stage) (s : State) : (s.modStage i f).pwr = s.pwr := rfl
@[simp] theorem State.modStage_host (i : Nat) (f : Stage → Stage) (s : State) : (s.modStage i f).host = s.host := rfl
@[simp] theorem State.modStage_flt (i : Nat) (f : Stage → Stage) (s : State) : (s.modStage i f).flt = s.flt := rfl
@[simp] theorem State.modStage_prof (i : Nat) (f : Stage → Stage) (s : State) : (s.modStage i f).prof = s.prof := rfl
@[simp] theorem State.modStage_stages (i : Nat) (f : Stage → Stage) (s : State) : (s.modStage i f).stages = upd s.stages i f := rfl
@[simp] theorem State.modStage_alloc (i : Nat) (f : Stage → Stage) (s : State) : (s.modStage i f).alloc = s.alloc := rfl
@[simp] theorem State.modStage_paths (i : Nat) (f : Stage → Stage) (s : State) : (s.modStage i f).paths = s.paths := rfl
@[simp] theorem State.modStage_law (i : Nat) (f : Stage → Stage) (s : State) : (s.modStage i f).law = s.law := rfl
@[simp] theorem State.modStage_lanes (i : Nat) (f : Stage → Stage) (s : State) : (s.modStage i f).lanes = s.lanes := rfl
@[simp] theorem State.modStage_pair (i : Nat) (f : Stage → Stage) (s : State) : (s.modStage i f).pair = s.pair := rfl
@[simp] theorem State.modStage_acq (i : Nat) (f : Stage → Stage) (s : State) : (s.modStage i f).acq = s.acq := rfl
@[simp] theorem State.modStage_thm (i : Nat) (f : Stage → Stage) (s : State) : (s.modStage i f).thm = s.thm := rfl
@[simp] theorem State.modStage_sw (i : Nat) (f : Stage → Stage) (s : State) : (s.modStage i f).sw = s.sw := rfl
@[simp] theorem State.modStage_met (i : Nat) (f : Stage → Stage) (s : State) : (s.modStage i f).met = s.met := rfl
@[simp] theorem State.modStage_veh (i : Nat) (f : Stage → Stage) (s : State) : (s.modStage i f).veh = s.veh := rfl
@[simp] theorem State.modStage_civil (i : Nat) (f : Stage → Stage) (s : State) : (s.modStage i f).civil = s.civil := rfl
@[simp] theorem State.modStage_key (i : Nat) (f : Stage → Stage) (s : State) : (s.modStage i f).key = s.key := rfl
@[simp] theorem State.modStage_can (i : Nat) (f : Stage → Stage) (s : State) : (s.modStage i f).can = s.can := rfl
@[simp] theorem State.modStage_plc (i : Nat) (f : Stage → Stage) (s : State) : (s.modStage i f).plc = s.plc := rfl
@[simp] theorem State.modStage_rcd (i : Nat) (f : Stage → Stage) (s : State) : (s.modStage i f).rcd = s.rcd := rfl

@[simp] theorem State.modAlloc_pending (f : Alloc → Alloc) (s : State) : (s.modAlloc f).pending = s.pending := rfl
@[simp] theorem State.modAlloc_now (f : Alloc → Alloc) (s : State) : (s.modAlloc f).now = s.now := rfl
@[simp] theorem State.modAlloc_outs (f : Alloc → Alloc) (s : State) : (s.modAlloc f).outs = s.outs := rfl
@[simp] theorem State.modAlloc_freeIx (f : Alloc → Alloc) (s : State) : (s.modAlloc f).freeIx = s.freeIx := rfl
@[simp] theorem State.modAlloc_pwr (f : Alloc → Alloc) (s : State) : (s.modAlloc f).pwr = s.pwr := rfl
@[simp] theorem State.modAlloc_host (f : Alloc → Alloc) (s : State) : (s.modAlloc f).host = s.host := rfl
@[simp] theorem State.modAlloc_flt (f : Alloc → Alloc) (s : State) : (s.modAlloc f).flt = s.flt := rfl
@[simp] theorem State.modAlloc_prof (f : Alloc → Alloc) (s : State) : (s.modAlloc f).prof = s.prof := rfl
@[simp] theorem State.modAlloc_stages (f : Alloc → Alloc) (s : State) : (s.modAlloc f).stages = s.stages := rfl
@[simp] theorem State.modAlloc_alloc (f : Alloc → Alloc) (s : State) : (s.modAlloc f).alloc = f s.alloc := rfl
@[simp] theorem State.modAlloc_paths (f : Alloc → Alloc) (s : State) : (s.modAlloc f).paths = s.paths := rfl
@[simp] theorem State.modAlloc_law (f : Alloc → Alloc) (s : State) : (s.modAlloc f).law = s.law := rfl
@[simp] theorem State.modAlloc_lanes (f : Alloc → Alloc) (s : State) : (s.modAlloc f).lanes = s.lanes := rfl
@[simp] theorem State.modAlloc_pair (f : Alloc → Alloc) (s : State) : (s.modAlloc f).pair = s.pair := rfl
@[simp] theorem State.modAlloc_acq (f : Alloc → Alloc) (s : State) : (s.modAlloc f).acq = s.acq := rfl
@[simp] theorem State.modAlloc_thm (f : Alloc → Alloc) (s : State) : (s.modAlloc f).thm = s.thm := rfl
@[simp] theorem State.modAlloc_sw (f : Alloc → Alloc) (s : State) : (s.modAlloc f).sw = s.sw := rfl
@[simp] theorem State.modAlloc_met (f : Alloc → Alloc) (s : State) : (s.modAlloc f).met = s.met := rfl
@[simp] theorem State.modAlloc_veh (f : Alloc → Alloc) (s : State) : (s.modAlloc f).veh = s.veh := rfl
@[simp] theorem State.modAlloc_civil (f : Alloc → Alloc) (s : State) : (s.modAlloc f).civil = s.civil := rfl
@[simp] theorem State.modAlloc_key (f : Alloc → Alloc) (s : State) : (s.modAlloc f).key = s.key := rfl
@[simp] theorem State.modAlloc_can (f : Alloc → Alloc) (s : State) : (s.modAlloc f).can = s.can := rfl
@[simp] theorem State.modAlloc_plc (f : Alloc → Alloc) (s : State) : (s.modAlloc f).plc = s.plc := rfl
@[simp] theorem State.modAlloc_rcd (f : Alloc → Alloc) (s : State) : (s.modAlloc f).rcd = s.rcd := rfl

@[simp] theorem State.modAlcOut_pending (i : Nat) (f : AlcOutlet → AlcOutlet) (s : State) : (s.modAlcOut i f).pending = s.pending := rfl
@[simp] theorem State.modAlcOut_now (i : Nat) (f : AlcOutlet → AlcOutlet) (s : State) : (s.modAlcOut i f).now = s.now := rfl
@[simp] theorem State.modAlcOut_outs (i : Nat) (f : AlcOutlet → AlcOutlet) (s : State) : (s.modAlcOut i f).outs = s.outs := rfl
@[simp] theorem State.modAlcOut_freeIx (i : Nat) (f : AlcOutlet → AlcOutlet) (s : State) : (s.modAlcOut i f).freeIx = s.freeIx := rfl
@[simp] theorem State.modAlcOut_pwr (i : Nat) (f : AlcOutlet → AlcOutlet) (s : State) : (s.modAlcOut i f).pwr = s.pwr := rfl
@[simp] theorem State.modAlcOut_host (i : Nat) (f : AlcOutlet → AlcOutlet) (s : State) : (s.modAlcOut i f).host = s.host := rfl
@[simp] theorem State.modAlcOut_flt (i : Nat) (f : AlcOutlet → AlcOutlet) (s : State) : (s.modAlcOut i f).flt = s.flt := rfl
@[simp] theorem State.modAlcOut_prof (i : Nat) (f : AlcOutlet → AlcOutlet) (s : State) : (s.modAlcOut i f).prof = s.prof := rfl
@[simp] theorem State.modAlcOut_stages (i : Nat) (f : AlcOutlet → AlcOutlet) (s : State) : (s.modAlcOut i f).stages = s.stages := rfl
@[simp] theorem State.modAlcOut_alloc (i : Nat) (f : AlcOutlet → AlcOutlet) (s : State) : (s.modAlcOut i f).alloc = { s.alloc with outlets := upd s.alloc.outlets i f } := rfl
@[simp] theorem State.modAlcOut_paths (i : Nat) (f : AlcOutlet → AlcOutlet) (s : State) : (s.modAlcOut i f).paths = s.paths := rfl
@[simp] theorem State.modAlcOut_law (i : Nat) (f : AlcOutlet → AlcOutlet) (s : State) : (s.modAlcOut i f).law = s.law := rfl
@[simp] theorem State.modAlcOut_lanes (i : Nat) (f : AlcOutlet → AlcOutlet) (s : State) : (s.modAlcOut i f).lanes = s.lanes := rfl
@[simp] theorem State.modAlcOut_pair (i : Nat) (f : AlcOutlet → AlcOutlet) (s : State) : (s.modAlcOut i f).pair = s.pair := rfl
@[simp] theorem State.modAlcOut_acq (i : Nat) (f : AlcOutlet → AlcOutlet) (s : State) : (s.modAlcOut i f).acq = s.acq := rfl
@[simp] theorem State.modAlcOut_thm (i : Nat) (f : AlcOutlet → AlcOutlet) (s : State) : (s.modAlcOut i f).thm = s.thm := rfl
@[simp] theorem State.modAlcOut_sw (i : Nat) (f : AlcOutlet → AlcOutlet) (s : State) : (s.modAlcOut i f).sw = s.sw := rfl
@[simp] theorem State.modAlcOut_met (i : Nat) (f : AlcOutlet → AlcOutlet) (s : State) : (s.modAlcOut i f).met = s.met := rfl
@[simp] theorem State.modAlcOut_veh (i : Nat) (f : AlcOutlet → AlcOutlet) (s : State) : (s.modAlcOut i f).veh = s.veh := rfl
@[simp] theorem State.modAlcOut_civil (i : Nat) (f : AlcOutlet → AlcOutlet) (s : State) : (s.modAlcOut i f).civil = s.civil := rfl
@[simp] theorem State.modAlcOut_key (i : Nat) (f : AlcOutlet → AlcOutlet) (s : State) : (s.modAlcOut i f).key = s.key := rfl
@[simp] theorem State.modAlcOut_can (i : Nat) (f : AlcOutlet → AlcOutlet) (s : State) : (s.modAlcOut i f).can = s.can := rfl
@[simp] theorem State.modAlcOut_plc (i : Nat) (f : AlcOutlet → AlcOutlet) (s : State) : (s.modAlcOut i f).plc = s.plc := rfl
@[simp] theorem State.modAlcOut_rcd (i : Nat) (f : AlcOutlet → AlcOutlet) (s : State) : (s.modAlcOut i f).rcd = s.rcd := rfl

@[simp] theorem State.modPath_pending (i : Nat) (f : Path → Path) (s : State) : (s.modPath i f).pending = s.pending := rfl
@[simp] theorem State.modPath_now (i : Nat) (f : Path → Path) (s : State) : (s.modPath i f).now = s.now := rfl
@[simp] theorem State.modPath_outs (i : Nat) (f : Path → Path) (s : State) : (s.modPath i f).outs = s.outs := rfl
@[simp] theorem State.modPath_freeIx (i : Nat) (f : Path → Path) (s : State) : (s.modPath i f).freeIx = s.freeIx := rfl
@[simp] theorem State.modPath_pwr (i : Nat) (f : Path → Path) (s : State) : (s.modPath i f).pwr = s.pwr := rfl
@[simp] theorem State.modPath_host (i : Nat) (f : Path → Path) (s : State) : (s.modPath i f).host = s.host := rfl
@[simp] theorem State.modPath_flt (i : Nat) (f : Path → Path) (s : State) : (s.modPath i f).flt = s.flt := rfl
@[simp] theorem State.modPath_prof (i : Nat) (f : Path → Path) (s : State) : (s.modPath i f).prof = s.prof := rfl
@[simp] theorem State.modPath_stages (i : Nat) (f : Path → Path) (s : State) : (s.modPath i f).stages = s.stages := rfl
@[simp] theorem State.modPath_alloc (i : Nat) (f : Path → Path) (s : State) : (s.modPath i f).alloc = s.alloc := rfl
@[simp] theorem State.modPath_paths (i : Nat) (f : Path → Path) (s : State) : (s.modPath i f).paths = upd s.paths i f := rfl
@[simp] theorem State.modPath_law (i : Nat) (f : Path → Path) (s : State) : (s.modPath i f).law = s.law := rfl
@[simp] theorem State.modPath_lanes (i : Nat) (f : Path → Path) (s : State) : (s.modPath i f).lanes = s.lanes := rfl
@[simp] theorem State.modPath_pair (i : Nat) (f : Path → Path) (s : State) : (s.modPath i f).pair = s.pair := rfl
@[simp] theorem State.modPath_acq (i : Nat) (f : Path → Path) (s : State) : (s.modPath i f).acq = s.acq := rfl
@[simp] theorem State.modPath_thm (i : Nat) (f : Path → Path) (s : State) : (s.modPath i f).thm = s.thm := rfl
@[simp] theorem State.modPath_sw (i : Nat) (f : Path → Path) (s : State) : (s.modPath i f).sw = s.sw := rfl
@[simp] theorem State.modPath_met (i : Nat) (f : Path → Path) (s : State) : (s.modPath i f).met = s.met := rfl
@[simp] theorem State.modPath_veh (i : Nat) (f : Path → Path) (s : State) : (s.modPath i f).veh = s.veh := rfl
@[simp] theorem State.modPath_civil (i : Nat) (f : Path → Path) (s : State) : (s.modPath i f).civil = s.civil := rfl
@[simp] theorem State.modPath_key (i : Nat) (f : Path → Path) (s : State) : (s.modPath i f).key = s.key := rfl
@[simp] theorem State.modPath_can (i : Nat) (f : Path → Path) (s : State) : (s.modPath i f).can = s.can := rfl
@[simp] theorem State.modPath_plc (i : Nat) (f : Path → Path) (s : State) : (s.modPath i f).plc = s.plc := rfl
@[simp] theorem State.modPath_rcd (i : Nat) (f : Path → Path) (s : State) : (s.modPath i f).rcd = s.rcd := rfl

@[simp] theorem State.modLaw_pending (f : Law → Law) (s : State) : (s.modLaw f).pending = s.pending := rfl
@[simp] theorem State.modLaw_now (f : Law → Law) (s : State) : (s.modLaw f).now = s.now := rfl
@[simp] theorem State.modLaw_outs (f : Law → Law) (s : State) : (s.modLaw f).outs = s.outs := rfl
@[simp] theorem State.modLaw_freeIx (f : Law → Law) (s : State) : (s.modLaw f).freeIx = s.freeIx := rfl
@[simp] theorem State.modLaw_pwr (f : Law → Law) (s : State) : (s.modLaw f).pwr = s.pwr := rfl
@[simp] theorem State.modLaw_host (f : Law → Law) (s : State) : (s.modLaw f).host = s.host := rfl
@[simp] theorem State.modLaw_flt (f : Law → Law) (s : State) : (s.modLaw f).flt = s.flt := rfl
@[simp] theorem State.modLaw_prof (f : Law → Law) (s : State) : (s.modLaw f).prof = s.prof := rfl
@[simp] theorem State.modLaw_stages (f : Law → Law) (s : State) : (s.modLaw f).stages = s.stages := rfl
@[simp] theorem State.modLaw_alloc (f : Law → Law) (s : State) : (s.modLaw f).alloc = s.alloc := rfl
@[simp] theorem State.modLaw_paths (f : Law → Law) (s : State) : (s.modLaw f).paths = s.paths := rfl
@[simp] theorem State.modLaw_law (f : Law → Law) (s : State) : (s.modLaw f).law = f s.law := rfl
@[simp] theorem State.modLaw_lanes (f : Law → Law) (s : State) : (s.modLaw f).lanes = s.lanes := rfl
@[simp] theorem State.modLaw_pair (f : Law → Law) (s : State) : (s.modLaw f).pair = s.pair := rfl
@[simp] theorem State.modLaw_acq (f : Law → Law) (s : State) : (s.modLaw f).acq = s.acq := rfl
@[simp] theorem State.modLaw_thm (f : Law → Law) (s : State) : (s.modLaw f).thm = s.thm := rfl
@[simp] theorem State.modLaw_sw (f : Law → Law) (s : State) : (s.modLaw f).sw = s.sw := rfl
@[simp] theorem State.modLaw_met (f : Law → Law) (s : State) : (s.modLaw f).met = s.met := rfl
@[simp] theorem State.modLaw_veh (f : Law → Law) (s : State) : (s.modLaw f).veh = s.veh := rfl
@[simp] theorem State.modLaw_civil (f : Law → Law) (s : State) : (s.modLaw f).civil = s.civil := rfl
@[simp] theorem State.modLaw_key (f : Law → Law) (s : State) : (s.modLaw f).key = s.key := rfl
@[simp] theorem State.modLaw_can (f : Law → Law) (s : State) : (s.modLaw f).can = s.can := rfl
@[simp] theorem State.modLaw_plc (f : Law → Law) (s : State) : (s.modLaw f).plc = s.plc := rfl
@[simp] theorem State.modLaw_rcd (f : Law → Law) (s : State) : (s.modLaw f).rcd = s.rcd := rfl

@[simp] theorem State.modEngine_pending (i : Nat) (f : Engine → Engine) (s : State) : (s.modEngine i f).pending = s.pending := rfl
@[simp] theorem State.modEngine_now (i : Nat) (f : Engine → Engine) (s : State) : (s.modEngine i f).now = s.now := rfl
@[simp] theorem State.modEngine_outs (i : Nat) (f : Engine → Engine) (s : State) : (s.modEngine i f).outs = s.outs := rfl
@[simp] theorem State.modEngine_freeIx (i : Nat) (f : Engine → Engine) (s : State) : (s.modEngine i f).freeIx = s.freeIx := rfl
@[simp] theorem State.modEngine_pwr (i : Nat) (f : Engine → Engine) (s : State) : (s.modEngine i f).pwr = s.pwr := rfl
@[simp] theorem State.modEngine_host (i : Nat) (f : Engine → Engine) (s : State) : (s.modEngine i f).host = s.host := rfl
@[simp] theorem State.modEngine_flt (i : Nat) (f : Engine → Engine) (s : State) : (s.modEngine i f).flt = s.flt := rfl
@[simp] theorem State.modEngine_prof (i : Nat) (f : Engine → Engine) (s : State) : (s.modEngine i f).prof = s.prof := rfl
@[simp] theorem State.modEngine_stages (i : Nat) (f : Engine → Engine) (s : State) : (s.modEngine i f).stages = s.stages := rfl
@[simp] theorem State.modEngine_alloc (i : Nat) (f : Engine → Engine) (s : State) : (s.modEngine i f).alloc = s.alloc := rfl
@[simp] theorem State.modEngine_paths (i : Nat) (f : Engine → Engine) (s : State) : (s.modEngine i f).paths = s.paths := rfl
@[simp] theorem State.modEngine_law (i : Nat) (f : Engine → Engine) (s : State) : (s.modEngine i f).law = { s.law with engines := upd s.law.engines i f } := rfl
@[simp] theorem State.modEngine_lanes (i : Nat) (f : Engine → Engine) (s : State) : (s.modEngine i f).lanes = s.lanes := rfl
@[simp] theorem State.modEngine_pair (i : Nat) (f : Engine → Engine) (s : State) : (s.modEngine i f).pair = s.pair := rfl
@[simp] theorem State.modEngine_acq (i : Nat) (f : Engine → Engine) (s : State) : (s.modEngine i f).acq = s.acq := rfl
@[simp] theorem State.modEngine_thm (i : Nat) (f : Engine → Engine) (s : State) : (s.modEngine i f).thm = s.thm := rfl
@[simp] theorem State.modEngine_sw (i : Nat) (f : Engine → Engine) (s : State) : (s.modEngine i f).sw = s.sw := rfl
@[simp] theorem State.modEngine_met (i : Nat) (f : Engine → Engine) (s : State) : (s.modEngine i f).met = s.met := rfl
@[simp] theorem State.modEngine_veh (i : Nat) (f : Engine → Engine) (s : State) : (s.modEngine i f).veh = s.veh := rfl
@[simp] theorem State.modEngine_civil (i : Nat) (f : Engine → Engine) (s : State) : (s.modEngine i f).civil = s.civil := rfl
@[simp] theorem State.modEngine_key (i : Nat) (f : Engine → Engine) (s : State) : (s.modEngine i f).key = s.key := rfl
@[simp] theorem State.modEngine_can (i : Nat) (f : Engine → Engine) (s : State) : (s.modEngine i f).can = s.can := rfl
@[simp] theorem State.modEngine_plc (i : Nat) (f : Engine → Engine) (s : State) : (s.modEngine i f).plc = s.plc := rfl
@[simp] theorem State.modEngine_rcd (i : Nat) (f : Engine → Engine) (s : State) : (s.modEngine i f).rcd = s.rcd := rfl

@[simp] theorem State.modLawSlot_pending (i : Nat) (f : LawSlot → LawSlot) (s : State) : (s.modLawSlot i f).pending = s.pending := rfl
@[simp] theorem State.modLawSlot_now (i : Nat) (f : LawSlot → LawSlot) (s : State) : (s.modLawSlot i f).now = s.now := rfl
@[simp] theorem State.modLawSlot_outs (i : Nat) (f : LawSlot → LawSlot) (s : State) : (s.modLawSlot i f).outs = s.outs := rfl
@[simp] theorem State.modLawSlot_freeIx (i : Nat) (f : LawSlot → LawSlot) (s : State) : (s.modLawSlot i f).freeIx = s.freeIx := rfl
@[simp] theorem State.modLawSlot_pwr (i : Nat) (f : LawSlot → LawSlot) (s : State) : (s.modLawSlot i f).pwr = s.pwr := rfl
@[simp] theorem State.modLawSlot_host (i : Nat) (f : LawSlot → LawSlot) (s : State) : (s.modLawSlot i f).host = s.host := rfl
@[simp] theorem State.modLawSlot_flt (i : Nat) (f : LawSlot → LawSlot) (s : State) : (s.modLawSlot i f).flt = s.flt := rfl
@[simp] theorem State.modLawSlot_prof (i : Nat) (f : LawSlot → LawSlot) (s : State) : (s.modLawSlot i f).prof = s.prof := rfl
@[simp] theorem State.modLawSlot_stages (i : Nat) (f : LawSlot → LawSlot) (s : State) : (s.modLawSlot i f).stages = s.stages := rfl
@[simp] theorem State.modLawSlot_alloc (i : Nat) (f : LawSlot → LawSlot) (s : State) : (s.modLawSlot i f).alloc = s.alloc := rfl
@[simp] theorem State.modLawSlot_paths (i : Nat) (f : LawSlot → LawSlot) (s : State) : (s.modLawSlot i f).paths = s.paths := rfl
@[simp] theorem State.modLawSlot_law (i : Nat) (f : LawSlot → LawSlot) (s : State) : (s.modLawSlot i f).law = { s.law with slots := upd s.law.slots i f } := rfl
@[simp] theorem State.modLawSlot_lanes (i : Nat) (f : LawSlot → LawSlot) (s : State) : (s.modLawSlot i f).lanes = s.lanes := rfl
@[simp] theorem State.modLawSlot_pair (i : Nat) (f : LawSlot → LawSlot) (s : State) : (s.modLawSlot i f).pair = s.pair := rfl
@[simp] theorem State.modLawSlot_acq (i : Nat) (f : LawSlot → LawSlot) (s : State) : (s.modLawSlot i f).acq = s.acq := rfl
@[simp] theorem State.modLawSlot_thm (i : Nat) (f : LawSlot → LawSlot) (s : State) : (s.modLawSlot i f).thm = s.thm := rfl
@[simp] theorem State.modLawSlot_sw (i : Nat) (f : LawSlot → LawSlot) (s : State) : (s.modLawSlot i f).sw = s.sw := rfl
@[simp] theorem State.modLawSlot_met (i : Nat) (f : LawSlot → LawSlot) (s : State) : (s.modLawSlot i f).met = s.met := rfl
@[simp] theorem State.modLawSlot_veh (i : Nat) (f : LawSlot → LawSlot) (s : State) : (s.modLawSlot i f).veh = s.veh := rfl
@[simp] theorem State.modLawSlot_civil (i : Nat) (f : LawSlot → LawSlot) (s : State) : (s.modLawSlot i f).civil = s.civil := rfl
@[simp] theorem State.modLawSlot_key (i : Nat) (f : LawSlot → LawSlot) (s : State) : (s.modLawSlot i f).key = s.key := rfl
@[simp] theorem State.modLawSlot_can (i : Nat) (f : LawSlot → LawSlot) (s : State) : (s.modLawSlot i f).can = s.can := rfl
@[simp] theorem State.modLawSlot_plc (i : Nat) (f : LawSlot → LawSlot) (s : State) : (s.modLawSlot i f).plc = s.plc := rfl
@[simp] theorem State.modLawSlot_rcd (i : Nat) (f : LawSlot → LawSlot) (s : State) : (s.modLawSlot i f).rcd = s.rcd := rfl

@[simp] theorem State.modLane_pending (i : Nat) (f : Lane → Lane) (s : State) : (s.modLane i f).pending = s.pending := rfl
@[simp] theorem State.modLane_now (i : Nat) (f : Lane → Lane) (s : State) : (s.modLane i f).now = s.now := rfl
@[simp] theorem State.modLane_outs (i : Nat) (f : Lane → Lane) (s : State) : (s.modLane i f).outs = s.outs := rfl
@[simp] theorem State.modLane_freeIx (i : Nat) (f : Lane → Lane) (s : State) : (s.modLane i f).freeIx = s.freeIx := rfl
@[simp] theorem State.modLane_pwr (i : Nat) (f : Lane → Lane) (s : State) : (s.modLane i f).pwr = s.pwr := rfl
@[simp] theorem State.modLane_host (i : Nat) (f : Lane → Lane) (s : State) : (s.modLane i f).host = s.host := rfl
@[simp] theorem State.modLane_flt (i : Nat) (f : Lane → Lane) (s : State) : (s.modLane i f).flt = s.flt := rfl
@[simp] theorem State.modLane_prof (i : Nat) (f : Lane → Lane) (s : State) : (s.modLane i f).prof = s.prof := rfl
@[simp] theorem State.modLane_stages (i : Nat) (f : Lane → Lane) (s : State) : (s.modLane i f).stages = s.stages := rfl
@[simp] theorem State.modLane_alloc (i : Nat) (f : Lane → Lane) (s : State) : (s.modLane i f).alloc = s.alloc := rfl
@[simp] theorem State.modLane_paths (i : Nat) (f : Lane → Lane) (s : State) : (s.modLane i f).paths = s.paths := rfl
@[simp] theorem State.modLane_law (i : Nat) (f : Lane → Lane) (s : State) : (s.modLane i f).law = s.law := rfl
@[simp] theorem State.modLane_lanes (i : Nat) (f : Lane → Lane) (s : State) : (s.modLane i f).lanes = { s.lanes with lane := upd s.lanes.lane i f } := rfl
@[simp] theorem State.modLane_pair (i : Nat) (f : Lane → Lane) (s : State) : (s.modLane i f).pair = s.pair := rfl
@[simp] theorem State.modLane_acq (i : Nat) (f : Lane → Lane) (s : State) : (s.modLane i f).acq = s.acq := rfl
@[simp] theorem State.modLane_thm (i : Nat) (f : Lane → Lane) (s : State) : (s.modLane i f).thm = s.thm := rfl
@[simp] theorem State.modLane_sw (i : Nat) (f : Lane → Lane) (s : State) : (s.modLane i f).sw = s.sw := rfl
@[simp] theorem State.modLane_met (i : Nat) (f : Lane → Lane) (s : State) : (s.modLane i f).met = s.met := rfl
@[simp] theorem State.modLane_veh (i : Nat) (f : Lane → Lane) (s : State) : (s.modLane i f).veh = s.veh := rfl
@[simp] theorem State.modLane_civil (i : Nat) (f : Lane → Lane) (s : State) : (s.modLane i f).civil = s.civil := rfl
@[simp] theorem State.modLane_key (i : Nat) (f : Lane → Lane) (s : State) : (s.modLane i f).key = s.key := rfl
@[simp] theorem State.modLane_can (i : Nat) (f : Lane → Lane) (s : State) : (s.modLane i f).can = s.can := rfl
@[simp] theorem State.modLane_plc (i : Nat) (f : Lane → Lane) (s : State) : (s.modLane i f).plc = s.plc := rfl
@[simp] theorem State.modLane_rcd (i : Nat) (f : Lane → Lane) (s : State) : (s.modLane i f).rcd = s.rcd := rfl

@[simp] theorem State.modPair_pending (f : Pair → Pair) (s : State) : (s.modPair f).pending = s.pending := rfl
@[simp] theorem State.modPair_now (f : Pair → Pair) (s : State) : (s.modPair f).now = s.now := rfl
@[simp] theorem State.modPair_outs (f : Pair → Pair) (s : State) : (s.modPair f).outs = s.outs := rfl
@[simp] theorem State.modPair_freeIx (f : Pair → Pair) (s : State) : (s.modPair f).freeIx = s.freeIx := rfl
@[simp] theorem State.modPair_pwr (f : Pair → Pair) (s : State) : (s.modPair f).pwr = s.pwr := rfl
@[simp] theorem State.modPair_host (f : Pair → Pair) (s : State) : (s.modPair f).host = s.host := rfl
@[simp] theorem State.modPair_flt (f : Pair → Pair) (s : State) : (s.modPair f).flt = s.flt := rfl
@[simp] theorem State.modPair_prof (f : Pair → Pair) (s : State) : (s.modPair f).prof = s.prof := rfl
@[simp] theorem State.modPair_stages (f : Pair → Pair) (s : State) : (s.modPair f).stages = s.stages := rfl
@[simp] theorem State.modPair_alloc (f : Pair → Pair) (s : State) : (s.modPair f).alloc = s.alloc := rfl
@[simp] theorem State.modPair_paths (f : Pair → Pair) (s : State) : (s.modPair f).paths = s.paths := rfl
@[simp] theorem State.modPair_law (f : Pair → Pair) (s : State) : (s.modPair f).law = s.law := rfl
@[simp] theorem State.modPair_lanes (f : Pair → Pair) (s : State) : (s.modPair f).lanes = s.lanes := rfl
@[simp] theorem State.modPair_pair (f : Pair → Pair) (s : State) : (s.modPair f).pair = f s.pair := rfl
@[simp] theorem State.modPair_acq (f : Pair → Pair) (s : State) : (s.modPair f).acq = s.acq := rfl
@[simp] theorem State.modPair_thm (f : Pair → Pair) (s : State) : (s.modPair f).thm = s.thm := rfl
@[simp] theorem State.modPair_sw (f : Pair → Pair) (s : State) : (s.modPair f).sw = s.sw := rfl
@[simp] theorem State.modPair_met (f : Pair → Pair) (s : State) : (s.modPair f).met = s.met := rfl
@[simp] theorem State.modPair_veh (f : Pair → Pair) (s : State) : (s.modPair f).veh = s.veh := rfl
@[simp] theorem State.modPair_civil (f : Pair → Pair) (s : State) : (s.modPair f).civil = s.civil := rfl
@[simp] theorem State.modPair_key (f : Pair → Pair) (s : State) : (s.modPair f).key = s.key := rfl
@[simp] theorem State.modPair_can (f : Pair → Pair) (s : State) : (s.modPair f).can = s.can := rfl
@[simp] theorem State.modPair_plc (f : Pair → Pair) (s : State) : (s.modPair f).plc = s.plc := rfl
@[simp] theorem State.modPair_rcd (f : Pair → Pair) (s : State) : (s.modPair f).rcd = s.rcd := rfl

@[simp] theorem State.modAcq_pending (f : Acq → Acq) (s : State) : (s.modAcq f).pending = s.pending := rfl
@[simp] theorem State.modAcq_now (f : Acq → Acq) (s : State) : (s.modAcq f).now = s.now := rfl
@[simp] theorem State.modAcq_outs (f : Acq → Acq) (s : State) : (s.modAcq f).outs = s.outs := rfl
@[simp] theorem State.modAcq_freeIx (f : Acq → Acq) (s : State) : (s.modAcq f).freeIx = s.freeIx := rfl
@[simp] theorem State.modAcq_pwr (f : Acq → Acq) (s : State) : (s.modAcq f).pwr = s.pwr := rfl
@[simp] theorem State.modAcq_host (f : Acq → Acq) (s : State) : (s.modAcq f).host = s.host := rfl
@[simp] theorem State.modAcq_flt (f : Acq → Acq) (s : State) : (s.modAcq f).flt = s.flt := rfl
@[simp] theorem State.modAcq_prof (f : Acq → Acq) (s : State) : (s.modAcq f).prof = s.prof := rfl
@[simp] theorem State.modAcq_stages (f : Acq → Acq) (s : State) : (s.modAcq f).stages = s.stages := rfl
@[simp] theorem State.modAcq_alloc (f : Acq → Acq) (s : State) : (s.modAcq f).alloc = s.alloc := rfl
@[simp] theorem State.modAcq_paths (f : Acq → Acq) (s : State) : (s.modAcq f).paths = s.paths := rfl
@[simp] theorem State.modAcq_law (f : Acq → Acq) (s : State) : (s.modAcq f).law = s.law := rfl
@[simp] theorem State.modAcq_lanes (f : Acq → Acq) (s : State) : (s.modAcq f).lanes = s.lanes := rfl
@[simp] theorem State.modAcq_pair (f : Acq → Acq) (s : State) : (s.modAcq f).pair = s.pair := rfl
@[simp] theorem State.modAcq_acq (f : Acq → Acq) (s : State) : (s.modAcq f).acq = f s.acq := rfl
@[simp] theorem State.modAcq_thm (f : Acq → Acq) (s : State) : (s.modAcq f).thm = s.thm := rfl
@[simp] theorem State.modAcq_sw (f : Acq → Acq) (s : State) : (s.modAcq f).sw = s.sw := rfl
@[simp] theorem State.modAcq_met (f : Acq → Acq) (s : State) : (s.modAcq f).met = s.met := rfl
@[simp] theorem State.modAcq_veh (f : Acq → Acq) (s : State) : (s.modAcq f).veh = s.veh := rfl
@[simp] theorem State.modAcq_civil (f : Acq → Acq) (s : State) : (s.modAcq f).civil = s.civil := rfl
@[simp] theorem State.modAcq_key (f : Acq → Acq) (s : State) : (s.modAcq f).key = s.key := rfl
@[simp] theorem State.modAcq_can (f : Acq → Acq) (s : State) : (s.modAcq f).can = s.can := rfl
@[simp] theorem State.modAcq_plc (f : Acq → Acq) (s : State) : (s.modAcq f).plc = s.plc := rfl
@[simp] theorem State.modAcq_rcd (f : Acq → Acq) (s : State) : (s.modAcq f).rcd = s.rcd := rfl

@[simp] theorem State.modUnit_pending (i : Nat) (f : CapUnit → CapUnit) (s : State) : (s.modUnit i f).pending = s.pending := rfl
@[simp] theorem State.modUnit_now (i : Nat) (f : CapUnit → CapUnit) (s : State) : (s.modUnit i f).now = s.now := rfl
@[simp] theorem State.modUnit_outs (i : Nat) (f : CapUnit → CapUnit) (s : State) : (s.modUnit i f).outs = s.outs := rfl
@[simp] theorem State.modUnit_freeIx (i : Nat) (f : CapUnit → CapUnit) (s : State) : (s.modUnit i f).freeIx = s.freeIx := rfl
@[simp] theorem State.modUnit_pwr (i : Nat) (f : CapUnit → CapUnit) (s : State) : (s.modUnit i f).pwr = s.pwr := rfl
@[simp] theorem State.modUnit_host (i : Nat) (f : CapUnit → CapUnit) (s : State) : (s.modUnit i f).host = s.host := rfl
@[simp] theorem State.modUnit_flt (i : Nat) (f : CapUnit → CapUnit) (s : State) : (s.modUnit i f).flt = s.flt := rfl
@[simp] theorem State.modUnit_prof (i : Nat) (f : CapUnit → CapUnit) (s : State) : (s.modUnit i f).prof = s.prof := rfl
@[simp] theorem State.modUnit_stages (i : Nat) (f : CapUnit → CapUnit) (s : State) : (s.modUnit i f).stages = s.stages := rfl
@[simp] theorem State.modUnit_alloc (i : Nat) (f : CapUnit → CapUnit) (s : State) : (s.modUnit i f).alloc = s.alloc := rfl
@[simp] theorem State.modUnit_paths (i : Nat) (f : CapUnit → CapUnit) (s : State) : (s.modUnit i f).paths = s.paths := rfl
@[simp] theorem State.modUnit_law (i : Nat) (f : CapUnit → CapUnit) (s : State) : (s.modUnit i f).law = s.law := rfl
@[simp] theorem State.modUnit_lanes (i : Nat) (f : CapUnit → CapUnit) (s : State) : (s.modUnit i f).lanes = s.lanes := rfl
@[simp] theorem State.modUnit_pair (i : Nat) (f : CapUnit → CapUnit) (s : State) : (s.modUnit i f).pair = s.pair := rfl
@[simp] theorem State.modUnit_acq (i : Nat) (f : CapUnit → CapUnit) (s : State) : (s.modUnit i f).acq = { s.acq with units := upd s.acq.units i f } := rfl
@[simp] theorem State.modUnit_thm (i : Nat) (f : CapUnit → CapUnit) (s : State) : (s.modUnit i f).thm = s.thm := rfl
@[simp] theorem State.modUnit_sw (i : Nat) (f : CapUnit → CapUnit) (s : State) : (s.modUnit i f).sw = s.sw := rfl
@[simp] theorem State.modUnit_met (i : Nat) (f : CapUnit → CapUnit) (s : State) : (s.modUnit i f).met = s.met := rfl
@[simp] theorem State.modUnit_veh (i : Nat) (f : CapUnit → CapUnit) (s : State) : (s.modUnit i f).veh = s.veh := rfl
@[simp] theorem State.modUnit_civil (i : Nat) (f : CapUnit → CapUnit) (s : State) : (s.modUnit i f).civil = s.civil := rfl
@[simp] theorem State.modUnit_key (i : Nat) (f : CapUnit → CapUnit) (s : State) : (s.modUnit i f).key = s.key := rfl
@[simp] theorem State.modUnit_can (i : Nat) (f : CapUnit → CapUnit) (s : State) : (s.modUnit i f).can = s.can := rfl
@[simp] theorem State.modUnit_plc (i : Nat) (f : CapUnit → CapUnit) (s : State) : (s.modUnit i f).plc = s.plc := rfl
@[simp] theorem State.modUnit_rcd (i : Nat) (f : CapUnit → CapUnit) (s : State) : (s.modUnit i f).rcd = s.rcd := rfl

@[simp] theorem State.modRec_pending (f : Recorder → Recorder) (s : State) : (s.modRec f).pending = s.pending := rfl
@[simp] theorem State.modRec_now (f : Recorder → Recorder) (s : State) : (s.modRec f).now = s.now := rfl
@[simp] theorem State.modRec_outs (f : Recorder → Recorder) (s : State) : (s.modRec f).outs = s.outs := rfl
@[simp] theorem State.modRec_freeIx (f : Recorder → Recorder) (s : State) : (s.modRec f).freeIx = s.freeIx := rfl
@[simp] theorem State.modRec_pwr (f : Recorder → Recorder) (s : State) : (s.modRec f).pwr = s.pwr := rfl
@[simp] theorem State.modRec_host (f : Recorder → Recorder) (s : State) : (s.modRec f).host = s.host := rfl
@[simp] theorem State.modRec_flt (f : Recorder → Recorder) (s : State) : (s.modRec f).flt = s.flt := rfl
@[simp] theorem State.modRec_prof (f : Recorder → Recorder) (s : State) : (s.modRec f).prof = s.prof := rfl
@[simp] theorem State.modRec_stages (f : Recorder → Recorder) (s : State) : (s.modRec f).stages = s.stages := rfl
@[simp] theorem State.modRec_alloc (f : Recorder → Recorder) (s : State) : (s.modRec f).alloc = s.alloc := rfl
@[simp] theorem State.modRec_paths (f : Recorder → Recorder) (s : State) : (s.modRec f).paths = s.paths := rfl
@[simp] theorem State.modRec_law (f : Recorder → Recorder) (s : State) : (s.modRec f).law = s.law := rfl
@[simp] theorem State.modRec_lanes (f : Recorder → Recorder) (s : State) : (s.modRec f).lanes = s.lanes := rfl
@[simp] theorem State.modRec_pair (f : Recorder → Recorder) (s : State) : (s.modRec f).pair = s.pair := rfl
@[simp] theorem State.modRec_acq (f : Recorder → Recorder) (s : State) : (s.modRec f).acq = s.acq := rfl
@[simp] theorem State.modRec_thm (f : Recorder → Recorder) (s : State) : (s.modRec f).thm = s.thm := rfl
@[simp] theorem State.modRec_sw (f : Recorder → Recorder) (s : State) : (s.modRec f).sw = s.sw := rfl
@[simp] theorem State.modRec_met (f : Recorder → Recorder) (s : State) : (s.modRec f).met = s.met := rfl
@[simp] theorem State.modRec_veh (f : Recorder → Recorder) (s : State) : (s.modRec f).veh = s.veh := rfl
@[simp] theorem State.modRec_civil (f : Recorder → Recorder) (s : State) : (s.modRec f).civil = s.civil := rfl
@[simp] theorem State.modRec_key (f : Recorder → Recorder) (s : State) : (s.modRec f).key = s.key := rfl
@[simp] theorem State.modRec_can (f : Recorder → Recorder) (s : State) : (s.modRec f).can = s.can := rfl
@[simp] theorem State.modRec_plc (f : Recorder → Recorder) (s : State) : (s.modRec f).plc = s.plc := rfl
@[simp] theorem State.modRec_rcd (f : Recorder → Recorder) (s : State) : (s.modRec f).rcd = f s.rcd := rfl

@[simp] theorem State.modKey_pending (f : Keys → Keys) (s : State) : (s.modKey f).pending = s.pending := rfl
@[simp] theorem State.modKey_now (f : Keys → Keys) (s : State) : (s.modKey f).now = s.now := rfl
@[simp] theorem State.modKey_outs (f : Keys → Keys) (s : State) : (s.modKey f).outs = s.outs := rfl
@[simp] theorem State.modKey_freeIx (f : Keys → Keys) (s : State) : (s.modKey f).freeIx = s.freeIx := rfl
@[simp] theorem State.modKey_pwr (f : Keys → Keys) (s : State) : (s.modKey f).pwr = s.pwr := rfl
@[simp] theorem State.modKey_host (f : Keys → Keys) (s : State) : (s.modKey f).host = s.host := rfl
@[simp] theorem State.modKey_flt (f : Keys → Keys) (s : State) : (s.modKey f).flt = s.flt := rfl
@[simp] theorem State.modKey_prof (f : Keys → Keys) (s : State) : (s.modKey f).prof = s.prof := rfl
@[simp] theorem State.modKey_stages (f : Keys → Keys) (s : State) : (s.modKey f).stages = s.stages := rfl
@[simp] theorem State.modKey_alloc (f : Keys → Keys) (s : State) : (s.modKey f).alloc = s.alloc := rfl
@[simp] theorem State.modKey_paths (f : Keys → Keys) (s : State) : (s.modKey f).paths = s.paths := rfl
@[simp] theorem State.modKey_law (f : Keys → Keys) (s : State) : (s.modKey f).law = s.law := rfl
@[simp] theorem State.modKey_lanes (f : Keys → Keys) (s : State) : (s.modKey f).lanes = s.lanes := rfl
@[simp] theorem State.modKey_pair (f : Keys → Keys) (s : State) : (s.modKey f).pair = s.pair := rfl
@[simp] theorem State.modKey_acq (f : Keys → Keys) (s : State) : (s.modKey f).acq = s.acq := rfl
@[simp] theorem State.modKey_thm (f : Keys → Keys) (s : State) : (s.modKey f).thm = s.thm := rfl
@[simp] theorem State.modKey_sw (f : Keys → Keys) (s : State) : (s.modKey f).sw = s.sw := rfl
@[simp] theorem State.modKey_met (f : Keys → Keys) (s : State) : (s.modKey f).met = s.met := rfl
@[simp] theorem State.modKey_veh (f : Keys → Keys) (s : State) : (s.modKey f).veh = s.veh := rfl
@[simp] theorem State.modKey_civil (f : Keys → Keys) (s : State) : (s.modKey f).civil = s.civil := rfl
@[simp] theorem State.modKey_key (f : Keys → Keys) (s : State) : (s.modKey f).key = f s.key := rfl
@[simp] theorem State.modKey_can (f : Keys → Keys) (s : State) : (s.modKey f).can = s.can := rfl
@[simp] theorem State.modKey_plc (f : Keys → Keys) (s : State) : (s.modKey f).plc = s.plc := rfl
@[simp] theorem State.modKey_rcd (f : Keys → Keys) (s : State) : (s.modKey f).rcd = s.rcd := rfl

@[simp] theorem State.modSlot_pending (i : Nat) (f : KeySlot → KeySlot) (s : State) : (s.modSlot i f).pending = s.pending := rfl
@[simp] theorem State.modSlot_now (i : Nat) (f : KeySlot → KeySlot) (s : State) : (s.modSlot i f).now = s.now := rfl
@[simp] theorem State.modSlot_outs (i : Nat) (f : KeySlot → KeySlot) (s : State) : (s.modSlot i f).outs = s.outs := rfl
@[simp] theorem State.modSlot_freeIx (i : Nat) (f : KeySlot → KeySlot) (s : State) : (s.modSlot i f).freeIx = s.freeIx := rfl
@[simp] theorem State.modSlot_pwr (i : Nat) (f : KeySlot → KeySlot) (s : State) : (s.modSlot i f).pwr = s.pwr := rfl
@[simp] theorem State.modSlot_host (i : Nat) (f : KeySlot → KeySlot) (s : State) : (s.modSlot i f).host = s.host := rfl
@[simp] theorem State.modSlot_flt (i : Nat) (f : KeySlot → KeySlot) (s : State) : (s.modSlot i f).flt = s.flt := rfl
@[simp] theorem State.modSlot_prof (i : Nat) (f : KeySlot → KeySlot) (s : State) : (s.modSlot i f).prof = s.prof := rfl
@[simp] theorem State.modSlot_stages (i : Nat) (f : KeySlot → KeySlot) (s : State) : (s.modSlot i f).stages = s.stages := rfl
@[simp] theorem State.modSlot_alloc (i : Nat) (f : KeySlot → KeySlot) (s : State) : (s.modSlot i f).alloc = s.alloc := rfl
@[simp] theorem State.modSlot_paths (i : Nat) (f : KeySlot → KeySlot) (s : State) : (s.modSlot i f).paths = s.paths := rfl
@[simp] theorem State.modSlot_law (i : Nat) (f : KeySlot → KeySlot) (s : State) : (s.modSlot i f).law = s.law := rfl
@[simp] theorem State.modSlot_lanes (i : Nat) (f : KeySlot → KeySlot) (s : State) : (s.modSlot i f).lanes = s.lanes := rfl
@[simp] theorem State.modSlot_pair (i : Nat) (f : KeySlot → KeySlot) (s : State) : (s.modSlot i f).pair = s.pair := rfl
@[simp] theorem State.modSlot_acq (i : Nat) (f : KeySlot → KeySlot) (s : State) : (s.modSlot i f).acq = s.acq := rfl
@[simp] theorem State.modSlot_thm (i : Nat) (f : KeySlot → KeySlot) (s : State) : (s.modSlot i f).thm = s.thm := rfl
@[simp] theorem State.modSlot_sw (i : Nat) (f : KeySlot → KeySlot) (s : State) : (s.modSlot i f).sw = s.sw := rfl
@[simp] theorem State.modSlot_met (i : Nat) (f : KeySlot → KeySlot) (s : State) : (s.modSlot i f).met = s.met := rfl
@[simp] theorem State.modSlot_veh (i : Nat) (f : KeySlot → KeySlot) (s : State) : (s.modSlot i f).veh = s.veh := rfl
@[simp] theorem State.modSlot_civil (i : Nat) (f : KeySlot → KeySlot) (s : State) : (s.modSlot i f).civil = s.civil := rfl
@[simp] theorem State.modSlot_key (i : Nat) (f : KeySlot → KeySlot) (s : State) : (s.modSlot i f).key = { s.key with slots := upd s.key.slots i f } := rfl
@[simp] theorem State.modSlot_can (i : Nat) (f : KeySlot → KeySlot) (s : State) : (s.modSlot i f).can = s.can := rfl
@[simp] theorem State.modSlot_plc (i : Nat) (f : KeySlot → KeySlot) (s : State) : (s.modSlot i f).plc = s.plc := rfl
@[simp] theorem State.modSlot_rcd (i : Nat) (f : KeySlot → KeySlot) (s : State) : (s.modSlot i f).rcd = s.rcd := rfl

@[simp] theorem State.modPlc_pending (f : Plc → Plc) (s : State) : (s.modPlc f).pending = s.pending := rfl
@[simp] theorem State.modPlc_now (f : Plc → Plc) (s : State) : (s.modPlc f).now = s.now := rfl
@[simp] theorem State.modPlc_outs (f : Plc → Plc) (s : State) : (s.modPlc f).outs = s.outs := rfl
@[simp] theorem State.modPlc_freeIx (f : Plc → Plc) (s : State) : (s.modPlc f).freeIx = s.freeIx := rfl
@[simp] theorem State.modPlc_pwr (f : Plc → Plc) (s : State) : (s.modPlc f).pwr = s.pwr := rfl
@[simp] theorem State.modPlc_host (f : Plc → Plc) (s : State) : (s.modPlc f).host = s.host := rfl
@[simp] theorem State.modPlc_flt (f : Plc → Plc) (s : State) : (s.modPlc f).flt = s.flt := rfl
@[simp] theorem State.modPlc_prof (f : Plc → Plc) (s : State) : (s.modPlc f).prof = s.prof := rfl
@[simp] theorem State.modPlc_stages (f : Plc → Plc) (s : State) : (s.modPlc f).stages = s.stages := rfl
@[simp] theorem State.modPlc_alloc (f : Plc → Plc) (s : State) : (s.modPlc f).alloc = s.alloc := rfl
@[simp] theorem State.modPlc_paths (f : Plc → Plc) (s : State) : (s.modPlc f).paths = s.paths := rfl
@[simp] theorem State.modPlc_law (f : Plc → Plc) (s : State) : (s.modPlc f).law = s.law := rfl
@[simp] theorem State.modPlc_lanes (f : Plc → Plc) (s : State) : (s.modPlc f).lanes = s.lanes := rfl
@[simp] theorem State.modPlc_pair (f : Plc → Plc) (s : State) : (s.modPlc f).pair = s.pair := rfl
@[simp] theorem State.modPlc_acq (f : Plc → Plc) (s : State) : (s.modPlc f).acq = s.acq := rfl
@[simp] theorem State.modPlc_thm (f : Plc → Plc) (s : State) : (s.modPlc f).thm = s.thm := rfl
@[simp] theorem State.modPlc_sw (f : Plc → Plc) (s : State) : (s.modPlc f).sw = s.sw := rfl
@[simp] theorem State.modPlc_met (f : Plc → Plc) (s : State) : (s.modPlc f).met = s.met := rfl
@[simp] theorem State.modPlc_veh (f : Plc → Plc) (s : State) : (s.modPlc f).veh = s.veh := rfl
@[simp] theorem State.modPlc_civil (f : Plc → Plc) (s : State) : (s.modPlc f).civil = s.civil := rfl
@[simp] theorem State.modPlc_key (f : Plc → Plc) (s : State) : (s.modPlc f).key = s.key := rfl
@[simp] theorem State.modPlc_can (f : Plc → Plc) (s : State) : (s.modPlc f).can = s.can := rfl
@[simp] theorem State.modPlc_plc (f : Plc → Plc) (s : State) : (s.modPlc f).plc = f s.plc := rfl
@[simp] theorem State.modPlc_rcd (f : Plc → Plc) (s : State) : (s.modPlc f).rcd = s.rcd := rfl

@[simp] theorem State.modSq_pending (i : Nat) (f : Sq → Sq) (s : State) : (s.modSq i f).pending = s.pending := rfl
@[simp] theorem State.modSq_now (i : Nat) (f : Sq → Sq) (s : State) : (s.modSq i f).now = s.now := rfl
@[simp] theorem State.modSq_outs (i : Nat) (f : Sq → Sq) (s : State) : (s.modSq i f).outs = s.outs := rfl
@[simp] theorem State.modSq_freeIx (i : Nat) (f : Sq → Sq) (s : State) : (s.modSq i f).freeIx = s.freeIx := rfl
@[simp] theorem State.modSq_pwr (i : Nat) (f : Sq → Sq) (s : State) : (s.modSq i f).pwr = s.pwr := rfl
@[simp] theorem State.modSq_host (i : Nat) (f : Sq → Sq) (s : State) : (s.modSq i f).host = { s.host with sq := upd s.host.sq i f } := rfl
@[simp] theorem State.modSq_flt (i : Nat) (f : Sq → Sq) (s : State) : (s.modSq i f).flt = s.flt := rfl
@[simp] theorem State.modSq_prof (i : Nat) (f : Sq → Sq) (s : State) : (s.modSq i f).prof = s.prof := rfl
@[simp] theorem State.modSq_stages (i : Nat) (f : Sq → Sq) (s : State) : (s.modSq i f).stages = s.stages := rfl
@[simp] theorem State.modSq_alloc (i : Nat) (f : Sq → Sq) (s : State) : (s.modSq i f).alloc = s.alloc := rfl
@[simp] theorem State.modSq_paths (i : Nat) (f : Sq → Sq) (s : State) : (s.modSq i f).paths = s.paths := rfl
@[simp] theorem State.modSq_law (i : Nat) (f : Sq → Sq) (s : State) : (s.modSq i f).law = s.law := rfl
@[simp] theorem State.modSq_lanes (i : Nat) (f : Sq → Sq) (s : State) : (s.modSq i f).lanes = s.lanes := rfl
@[simp] theorem State.modSq_pair (i : Nat) (f : Sq → Sq) (s : State) : (s.modSq i f).pair = s.pair := rfl
@[simp] theorem State.modSq_acq (i : Nat) (f : Sq → Sq) (s : State) : (s.modSq i f).acq = s.acq := rfl
@[simp] theorem State.modSq_thm (i : Nat) (f : Sq → Sq) (s : State) : (s.modSq i f).thm = s.thm := rfl
@[simp] theorem State.modSq_sw (i : Nat) (f : Sq → Sq) (s : State) : (s.modSq i f).sw = s.sw := rfl
@[simp] theorem State.modSq_met (i : Nat) (f : Sq → Sq) (s : State) : (s.modSq i f).met = s.met := rfl
@[simp] theorem State.modSq_veh (i : Nat) (f : Sq → Sq) (s : State) : (s.modSq i f).veh = s.veh := rfl
@[simp] theorem State.modSq_civil (i : Nat) (f : Sq → Sq) (s : State) : (s.modSq i f).civil = s.civil := rfl
@[simp] theorem State.modSq_key (i : Nat) (f : Sq → Sq) (s : State) : (s.modSq i f).key = s.key := rfl
@[simp] theorem State.modSq_can (i : Nat) (f : Sq → Sq) (s : State) : (s.modSq i f).can = s.can := rfl
@[simp] theorem State.modSq_plc (i : Nat) (f : Sq → Sq) (s : State) : (s.modSq i f).plc = s.plc := rfl
@[simp] theorem State.modSq_rcd (i : Nat) (f : Sq → Sq) (s : State) : (s.modSq i f).rcd = s.rcd := rfl

@[simp] theorem State.modCq_pending (i : Nat) (f : Cq → Cq) (s : State) : (s.modCq i f).pending = s.pending := rfl
@[simp] theorem State.modCq_now (i : Nat) (f : Cq → Cq) (s : State) : (s.modCq i f).now = s.now := rfl
@[simp] theorem State.modCq_outs (i : Nat) (f : Cq → Cq) (s : State) : (s.modCq i f).outs = s.outs := rfl
@[simp] theorem State.modCq_freeIx (i : Nat) (f : Cq → Cq) (s : State) : (s.modCq i f).freeIx = s.freeIx := rfl
@[simp] theorem State.modCq_pwr (i : Nat) (f : Cq → Cq) (s : State) : (s.modCq i f).pwr = s.pwr := rfl
@[simp] theorem State.modCq_host (i : Nat) (f : Cq → Cq) (s : State) : (s.modCq i f).host = { s.host with cq := upd s.host.cq i f } := rfl
@[simp] theorem State.modCq_flt (i : Nat) (f : Cq → Cq) (s : State) : (s.modCq i f).flt = s.flt := rfl
@[simp] theorem State.modCq_prof (i : Nat) (f : Cq → Cq) (s : State) : (s.modCq i f).prof = s.prof := rfl
@[simp] theorem State.modCq_stages (i : Nat) (f : Cq → Cq) (s : State) : (s.modCq i f).stages = s.stages := rfl
@[simp] theorem State.modCq_alloc (i : Nat) (f : Cq → Cq) (s : State) : (s.modCq i f).alloc = s.alloc := rfl
@[simp] theorem State.modCq_paths (i : Nat) (f : Cq → Cq) (s : State) : (s.modCq i f).paths = s.paths := rfl
@[simp] theorem State.modCq_law (i : Nat) (f : Cq → Cq) (s : State) : (s.modCq i f).law = s.law := rfl
@[simp] theorem State.modCq_lanes (i : Nat) (f : Cq → Cq) (s : State) : (s.modCq i f).lanes = s.lanes := rfl
@[simp] theorem State.modCq_pair (i : Nat) (f : Cq → Cq) (s : State) : (s.modCq i f).pair = s.pair := rfl
@[simp] theorem State.modCq_acq (i : Nat) (f : Cq → Cq) (s : State) : (s.modCq i f).acq = s.acq := rfl
@[simp] theorem State.modCq_thm (i : Nat) (f : Cq → Cq) (s : State) : (s.modCq i f).thm = s.thm := rfl
@[simp] theorem State.modCq_sw (i : Nat) (f : Cq → Cq) (s : State) : (s.modCq i f).sw = s.sw := rfl
@[simp] theorem State.modCq_met (i : Nat) (f : Cq → Cq) (s : State) : (s.modCq i f).met = s.met := rfl
@[simp] theorem State.modCq_veh (i : Nat) (f : Cq → Cq) (s : State) : (s.modCq i f).veh = s.veh := rfl
@[simp] theorem State.modCq_civil (i : Nat) (f : Cq → Cq) (s : State) : (s.modCq i f).civil = s.civil := rfl
@[simp] theorem State.modCq_key (i : Nat) (f : Cq → Cq) (s : State) : (s.modCq i f).key = s.key := rfl
@[simp] theorem State.modCq_can (i : Nat) (f : Cq → Cq) (s : State) : (s.modCq i f).can = s.can := rfl
@[simp] theorem State.modCq_plc (i : Nat) (f : Cq → Cq) (s : State) : (s.modCq i f).plc = s.plc := rfl
@[simp] theorem State.modCq_rcd (i : Nat) (f : Cq → Cq) (s : State) : (s.modCq i f).rcd = s.rcd := rfl

@[simp] theorem State.modEvq_pending (f : Evq → Evq) (s : State) : (s.modEvq f).pending = s.pending := rfl
@[simp] theorem State.modEvq_now (f : Evq → Evq) (s : State) : (s.modEvq f).now = s.now := rfl
@[simp] theorem State.modEvq_outs (f : Evq → Evq) (s : State) : (s.modEvq f).outs = s.outs := rfl
@[simp] theorem State.modEvq_freeIx (f : Evq → Evq) (s : State) : (s.modEvq f).freeIx = s.freeIx := rfl
@[simp] theorem State.modEvq_pwr (f : Evq → Evq) (s : State) : (s.modEvq f).pwr = s.pwr := rfl
@[simp] theorem State.modEvq_host (f : Evq → Evq) (s : State) : (s.modEvq f).host = { s.host with evq := f s.host.evq } := rfl
@[simp] theorem State.modEvq_flt (f : Evq → Evq) (s : State) : (s.modEvq f).flt = s.flt := rfl
@[simp] theorem State.modEvq_prof (f : Evq → Evq) (s : State) : (s.modEvq f).prof = s.prof := rfl
@[simp] theorem State.modEvq_stages (f : Evq → Evq) (s : State) : (s.modEvq f).stages = s.stages := rfl
@[simp] theorem State.modEvq_alloc (f : Evq → Evq) (s : State) : (s.modEvq f).alloc = s.alloc := rfl
@[simp] theorem State.modEvq_paths (f : Evq → Evq) (s : State) : (s.modEvq f).paths = s.paths := rfl
@[simp] theorem State.modEvq_law (f : Evq → Evq) (s : State) : (s.modEvq f).law = s.law := rfl
@[simp] theorem State.modEvq_lanes (f : Evq → Evq) (s : State) : (s.modEvq f).lanes = s.lanes := rfl
@[simp] theorem State.modEvq_pair (f : Evq → Evq) (s : State) : (s.modEvq f).pair = s.pair := rfl
@[simp] theorem State.modEvq_acq (f : Evq → Evq) (s : State) : (s.modEvq f).acq = s.acq := rfl
@[simp] theorem State.modEvq_thm (f : Evq → Evq) (s : State) : (s.modEvq f).thm = s.thm := rfl
@[simp] theorem State.modEvq_sw (f : Evq → Evq) (s : State) : (s.modEvq f).sw = s.sw := rfl
@[simp] theorem State.modEvq_met (f : Evq → Evq) (s : State) : (s.modEvq f).met = s.met := rfl
@[simp] theorem State.modEvq_veh (f : Evq → Evq) (s : State) : (s.modEvq f).veh = s.veh := rfl
@[simp] theorem State.modEvq_civil (f : Evq → Evq) (s : State) : (s.modEvq f).civil = s.civil := rfl
@[simp] theorem State.modEvq_key (f : Evq → Evq) (s : State) : (s.modEvq f).key = s.key := rfl
@[simp] theorem State.modEvq_can (f : Evq → Evq) (s : State) : (s.modEvq f).can = s.can := rfl
@[simp] theorem State.modEvq_plc (f : Evq → Evq) (s : State) : (s.modEvq f).plc = s.plc := rfl
@[simp] theorem State.modEvq_rcd (f : Evq → Evq) (s : State) : (s.modEvq f).rcd = s.rcd := rfl

@[simp] theorem State.modCan_pending (i : Nat) (f : CanCtl → CanCtl) (s : State) : (s.modCan i f).pending = s.pending := rfl
@[simp] theorem State.modCan_now (i : Nat) (f : CanCtl → CanCtl) (s : State) : (s.modCan i f).now = s.now := rfl
@[simp] theorem State.modCan_outs (i : Nat) (f : CanCtl → CanCtl) (s : State) : (s.modCan i f).outs = s.outs := rfl
@[simp] theorem State.modCan_freeIx (i : Nat) (f : CanCtl → CanCtl) (s : State) : (s.modCan i f).freeIx = s.freeIx := rfl
@[simp] theorem State.modCan_pwr (i : Nat) (f : CanCtl → CanCtl) (s : State) : (s.modCan i f).pwr = s.pwr := rfl
@[simp] theorem State.modCan_host (i : Nat) (f : CanCtl → CanCtl) (s : State) : (s.modCan i f).host = s.host := rfl
@[simp] theorem State.modCan_flt (i : Nat) (f : CanCtl → CanCtl) (s : State) : (s.modCan i f).flt = s.flt := rfl
@[simp] theorem State.modCan_prof (i : Nat) (f : CanCtl → CanCtl) (s : State) : (s.modCan i f).prof = s.prof := rfl
@[simp] theorem State.modCan_stages (i : Nat) (f : CanCtl → CanCtl) (s : State) : (s.modCan i f).stages = s.stages := rfl
@[simp] theorem State.modCan_alloc (i : Nat) (f : CanCtl → CanCtl) (s : State) : (s.modCan i f).alloc = s.alloc := rfl
@[simp] theorem State.modCan_paths (i : Nat) (f : CanCtl → CanCtl) (s : State) : (s.modCan i f).paths = s.paths := rfl
@[simp] theorem State.modCan_law (i : Nat) (f : CanCtl → CanCtl) (s : State) : (s.modCan i f).law = s.law := rfl
@[simp] theorem State.modCan_lanes (i : Nat) (f : CanCtl → CanCtl) (s : State) : (s.modCan i f).lanes = s.lanes := rfl
@[simp] theorem State.modCan_pair (i : Nat) (f : CanCtl → CanCtl) (s : State) : (s.modCan i f).pair = s.pair := rfl
@[simp] theorem State.modCan_acq (i : Nat) (f : CanCtl → CanCtl) (s : State) : (s.modCan i f).acq = s.acq := rfl
@[simp] theorem State.modCan_thm (i : Nat) (f : CanCtl → CanCtl) (s : State) : (s.modCan i f).thm = s.thm := rfl
@[simp] theorem State.modCan_sw (i : Nat) (f : CanCtl → CanCtl) (s : State) : (s.modCan i f).sw = s.sw := rfl
@[simp] theorem State.modCan_met (i : Nat) (f : CanCtl → CanCtl) (s : State) : (s.modCan i f).met = s.met := rfl
@[simp] theorem State.modCan_veh (i : Nat) (f : CanCtl → CanCtl) (s : State) : (s.modCan i f).veh = s.veh := rfl
@[simp] theorem State.modCan_civil (i : Nat) (f : CanCtl → CanCtl) (s : State) : (s.modCan i f).civil = s.civil := rfl
@[simp] theorem State.modCan_key (i : Nat) (f : CanCtl → CanCtl) (s : State) : (s.modCan i f).key = s.key := rfl
@[simp] theorem State.modCan_can (i : Nat) (f : CanCtl → CanCtl) (s : State) : (s.modCan i f).can = upd s.can i f := rfl
@[simp] theorem State.modCan_plc (i : Nat) (f : CanCtl → CanCtl) (s : State) : (s.modCan i f).plc = s.plc := rfl
@[simp] theorem State.modCan_rcd (i : Nat) (f : CanCtl → CanCtl) (s : State) : (s.modCan i f).rcd = s.rcd := rfl

@[simp] theorem State.modEth_pending (i : Nat) (f : EthPort → EthPort) (s : State) : (s.modEth i f).pending = s.pending := rfl
@[simp] theorem State.modEth_now (i : Nat) (f : EthPort → EthPort) (s : State) : (s.modEth i f).now = s.now := rfl
@[simp] theorem State.modEth_outs (i : Nat) (f : EthPort → EthPort) (s : State) : (s.modEth i f).outs = s.outs := rfl
@[simp] theorem State.modEth_freeIx (i : Nat) (f : EthPort → EthPort) (s : State) : (s.modEth i f).freeIx = s.freeIx := rfl
@[simp] theorem State.modEth_pwr (i : Nat) (f : EthPort → EthPort) (s : State) : (s.modEth i f).pwr = s.pwr := rfl
@[simp] theorem State.modEth_host (i : Nat) (f : EthPort → EthPort) (s : State) : (s.modEth i f).host = { s.host with eth := upd s.host.eth i f } := rfl
@[simp] theorem State.modEth_flt (i : Nat) (f : EthPort → EthPort) (s : State) : (s.modEth i f).flt = s.flt := rfl
@[simp] theorem State.modEth_prof (i : Nat) (f : EthPort → EthPort) (s : State) : (s.modEth i f).prof = s.prof := rfl
@[simp] theorem State.modEth_stages (i : Nat) (f : EthPort → EthPort) (s : State) : (s.modEth i f).stages = s.stages := rfl
@[simp] theorem State.modEth_alloc (i : Nat) (f : EthPort → EthPort) (s : State) : (s.modEth i f).alloc = s.alloc := rfl
@[simp] theorem State.modEth_paths (i : Nat) (f : EthPort → EthPort) (s : State) : (s.modEth i f).paths = s.paths := rfl
@[simp] theorem State.modEth_law (i : Nat) (f : EthPort → EthPort) (s : State) : (s.modEth i f).law = s.law := rfl
@[simp] theorem State.modEth_lanes (i : Nat) (f : EthPort → EthPort) (s : State) : (s.modEth i f).lanes = s.lanes := rfl
@[simp] theorem State.modEth_pair (i : Nat) (f : EthPort → EthPort) (s : State) : (s.modEth i f).pair = s.pair := rfl
@[simp] theorem State.modEth_acq (i : Nat) (f : EthPort → EthPort) (s : State) : (s.modEth i f).acq = s.acq := rfl
@[simp] theorem State.modEth_thm (i : Nat) (f : EthPort → EthPort) (s : State) : (s.modEth i f).thm = s.thm := rfl
@[simp] theorem State.modEth_sw (i : Nat) (f : EthPort → EthPort) (s : State) : (s.modEth i f).sw = s.sw := rfl
@[simp] theorem State.modEth_met (i : Nat) (f : EthPort → EthPort) (s : State) : (s.modEth i f).met = s.met := rfl
@[simp] theorem State.modEth_veh (i : Nat) (f : EthPort → EthPort) (s : State) : (s.modEth i f).veh = s.veh := rfl
@[simp] theorem State.modEth_civil (i : Nat) (f : EthPort → EthPort) (s : State) : (s.modEth i f).civil = s.civil := rfl
@[simp] theorem State.modEth_key (i : Nat) (f : EthPort → EthPort) (s : State) : (s.modEth i f).key = s.key := rfl
@[simp] theorem State.modEth_can (i : Nat) (f : EthPort → EthPort) (s : State) : (s.modEth i f).can = s.can := rfl
@[simp] theorem State.modEth_plc (i : Nat) (f : EthPort → EthPort) (s : State) : (s.modEth i f).plc = s.plc := rfl
@[simp] theorem State.modEth_rcd (i : Nat) (f : EthPort → EthPort) (s : State) : (s.modEth i f).rcd = s.rcd := rfl

@[simp] theorem State.modPairLane_pending (i : Nat) (f : PairLane → PairLane) (s : State) : (s.modPairLane i f).pending = s.pending := rfl
@[simp] theorem State.modPairLane_now (i : Nat) (f : PairLane → PairLane) (s : State) : (s.modPairLane i f).now = s.now := rfl
@[simp] theorem State.modPairLane_outs (i : Nat) (f : PairLane → PairLane) (s : State) : (s.modPairLane i f).outs = s.outs := rfl
@[simp] theorem State.modPairLane_freeIx (i : Nat) (f : PairLane → PairLane) (s : State) : (s.modPairLane i f).freeIx = s.freeIx := rfl
@[simp] theorem State.modPairLane_pwr (i : Nat) (f : PairLane → PairLane) (s : State) : (s.modPairLane i f).pwr = s.pwr := rfl
@[simp] theorem State.modPairLane_host (i : Nat) (f : PairLane → PairLane) (s : State) : (s.modPairLane i f).host = s.host := rfl
@[simp] theorem State.modPairLane_flt (i : Nat) (f : PairLane → PairLane) (s : State) : (s.modPairLane i f).flt = s.flt := rfl
@[simp] theorem State.modPairLane_prof (i : Nat) (f : PairLane → PairLane) (s : State) : (s.modPairLane i f).prof = s.prof := rfl
@[simp] theorem State.modPairLane_stages (i : Nat) (f : PairLane → PairLane) (s : State) : (s.modPairLane i f).stages = s.stages := rfl
@[simp] theorem State.modPairLane_alloc (i : Nat) (f : PairLane → PairLane) (s : State) : (s.modPairLane i f).alloc = s.alloc := rfl
@[simp] theorem State.modPairLane_paths (i : Nat) (f : PairLane → PairLane) (s : State) : (s.modPairLane i f).paths = s.paths := rfl
@[simp] theorem State.modPairLane_law (i : Nat) (f : PairLane → PairLane) (s : State) : (s.modPairLane i f).law = s.law := rfl
@[simp] theorem State.modPairLane_lanes (i : Nat) (f : PairLane → PairLane) (s : State) : (s.modPairLane i f).lanes = s.lanes := rfl
@[simp] theorem State.modPairLane_pair (i : Nat) (f : PairLane → PairLane) (s : State) : (s.modPairLane i f).pair = { s.pair with lanes := upd s.pair.lanes i f } := rfl
@[simp] theorem State.modPairLane_acq (i : Nat) (f : PairLane → PairLane) (s : State) : (s.modPairLane i f).acq = s.acq := rfl
@[simp] theorem State.modPairLane_thm (i : Nat) (f : PairLane → PairLane) (s : State) : (s.modPairLane i f).thm = s.thm := rfl
@[simp] theorem State.modPairLane_sw (i : Nat) (f : PairLane → PairLane) (s : State) : (s.modPairLane i f).sw = s.sw := rfl
@[simp] theorem State.modPairLane_met (i : Nat) (f : PairLane → PairLane) (s : State) : (s.modPairLane i f).met = s.met := rfl
@[simp] theorem State.modPairLane_veh (i : Nat) (f : PairLane → PairLane) (s : State) : (s.modPairLane i f).veh = s.veh := rfl
@[simp] theorem State.modPairLane_civil (i : Nat) (f : PairLane → PairLane) (s : State) : (s.modPairLane i f).civil = s.civil := rfl
@[simp] theorem State.modPairLane_key (i : Nat) (f : PairLane → PairLane) (s : State) : (s.modPairLane i f).key = s.key := rfl
@[simp] theorem State.modPairLane_can (i : Nat) (f : PairLane → PairLane) (s : State) : (s.modPairLane i f).can = s.can := rfl
@[simp] theorem State.modPairLane_plc (i : Nat) (f : PairLane → PairLane) (s : State) : (s.modPairLane i f).plc = s.plc := rfl
@[simp] theorem State.modPairLane_rcd (i : Nat) (f : PairLane → PairLane) (s : State) : (s.modPairLane i f).rcd = s.rcd := rfl

@[simp] theorem State.modMet_pending (f : Met → Met) (s : State) : (s.modMet f).pending = s.pending := rfl
@[simp] theorem State.modMet_now (f : Met → Met) (s : State) : (s.modMet f).now = s.now := rfl
@[simp] theorem State.modMet_outs (f : Met → Met) (s : State) : (s.modMet f).outs = s.outs := rfl
@[simp] theorem State.modMet_freeIx (f : Met → Met) (s : State) : (s.modMet f).freeIx = s.freeIx := rfl
@[simp] theorem State.modMet_pwr (f : Met → Met) (s : State) : (s.modMet f).pwr = s.pwr := rfl
@[simp] theorem State.modMet_host (f : Met → Met) (s : State) : (s.modMet f).host = s.host := rfl
@[simp] theorem State.modMet_flt (f : Met → Met) (s : State) : (s.modMet f).flt = s.flt := rfl
@[simp] theorem State.modMet_prof (f : Met → Met) (s : State) : (s.modMet f).prof = s.prof := rfl
@[simp] theorem State.modMet_stages (f : Met → Met) (s : State) : (s.modMet f).stages = s.stages := rfl
@[simp] theorem State.modMet_alloc (f : Met → Met) (s : State) : (s.modMet f).alloc = s.alloc := rfl
@[simp] theorem State.modMet_paths (f : Met → Met) (s : State) : (s.modMet f).paths = s.paths := rfl
@[simp] theorem State.modMet_law (f : Met → Met) (s : State) : (s.modMet f).law = s.law := rfl
@[simp] theorem State.modMet_lanes (f : Met → Met) (s : State) : (s.modMet f).lanes = s.lanes := rfl
@[simp] theorem State.modMet_pair (f : Met → Met) (s : State) : (s.modMet f).pair = s.pair := rfl
@[simp] theorem State.modMet_acq (f : Met → Met) (s : State) : (s.modMet f).acq = s.acq := rfl
@[simp] theorem State.modMet_thm (f : Met → Met) (s : State) : (s.modMet f).thm = s.thm := rfl
@[simp] theorem State.modMet_sw (f : Met → Met) (s : State) : (s.modMet f).sw = s.sw := rfl
@[simp] theorem State.modMet_met (f : Met → Met) (s : State) : (s.modMet f).met = f s.met := rfl
@[simp] theorem State.modMet_veh (f : Met → Met) (s : State) : (s.modMet f).veh = s.veh := rfl
@[simp] theorem State.modMet_civil (f : Met → Met) (s : State) : (s.modMet f).civil = s.civil := rfl
@[simp] theorem State.modMet_key (f : Met → Met) (s : State) : (s.modMet f).key = s.key := rfl
@[simp] theorem State.modMet_can (f : Met → Met) (s : State) : (s.modMet f).can = s.can := rfl
@[simp] theorem State.modMet_plc (f : Met → Met) (s : State) : (s.modMet f).plc = s.plc := rfl
@[simp] theorem State.modMet_rcd (f : Met → Met) (s : State) : (s.modMet f).rcd = s.rcd := rfl

@[simp] theorem State.modCh_pending (i : Nat) (f : MetChan → MetChan) (s : State) : (s.modCh i f).pending = s.pending := rfl
@[simp] theorem State.modCh_now (i : Nat) (f : MetChan → MetChan) (s : State) : (s.modCh i f).now = s.now := rfl
@[simp] theorem State.modCh_outs (i : Nat) (f : MetChan → MetChan) (s : State) : (s.modCh i f).outs = s.outs := rfl
@[simp] theorem State.modCh_freeIx (i : Nat) (f : MetChan → MetChan) (s : State) : (s.modCh i f).freeIx = s.freeIx := rfl
@[simp] theorem State.modCh_pwr (i : Nat) (f : MetChan → MetChan) (s : State) : (s.modCh i f).pwr = s.pwr := rfl
@[simp] theorem State.modCh_host (i : Nat) (f : MetChan → MetChan) (s : State) : (s.modCh i f).host = s.host := rfl
@[simp] theorem State.modCh_flt (i : Nat) (f : MetChan → MetChan) (s : State) : (s.modCh i f).flt = s.flt := rfl
@[simp] theorem State.modCh_prof (i : Nat) (f : MetChan → MetChan) (s : State) : (s.modCh i f).prof = s.prof := rfl
@[simp] theorem State.modCh_stages (i : Nat) (f : MetChan → MetChan) (s : State) : (s.modCh i f).stages = s.stages := rfl
@[simp] theorem State.modCh_alloc (i : Nat) (f : MetChan → MetChan) (s : State) : (s.modCh i f).alloc = s.alloc := rfl
@[simp] theorem State.modCh_paths (i : Nat) (f : MetChan → MetChan) (s : State) : (s.modCh i f).paths = s.paths := rfl
@[simp] theorem State.modCh_law (i : Nat) (f : MetChan → MetChan) (s : State) : (s.modCh i f).law = s.law := rfl
@[simp] theorem State.modCh_lanes (i : Nat) (f : MetChan → MetChan) (s : State) : (s.modCh i f).lanes = s.lanes := rfl
@[simp] theorem State.modCh_pair (i : Nat) (f : MetChan → MetChan) (s : State) : (s.modCh i f).pair = s.pair := rfl
@[simp] theorem State.modCh_acq (i : Nat) (f : MetChan → MetChan) (s : State) : (s.modCh i f).acq = s.acq := rfl
@[simp] theorem State.modCh_thm (i : Nat) (f : MetChan → MetChan) (s : State) : (s.modCh i f).thm = s.thm := rfl
@[simp] theorem State.modCh_sw (i : Nat) (f : MetChan → MetChan) (s : State) : (s.modCh i f).sw = s.sw := rfl
@[simp] theorem State.modCh_met (i : Nat) (f : MetChan → MetChan) (s : State) : (s.modCh i f).met = { s.met with ch := upd s.met.ch i f } := rfl
@[simp] theorem State.modCh_veh (i : Nat) (f : MetChan → MetChan) (s : State) : (s.modCh i f).veh = s.veh := rfl
@[simp] theorem State.modCh_civil (i : Nat) (f : MetChan → MetChan) (s : State) : (s.modCh i f).civil = s.civil := rfl
@[simp] theorem State.modCh_key (i : Nat) (f : MetChan → MetChan) (s : State) : (s.modCh i f).key = s.key := rfl
@[simp] theorem State.modCh_can (i : Nat) (f : MetChan → MetChan) (s : State) : (s.modCh i f).can = s.can := rfl
@[simp] theorem State.modCh_plc (i : Nat) (f : MetChan → MetChan) (s : State) : (s.modCh i f).plc = s.plc := rfl
@[simp] theorem State.modCh_rcd (i : Nat) (f : MetChan → MetChan) (s : State) : (s.modCh i f).rcd = s.rcd := rfl

@[simp] theorem State.modSw_pending (f : Switch → Switch) (s : State) : (s.modSw f).pending = s.pending := rfl
@[simp] theorem State.modSw_now (f : Switch → Switch) (s : State) : (s.modSw f).now = s.now := rfl
@[simp] theorem State.modSw_outs (f : Switch → Switch) (s : State) : (s.modSw f).outs = s.outs := rfl
@[simp] theorem State.modSw_freeIx (f : Switch → Switch) (s : State) : (s.modSw f).freeIx = s.freeIx := rfl
@[simp] theorem State.modSw_pwr (f : Switch → Switch) (s : State) : (s.modSw f).pwr = s.pwr := rfl
@[simp] theorem State.modSw_host (f : Switch → Switch) (s : State) : (s.modSw f).host = s.host := rfl
@[simp] theorem State.modSw_flt (f : Switch → Switch) (s : State) : (s.modSw f).flt = s.flt := rfl
@[simp] theorem State.modSw_prof (f : Switch → Switch) (s : State) : (s.modSw f).prof = s.prof := rfl
@[simp] theorem State.modSw_stages (f : Switch → Switch) (s : State) : (s.modSw f).stages = s.stages := rfl
@[simp] theorem State.modSw_alloc (f : Switch → Switch) (s : State) : (s.modSw f).alloc = s.alloc := rfl
@[simp] theorem State.modSw_paths (f : Switch → Switch) (s : State) : (s.modSw f).paths = s.paths := rfl
@[simp] theorem State.modSw_law (f : Switch → Switch) (s : State) : (s.modSw f).law = s.law := rfl
@[simp] theorem State.modSw_lanes (f : Switch → Switch) (s : State) : (s.modSw f).lanes = s.lanes := rfl
@[simp] theorem State.modSw_pair (f : Switch → Switch) (s : State) : (s.modSw f).pair = s.pair := rfl
@[simp] theorem State.modSw_acq (f : Switch → Switch) (s : State) : (s.modSw f).acq = s.acq := rfl
@[simp] theorem State.modSw_thm (f : Switch → Switch) (s : State) : (s.modSw f).thm = s.thm := rfl
@[simp] theorem State.modSw_sw (f : Switch → Switch) (s : State) : (s.modSw f).sw = f s.sw := rfl
@[simp] theorem State.modSw_met (f : Switch → Switch) (s : State) : (s.modSw f).met = s.met := rfl
@[simp] theorem State.modSw_veh (f : Switch → Switch) (s : State) : (s.modSw f).veh = s.veh := rfl
@[simp] theorem State.modSw_civil (f : Switch → Switch) (s : State) : (s.modSw f).civil = s.civil := rfl
@[simp] theorem State.modSw_key (f : Switch → Switch) (s : State) : (s.modSw f).key = s.key := rfl
@[simp] theorem State.modSw_can (f : Switch → Switch) (s : State) : (s.modSw f).can = s.can := rfl
@[simp] theorem State.modSw_plc (f : Switch → Switch) (s : State) : (s.modSw f).plc = s.plc := rfl
@[simp] theorem State.modSw_rcd (f : Switch → Switch) (s : State) : (s.modSw f).rcd = s.rcd := rfl

@[simp] theorem State.modSwCh_pending (i : Nat) (f : SwCh → SwCh) (s : State) : (s.modSwCh i f).pending = s.pending := rfl
@[simp] theorem State.modSwCh_now (i : Nat) (f : SwCh → SwCh) (s : State) : (s.modSwCh i f).now = s.now := rfl
@[simp] theorem State.modSwCh_outs (i : Nat) (f : SwCh → SwCh) (s : State) : (s.modSwCh i f).outs = s.outs := rfl
@[simp] theorem State.modSwCh_freeIx (i : Nat) (f : SwCh → SwCh) (s : State) : (s.modSwCh i f).freeIx = s.freeIx := rfl
@[simp] theorem State.modSwCh_pwr (i : Nat) (f : SwCh → SwCh) (s : State) : (s.modSwCh i f).pwr = s.pwr := rfl
@[simp] theorem State.modSwCh_host (i : Nat) (f : SwCh → SwCh) (s : State) : (s.modSwCh i f).host = s.host := rfl
@[simp] theorem State.modSwCh_flt (i : Nat) (f : SwCh → SwCh) (s : State) : (s.modSwCh i f).flt = s.flt := rfl
@[simp] theorem State.modSwCh_prof (i : Nat) (f : SwCh → SwCh) (s : State) : (s.modSwCh i f).prof = s.prof := rfl
@[simp] theorem State.modSwCh_stages (i : Nat) (f : SwCh → SwCh) (s : State) : (s.modSwCh i f).stages = s.stages := rfl
@[simp] theorem State.modSwCh_alloc (i : Nat) (f : SwCh → SwCh) (s : State) : (s.modSwCh i f).alloc = s.alloc := rfl
@[simp] theorem State.modSwCh_paths (i : Nat) (f : SwCh → SwCh) (s : State) : (s.modSwCh i f).paths = s.paths := rfl
@[simp] theorem State.modSwCh_law (i : Nat) (f : SwCh → SwCh) (s : State) : (s.modSwCh i f).law = s.law := rfl
@[simp] theorem State.modSwCh_lanes (i : Nat) (f : SwCh → SwCh) (s : State) : (s.modSwCh i f).lanes = s.lanes := rfl
@[simp] theorem State.modSwCh_pair (i : Nat) (f : SwCh → SwCh) (s : State) : (s.modSwCh i f).pair = s.pair := rfl
@[simp] theorem State.modSwCh_acq (i : Nat) (f : SwCh → SwCh) (s : State) : (s.modSwCh i f).acq = s.acq := rfl
@[simp] theorem State.modSwCh_thm (i : Nat) (f : SwCh → SwCh) (s : State) : (s.modSwCh i f).thm = s.thm := rfl
@[simp] theorem State.modSwCh_sw (i : Nat) (f : SwCh → SwCh) (s : State) : (s.modSwCh i f).sw = { s.sw with ch := upd s.sw.ch i f } := rfl
@[simp] theorem State.modSwCh_met (i : Nat) (f : SwCh → SwCh) (s : State) : (s.modSwCh i f).met = s.met := rfl
@[simp] theorem State.modSwCh_veh (i : Nat) (f : SwCh → SwCh) (s : State) : (s.modSwCh i f).veh = s.veh := rfl
@[simp] theorem State.modSwCh_civil (i : Nat) (f : SwCh → SwCh) (s : State) : (s.modSwCh i f).civil = s.civil := rfl
@[simp] theorem State.modSwCh_key (i : Nat) (f : SwCh → SwCh) (s : State) : (s.modSwCh i f).key = s.key := rfl
@[simp] theorem State.modSwCh_can (i : Nat) (f : SwCh → SwCh) (s : State) : (s.modSwCh i f).can = s.can := rfl
@[simp] theorem State.modSwCh_plc (i : Nat) (f : SwCh → SwCh) (s : State) : (s.modSwCh i f).plc = s.plc := rfl
@[simp] theorem State.modSwCh_rcd (i : Nat) (f : SwCh → SwCh) (s : State) : (s.modSwCh i f).rcd = s.rcd := rfl

@[simp] theorem State.modThm_pending (f : Thm → Thm) (s : State) : (s.modThm f).pending = s.pending := rfl
@[simp] theorem State.modThm_now (f : Thm → Thm) (s : State) : (s.modThm f).now = s.now := rfl
@[simp] theorem State.modThm_outs (f : Thm → Thm) (s : State) : (s.modThm f).outs = s.outs := rfl
@[simp] theorem State.modThm_freeIx (f : Thm → Thm) (s : State) : (s.modThm f).freeIx = s.freeIx := rfl
@[simp] theorem State.modThm_pwr (f : Thm → Thm) (s : State) : (s.modThm f).pwr = s.pwr := rfl
@[simp] theorem State.modThm_host (f : Thm → Thm) (s : State) : (s.modThm f).host = s.host := rfl
@[simp] theorem State.modThm_flt (f : Thm → Thm) (s : State) : (s.modThm f).flt = s.flt := rfl
@[simp] theorem State.modThm_prof (f : Thm → Thm) (s : State) : (s.modThm f).prof = s.prof := rfl
@[simp] theorem State.modThm_stages (f : Thm → Thm) (s : State) : (s.modThm f).stages = s.stages := rfl
@[simp] theorem State.modThm_alloc (f : Thm → Thm) (s : State) : (s.modThm f).alloc = s.alloc := rfl
@[simp] theorem State.modThm_paths (f : Thm → Thm) (s : State) : (s.modThm f).paths = s.paths := rfl
@[simp] theorem State.modThm_law (f : Thm → Thm) (s : State) : (s.modThm f).law = s.law := rfl
@[simp] theorem State.modThm_lanes (f : Thm → Thm) (s : State) : (s.modThm f).lanes = s.lanes := rfl
@[simp] theorem State.modThm_pair (f : Thm → Thm) (s : State) : (s.modThm f).pair = s.pair := rfl
@[simp] theorem State.modThm_acq (f : Thm → Thm) (s : State) : (s.modThm f).acq = s.acq := rfl
@[simp] theorem State.modThm_thm (f : Thm → Thm) (s : State) : (s.modThm f).thm = f s.thm := rfl
@[simp] theorem State.modThm_sw (f : Thm → Thm) (s : State) : (s.modThm f).sw = s.sw := rfl
@[simp] theorem State.modThm_met (f : Thm → Thm) (s : State) : (s.modThm f).met = s.met := rfl
@[simp] theorem State.modThm_veh (f : Thm → Thm) (s : State) : (s.modThm f).veh = s.veh := rfl
@[simp] theorem State.modThm_civil (f : Thm → Thm) (s : State) : (s.modThm f).civil = s.civil := rfl
@[simp] theorem State.modThm_key (f : Thm → Thm) (s : State) : (s.modThm f).key = s.key := rfl
@[simp] theorem State.modThm_can (f : Thm → Thm) (s : State) : (s.modThm f).can = s.can := rfl
@[simp] theorem State.modThm_plc (f : Thm → Thm) (s : State) : (s.modThm f).plc = s.plc := rfl
@[simp] theorem State.modThm_rcd (f : Thm → Thm) (s : State) : (s.modThm f).rcd = s.rcd := rfl

@[simp] theorem State.modObj_pending (i : Nat) (f : ThmObj → ThmObj) (s : State) : (s.modObj i f).pending = s.pending := rfl
@[simp] theorem State.modObj_now (i : Nat) (f : ThmObj → ThmObj) (s : State) : (s.modObj i f).now = s.now := rfl
@[simp] theorem State.modObj_outs (i : Nat) (f : ThmObj → ThmObj) (s : State) : (s.modObj i f).outs = s.outs := rfl
@[simp] theorem State.modObj_freeIx (i : Nat) (f : ThmObj → ThmObj) (s : State) : (s.modObj i f).freeIx = s.freeIx := rfl
@[simp] theorem State.modObj_pwr (i : Nat) (f : ThmObj → ThmObj) (s : State) : (s.modObj i f).pwr = s.pwr := rfl
@[simp] theorem State.modObj_host (i : Nat) (f : ThmObj → ThmObj) (s : State) : (s.modObj i f).host = s.host := rfl
@[simp] theorem State.modObj_flt (i : Nat) (f : ThmObj → ThmObj) (s : State) : (s.modObj i f).flt = s.flt := rfl
@[simp] theorem State.modObj_prof (i : Nat) (f : ThmObj → ThmObj) (s : State) : (s.modObj i f).prof = s.prof := rfl
@[simp] theorem State.modObj_stages (i : Nat) (f : ThmObj → ThmObj) (s : State) : (s.modObj i f).stages = s.stages := rfl
@[simp] theorem State.modObj_alloc (i : Nat) (f : ThmObj → ThmObj) (s : State) : (s.modObj i f).alloc = s.alloc := rfl
@[simp] theorem State.modObj_paths (i : Nat) (f : ThmObj → ThmObj) (s : State) : (s.modObj i f).paths = s.paths := rfl
@[simp] theorem State.modObj_law (i : Nat) (f : ThmObj → ThmObj) (s : State) : (s.modObj i f).law = s.law := rfl
@[simp] theorem State.modObj_lanes (i : Nat) (f : ThmObj → ThmObj) (s : State) : (s.modObj i f).lanes = s.lanes := rfl
@[simp] theorem State.modObj_pair (i : Nat) (f : ThmObj → ThmObj) (s : State) : (s.modObj i f).pair = s.pair := rfl
@[simp] theorem State.modObj_acq (i : Nat) (f : ThmObj → ThmObj) (s : State) : (s.modObj i f).acq = s.acq := rfl
@[simp] theorem State.modObj_thm (i : Nat) (f : ThmObj → ThmObj) (s : State) : (s.modObj i f).thm = { s.thm with objs := upd s.thm.objs i f } := rfl
@[simp] theorem State.modObj_sw (i : Nat) (f : ThmObj → ThmObj) (s : State) : (s.modObj i f).sw = s.sw := rfl
@[simp] theorem State.modObj_met (i : Nat) (f : ThmObj → ThmObj) (s : State) : (s.modObj i f).met = s.met := rfl
@[simp] theorem State.modObj_veh (i : Nat) (f : ThmObj → ThmObj) (s : State) : (s.modObj i f).veh = s.veh := rfl
@[simp] theorem State.modObj_civil (i : Nat) (f : ThmObj → ThmObj) (s : State) : (s.modObj i f).civil = s.civil := rfl
@[simp] theorem State.modObj_key (i : Nat) (f : ThmObj → ThmObj) (s : State) : (s.modObj i f).key = s.key := rfl
@[simp] theorem State.modObj_can (i : Nat) (f : ThmObj → ThmObj) (s : State) : (s.modObj i f).can = s.can := rfl
@[simp] theorem State.modObj_plc (i : Nat) (f : ThmObj → ThmObj) (s : State) : (s.modObj i f).plc = s.plc := rfl
@[simp] theorem State.modObj_rcd (i : Nat) (f : ThmObj → ThmObj) (s : State) : (s.modObj i f).rcd = s.rcd := rfl

@[simp] theorem State.modLoop_pending (i : Nat) (f : CoolLoop → CoolLoop) (s : State) : (s.modLoop i f).pending = s.pending := rfl
@[simp] theorem State.modLoop_now (i : Nat) (f : CoolLoop → CoolLoop) (s : State) : (s.modLoop i f).now = s.now := rfl
@[simp] theorem State.modLoop_outs (i : Nat) (f : CoolLoop → CoolLoop) (s : State) : (s.modLoop i f).outs = s.outs := rfl
@[simp] theorem State.modLoop_freeIx (i : Nat) (f : CoolLoop → CoolLoop) (s : State) : (s.modLoop i f).freeIx = s.freeIx := rfl
@[simp] theorem State.modLoop_pwr (i : Nat) (f : CoolLoop → CoolLoop) (s : State) : (s.modLoop i f).pwr = s.pwr := rfl
@[simp] theorem State.modLoop_host (i : Nat) (f : CoolLoop → CoolLoop) (s : State) : (s.modLoop i f).host = s.host := rfl
@[simp] theorem State.modLoop_flt (i : Nat) (f : CoolLoop → CoolLoop) (s : State) : (s.modLoop i f).flt = s.flt := rfl
@[simp] theorem State.modLoop_prof (i : Nat) (f : CoolLoop → CoolLoop) (s : State) : (s.modLoop i f).prof = s.prof := rfl
@[simp] theorem State.modLoop_stages (i : Nat) (f : CoolLoop → CoolLoop) (s : State) : (s.modLoop i f).stages = s.stages := rfl
@[simp] theorem State.modLoop_alloc (i : Nat) (f : CoolLoop → CoolLoop) (s : State) : (s.modLoop i f).alloc = s.alloc := rfl
@[simp] theorem State.modLoop_paths (i : Nat) (f : CoolLoop → CoolLoop) (s : State) : (s.modLoop i f).paths = s.paths := rfl
@[simp] theorem State.modLoop_law (i : Nat) (f : CoolLoop → CoolLoop) (s : State) : (s.modLoop i f).law = s.law := rfl
@[simp] theorem State.modLoop_lanes (i : Nat) (f : CoolLoop → CoolLoop) (s : State) : (s.modLoop i f).lanes = s.lanes := rfl
@[simp] theorem State.modLoop_pair (i : Nat) (f : CoolLoop → CoolLoop) (s : State) : (s.modLoop i f).pair = s.pair := rfl
@[simp] theorem State.modLoop_acq (i : Nat) (f : CoolLoop → CoolLoop) (s : State) : (s.modLoop i f).acq = s.acq := rfl
@[simp] theorem State.modLoop_thm (i : Nat) (f : CoolLoop → CoolLoop) (s : State) : (s.modLoop i f).thm = { s.thm with loops := upd s.thm.loops i f } := rfl
@[simp] theorem State.modLoop_sw (i : Nat) (f : CoolLoop → CoolLoop) (s : State) : (s.modLoop i f).sw = s.sw := rfl
@[simp] theorem State.modLoop_met (i : Nat) (f : CoolLoop → CoolLoop) (s : State) : (s.modLoop i f).met = s.met := rfl
@[simp] theorem State.modLoop_veh (i : Nat) (f : CoolLoop → CoolLoop) (s : State) : (s.modLoop i f).veh = s.veh := rfl
@[simp] theorem State.modLoop_civil (i : Nat) (f : CoolLoop → CoolLoop) (s : State) : (s.modLoop i f).civil = s.civil := rfl
@[simp] theorem State.modLoop_key (i : Nat) (f : CoolLoop → CoolLoop) (s : State) : (s.modLoop i f).key = s.key := rfl
@[simp] theorem State.modLoop_can (i : Nat) (f : CoolLoop → CoolLoop) (s : State) : (s.modLoop i f).can = s.can := rfl
@[simp] theorem State.modLoop_plc (i : Nat) (f : CoolLoop → CoolLoop) (s : State) : (s.modLoop i f).plc = s.plc := rfl
@[simp] theorem State.modLoop_rcd (i : Nat) (f : CoolLoop → CoolLoop) (s : State) : (s.modLoop i f).rcd = s.rcd := rfl

@[simp] theorem State.modVeh_pending (i : Nat) (f : Veh → Veh) (s : State) : (s.modVeh i f).pending = s.pending := rfl
@[simp] theorem State.modVeh_now (i : Nat) (f : Veh → Veh) (s : State) : (s.modVeh i f).now = s.now := rfl
@[simp] theorem State.modVeh_outs (i : Nat) (f : Veh → Veh) (s : State) : (s.modVeh i f).outs = s.outs := rfl
@[simp] theorem State.modVeh_freeIx (i : Nat) (f : Veh → Veh) (s : State) : (s.modVeh i f).freeIx = s.freeIx := rfl
@[simp] theorem State.modVeh_pwr (i : Nat) (f : Veh → Veh) (s : State) : (s.modVeh i f).pwr = s.pwr := rfl
@[simp] theorem State.modVeh_host (i : Nat) (f : Veh → Veh) (s : State) : (s.modVeh i f).host = s.host := rfl
@[simp] theorem State.modVeh_flt (i : Nat) (f : Veh → Veh) (s : State) : (s.modVeh i f).flt = s.flt := rfl
@[simp] theorem State.modVeh_prof (i : Nat) (f : Veh → Veh) (s : State) : (s.modVeh i f).prof = s.prof := rfl
@[simp] theorem State.modVeh_stages (i : Nat) (f : Veh → Veh) (s : State) : (s.modVeh i f).stages = s.stages := rfl
@[simp] theorem State.modVeh_alloc (i : Nat) (f : Veh → Veh) (s : State) : (s.modVeh i f).alloc = s.alloc := rfl
@[simp] theorem State.modVeh_paths (i : Nat) (f : Veh → Veh) (s : State) : (s.modVeh i f).paths = s.paths := rfl
@[simp] theorem State.modVeh_law (i : Nat) (f : Veh → Veh) (s : State) : (s.modVeh i f).law = s.law := rfl
@[simp] theorem State.modVeh_lanes (i : Nat) (f : Veh → Veh) (s : State) : (s.modVeh i f).lanes = s.lanes := rfl
@[simp] theorem State.modVeh_pair (i : Nat) (f : Veh → Veh) (s : State) : (s.modVeh i f).pair = s.pair := rfl
@[simp] theorem State.modVeh_acq (i : Nat) (f : Veh → Veh) (s : State) : (s.modVeh i f).acq = s.acq := rfl
@[simp] theorem State.modVeh_thm (i : Nat) (f : Veh → Veh) (s : State) : (s.modVeh i f).thm = s.thm := rfl
@[simp] theorem State.modVeh_sw (i : Nat) (f : Veh → Veh) (s : State) : (s.modVeh i f).sw = s.sw := rfl
@[simp] theorem State.modVeh_met (i : Nat) (f : Veh → Veh) (s : State) : (s.modVeh i f).met = s.met := rfl
@[simp] theorem State.modVeh_veh (i : Nat) (f : Veh → Veh) (s : State) : (s.modVeh i f).veh = upd s.veh i f := rfl
@[simp] theorem State.modVeh_civil (i : Nat) (f : Veh → Veh) (s : State) : (s.modVeh i f).civil = s.civil := rfl
@[simp] theorem State.modVeh_key (i : Nat) (f : Veh → Veh) (s : State) : (s.modVeh i f).key = s.key := rfl
@[simp] theorem State.modVeh_can (i : Nat) (f : Veh → Veh) (s : State) : (s.modVeh i f).can = s.can := rfl
@[simp] theorem State.modVeh_plc (i : Nat) (f : Veh → Veh) (s : State) : (s.modVeh i f).plc = s.plc := rfl
@[simp] theorem State.modVeh_rcd (i : Nat) (f : Veh → Veh) (s : State) : (s.modVeh i f).rcd = s.rcd := rfl

@[simp] theorem State.modSes_pending (i : Nat) (f : Session → Session) (s : State) : (s.modSes i f).pending = s.pending := rfl
@[simp] theorem State.modSes_now (i : Nat) (f : Session → Session) (s : State) : (s.modSes i f).now = s.now := rfl
@[simp] theorem State.modSes_outs (i : Nat) (f : Session → Session) (s : State) : (s.modSes i f).outs = s.outs := rfl
@[simp] theorem State.modSes_freeIx (i : Nat) (f : Session → Session) (s : State) : (s.modSes i f).freeIx = s.freeIx := rfl
@[simp] theorem State.modSes_pwr (i : Nat) (f : Session → Session) (s : State) : (s.modSes i f).pwr = s.pwr := rfl
@[simp] theorem State.modSes_host (i : Nat) (f : Session → Session) (s : State) : (s.modSes i f).host = s.host := rfl
@[simp] theorem State.modSes_flt (i : Nat) (f : Session → Session) (s : State) : (s.modSes i f).flt = s.flt := rfl
@[simp] theorem State.modSes_prof (i : Nat) (f : Session → Session) (s : State) : (s.modSes i f).prof = s.prof := rfl
@[simp] theorem State.modSes_stages (i : Nat) (f : Session → Session) (s : State) : (s.modSes i f).stages = s.stages := rfl
@[simp] theorem State.modSes_alloc (i : Nat) (f : Session → Session) (s : State) : (s.modSes i f).alloc = s.alloc := rfl
@[simp] theorem State.modSes_paths (i : Nat) (f : Session → Session) (s : State) : (s.modSes i f).paths = s.paths := rfl
@[simp] theorem State.modSes_law (i : Nat) (f : Session → Session) (s : State) : (s.modSes i f).law = s.law := rfl
@[simp] theorem State.modSes_lanes (i : Nat) (f : Session → Session) (s : State) : (s.modSes i f).lanes = s.lanes := rfl
@[simp] theorem State.modSes_pair (i : Nat) (f : Session → Session) (s : State) : (s.modSes i f).pair = s.pair := rfl
@[simp] theorem State.modSes_acq (i : Nat) (f : Session → Session) (s : State) : (s.modSes i f).acq = s.acq := rfl
@[simp] theorem State.modSes_thm (i : Nat) (f : Session → Session) (s : State) : (s.modSes i f).thm = s.thm := rfl
@[simp] theorem State.modSes_sw (i : Nat) (f : Session → Session) (s : State) : (s.modSes i f).sw = s.sw := rfl
@[simp] theorem State.modSes_met (i : Nat) (f : Session → Session) (s : State) : (s.modSes i f).met = s.met := rfl
@[simp] theorem State.modSes_veh (i : Nat) (f : Session → Session) (s : State) : (s.modSes i f).veh = upd s.veh i fun v => { v with ses := f v.ses } := rfl
@[simp] theorem State.modSes_civil (i : Nat) (f : Session → Session) (s : State) : (s.modSes i f).civil = s.civil := rfl
@[simp] theorem State.modSes_key (i : Nat) (f : Session → Session) (s : State) : (s.modSes i f).key = s.key := rfl
@[simp] theorem State.modSes_can (i : Nat) (f : Session → Session) (s : State) : (s.modSes i f).can = s.can := rfl
@[simp] theorem State.modSes_plc (i : Nat) (f : Session → Session) (s : State) : (s.modSes i f).plc = s.plc := rfl
@[simp] theorem State.modSes_rcd (i : Nat) (f : Session → Session) (s : State) : (s.modSes i f).rcd = s.rcd := rfl

@[simp] theorem emit_pending (o : Out) (s : State) : (emit o s).pending = s.pending := rfl
@[simp] theorem emit_now (o : Out) (s : State) : (emit o s).now = s.now := rfl
@[simp] theorem emit_outs (o : Out) (s : State) : (emit o s).outs = o :: s.outs := rfl
@[simp] theorem emit_freeIx (o : Out) (s : State) : (emit o s).freeIx = s.freeIx := rfl
@[simp] theorem emit_pwr (o : Out) (s : State) : (emit o s).pwr = s.pwr := rfl
@[simp] theorem emit_host (o : Out) (s : State) : (emit o s).host = s.host := rfl
@[simp] theorem emit_flt (o : Out) (s : State) : (emit o s).flt = s.flt := rfl
@[simp] theorem emit_prof (o : Out) (s : State) : (emit o s).prof = s.prof := rfl
@[simp] theorem emit_stages (o : Out) (s : State) : (emit o s).stages = s.stages := rfl
@[simp] theorem emit_alloc (o : Out) (s : State) : (emit o s).alloc = s.alloc := rfl
@[simp] theorem emit_paths (o : Out) (s : State) : (emit o s).paths = s.paths := rfl
@[simp] theorem emit_law (o : Out) (s : State) : (emit o s).law = s.law := rfl
@[simp] theorem emit_lanes (o : Out) (s : State) : (emit o s).lanes = s.lanes := rfl
@[simp] theorem emit_pair (o : Out) (s : State) : (emit o s).pair = s.pair := rfl
@[simp] theorem emit_acq (o : Out) (s : State) : (emit o s).acq = s.acq := rfl
@[simp] theorem emit_thm (o : Out) (s : State) : (emit o s).thm = s.thm := rfl
@[simp] theorem emit_sw (o : Out) (s : State) : (emit o s).sw = s.sw := rfl
@[simp] theorem emit_met (o : Out) (s : State) : (emit o s).met = s.met := rfl
@[simp] theorem emit_veh (o : Out) (s : State) : (emit o s).veh = s.veh := rfl
@[simp] theorem emit_civil (o : Out) (s : State) : (emit o s).civil = s.civil := rfl
@[simp] theorem emit_key (o : Out) (s : State) : (emit o s).key = s.key := rfl
@[simp] theorem emit_can (o : Out) (s : State) : (emit o s).can = s.can := rfl
@[simp] theorem emit_plc (o : Out) (s : State) : (emit o s).plc = s.plc := rfl
@[simp] theorem emit_rcd (o : Out) (s : State) : (emit o s).rcd = s.rcd := rfl

@[simp] theorem useFree_pending (s : State) : (useFree s).pending = s.pending := rfl
@[simp] theorem useFree_now (s : State) : (useFree s).now = s.now := rfl
@[simp] theorem useFree_outs (s : State) : (useFree s).outs = s.outs := rfl
@[simp] theorem useFree_freeIx (s : State) : (useFree s).freeIx = s.freeIx + 1 := rfl
@[simp] theorem useFree_pwr (s : State) : (useFree s).pwr = s.pwr := rfl
@[simp] theorem useFree_host (s : State) : (useFree s).host = s.host := rfl
@[simp] theorem useFree_flt (s : State) : (useFree s).flt = s.flt := rfl
@[simp] theorem useFree_prof (s : State) : (useFree s).prof = s.prof := rfl
@[simp] theorem useFree_stages (s : State) : (useFree s).stages = s.stages := rfl
@[simp] theorem useFree_alloc (s : State) : (useFree s).alloc = s.alloc := rfl
@[simp] theorem useFree_paths (s : State) : (useFree s).paths = s.paths := rfl
@[simp] theorem useFree_law (s : State) : (useFree s).law = s.law := rfl
@[simp] theorem useFree_lanes (s : State) : (useFree s).lanes = s.lanes := rfl
@[simp] theorem useFree_pair (s : State) : (useFree s).pair = s.pair := rfl
@[simp] theorem useFree_acq (s : State) : (useFree s).acq = s.acq := rfl
@[simp] theorem useFree_thm (s : State) : (useFree s).thm = s.thm := rfl
@[simp] theorem useFree_sw (s : State) : (useFree s).sw = s.sw := rfl
@[simp] theorem useFree_met (s : State) : (useFree s).met = s.met := rfl
@[simp] theorem useFree_veh (s : State) : (useFree s).veh = s.veh := rfl
@[simp] theorem useFree_civil (s : State) : (useFree s).civil = s.civil := rfl
@[simp] theorem useFree_key (s : State) : (useFree s).key = s.key := rfl
@[simp] theorem useFree_can (s : State) : (useFree s).can = s.can := rfl
@[simp] theorem useFree_plc (s : State) : (useFree s).plc = s.plc := rfl
@[simp] theorem useFree_rcd (s : State) : (useFree s).rcd = s.rcd := rfl

end Sys2Proof.Machine
end

