-- ==== Sys2Proof/Laws/Fields.lean ====
section
/-! SUPPORT. The fields of the state that the shared operations leave as they were, and how an updated list reads. -/

namespace Sys2Proof.Machine

@[simp] theorem upd_length (l : List α) (i : Nat) (f : α → α) : (upd l i f).length = l.length := by simp [upd]
theorem upd_upd (l : List α) (i : Nat) (f g : α → α) : upd (upd l i f) i g = upd l i fun x => g (f x) := by
  simp [upd, List.modify_modify_eq, Function.comp_def]
theorem nth_upd [Inhabited α] (l : List α) (i k : Nat) (f : α → α) : nth (upd l i f) k = if i = k ∧ k < l.length then f (nth l k) else nth l k := by
  unfold nth upd; simp only [List.getD_eq_getElem?_getD, List.getElem?_modify]
  rcases Nat.lt_or_ge k l.length with h | h
  · by_cases hk : i = k <;> simp [h, hk]
  · simp [h, Nat.not_lt.2 h]
theorem upd_congr [Inhabited α] (l : List α) (i : Nat) (f g : α → α) (h : f (nth l i) = g (nth l i)) : upd l i f = upd l i g := by
  apply List.ext_getElem (by simp)
  intro n h1 h2
  simp only [upd_length] at h1
  simp only [upd, List.getElem_modify]
  split
  · have e : nth l n = l[n] := by rw [nth, List.getD_eq_getElem?_getD, List.getElem?_eq_getElem h1]; rfl
    subst_vars; rw [← e]; exact h
  · rfl
theorem stage_modStage (i k : Nat) (f : Stage → Stage) (s : State) :
    (s.modStage i f).stage k = if i = k ∧ k < s.stages.length then f (s.stage k) else s.stage k := nth_upd _ _ _ _
theorem path_modPath (i k : Nat) (f : Path → Path) (s : State) :
    (s.modPath i f).path k = if i = k ∧ k < s.paths.length then f (s.path k) else s.path k := nth_upd _ _ _ _

/-- What `raise` leaves as it was. -/
theorem raise_same (src cause inst : Nat) (payload : List Byte) (s : State) : Kept [.flt, .acq, .rcd] s (raise src cause inst payload s) := (raise_kept src cause inst payload s (List.Subset.refl _)).2 (Kept.refl _ s)
@[simp] theorem raise_pending (src cause inst : Nat) (payload : List Byte) (s : State) : (raise src cause inst payload s).pending = s.pending := (raise_same src cause inst payload s).same .pending (by decide)
@[simp] theorem raise_now (src cause inst : Nat) (payload : List Byte) (s : State) : (raise src cause inst payload s).now = s.now := (raise_same src cause inst payload s).same .now (by decide)
@[simp] theorem raise_outs (src cause inst : Nat) (payload : List Byte) (s : State) : (raise src cause inst payload s).outs = s.outs := (raise_same src cause inst payload s).same .outs (by decide)
@[simp] theorem raise_freeIx (src cause inst : Nat) (payload : List Byte) (s : State) : (raise src cause inst payload s).freeIx = s.freeIx := (raise_same src cause inst payload s).same .freeIx (by decide)
@[simp] theorem raise_pwr (src cause inst : Nat) (payload : List Byte) (s : State) : (raise src cause inst payload s).pwr = s.pwr := (raise_same src cause inst payload s).same .pwr (by decide)
@[simp] theorem raise_host (src cause inst : Nat) (payload : List Byte) (s : State) : (raise src cause inst payload s).host = s.host := (raise_same src cause inst payload s).same .host (by decide)
@[simp] theorem raise_prof (src cause inst : Nat) (payload : List Byte) (s : State) : (raise src cause inst payload s).prof = s.prof := (raise_same src cause inst payload s).same .prof (by decide)
@[simp] theorem raise_stages (src cause inst : Nat) (payload : List Byte) (s : State) : (raise src cause inst payload s).stages = s.stages := (raise_same src cause inst payload s).same .stages (by decide)
@[simp] theorem raise_alloc (src cause inst : Nat) (payload : List Byte) (s : State) : (raise src cause inst payload s).alloc = s.alloc := (raise_same src cause inst payload s).same .alloc (by decide)
@[simp] theorem raise_paths (src cause inst : Nat) (payload : List Byte) (s : State) : (raise src cause inst payload s).paths = s.paths := (raise_same src cause inst payload s).same .paths (by decide)
@[simp] theorem raise_law (src cause inst : Nat) (payload : List Byte) (s : State) : (raise src cause inst payload s).law = s.law := (raise_same src cause inst payload s).same .law (by decide)
@[simp] theorem raise_lanes (src cause inst : Nat) (payload : List Byte) (s : State) : (raise src cause inst payload s).lanes = s.lanes := (raise_same src cause inst payload s).same .lanes (by decide)
@[simp] theorem raise_pair (src cause inst : Nat) (payload : List Byte) (s : State) : (raise src cause inst payload s).pair = s.pair := (raise_same src cause inst payload s).same .pair (by decide)
@[simp] theorem raise_thm (src cause inst : Nat) (payload : List Byte) (s : State) : (raise src cause inst payload s).thm = s.thm := (raise_same src cause inst payload s).same .thm (by decide)
@[simp] theorem raise_sw (src cause inst : Nat) (payload : List Byte) (s : State) : (raise src cause inst payload s).sw = s.sw := (raise_same src cause inst payload s).same .sw (by decide)
@[simp] theorem raise_met (src cause inst : Nat) (payload : List Byte) (s : State) : (raise src cause inst payload s).met = s.met := (raise_same src cause inst payload s).same .met (by decide)
@[simp] theorem raise_veh (src cause inst : Nat) (payload : List Byte) (s : State) : (raise src cause inst payload s).veh = s.veh := (raise_same src cause inst payload s).same .veh (by decide)
@[simp] theorem raise_civil (src cause inst : Nat) (payload : List Byte) (s : State) : (raise src cause inst payload s).civil = s.civil := (raise_same src cause inst payload s).same .civil (by decide)
@[simp] theorem raise_key (src cause inst : Nat) (payload : List Byte) (s : State) : (raise src cause inst payload s).key = s.key := (raise_same src cause inst payload s).same .key (by decide)
@[simp] theorem raise_can (src cause inst : Nat) (payload : List Byte) (s : State) : (raise src cause inst payload s).can = s.can := (raise_same src cause inst payload s).same .can (by decide)
@[simp] theorem raise_plc (src cause inst : Nat) (payload : List Byte) (s : State) : (raise src cause inst payload s).plc = s.plc := (raise_same src cause inst payload s).same .plc (by decide)
/-- What `raiseXfer` leaves as it was. -/
theorem raiseXfer_same (ev cause i : Nat) (s : State) : Kept [.flt, .acq, .rcd] s (raiseXfer ev cause i s) := (raiseXfer_kept ev cause i s (List.Subset.refl _)).2 (Kept.refl _ s)
@[simp] theorem raiseXfer_pending (ev cause i : Nat) (s : State) : (raiseXfer ev cause i s).pending = s.pending := (raiseXfer_same ev cause i s).same .pending (by decide)
@[simp] theorem raiseXfer_now (ev cause i : Nat) (s : State) : (raiseXfer ev cause i s).now = s.now := (raiseXfer_same ev cause i s).same .now (by decide)
@[simp] theorem raiseXfer_outs (ev cause i : Nat) (s : State) : (raiseXfer ev cause i s).outs = s.outs := (raiseXfer_same ev cause i s).same .outs (by decide)
@[simp] theorem raiseXfer_freeIx (ev cause i : Nat) (s : State) : (raiseXfer ev cause i s).freeIx = s.freeIx := (raiseXfer_same ev cause i s).same .freeIx (by decide)
@[simp] theorem raiseXfer_pwr (ev cause i : Nat) (s : State) : (raiseXfer ev cause i s).pwr = s.pwr := (raiseXfer_same ev cause i s).same .pwr (by decide)
@[simp] theorem raiseXfer_host (ev cause i : Nat) (s : State) : (raiseXfer ev cause i s).host = s.host := (raiseXfer_same ev cause i s).same .host (by decide)
@[simp] theorem raiseXfer_prof (ev cause i : Nat) (s : State) : (raiseXfer ev cause i s).prof = s.prof := (raiseXfer_same ev cause i s).same .prof (by decide)
@[simp] theorem raiseXfer_stages (ev cause i : Nat) (s : State) : (raiseXfer ev cause i s).stages = s.stages := (raiseXfer_same ev cause i s).same .stages (by decide)
@[simp] theorem raiseXfer_alloc (ev cause i : Nat) (s : State) : (raiseXfer ev cause i s).alloc = s.alloc := (raiseXfer_same ev cause i s).same .alloc (by decide)
@[simp] theorem raiseXfer_paths (ev cause i : Nat) (s : State) : (raiseXfer ev cause i s).paths = s.paths := (raiseXfer_same ev cause i s).same .paths (by decide)
@[simp] theorem raiseXfer_law (ev cause i : Nat) (s : State) : (raiseXfer ev cause i s).law = s.law := (raiseXfer_same ev cause i s).same .law (by decide)
@[simp] theorem raiseXfer_lanes (ev cause i : Nat) (s : State) : (raiseXfer ev cause i s).lanes = s.lanes := (raiseXfer_same ev cause i s).same .lanes (by decide)
@[simp] theorem raiseXfer_pair (ev cause i : Nat) (s : State) : (raiseXfer ev cause i s).pair = s.pair := (raiseXfer_same ev cause i s).same .pair (by decide)
@[simp] theorem raiseXfer_thm (ev cause i : Nat) (s : State) : (raiseXfer ev cause i s).thm = s.thm := (raiseXfer_same ev cause i s).same .thm (by decide)
@[simp] theorem raiseXfer_sw (ev cause i : Nat) (s : State) : (raiseXfer ev cause i s).sw = s.sw := (raiseXfer_same ev cause i s).same .sw (by decide)
@[simp] theorem raiseXfer_met (ev cause i : Nat) (s : State) : (raiseXfer ev cause i s).met = s.met := (raiseXfer_same ev cause i s).same .met (by decide)
@[simp] theorem raiseXfer_veh (ev cause i : Nat) (s : State) : (raiseXfer ev cause i s).veh = s.veh := (raiseXfer_same ev cause i s).same .veh (by decide)
@[simp] theorem raiseXfer_civil (ev cause i : Nat) (s : State) : (raiseXfer ev cause i s).civil = s.civil := (raiseXfer_same ev cause i s).same .civil (by decide)
@[simp] theorem raiseXfer_key (ev cause i : Nat) (s : State) : (raiseXfer ev cause i s).key = s.key := (raiseXfer_same ev cause i s).same .key (by decide)
@[simp] theorem raiseXfer_can (ev cause i : Nat) (s : State) : (raiseXfer ev cause i s).can = s.can := (raiseXfer_same ev cause i s).same .can (by decide)
@[simp] theorem raiseXfer_plc (ev cause i : Nat) (s : State) : (raiseXfer ev cause i s).plc = s.plc := (raiseXfer_same ev cause i s).same .plc (by decide)
/-- What `raiseOnce` leaves as it was. -/
theorem raiseOnce_same (src cause inst : Nat) (payload : List Byte) (s : State) : Kept [.flt, .acq, .rcd] s (raiseOnce src cause inst payload s) := (raiseOnce_kept src cause inst payload s (List.Subset.refl _)).2 (Kept.refl _ s)
@[simp] theorem raiseOnce_pending (src cause inst : Nat) (payload : List Byte) (s : State) : (raiseOnce src cause inst payload s).pending = s.pending := (raiseOnce_same src cause inst payload s).same .pending (by decide)
@[simp] theorem raiseOnce_now (src cause inst : Nat) (payload : List Byte) (s : State) : (raiseOnce src cause inst payload s).now = s.now := (raiseOnce_same src cause inst payload s).same .now (by decide)
@[simp] theorem raiseOnce_outs (src cause inst : Nat) (payload : List Byte) (s : State) : (raiseOnce src cause inst payload s).outs = s.outs := (raiseOnce_same src cause inst payload s).same .outs (by decide)
@[simp] theorem raiseOnce_freeIx (src cause inst : Nat) (payload : List Byte) (s : State) : (raiseOnce src cause inst payload s).freeIx = s.freeIx := (raiseOnce_same src cause inst payload s).same .freeIx (by decide)
@[simp] theorem raiseOnce_pwr (src cause inst : Nat) (payload : List Byte) (s : State) : (raiseOnce src cause inst payload s).pwr = s.pwr := (raiseOnce_same src cause inst payload s).same .pwr (by decide)
@[simp] theorem raiseOnce_host (src cause inst : Nat) (payload : List Byte) (s : State) : (raiseOnce src cause inst payload s).host = s.host := (raiseOnce_same src cause inst payload s).same .host (by decide)
@[simp] theorem raiseOnce_prof (src cause inst : Nat) (payload : List Byte) (s : State) : (raiseOnce src cause inst payload s).prof = s.prof := (raiseOnce_same src cause inst payload s).same .prof (by decide)
@[simp] theorem raiseOnce_stages (src cause inst : Nat) (payload : List Byte) (s : State) : (raiseOnce src cause inst payload s).stages = s.stages := (raiseOnce_same src cause inst payload s).same .stages (by decide)
@[simp] theorem raiseOnce_alloc (src cause inst : Nat) (payload : List Byte) (s : State) : (raiseOnce src cause inst payload s).alloc = s.alloc := (raiseOnce_same src cause inst payload s).same .alloc (by decide)
@[simp] theorem raiseOnce_paths (src cause inst : Nat) (payload : List Byte) (s : State) : (raiseOnce src cause inst payload s).paths = s.paths := (raiseOnce_same src cause inst payload s).same .paths (by decide)
@[simp] theorem raiseOnce_law (src cause inst : Nat) (payload : List Byte) (s : State) : (raiseOnce src cause inst payload s).law = s.law := (raiseOnce_same src cause inst payload s).same .law (by decide)
@[simp] theorem raiseOnce_lanes (src cause inst : Nat) (payload : List Byte) (s : State) : (raiseOnce src cause inst payload s).lanes = s.lanes := (raiseOnce_same src cause inst payload s).same .lanes (by decide)
@[simp] theorem raiseOnce_pair (src cause inst : Nat) (payload : List Byte) (s : State) : (raiseOnce src cause inst payload s).pair = s.pair := (raiseOnce_same src cause inst payload s).same .pair (by decide)
@[simp] theorem raiseOnce_thm (src cause inst : Nat) (payload : List Byte) (s : State) : (raiseOnce src cause inst payload s).thm = s.thm := (raiseOnce_same src cause inst payload s).same .thm (by decide)
@[simp] theorem raiseOnce_sw (src cause inst : Nat) (payload : List Byte) (s : State) : (raiseOnce src cause inst payload s).sw = s.sw := (raiseOnce_same src cause inst payload s).same .sw (by decide)
@[simp] theorem raiseOnce_met (src cause inst : Nat) (payload : List Byte) (s : State) : (raiseOnce src cause inst payload s).met = s.met := (raiseOnce_same src cause inst payload s).same .met (by decide)
@[simp] theorem raiseOnce_veh (src cause inst : Nat) (payload : List Byte) (s : State) : (raiseOnce src cause inst payload s).veh = s.veh := (raiseOnce_same src cause inst payload s).same .veh (by decide)
@[simp] theorem raiseOnce_civil (src cause inst : Nat) (payload : List Byte) (s : State) : (raiseOnce src cause inst payload s).civil = s.civil := (raiseOnce_same src cause inst payload s).same .civil (by decide)
@[simp] theorem raiseOnce_key (src cause inst : Nat) (payload : List Byte) (s : State) : (raiseOnce src cause inst payload s).key = s.key := (raiseOnce_same src cause inst payload s).same .key (by decide)
@[simp] theorem raiseOnce_can (src cause inst : Nat) (payload : List Byte) (s : State) : (raiseOnce src cause inst payload s).can = s.can := (raiseOnce_same src cause inst payload s).same .can (by decide)
@[simp] theorem raiseOnce_plc (src cause inst : Nat) (payload : List Byte) (s : State) : (raiseOnce src cause inst payload s).plc = s.plc := (raiseOnce_same src cause inst payload s).same .plc (by decide)
/-- What `raiseOnceFor` leaves as it was. -/
theorem raiseOnceFor_same (key src cause inst : Nat) (payload : List Byte) (s : State) : Kept [.flt, .acq, .rcd] s (raiseOnceFor key src cause inst payload s) := (raiseOnceFor_kept key src cause inst payload s (List.Subset.refl _)).2 (Kept.refl _ s)
@[simp] theorem raiseOnceFor_pending (key src cause inst : Nat) (payload : List Byte) (s : State) : (raiseOnceFor key src cause inst payload s).pending = s.pending := (raiseOnceFor_same key src cause inst payload s).same .pending (by decide)
@[simp] theorem raiseOnceFor_now (key src cause inst : Nat) (payload : List Byte) (s : State) : (raiseOnceFor key src cause inst payload s).now = s.now := (raiseOnceFor_same key src cause inst payload s).same .now (by decide)
@[simp] theorem raiseOnceFor_outs (key src cause inst : Nat) (payload : List Byte) (s : State) : (raiseOnceFor key src cause inst payload s).outs = s.outs := (raiseOnceFor_same key src cause inst payload s).same .outs (by decide)
@[simp] theorem raiseOnceFor_freeIx (key src cause inst : Nat) (payload : List Byte) (s : State) : (raiseOnceFor key src cause inst payload s).freeIx = s.freeIx := (raiseOnceFor_same key src cause inst payload s).same .freeIx (by decide)
@[simp] theorem raiseOnceFor_pwr (key src cause inst : Nat) (payload : List Byte) (s : State) : (raiseOnceFor key src cause inst payload s).pwr = s.pwr := (raiseOnceFor_same key src cause inst payload s).same .pwr (by decide)
@[simp] theorem raiseOnceFor_host (key src cause inst : Nat) (payload : List Byte) (s : State) : (raiseOnceFor key src cause inst payload s).host = s.host := (raiseOnceFor_same key src cause inst payload s).same .host (by decide)
@[simp] theorem raiseOnceFor_prof (key src cause inst : Nat) (payload : List Byte) (s : State) : (raiseOnceFor key src cause inst payload s).prof = s.prof := (raiseOnceFor_same key src cause inst payload s).same .prof (by decide)
@[simp] theorem raiseOnceFor_stages (key src cause inst : Nat) (payload : List Byte) (s : State) : (raiseOnceFor key src cause inst payload s).stages = s.stages := (raiseOnceFor_same key src cause inst payload s).same .stages (by decide)
@[simp] theorem raiseOnceFor_alloc (key src cause inst : Nat) (payload : List Byte) (s : State) : (raiseOnceFor key src cause inst payload s).alloc = s.alloc := (raiseOnceFor_same key src cause inst payload s).same .alloc (by decide)
@[simp] theorem raiseOnceFor_paths (key src cause inst : Nat) (payload : List Byte) (s : State) : (raiseOnceFor key src cause inst payload s).paths = s.paths := (raiseOnceFor_same key src cause inst payload s).same .paths (by decide)
@[simp] theorem raiseOnceFor_law (key src cause inst : Nat) (payload : List Byte) (s : State) : (raiseOnceFor key src cause inst payload s).law = s.law := (raiseOnceFor_same key src cause inst payload s).same .law (by decide)
@[simp] theorem raiseOnceFor_lanes (key src cause inst : Nat) (payload : List Byte) (s : State) : (raiseOnceFor key src cause inst payload s).lanes = s.lanes := (raiseOnceFor_same key src cause inst payload s).same .lanes (by decide)
@[simp] theorem raiseOnceFor_pair (key src cause inst : Nat) (payload : List Byte) (s : State) : (raiseOnceFor key src cause inst payload s).pair = s.pair := (raiseOnceFor_same key src cause inst payload s).same .pair (by decide)
@[simp] theorem raiseOnceFor_thm (key src cause inst : Nat) (payload : List Byte) (s : State) : (raiseOnceFor key src cause inst payload s).thm = s.thm := (raiseOnceFor_same key src cause inst payload s).same .thm (by decide)
@[simp] theorem raiseOnceFor_sw (key src cause inst : Nat) (payload : List Byte) (s : State) : (raiseOnceFor key src cause inst payload s).sw = s.sw := (raiseOnceFor_same key src cause inst payload s).same .sw (by decide)
@[simp] theorem raiseOnceFor_met (key src cause inst : Nat) (payload : List Byte) (s : State) : (raiseOnceFor key src cause inst payload s).met = s.met := (raiseOnceFor_same key src cause inst payload s).same .met (by decide)
@[simp] theorem raiseOnceFor_veh (key src cause inst : Nat) (payload : List Byte) (s : State) : (raiseOnceFor key src cause inst payload s).veh = s.veh := (raiseOnceFor_same key src cause inst payload s).same .veh (by decide)
@[simp] theorem raiseOnceFor_civil (key src cause inst : Nat) (payload : List Byte) (s : State) : (raiseOnceFor key src cause inst payload s).civil = s.civil := (raiseOnceFor_same key src cause inst payload s).same .civil (by decide)
@[simp] theorem raiseOnceFor_key (key src cause inst : Nat) (payload : List Byte) (s : State) : (raiseOnceFor key src cause inst payload s).key = s.key := (raiseOnceFor_same key src cause inst payload s).same .key (by decide)
@[simp] theorem raiseOnceFor_can (key src cause inst : Nat) (payload : List Byte) (s : State) : (raiseOnceFor key src cause inst payload s).can = s.can := (raiseOnceFor_same key src cause inst payload s).same .can (by decide)
@[simp] theorem raiseOnceFor_plc (key src cause inst : Nat) (payload : List Byte) (s : State) : (raiseOnceFor key src cause inst payload s).plc = s.plc := (raiseOnceFor_same key src cause inst payload s).same .plc (by decide)
/-- What `countEvent` leaves as it was. -/
theorem countEvent_same (src cause inst : Nat) (s : State) : Kept [.flt] s (countEvent src cause inst s) := (countEvent_kept src cause inst s (List.Subset.refl _)).2 (Kept.refl _ s)
@[simp] theorem countEvent_pending (src cause inst : Nat) (s : State) : (countEvent src cause inst s).pending = s.pending := (countEvent_same src cause inst s).same .pending (by decide)
@[simp] theorem countEvent_now (src cause inst : Nat) (s : State) : (countEvent src cause inst s).now = s.now := (countEvent_same src cause inst s).same .now (by decide)
@[simp] theorem countEvent_outs (src cause inst : Nat) (s : State) : (countEvent src cause inst s).outs = s.outs := (countEvent_same src cause inst s).same .outs (by decide)
@[simp] theorem countEvent_freeIx (src cause inst : Nat) (s : State) : (countEvent src cause inst s).freeIx = s.freeIx := (countEvent_same src cause inst s).same .freeIx (by decide)
@[simp] theorem countEvent_pwr (src cause inst : Nat) (s : State) : (countEvent src cause inst s).pwr = s.pwr := (countEvent_same src cause inst s).same .pwr (by decide)
@[simp] theorem countEvent_host (src cause inst : Nat) (s : State) : (countEvent src cause inst s).host = s.host := (countEvent_same src cause inst s).same .host (by decide)
@[simp] theorem countEvent_prof (src cause inst : Nat) (s : State) : (countEvent src cause inst s).prof = s.prof := (countEvent_same src cause inst s).same .prof (by decide)
@[simp] theorem countEvent_stages (src cause inst : Nat) (s : State) : (countEvent src cause inst s).stages = s.stages := (countEvent_same src cause inst s).same .stages (by decide)
@[simp] theorem countEvent_alloc (src cause inst : Nat) (s : State) : (countEvent src cause inst s).alloc = s.alloc := (countEvent_same src cause inst s).same .alloc (by decide)
@[simp] theorem countEvent_paths (src cause inst : Nat) (s : State) : (countEvent src cause inst s).paths = s.paths := (countEvent_same src cause inst s).same .paths (by decide)
@[simp] theorem countEvent_law (src cause inst : Nat) (s : State) : (countEvent src cause inst s).law = s.law := (countEvent_same src cause inst s).same .law (by decide)
@[simp] theorem countEvent_lanes (src cause inst : Nat) (s : State) : (countEvent src cause inst s).lanes = s.lanes := (countEvent_same src cause inst s).same .lanes (by decide)
@[simp] theorem countEvent_pair (src cause inst : Nat) (s : State) : (countEvent src cause inst s).pair = s.pair := (countEvent_same src cause inst s).same .pair (by decide)
@[simp] theorem countEvent_acq (src cause inst : Nat) (s : State) : (countEvent src cause inst s).acq = s.acq := (countEvent_same src cause inst s).same .acq (by decide)
@[simp] theorem countEvent_thm (src cause inst : Nat) (s : State) : (countEvent src cause inst s).thm = s.thm := (countEvent_same src cause inst s).same .thm (by decide)
@[simp] theorem countEvent_sw (src cause inst : Nat) (s : State) : (countEvent src cause inst s).sw = s.sw := (countEvent_same src cause inst s).same .sw (by decide)
@[simp] theorem countEvent_met (src cause inst : Nat) (s : State) : (countEvent src cause inst s).met = s.met := (countEvent_same src cause inst s).same .met (by decide)
@[simp] theorem countEvent_veh (src cause inst : Nat) (s : State) : (countEvent src cause inst s).veh = s.veh := (countEvent_same src cause inst s).same .veh (by decide)
@[simp] theorem countEvent_civil (src cause inst : Nat) (s : State) : (countEvent src cause inst s).civil = s.civil := (countEvent_same src cause inst s).same .civil (by decide)
@[simp] theorem countEvent_key (src cause inst : Nat) (s : State) : (countEvent src cause inst s).key = s.key := (countEvent_same src cause inst s).same .key (by decide)
@[simp] theorem countEvent_can (src cause inst : Nat) (s : State) : (countEvent src cause inst s).can = s.can := (countEvent_same src cause inst s).same .can (by decide)
@[simp] theorem countEvent_plc (src cause inst : Nat) (s : State) : (countEvent src cause inst s).plc = s.plc := (countEvent_same src cause inst s).same .plc (by decide)
@[simp] theorem countEvent_rcd (src cause inst : Nat) (s : State) : (countEvent src cause inst s).rcd = s.rcd := (countEvent_same src cause inst s).same .rcd (by decide)
/-- What `sendMsix` leaves as it was. -/
theorem sendMsix_same (v : Nat) (s : State) : Kept [.outs, .host] s (sendMsix v s) := (sendMsix_kept v s (List.Subset.refl _)).2 (Kept.refl _ s)
@[simp] theorem sendMsix_pending (v : Nat) (s : State) : (sendMsix v s).pending = s.pending := (sendMsix_same v s).same .pending (by decide)
@[simp] theorem sendMsix_now (v : Nat) (s : State) : (sendMsix v s).now = s.now := (sendMsix_same v s).same .now (by decide)
@[simp] theorem sendMsix_freeIx (v : Nat) (s : State) : (sendMsix v s).freeIx = s.freeIx := (sendMsix_same v s).same .freeIx (by decide)
@[simp] theorem sendMsix_pwr (v : Nat) (s : State) : (sendMsix v s).pwr = s.pwr := (sendMsix_same v s).same .pwr (by decide)
@[simp] theorem sendMsix_flt (v : Nat) (s : State) : (sendMsix v s).flt = s.flt := (sendMsix_same v s).same .flt (by decide)
@[simp] theorem sendMsix_prof (v : Nat) (s : State) : (sendMsix v s).prof = s.prof := (sendMsix_same v s).same .prof (by decide)
@[simp] theorem sendMsix_stages (v : Nat) (s : State) : (sendMsix v s).stages = s.stages := (sendMsix_same v s).same .stages (by decide)
@[simp] theorem sendMsix_alloc (v : Nat) (s : State) : (sendMsix v s).alloc = s.alloc := (sendMsix_same v s).same .alloc (by decide)
@[simp] theorem sendMsix_paths (v : Nat) (s : State) : (sendMsix v s).paths = s.paths := (sendMsix_same v s).same .paths (by decide)
@[simp] theorem sendMsix_law (v : Nat) (s : State) : (sendMsix v s).law = s.law := (sendMsix_same v s).same .law (by decide)
@[simp] theorem sendMsix_lanes (v : Nat) (s : State) : (sendMsix v s).lanes = s.lanes := (sendMsix_same v s).same .lanes (by decide)
@[simp] theorem sendMsix_pair (v : Nat) (s : State) : (sendMsix v s).pair = s.pair := (sendMsix_same v s).same .pair (by decide)
@[simp] theorem sendMsix_acq (v : Nat) (s : State) : (sendMsix v s).acq = s.acq := (sendMsix_same v s).same .acq (by decide)
@[simp] theorem sendMsix_thm (v : Nat) (s : State) : (sendMsix v s).thm = s.thm := (sendMsix_same v s).same .thm (by decide)
@[simp] theorem sendMsix_sw (v : Nat) (s : State) : (sendMsix v s).sw = s.sw := (sendMsix_same v s).same .sw (by decide)
@[simp] theorem sendMsix_met (v : Nat) (s : State) : (sendMsix v s).met = s.met := (sendMsix_same v s).same .met (by decide)
@[simp] theorem sendMsix_veh (v : Nat) (s : State) : (sendMsix v s).veh = s.veh := (sendMsix_same v s).same .veh (by decide)
@[simp] theorem sendMsix_civil (v : Nat) (s : State) : (sendMsix v s).civil = s.civil := (sendMsix_same v s).same .civil (by decide)
@[simp] theorem sendMsix_key (v : Nat) (s : State) : (sendMsix v s).key = s.key := (sendMsix_same v s).same .key (by decide)
@[simp] theorem sendMsix_can (v : Nat) (s : State) : (sendMsix v s).can = s.can := (sendMsix_same v s).same .can (by decide)
@[simp] theorem sendMsix_plc (v : Nat) (s : State) : (sendMsix v s).plc = s.plc := (sendMsix_same v s).same .plc (by decide)
@[simp] theorem sendMsix_rcd (v : Nat) (s : State) : (sendMsix v s).rcd = s.rcd := (sendMsix_same v s).same .rcd (by decide)
/-- What `sendRecord` leaves as it was. -/
theorem sendRecord_same (r : MirrorRec) (s : State) : Kept [.outs, .pair] s (sendRecord r s) := (sendRecord_kept r s (List.Subset.refl _)).2 (Kept.refl _ s)
@[simp] theorem sendRecord_pending (r : MirrorRec) (s : State) : (sendRecord r s).pending = s.pending := (sendRecord_same r s).same .pending (by decide)
@[simp] theorem sendRecord_now (r : MirrorRec) (s : State) : (sendRecord r s).now = s.now := (sendRecord_same r s).same .now (by decide)
@[simp] theorem sendRecord_freeIx (r : MirrorRec) (s : State) : (sendRecord r s).freeIx = s.freeIx := (sendRecord_same r s).same .freeIx (by decide)
@[simp] theorem sendRecord_pwr (r : MirrorRec) (s : State) : (sendRecord r s).pwr = s.pwr := (sendRecord_same r s).same .pwr (by decide)
@[simp] theorem sendRecord_host (r : MirrorRec) (s : State) : (sendRecord r s).host = s.host := (sendRecord_same r s).same .host (by decide)
@[simp] theorem sendRecord_flt (r : MirrorRec) (s : State) : (sendRecord r s).flt = s.flt := (sendRecord_same r s).same .flt (by decide)
@[simp] theorem sendRecord_prof (r : MirrorRec) (s : State) : (sendRecord r s).prof = s.prof := (sendRecord_same r s).same .prof (by decide)
@[simp] theorem sendRecord_stages (r : MirrorRec) (s : State) : (sendRecord r s).stages = s.stages := (sendRecord_same r s).same .stages (by decide)
@[simp] theorem sendRecord_alloc (r : MirrorRec) (s : State) : (sendRecord r s).alloc = s.alloc := (sendRecord_same r s).same .alloc (by decide)
@[simp] theorem sendRecord_paths (r : MirrorRec) (s : State) : (sendRecord r s).paths = s.paths := (sendRecord_same r s).same .paths (by decide)
@[simp] theorem sendRecord_law (r : MirrorRec) (s : State) : (sendRecord r s).law = s.law := (sendRecord_same r s).same .law (by decide)
@[simp] theorem sendRecord_lanes (r : MirrorRec) (s : State) : (sendRecord r s).lanes = s.lanes := (sendRecord_same r s).same .lanes (by decide)
@[simp] theorem sendRecord_acq (r : MirrorRec) (s : State) : (sendRecord r s).acq = s.acq := (sendRecord_same r s).same .acq (by decide)
@[simp] theorem sendRecord_thm (r : MirrorRec) (s : State) : (sendRecord r s).thm = s.thm := (sendRecord_same r s).same .thm (by decide)
@[simp] theorem sendRecord_sw (r : MirrorRec) (s : State) : (sendRecord r s).sw = s.sw := (sendRecord_same r s).same .sw (by decide)
@[simp] theorem sendRecord_met (r : MirrorRec) (s : State) : (sendRecord r s).met = s.met := (sendRecord_same r s).same .met (by decide)
@[simp] theorem sendRecord_veh (r : MirrorRec) (s : State) : (sendRecord r s).veh = s.veh := (sendRecord_same r s).same .veh (by decide)
@[simp] theorem sendRecord_civil (r : MirrorRec) (s : State) : (sendRecord r s).civil = s.civil := (sendRecord_same r s).same .civil (by decide)
@[simp] theorem sendRecord_key (r : MirrorRec) (s : State) : (sendRecord r s).key = s.key := (sendRecord_same r s).same .key (by decide)
@[simp] theorem sendRecord_can (r : MirrorRec) (s : State) : (sendRecord r s).can = s.can := (sendRecord_same r s).same .can (by decide)
@[simp] theorem sendRecord_plc (r : MirrorRec) (s : State) : (sendRecord r s).plc = s.plc := (sendRecord_same r s).same .plc (by decide)
@[simp] theorem sendRecord_rcd (r : MirrorRec) (s : State) : (sendRecord r s).rcd = s.rcd := (sendRecord_same r s).same .rcd (by decide)
/-- What `complete` leaves as it was. -/
theorem complete_same (ring : Nat) (tag : BitVec 7) (seq : Half) (silent : Bool) (startedAt status result : Nat) (s : State) : Kept [.outs, .freeIx, .host, .rings] s (complete ring tag seq silent startedAt status result s) := (complete_kept ring tag seq silent startedAt status result s (List.Subset.refl _)).2 (Kept.refl _ s)
@[simp] theorem complete_pending (ring : Nat) (tag : BitVec 7) (seq : Half) (silent : Bool) (startedAt status result : Nat) (s : State) : (complete ring tag seq silent startedAt status result s).pending = s.pending := (complete_same ring tag seq silent startedAt status result s).same .pending (by decide)
@[simp] theorem complete_now (ring : Nat) (tag : BitVec 7) (seq : Half) (silent : Bool) (startedAt status result : Nat) (s : State) : (complete ring tag seq silent startedAt status result s).now = s.now := (complete_same ring tag seq silent startedAt status result s).same .now (by decide)
@[simp] theorem complete_pwr (ring : Nat) (tag : BitVec 7) (seq : Half) (silent : Bool) (startedAt status result : Nat) (s : State) : (complete ring tag seq silent startedAt status result s).pwr = s.pwr := (complete_same ring tag seq silent startedAt status result s).same .pwr (by decide)
@[simp] theorem complete_flt (ring : Nat) (tag : BitVec 7) (seq : Half) (silent : Bool) (startedAt status result : Nat) (s : State) : (complete ring tag seq silent startedAt status result s).flt = s.flt := (complete_same ring tag seq silent startedAt status result s).same .flt (by decide)
@[simp] theorem complete_prof (ring : Nat) (tag : BitVec 7) (seq : Half) (silent : Bool) (startedAt status result : Nat) (s : State) : (complete ring tag seq silent startedAt status result s).prof = s.prof := (complete_same ring tag seq silent startedAt status result s).same .prof (by decide)
@[simp] theorem complete_stages (ring : Nat) (tag : BitVec 7) (seq : Half) (silent : Bool) (startedAt status result : Nat) (s : State) : (complete ring tag seq silent startedAt status result s).stages = s.stages := (complete_same ring tag seq silent startedAt status result s).same .stages (by decide)
@[simp] theorem complete_alloc (ring : Nat) (tag : BitVec 7) (seq : Half) (silent : Bool) (startedAt status result : Nat) (s : State) : (complete ring tag seq silent startedAt status result s).alloc = s.alloc := (complete_same ring tag seq silent startedAt status result s).same .alloc (by decide)
@[simp] theorem complete_paths (ring : Nat) (tag : BitVec 7) (seq : Half) (silent : Bool) (startedAt status result : Nat) (s : State) : (complete ring tag seq silent startedAt status result s).paths = s.paths := (complete_same ring tag seq silent startedAt status result s).same .paths (by decide)
@[simp] theorem complete_law (ring : Nat) (tag : BitVec 7) (seq : Half) (silent : Bool) (startedAt status result : Nat) (s : State) : (complete ring tag seq silent startedAt status result s).law = s.law := (complete_same ring tag seq silent startedAt status result s).same .law (by decide)
@[simp] theorem complete_lanes (ring : Nat) (tag : BitVec 7) (seq : Half) (silent : Bool) (startedAt status result : Nat) (s : State) : (complete ring tag seq silent startedAt status result s).lanes = s.lanes := (complete_same ring tag seq silent startedAt status result s).same .lanes (by decide)
@[simp] theorem complete_pair (ring : Nat) (tag : BitVec 7) (seq : Half) (silent : Bool) (startedAt status result : Nat) (s : State) : (complete ring tag seq silent startedAt status result s).pair = s.pair := (complete_same ring tag seq silent startedAt status result s).same .pair (by decide)
@[simp] theorem complete_acq (ring : Nat) (tag : BitVec 7) (seq : Half) (silent : Bool) (startedAt status result : Nat) (s : State) : (complete ring tag seq silent startedAt status result s).acq = s.acq := (complete_same ring tag seq silent startedAt status result s).same .acq (by decide)
@[simp] theorem complete_thm (ring : Nat) (tag : BitVec 7) (seq : Half) (silent : Bool) (startedAt status result : Nat) (s : State) : (complete ring tag seq silent startedAt status result s).thm = s.thm := (complete_same ring tag seq silent startedAt status result s).same .thm (by decide)
@[simp] theorem complete_sw (ring : Nat) (tag : BitVec 7) (seq : Half) (silent : Bool) (startedAt status result : Nat) (s : State) : (complete ring tag seq silent startedAt status result s).sw = s.sw := (complete_same ring tag seq silent startedAt status result s).same .sw (by decide)
@[simp] theorem complete_met (ring : Nat) (tag : BitVec 7) (seq : Half) (silent : Bool) (startedAt status result : Nat) (s : State) : (complete ring tag seq silent startedAt status result s).met = s.met := (complete_same ring tag seq silent startedAt status result s).same .met (by decide)
@[simp] theorem complete_veh (ring : Nat) (tag : BitVec 7) (seq : Half) (silent : Bool) (startedAt status result : Nat) (s : State) : (complete ring tag seq silent startedAt status result s).veh = s.veh := (complete_same ring tag seq silent startedAt status result s).same .veh (by decide)
@[simp] theorem complete_civil (ring : Nat) (tag : BitVec 7) (seq : Half) (silent : Bool) (startedAt status result : Nat) (s : State) : (complete ring tag seq silent startedAt status result s).civil = s.civil := (complete_same ring tag seq silent startedAt status result s).same .civil (by decide)
@[simp] theorem complete_key (ring : Nat) (tag : BitVec 7) (seq : Half) (silent : Bool) (startedAt status result : Nat) (s : State) : (complete ring tag seq silent startedAt status result s).key = s.key := (complete_same ring tag seq silent startedAt status result s).same .key (by decide)
@[simp] theorem complete_can (ring : Nat) (tag : BitVec 7) (seq : Half) (silent : Bool) (startedAt status result : Nat) (s : State) : (complete ring tag seq silent startedAt status result s).can = s.can := (complete_same ring tag seq silent startedAt status result s).same .can (by decide)
@[simp] theorem complete_plc (ring : Nat) (tag : BitVec 7) (seq : Half) (silent : Bool) (startedAt status result : Nat) (s : State) : (complete ring tag seq silent startedAt status result s).plc = s.plc := (complete_same ring tag seq silent startedAt status result s).same .plc (by decide)
@[simp] theorem complete_rcd (ring : Nat) (tag : BitVec 7) (seq : Half) (silent : Bool) (startedAt status result : Nat) (s : State) : (complete ring tag seq silent startedAt status result s).rcd = s.rcd := (complete_same ring tag seq silent startedAt status result s).same .rcd (by decide)
/-- What `completeDesc` leaves as it was. -/
theorem completeDesc_same (d : Desc) (status result : Nat) (s : State) : Kept [.outs, .freeIx, .host, .rings] s (completeDesc d status result s) := (completeDesc_kept d status result s (List.Subset.refl _)).2 (Kept.refl _ s)
@[simp] theorem completeDesc_pending (d : Desc) (status result : Nat) (s : State) : (completeDesc d status result s).pending = s.pending := (completeDesc_same d status result s).same .pending (by decide)
@[simp] theorem completeDesc_now (d : Desc) (status result : Nat) (s : State) : (completeDesc d status result s).now = s.now := (completeDesc_same d status result s).same .now (by decide)
@[simp] theorem completeDesc_pwr (d : Desc) (status result : Nat) (s : State) : (completeDesc d status result s).pwr = s.pwr := (completeDesc_same d status result s).same .pwr (by decide)
@[simp] theorem completeDesc_flt (d : Desc) (status result : Nat) (s : State) : (completeDesc d status result s).flt = s.flt := (completeDesc_same d status result s).same .flt (by decide)
@[simp] theorem completeDesc_prof (d : Desc) (status result : Nat) (s : State) : (completeDesc d status result s).prof = s.prof := (completeDesc_same d status result s).same .prof (by decide)
@[simp] theorem completeDesc_stages (d : Desc) (status result : Nat) (s : State) : (completeDesc d status result s).stages = s.stages := (completeDesc_same d status result s).same .stages (by decide)
@[simp] theorem completeDesc_alloc (d : Desc) (status result : Nat) (s : State) : (completeDesc d status result s).alloc = s.alloc := (completeDesc_same d status result s).same .alloc (by decide)
@[simp] theorem completeDesc_paths (d : Desc) (status result : Nat) (s : State) : (completeDesc d status result s).paths = s.paths := (completeDesc_same d status result s).same .paths (by decide)
@[simp] theorem completeDesc_law (d : Desc) (status result : Nat) (s : State) : (completeDesc d status result s).law = s.law := (completeDesc_same d status result s).same .law (by decide)
@[simp] theorem completeDesc_lanes (d : Desc) (status result : Nat) (s : State) : (completeDesc d status result s).lanes = s.lanes := (completeDesc_same d status result s).same .lanes (by decide)
@[simp] theorem completeDesc_pair (d : Desc) (status result : Nat) (s : State) : (completeDesc d status result s).pair = s.pair := (completeDesc_same d status result s).same .pair (by decide)
@[simp] theorem completeDesc_acq (d : Desc) (status result : Nat) (s : State) : (completeDesc d status result s).acq = s.acq := (completeDesc_same d status result s).same .acq (by decide)
@[simp] theorem completeDesc_thm (d : Desc) (status result : Nat) (s : State) : (completeDesc d status result s).thm = s.thm := (completeDesc_same d status result s).same .thm (by decide)
@[simp] theorem completeDesc_sw (d : Desc) (status result : Nat) (s : State) : (completeDesc d status result s).sw = s.sw := (completeDesc_same d status result s).same .sw (by decide)
@[simp] theorem completeDesc_met (d : Desc) (status result : Nat) (s : State) : (completeDesc d status result s).met = s.met := (completeDesc_same d status result s).same .met (by decide)
@[simp] theorem completeDesc_veh (d : Desc) (status result : Nat) (s : State) : (completeDesc d status result s).veh = s.veh := (completeDesc_same d status result s).same .veh (by decide)
@[simp] theorem completeDesc_civil (d : Desc) (status result : Nat) (s : State) : (completeDesc d status result s).civil = s.civil := (completeDesc_same d status result s).same .civil (by decide)
@[simp] theorem completeDesc_key (d : Desc) (status result : Nat) (s : State) : (completeDesc d status result s).key = s.key := (completeDesc_same d status result s).same .key (by decide)
@[simp] theorem completeDesc_can (d : Desc) (status result : Nat) (s : State) : (completeDesc d status result s).can = s.can := (completeDesc_same d status result s).same .can (by decide)
@[simp] theorem completeDesc_plc (d : Desc) (status result : Nat) (s : State) : (completeDesc d status result s).plc = s.plc := (completeDesc_same d status result s).same .plc (by decide)
@[simp] theorem completeDesc_rcd (d : Desc) (status result : Nat) (s : State) : (completeDesc d status result s).rcd = s.rcd := (completeDesc_same d status result s).same .rcd (by decide)
/-- What `startOp` leaves as it was. -/
theorem startOp_same (d : Desc) (op : OpKind) (s : State) : Kept [.host, .rings] s (startOp d op s) := (startOp_kept d op s (List.Subset.refl _)).2 (Kept.refl _ s)
@[simp] theorem startOp_pending (d : Desc) (op : OpKind) (s : State) : (startOp d op s).pending = s.pending := (startOp_same d op s).same .pending (by decide)
@[simp] theorem startOp_now (d : Desc) (op : OpKind) (s : State) : (startOp d op s).now = s.now := (startOp_same d op s).same .now (by decide)
@[simp] theorem startOp_outs (d : Desc) (op : OpKind) (s : State) : (startOp d op s).outs = s.outs := (startOp_same d op s).same .outs (by decide)
@[simp] theorem startOp_freeIx (d : Desc) (op : OpKind) (s : State) : (startOp d op s).freeIx = s.freeIx := (startOp_same d op s).same .freeIx (by decide)
@[simp] theorem startOp_pwr (d : Desc) (op : OpKind) (s : State) : (startOp d op s).pwr = s.pwr := (startOp_same d op s).same .pwr (by decide)
@[simp] theorem startOp_flt (d : Desc) (op : OpKind) (s : State) : (startOp d op s).flt = s.flt := (startOp_same d op s).same .flt (by decide)
@[simp] theorem startOp_prof (d : Desc) (op : OpKind) (s : State) : (startOp d op s).prof = s.prof := (startOp_same d op s).same .prof (by decide)
@[simp] theorem startOp_stages (d : Desc) (op : OpKind) (s : State) : (startOp d op s).stages = s.stages := (startOp_same d op s).same .stages (by decide)
@[simp] theorem startOp_alloc (d : Desc) (op : OpKind) (s : State) : (startOp d op s).alloc = s.alloc := (startOp_same d op s).same .alloc (by decide)
@[simp] theorem startOp_paths (d : Desc) (op : OpKind) (s : State) : (startOp d op s).paths = s.paths := (startOp_same d op s).same .paths (by decide)
@[simp] theorem startOp_law (d : Desc) (op : OpKind) (s : State) : (startOp d op s).law = s.law := (startOp_same d op s).same .law (by decide)
@[simp] theorem startOp_lanes (d : Desc) (op : OpKind) (s : State) : (startOp d op s).lanes = s.lanes := (startOp_same d op s).same .lanes (by decide)
@[simp] theorem startOp_pair (d : Desc) (op : OpKind) (s : State) : (startOp d op s).pair = s.pair := (startOp_same d op s).same .pair (by decide)
@[simp] theorem startOp_acq (d : Desc) (op : OpKind) (s : State) : (startOp d op s).acq = s.acq := (startOp_same d op s).same .acq (by decide)
@[simp] theorem startOp_thm (d : Desc) (op : OpKind) (s : State) : (startOp d op s).thm = s.thm := (startOp_same d op s).same .thm (by decide)
@[simp] theorem startOp_sw (d : Desc) (op : OpKind) (s : State) : (startOp d op s).sw = s.sw := (startOp_same d op s).same .sw (by decide)
@[simp] theorem startOp_met (d : Desc) (op : OpKind) (s : State) : (startOp d op s).met = s.met := (startOp_same d op s).same .met (by decide)
@[simp] theorem startOp_veh (d : Desc) (op : OpKind) (s : State) : (startOp d op s).veh = s.veh := (startOp_same d op s).same .veh (by decide)
@[simp] theorem startOp_civil (d : Desc) (op : OpKind) (s : State) : (startOp d op s).civil = s.civil := (startOp_same d op s).same .civil (by decide)
@[simp] theorem startOp_key (d : Desc) (op : OpKind) (s : State) : (startOp d op s).key = s.key := (startOp_same d op s).same .key (by decide)
@[simp] theorem startOp_can (d : Desc) (op : OpKind) (s : State) : (startOp d op s).can = s.can := (startOp_same d op s).same .can (by decide)
@[simp] theorem startOp_plc (d : Desc) (op : OpKind) (s : State) : (startOp d op s).plc = s.plc := (startOp_same d op s).same .plc (by decide)
@[simp] theorem startOp_rcd (d : Desc) (op : OpKind) (s : State) : (startOp d op s).rcd = s.rcd := (startOp_same d op s).same .rcd (by decide)
/-- What `endOps` leaves as it was. -/
theorem endOps_same (p : OpKind → Bool) (status result : Nat) (s : State) : Kept [.outs, .freeIx, .host, .rings] s (endOps p status result s) := (endOps_kept p status result s (List.Subset.refl _)).2 (Kept.refl _ s)
@[simp] theorem endOps_pending (p : OpKind → Bool) (status result : Nat) (s : State) : (endOps p status result s).pending = s.pending := (endOps_same p status result s).same .pending (by decide)
@[simp] theorem endOps_now (p : OpKind → Bool) (status result : Nat) (s : State) : (endOps p status result s).now = s.now := (endOps_same p status result s).same .now (by decide)
@[simp] theorem endOps_pwr (p : OpKind → Bool) (status result : Nat) (s : State) : (endOps p status result s).pwr = s.pwr := (endOps_same p status result s).same .pwr (by decide)
@[simp] theorem endOps_flt (p : OpKind → Bool) (status result : Nat) (s : State) : (endOps p status result s).flt = s.flt := (endOps_same p status result s).same .flt (by decide)
@[simp] theorem endOps_prof (p : OpKind → Bool) (status result : Nat) (s : State) : (endOps p status result s).prof = s.prof := (endOps_same p status result s).same .prof (by decide)
@[simp] theorem endOps_stages (p : OpKind → Bool) (status result : Nat) (s : State) : (endOps p status result s).stages = s.stages := (endOps_same p status result s).same .stages (by decide)
@[simp] theorem endOps_alloc (p : OpKind → Bool) (status result : Nat) (s : State) : (endOps p status result s).alloc = s.alloc := (endOps_same p status result s).same .alloc (by decide)
@[simp] theorem endOps_paths (p : OpKind → Bool) (status result : Nat) (s : State) : (endOps p status result s).paths = s.paths := (endOps_same p status result s).same .paths (by decide)
@[simp] theorem endOps_law (p : OpKind → Bool) (status result : Nat) (s : State) : (endOps p status result s).law = s.law := (endOps_same p status result s).same .law (by decide)
@[simp] theorem endOps_lanes (p : OpKind → Bool) (status result : Nat) (s : State) : (endOps p status result s).lanes = s.lanes := (endOps_same p status result s).same .lanes (by decide)
@[simp] theorem endOps_pair (p : OpKind → Bool) (status result : Nat) (s : State) : (endOps p status result s).pair = s.pair := (endOps_same p status result s).same .pair (by decide)
@[simp] theorem endOps_acq (p : OpKind → Bool) (status result : Nat) (s : State) : (endOps p status result s).acq = s.acq := (endOps_same p status result s).same .acq (by decide)
@[simp] theorem endOps_thm (p : OpKind → Bool) (status result : Nat) (s : State) : (endOps p status result s).thm = s.thm := (endOps_same p status result s).same .thm (by decide)
@[simp] theorem endOps_sw (p : OpKind → Bool) (status result : Nat) (s : State) : (endOps p status result s).sw = s.sw := (endOps_same p status result s).same .sw (by decide)
@[simp] theorem endOps_met (p : OpKind → Bool) (status result : Nat) (s : State) : (endOps p status result s).met = s.met := (endOps_same p status result s).same .met (by decide)
@[simp] theorem endOps_veh (p : OpKind → Bool) (status result : Nat) (s : State) : (endOps p status result s).veh = s.veh := (endOps_same p status result s).same .veh (by decide)
@[simp] theorem endOps_civil (p : OpKind → Bool) (status result : Nat) (s : State) : (endOps p status result s).civil = s.civil := (endOps_same p status result s).same .civil (by decide)
@[simp] theorem endOps_key (p : OpKind → Bool) (status result : Nat) (s : State) : (endOps p status result s).key = s.key := (endOps_same p status result s).same .key (by decide)
@[simp] theorem endOps_can (p : OpKind → Bool) (status result : Nat) (s : State) : (endOps p status result s).can = s.can := (endOps_same p status result s).same .can (by decide)
@[simp] theorem endOps_plc (p : OpKind → Bool) (status result : Nat) (s : State) : (endOps p status result s).plc = s.plc := (endOps_same p status result s).same .plc (by decide)
@[simp] theorem endOps_rcd (p : OpKind → Bool) (status result : Nat) (s : State) : (endOps p status result s).rcd = s.rcd := (endOps_same p status result s).same .rcd (by decide)
/-- What `writeBuffer` leaves as it was. -/
theorem writeBuffer_same (addr : Nat) (bytes : List Byte) (s : State) : Kept [.outs, .host] s (writeBuffer addr bytes s) := (writeBuffer_kept addr bytes s (List.Subset.refl _)).2 (Kept.refl _ s)
@[simp] theorem writeBuffer_pending (addr : Nat) (bytes : List Byte) (s : State) : (writeBuffer addr bytes s).pending = s.pending := (writeBuffer_same addr bytes s).same .pending (by decide)
@[simp] theorem writeBuffer_now (addr : Nat) (bytes : List Byte) (s : State) : (writeBuffer addr bytes s).now = s.now := (writeBuffer_same addr bytes s).same .now (by decide)
@[simp] theorem writeBuffer_freeIx (addr : Nat) (bytes : List Byte) (s : State) : (writeBuffer addr bytes s).freeIx = s.freeIx := (writeBuffer_same addr bytes s).same .freeIx (by decide)
@[simp] theorem writeBuffer_pwr (addr : Nat) (bytes : List Byte) (s : State) : (writeBuffer addr bytes s).pwr = s.pwr := (writeBuffer_same addr bytes s).same .pwr (by decide)
@[simp] theorem writeBuffer_flt (addr : Nat) (bytes : List Byte) (s : State) : (writeBuffer addr bytes s).flt = s.flt := (writeBuffer_same addr bytes s).same .flt (by decide)
@[simp] theorem writeBuffer_prof (addr : Nat) (bytes : List Byte) (s : State) : (writeBuffer addr bytes s).prof = s.prof := (writeBuffer_same addr bytes s).same .prof (by decide)
@[simp] theorem writeBuffer_stages (addr : Nat) (bytes : List Byte) (s : State) : (writeBuffer addr bytes s).stages = s.stages := (writeBuffer_same addr bytes s).same .stages (by decide)
@[simp] theorem writeBuffer_alloc (addr : Nat) (bytes : List Byte) (s : State) : (writeBuffer addr bytes s).alloc = s.alloc := (writeBuffer_same addr bytes s).same .alloc (by decide)
@[simp] theorem writeBuffer_paths (addr : Nat) (bytes : List Byte) (s : State) : (writeBuffer addr bytes s).paths = s.paths := (writeBuffer_same addr bytes s).same .paths (by decide)
@[simp] theorem writeBuffer_law (addr : Nat) (bytes : List Byte) (s : State) : (writeBuffer addr bytes s).law = s.law := (writeBuffer_same addr bytes s).same .law (by decide)
@[simp] theorem writeBuffer_lanes (addr : Nat) (bytes : List Byte) (s : State) : (writeBuffer addr bytes s).lanes = s.lanes := (writeBuffer_same addr bytes s).same .lanes (by decide)
@[simp] theorem writeBuffer_pair (addr : Nat) (bytes : List Byte) (s : State) : (writeBuffer addr bytes s).pair = s.pair := (writeBuffer_same addr bytes s).same .pair (by decide)
@[simp] theorem writeBuffer_acq (addr : Nat) (bytes : List Byte) (s : State) : (writeBuffer addr bytes s).acq = s.acq := (writeBuffer_same addr bytes s).same .acq (by decide)
@[simp] theorem writeBuffer_thm (addr : Nat) (bytes : List Byte) (s : State) : (writeBuffer addr bytes s).thm = s.thm := (writeBuffer_same addr bytes s).same .thm (by decide)
@[simp] theorem writeBuffer_sw (addr : Nat) (bytes : List Byte) (s : State) : (writeBuffer addr bytes s).sw = s.sw := (writeBuffer_same addr bytes s).same .sw (by decide)
@[simp] theorem writeBuffer_met (addr : Nat) (bytes : List Byte) (s : State) : (writeBuffer addr bytes s).met = s.met := (writeBuffer_same addr bytes s).same .met (by decide)
@[simp] theorem writeBuffer_veh (addr : Nat) (bytes : List Byte) (s : State) : (writeBuffer addr bytes s).veh = s.veh := (writeBuffer_same addr bytes s).same .veh (by decide)
@[simp] theorem writeBuffer_civil (addr : Nat) (bytes : List Byte) (s : State) : (writeBuffer addr bytes s).civil = s.civil := (writeBuffer_same addr bytes s).same .civil (by decide)
@[simp] theorem writeBuffer_key (addr : Nat) (bytes : List Byte) (s : State) : (writeBuffer addr bytes s).key = s.key := (writeBuffer_same addr bytes s).same .key (by decide)
@[simp] theorem writeBuffer_can (addr : Nat) (bytes : List Byte) (s : State) : (writeBuffer addr bytes s).can = s.can := (writeBuffer_same addr bytes s).same .can (by decide)
@[simp] theorem writeBuffer_plc (addr : Nat) (bytes : List Byte) (s : State) : (writeBuffer addr bytes s).plc = s.plc := (writeBuffer_same addr bytes s).same .plc (by decide)
@[simp] theorem writeBuffer_rcd (addr : Nat) (bytes : List Byte) (s : State) : (writeBuffer addr bytes s).rcd = s.rcd := (writeBuffer_same addr bytes s).same .rcd (by decide)
/-- What `recFeed` leaves as it was. -/
theorem recFeed_same (slot : Nat) (v : Rat) (s : State) : Kept [.rcd] s (recFeed slot v s) := (recFeed_kept slot v s (List.Subset.refl _)).2 (Kept.refl _ s)
@[simp] theorem recFeed_pending (slot : Nat) (v : Rat) (s : State) : (recFeed slot v s).pending = s.pending := (recFeed_same slot v s).same .pending (by decide)
@[simp] theorem recFeed_now (slot : Nat) (v : Rat) (s : State) : (recFeed slot v s).now = s.now := (recFeed_same slot v s).same .now (by decide)
@[simp] theorem recFeed_outs (slot : Nat) (v : Rat) (s : State) : (recFeed slot v s).outs = s.outs := (recFeed_same slot v s).same .outs (by decide)
@[simp] theorem recFeed_freeIx (slot : Nat) (v : Rat) (s : State) : (recFeed slot v s).freeIx = s.freeIx := (recFeed_same slot v s).same .freeIx (by decide)
@[simp] theorem recFeed_pwr (slot : Nat) (v : Rat) (s : State) : (recFeed slot v s).pwr = s.pwr := (recFeed_same slot v s).same .pwr (by decide)
@[simp] theorem recFeed_host (slot : Nat) (v : Rat) (s : State) : (recFeed slot v s).host = s.host := (recFeed_same slot v s).same .host (by decide)
@[simp] theorem recFeed_flt (slot : Nat) (v : Rat) (s : State) : (recFeed slot v s).flt = s.flt := (recFeed_same slot v s).same .flt (by decide)
@[simp] theorem recFeed_prof (slot : Nat) (v : Rat) (s : State) : (recFeed slot v s).prof = s.prof := (recFeed_same slot v s).same .prof (by decide)
@[simp] theorem recFeed_stages (slot : Nat) (v : Rat) (s : State) : (recFeed slot v s).stages = s.stages := (recFeed_same slot v s).same .stages (by decide)
@[simp] theorem recFeed_alloc (slot : Nat) (v : Rat) (s : State) : (recFeed slot v s).alloc = s.alloc := (recFeed_same slot v s).same .alloc (by decide)
@[simp] theorem recFeed_paths (slot : Nat) (v : Rat) (s : State) : (recFeed slot v s).paths = s.paths := (recFeed_same slot v s).same .paths (by decide)
@[simp] theorem recFeed_law (slot : Nat) (v : Rat) (s : State) : (recFeed slot v s).law = s.law := (recFeed_same slot v s).same .law (by decide)
@[simp] theorem recFeed_lanes (slot : Nat) (v : Rat) (s : State) : (recFeed slot v s).lanes = s.lanes := (recFeed_same slot v s).same .lanes (by decide)
@[simp] theorem recFeed_pair (slot : Nat) (v : Rat) (s : State) : (recFeed slot v s).pair = s.pair := (recFeed_same slot v s).same .pair (by decide)
@[simp] theorem recFeed_acq (slot : Nat) (v : Rat) (s : State) : (recFeed slot v s).acq = s.acq := (recFeed_same slot v s).same .acq (by decide)
@[simp] theorem recFeed_thm (slot : Nat) (v : Rat) (s : State) : (recFeed slot v s).thm = s.thm := (recFeed_same slot v s).same .thm (by decide)
@[simp] theorem recFeed_sw (slot : Nat) (v : Rat) (s : State) : (recFeed slot v s).sw = s.sw := (recFeed_same slot v s).same .sw (by decide)
@[simp] theorem recFeed_met (slot : Nat) (v : Rat) (s : State) : (recFeed slot v s).met = s.met := (recFeed_same slot v s).same .met (by decide)
@[simp] theorem recFeed_veh (slot : Nat) (v : Rat) (s : State) : (recFeed slot v s).veh = s.veh := (recFeed_same slot v s).same .veh (by decide)
@[simp] theorem recFeed_civil (slot : Nat) (v : Rat) (s : State) : (recFeed slot v s).civil = s.civil := (recFeed_same slot v s).same .civil (by decide)
@[simp] theorem recFeed_key (slot : Nat) (v : Rat) (s : State) : (recFeed slot v s).key = s.key := (recFeed_same slot v s).same .key (by decide)
@[simp] theorem recFeed_can (slot : Nat) (v : Rat) (s : State) : (recFeed slot v s).can = s.can := (recFeed_same slot v s).same .can (by decide)
@[simp] theorem recFeed_plc (slot : Nat) (v : Rat) (s : State) : (recFeed slot v s).plc = s.plc := (recFeed_same slot v s).same .plc (by decide)
/-- What `recNote` leaves as it was. -/
theorem recNote_same (kind inst : Nat) (v : Int) (s : State) : Kept [.rcd] s (recNote kind inst v s) := (recNote_kept kind inst v s (List.Subset.refl _)).2 (Kept.refl _ s)
@[simp] theorem recNote_pending (kind inst : Nat) (v : Int) (s : State) : (recNote kind inst v s).pending = s.pending := (recNote_same kind inst v s).same .pending (by decide)
@[simp] theorem recNote_now (kind inst : Nat) (v : Int) (s : State) : (recNote kind inst v s).now = s.now := (recNote_same kind inst v s).same .now (by decide)
@[simp] theorem recNote_outs (kind inst : Nat) (v : Int) (s : State) : (recNote kind inst v s).outs = s.outs := (recNote_same kind inst v s).same .outs (by decide)
@[simp] theorem recNote_freeIx (kind inst : Nat) (v : Int) (s : State) : (recNote kind inst v s).freeIx = s.freeIx := (recNote_same kind inst v s).same .freeIx (by decide)
@[simp] theorem recNote_pwr (kind inst : Nat) (v : Int) (s : State) : (recNote kind inst v s).pwr = s.pwr := (recNote_same kind inst v s).same .pwr (by decide)
@[simp] theorem recNote_host (kind inst : Nat) (v : Int) (s : State) : (recNote kind inst v s).host = s.host := (recNote_same kind inst v s).same .host (by decide)
@[simp] theorem recNote_flt (kind inst : Nat) (v : Int) (s : State) : (recNote kind inst v s).flt = s.flt := (recNote_same kind inst v s).same .flt (by decide)
@[simp] theorem recNote_prof (kind inst : Nat) (v : Int) (s : State) : (recNote kind inst v s).prof = s.prof := (recNote_same kind inst v s).same .prof (by decide)
@[simp] theorem recNote_stages (kind inst : Nat) (v : Int) (s : State) : (recNote kind inst v s).stages = s.stages := (recNote_same kind inst v s).same .stages (by decide)
@[simp] theorem recNote_alloc (kind inst : Nat) (v : Int) (s : State) : (recNote kind inst v s).alloc = s.alloc := (recNote_same kind inst v s).same .alloc (by decide)
@[simp] theorem recNote_paths (kind inst : Nat) (v : Int) (s : State) : (recNote kind inst v s).paths = s.paths := (recNote_same kind inst v s).same .paths (by decide)
@[simp] theorem recNote_law (kind inst : Nat) (v : Int) (s : State) : (recNote kind inst v s).law = s.law := (recNote_same kind inst v s).same .law (by decide)
@[simp] theorem recNote_lanes (kind inst : Nat) (v : Int) (s : State) : (recNote kind inst v s).lanes = s.lanes := (recNote_same kind inst v s).same .lanes (by decide)
@[simp] theorem recNote_pair (kind inst : Nat) (v : Int) (s : State) : (recNote kind inst v s).pair = s.pair := (recNote_same kind inst v s).same .pair (by decide)
@[simp] theorem recNote_acq (kind inst : Nat) (v : Int) (s : State) : (recNote kind inst v s).acq = s.acq := (recNote_same kind inst v s).same .acq (by decide)
@[simp] theorem recNote_thm (kind inst : Nat) (v : Int) (s : State) : (recNote kind inst v s).thm = s.thm := (recNote_same kind inst v s).same .thm (by decide)
@[simp] theorem recNote_sw (kind inst : Nat) (v : Int) (s : State) : (recNote kind inst v s).sw = s.sw := (recNote_same kind inst v s).same .sw (by decide)
@[simp] theorem recNote_met (kind inst : Nat) (v : Int) (s : State) : (recNote kind inst v s).met = s.met := (recNote_same kind inst v s).same .met (by decide)
@[simp] theorem recNote_veh (kind inst : Nat) (v : Int) (s : State) : (recNote kind inst v s).veh = s.veh := (recNote_same kind inst v s).same .veh (by decide)
@[simp] theorem recNote_civil (kind inst : Nat) (v : Int) (s : State) : (recNote kind inst v s).civil = s.civil := (recNote_same kind inst v s).same .civil (by decide)
@[simp] theorem recNote_key (kind inst : Nat) (v : Int) (s : State) : (recNote kind inst v s).key = s.key := (recNote_same kind inst v s).same .key (by decide)
@[simp] theorem recNote_can (kind inst : Nat) (v : Int) (s : State) : (recNote kind inst v s).can = s.can := (recNote_same kind inst v s).same .can (by decide)
@[simp] theorem recNote_plc (kind inst : Nat) (v : Int) (s : State) : (recNote kind inst v s).plc = s.plc := (recNote_same kind inst v s).same .plc (by decide)
/-- What `recEvent` leaves as it was. -/
theorem recEvent_same (src cause inst : Nat) (s : State) : Kept [.rcd] s (recEvent src cause inst s) := (recEvent_kept src cause inst s (List.Subset.refl _)).2 (Kept.refl _ s)
@[simp] theorem recEvent_pending (src cause inst : Nat) (s : State) : (recEvent src cause inst s).pending = s.pending := (recEvent_same src cause inst s).same .pending (by decide)
@[simp] theorem recEvent_now (src cause inst : Nat) (s : State) : (recEvent src cause inst s).now = s.now := (recEvent_same src cause inst s).same .now (by decide)
@[simp] theorem recEvent_outs (src cause inst : Nat) (s : State) : (recEvent src cause inst s).outs = s.outs := (recEvent_same src cause inst s).same .outs (by decide)
@[simp] theorem recEvent_freeIx (src cause inst : Nat) (s : State) : (recEvent src cause inst s).freeIx = s.freeIx := (recEvent_same src cause inst s).same .freeIx (by decide)
@[simp] theorem recEvent_pwr (src cause inst : Nat) (s : State) : (recEvent src cause inst s).pwr = s.pwr := (recEvent_same src cause inst s).same .pwr (by decide)
@[simp] theorem recEvent_host (src cause inst : Nat) (s : State) : (recEvent src cause inst s).host = s.host := (recEvent_same src cause inst s).same .host (by decide)
@[simp] theorem recEvent_flt (src cause inst : Nat) (s : State) : (recEvent src cause inst s).flt = s.flt := (recEvent_same src cause inst s).same .flt (by decide)
@[simp] theorem recEvent_prof (src cause inst : Nat) (s : State) : (recEvent src cause inst s).prof = s.prof := (recEvent_same src cause inst s).same .prof (by decide)
@[simp] theorem recEvent_stages (src cause inst : Nat) (s : State) : (recEvent src cause inst s).stages = s.stages := (recEvent_same src cause inst s).same .stages (by decide)
@[simp] theorem recEvent_alloc (src cause inst : Nat) (s : State) : (recEvent src cause inst s).alloc = s.alloc := (recEvent_same src cause inst s).same .alloc (by decide)
@[simp] theorem recEvent_paths (src cause inst : Nat) (s : State) : (recEvent src cause inst s).paths = s.paths := (recEvent_same src cause inst s).same .paths (by decide)
@[simp] theorem recEvent_law (src cause inst : Nat) (s : State) : (recEvent src cause inst s).law = s.law := (recEvent_same src cause inst s).same .law (by decide)
@[simp] theorem recEvent_lanes (src cause inst : Nat) (s : State) : (recEvent src cause inst s).lanes = s.lanes := (recEvent_same src cause inst s).same .lanes (by decide)
@[simp] theorem recEvent_pair (src cause inst : Nat) (s : State) : (recEvent src cause inst s).pair = s.pair := (recEvent_same src cause inst s).same .pair (by decide)
@[simp] theorem recEvent_acq (src cause inst : Nat) (s : State) : (recEvent src cause inst s).acq = s.acq := (recEvent_same src cause inst s).same .acq (by decide)
@[simp] theorem recEvent_thm (src cause inst : Nat) (s : State) : (recEvent src cause inst s).thm = s.thm := (recEvent_same src cause inst s).same .thm (by decide)
@[simp] theorem recEvent_sw (src cause inst : Nat) (s : State) : (recEvent src cause inst s).sw = s.sw := (recEvent_same src cause inst s).same .sw (by decide)
@[simp] theorem recEvent_met (src cause inst : Nat) (s : State) : (recEvent src cause inst s).met = s.met := (recEvent_same src cause inst s).same .met (by decide)
@[simp] theorem recEvent_veh (src cause inst : Nat) (s : State) : (recEvent src cause inst s).veh = s.veh := (recEvent_same src cause inst s).same .veh (by decide)
@[simp] theorem recEvent_civil (src cause inst : Nat) (s : State) : (recEvent src cause inst s).civil = s.civil := (recEvent_same src cause inst s).same .civil (by decide)
@[simp] theorem recEvent_key (src cause inst : Nat) (s : State) : (recEvent src cause inst s).key = s.key := (recEvent_same src cause inst s).same .key (by decide)
@[simp] theorem recEvent_can (src cause inst : Nat) (s : State) : (recEvent src cause inst s).can = s.can := (recEvent_same src cause inst s).same .can (by decide)
@[simp] theorem recEvent_plc (src cause inst : Nat) (s : State) : (recEvent src cause inst s).plc = s.plc := (recEvent_same src cause inst s).same .plc (by decide)
/-- What `mirrorTransfer` leaves as it was. -/
theorem mirrorTransfer_same (i : Nat) (s : State) : Kept [.outs, .pair] s (mirrorTransfer i s) := (mirrorTransfer_kept i s (List.Subset.refl _)).2 (Kept.refl _ s)
@[simp] theorem mirrorTransfer_pending (i : Nat) (s : State) : (mirrorTransfer i s).pending = s.pending := (mirrorTransfer_same i s).same .pending (by decide)
@[simp] theorem mirrorTransfer_now (i : Nat) (s : State) : (mirrorTransfer i s).now = s.now := (mirrorTransfer_same i s).same .now (by decide)
@[simp] theorem mirrorTransfer_freeIx (i : Nat) (s : State) : (mirrorTransfer i s).freeIx = s.freeIx := (mirrorTransfer_same i s).same .freeIx (by decide)
@[simp] theorem mirrorTransfer_pwr (i : Nat) (s : State) : (mirrorTransfer i s).pwr = s.pwr := (mirrorTransfer_same i s).same .pwr (by decide)
@[simp] theorem mirrorTransfer_host (i : Nat) (s : State) : (mirrorTransfer i s).host = s.host := (mirrorTransfer_same i s).same .host (by decide)
@[simp] theorem mirrorTransfer_flt (i : Nat) (s : State) : (mirrorTransfer i s).flt = s.flt := (mirrorTransfer_same i s).same .flt (by decide)
@[simp] theorem mirrorTransfer_prof (i : Nat) (s : State) : (mirrorTransfer i s).prof = s.prof := (mirrorTransfer_same i s).same .prof (by decide)
@[simp] theorem mirrorTransfer_stages (i : Nat) (s : State) : (mirrorTransfer i s).stages = s.stages := (mirrorTransfer_same i s).same .stages (by decide)
@[simp] theorem mirrorTransfer_alloc (i : Nat) (s : State) : (mirrorTransfer i s).alloc = s.alloc := (mirrorTransfer_same i s).same .alloc (by decide)
@[simp] theorem mirrorTransfer_paths (i : Nat) (s : State) : (mirrorTransfer i s).paths = s.paths := (mirrorTransfer_same i s).same .paths (by decide)
@[simp] theorem mirrorTransfer_law (i : Nat) (s : State) : (mirrorTransfer i s).law = s.law := (mirrorTransfer_same i s).same .law (by decide)
@[simp] theorem mirrorTransfer_lanes (i : Nat) (s : State) : (mirrorTransfer i s).lanes = s.lanes := (mirrorTransfer_same i s).same .lanes (by decide)
@[simp] theorem mirrorTransfer_acq (i : Nat) (s : State) : (mirrorTransfer i s).acq = s.acq := (mirrorTransfer_same i s).same .acq (by decide)
@[simp] theorem mirrorTransfer_thm (i : Nat) (s : State) : (mirrorTransfer i s).thm = s.thm := (mirrorTransfer_same i s).same .thm (by decide)
@[simp] theorem mirrorTransfer_sw (i : Nat) (s : State) : (mirrorTransfer i s).sw = s.sw := (mirrorTransfer_same i s).same .sw (by decide)
@[simp] theorem mirrorTransfer_met (i : Nat) (s : State) : (mirrorTransfer i s).met = s.met := (mirrorTransfer_same i s).same .met (by decide)
@[simp] theorem mirrorTransfer_veh (i : Nat) (s : State) : (mirrorTransfer i s).veh = s.veh := (mirrorTransfer_same i s).same .veh (by decide)
@[simp] theorem mirrorTransfer_civil (i : Nat) (s : State) : (mirrorTransfer i s).civil = s.civil := (mirrorTransfer_same i s).same .civil (by decide)
@[simp] theorem mirrorTransfer_key (i : Nat) (s : State) : (mirrorTransfer i s).key = s.key := (mirrorTransfer_same i s).same .key (by decide)
@[simp] theorem mirrorTransfer_can (i : Nat) (s : State) : (mirrorTransfer i s).can = s.can := (mirrorTransfer_same i s).same .can (by decide)
@[simp] theorem mirrorTransfer_plc (i : Nat) (s : State) : (mirrorTransfer i s).plc = s.plc := (mirrorTransfer_same i s).same .plc (by decide)
@[simp] theorem mirrorTransfer_rcd (i : Nat) (s : State) : (mirrorTransfer i s).rcd = s.rcd := (mirrorTransfer_same i s).same .rcd (by decide)
/-- What `mirrorSession` leaves as it was. -/
theorem mirrorSession_same (o : Nat) (s : State) : Kept [.outs, .pair] s (mirrorSession o s) := (mirrorSession_kept o s (List.Subset.refl _)).2 (Kept.refl _ s)
@[simp] theorem mirrorSession_pending (o : Nat) (s : State) : (mirrorSession o s).pending = s.pending := (mirrorSession_same o s).same .pending (by decide)
@[simp] theorem mirrorSession_now (o : Nat) (s : State) : (mirrorSession o s).now = s.now := (mirrorSession_same o s).same .now (by decide)
@[simp] theorem mirrorSession_freeIx (o : Nat) (s : State) : (mirrorSession o s).freeIx = s.freeIx := (mirrorSession_same o s).same .freeIx (by decide)
@[simp] theorem mirrorSession_pwr (o : Nat) (s : State) : (mirrorSession o s).pwr = s.pwr := (mirrorSession_same o s).same .pwr (by decide)
@[simp] theorem mirrorSession_host (o : Nat) (s : State) : (mirrorSession o s).host = s.host := (mirrorSession_same o s).same .host (by decide)
@[simp] theorem mirrorSession_flt (o : Nat) (s : State) : (mirrorSession o s).flt = s.flt := (mirrorSession_same o s).same .flt (by decide)
@[simp] theorem mirrorSession_prof (o : Nat) (s : State) : (mirrorSession o s).prof = s.prof := (mirrorSession_same o s).same .prof (by decide)
@[simp] theorem mirrorSession_stages (o : Nat) (s : State) : (mirrorSession o s).stages = s.stages := (mirrorSession_same o s).same .stages (by decide)
@[simp] theorem mirrorSession_alloc (o : Nat) (s : State) : (mirrorSession o s).alloc = s.alloc := (mirrorSession_same o s).same .alloc (by decide)
@[simp] theorem mirrorSession_paths (o : Nat) (s : State) : (mirrorSession o s).paths = s.paths := (mirrorSession_same o s).same .paths (by decide)
@[simp] theorem mirrorSession_law (o : Nat) (s : State) : (mirrorSession o s).law = s.law := (mirrorSession_same o s).same .law (by decide)
@[simp] theorem mirrorSession_lanes (o : Nat) (s : State) : (mirrorSession o s).lanes = s.lanes := (mirrorSession_same o s).same .lanes (by decide)
@[simp] theorem mirrorSession_acq (o : Nat) (s : State) : (mirrorSession o s).acq = s.acq := (mirrorSession_same o s).same .acq (by decide)
@[simp] theorem mirrorSession_thm (o : Nat) (s : State) : (mirrorSession o s).thm = s.thm := (mirrorSession_same o s).same .thm (by decide)
@[simp] theorem mirrorSession_sw (o : Nat) (s : State) : (mirrorSession o s).sw = s.sw := (mirrorSession_same o s).same .sw (by decide)
@[simp] theorem mirrorSession_met (o : Nat) (s : State) : (mirrorSession o s).met = s.met := (mirrorSession_same o s).same .met (by decide)
@[simp] theorem mirrorSession_veh (o : Nat) (s : State) : (mirrorSession o s).veh = s.veh := (mirrorSession_same o s).same .veh (by decide)
@[simp] theorem mirrorSession_civil (o : Nat) (s : State) : (mirrorSession o s).civil = s.civil := (mirrorSession_same o s).same .civil (by decide)
@[simp] theorem mirrorSession_key (o : Nat) (s : State) : (mirrorSession o s).key = s.key := (mirrorSession_same o s).same .key (by decide)
@[simp] theorem mirrorSession_can (o : Nat) (s : State) : (mirrorSession o s).can = s.can := (mirrorSession_same o s).same .can (by decide)
@[simp] theorem mirrorSession_plc (o : Nat) (s : State) : (mirrorSession o s).plc = s.plc := (mirrorSession_same o s).same .plc (by decide)
@[simp] theorem mirrorSession_rcd (o : Nat) (s : State) : (mirrorSession o s).rcd = s.rcd := (mirrorSession_same o s).same .rcd (by decide)
/-- What `openCoils` leaves as it was. -/
theorem openCoils_same (i : Nat) (mask : BitVec 8) (s : State) : Kept [.stages] s (openCoils i mask s) := (openCoils_kept i mask s (List.Subset.refl _)).2 (Kept.refl _ s)
@[simp] theorem openCoils_pending (i : Nat) (mask : BitVec 8) (s : State) : (openCoils i mask s).pending = s.pending := (openCoils_same i mask s).same .pending (by decide)
@[simp] theorem openCoils_now (i : Nat) (mask : BitVec 8) (s : State) : (openCoils i mask s).now = s.now := (openCoils_same i mask s).same .now (by decide)
@[simp] theorem openCoils_outs (i : Nat) (mask : BitVec 8) (s : State) : (openCoils i mask s).outs = s.outs := (openCoils_same i mask s).same .outs (by decide)
@[simp] theorem openCoils_freeIx (i : Nat) (mask : BitVec 8) (s : State) : (openCoils i mask s).freeIx = s.freeIx := (openCoils_same i mask s).same .freeIx (by decide)
@[simp] theorem openCoils_pwr (i : Nat) (mask : BitVec 8) (s : State) : (openCoils i mask s).pwr = s.pwr := (openCoils_same i mask s).same .pwr (by decide)
@[simp] theorem openCoils_host (i : Nat) (mask : BitVec 8) (s : State) : (openCoils i mask s).host = s.host := (openCoils_same i mask s).same .host (by decide)
@[simp] theorem openCoils_flt (i : Nat) (mask : BitVec 8) (s : State) : (openCoils i mask s).flt = s.flt := (openCoils_same i mask s).same .flt (by decide)
@[simp] theorem openCoils_prof (i : Nat) (mask : BitVec 8) (s : State) : (openCoils i mask s).prof = s.prof := (openCoils_same i mask s).same .prof (by decide)
@[simp] theorem openCoils_alloc (i : Nat) (mask : BitVec 8) (s : State) : (openCoils i mask s).alloc = s.alloc := (openCoils_same i mask s).same .alloc (by decide)
@[simp] theorem openCoils_paths (i : Nat) (mask : BitVec 8) (s : State) : (openCoils i mask s).paths = s.paths := (openCoils_same i mask s).same .paths (by decide)
@[simp] theorem openCoils_law (i : Nat) (mask : BitVec 8) (s : State) : (openCoils i mask s).law = s.law := (openCoils_same i mask s).same .law (by decide)
@[simp] theorem openCoils_lanes (i : Nat) (mask : BitVec 8) (s : State) : (openCoils i mask s).lanes = s.lanes := (openCoils_same i mask s).same .lanes (by decide)
@[simp] theorem openCoils_pair (i : Nat) (mask : BitVec 8) (s : State) : (openCoils i mask s).pair = s.pair := (openCoils_same i mask s).same .pair (by decide)
@[simp] theorem openCoils_acq (i : Nat) (mask : BitVec 8) (s : State) : (openCoils i mask s).acq = s.acq := (openCoils_same i mask s).same .acq (by decide)
@[simp] theorem openCoils_thm (i : Nat) (mask : BitVec 8) (s : State) : (openCoils i mask s).thm = s.thm := (openCoils_same i mask s).same .thm (by decide)
@[simp] theorem openCoils_sw (i : Nat) (mask : BitVec 8) (s : State) : (openCoils i mask s).sw = s.sw := (openCoils_same i mask s).same .sw (by decide)
@[simp] theorem openCoils_met (i : Nat) (mask : BitVec 8) (s : State) : (openCoils i mask s).met = s.met := (openCoils_same i mask s).same .met (by decide)
@[simp] theorem openCoils_veh (i : Nat) (mask : BitVec 8) (s : State) : (openCoils i mask s).veh = s.veh := (openCoils_same i mask s).same .veh (by decide)
@[simp] theorem openCoils_civil (i : Nat) (mask : BitVec 8) (s : State) : (openCoils i mask s).civil = s.civil := (openCoils_same i mask s).same .civil (by decide)
@[simp] theorem openCoils_key (i : Nat) (mask : BitVec 8) (s : State) : (openCoils i mask s).key = s.key := (openCoils_same i mask s).same .key (by decide)
@[simp] theorem openCoils_can (i : Nat) (mask : BitVec 8) (s : State) : (openCoils i mask s).can = s.can := (openCoils_same i mask s).same .can (by decide)
@[simp] theorem openCoils_plc (i : Nat) (mask : BitVec 8) (s : State) : (openCoils i mask s).plc = s.plc := (openCoils_same i mask s).same .plc (by decide)
@[simp] theorem openCoils_rcd (i : Nat) (mask : BitVec 8) (s : State) : (openCoils i mask s).rcd = s.rcd := (openCoils_same i mask s).same .rcd (by decide)
/-- What `disableOut` leaves as it was. -/
theorem disableOut_same (i : Nat) (s : State) : Kept [.stages] s (disableOut i s) := (disableOut_kept i s (List.Subset.refl _)).2 (Kept.refl _ s)
@[simp] theorem disableOut_pending (i : Nat) (s : State) : (disableOut i s).pending = s.pending := (disableOut_same i s).same .pending (by decide)
@[simp] theorem disableOut_now (i : Nat) (s : State) : (disableOut i s).now = s.now := (disableOut_same i s).same .now (by decide)
@[simp] theorem disableOut_outs (i : Nat) (s : State) : (disableOut i s).outs = s.outs := (disableOut_same i s).same .outs (by decide)
@[simp] theorem disableOut_freeIx (i : Nat) (s : State) : (disableOut i s).freeIx = s.freeIx := (disableOut_same i s).same .freeIx (by decide)
@[simp] theorem disableOut_pwr (i : Nat) (s : State) : (disableOut i s).pwr = s.pwr := (disableOut_same i s).same .pwr (by decide)
@[simp] theorem disableOut_host (i : Nat) (s : State) : (disableOut i s).host = s.host := (disableOut_same i s).same .host (by decide)
@[simp] theorem disableOut_flt (i : Nat) (s : State) : (disableOut i s).flt = s.flt := (disableOut_same i s).same .flt (by decide)
@[simp] theorem disableOut_prof (i : Nat) (s : State) : (disableOut i s).prof = s.prof := (disableOut_same i s).same .prof (by decide)
@[simp] theorem disableOut_alloc (i : Nat) (s : State) : (disableOut i s).alloc = s.alloc := (disableOut_same i s).same .alloc (by decide)
@[simp] theorem disableOut_paths (i : Nat) (s : State) : (disableOut i s).paths = s.paths := (disableOut_same i s).same .paths (by decide)
@[simp] theorem disableOut_law (i : Nat) (s : State) : (disableOut i s).law = s.law := (disableOut_same i s).same .law (by decide)
@[simp] theorem disableOut_lanes (i : Nat) (s : State) : (disableOut i s).lanes = s.lanes := (disableOut_same i s).same .lanes (by decide)
@[simp] theorem disableOut_pair (i : Nat) (s : State) : (disableOut i s).pair = s.pair := (disableOut_same i s).same .pair (by decide)
@[simp] theorem disableOut_acq (i : Nat) (s : State) : (disableOut i s).acq = s.acq := (disableOut_same i s).same .acq (by decide)
@[simp] theorem disableOut_thm (i : Nat) (s : State) : (disableOut i s).thm = s.thm := (disableOut_same i s).same .thm (by decide)
@[simp] theorem disableOut_sw (i : Nat) (s : State) : (disableOut i s).sw = s.sw := (disableOut_same i s).same .sw (by decide)
@[simp] theorem disableOut_met (i : Nat) (s : State) : (disableOut i s).met = s.met := (disableOut_same i s).same .met (by decide)
@[simp] theorem disableOut_veh (i : Nat) (s : State) : (disableOut i s).veh = s.veh := (disableOut_same i s).same .veh (by decide)
@[simp] theorem disableOut_civil (i : Nat) (s : State) : (disableOut i s).civil = s.civil := (disableOut_same i s).same .civil (by decide)
@[simp] theorem disableOut_key (i : Nat) (s : State) : (disableOut i s).key = s.key := (disableOut_same i s).same .key (by decide)
@[simp] theorem disableOut_can (i : Nat) (s : State) : (disableOut i s).can = s.can := (disableOut_same i s).same .can (by decide)
@[simp] theorem disableOut_plc (i : Nat) (s : State) : (disableOut i s).plc = s.plc := (disableOut_same i s).same .plc (by decide)
@[simp] theorem disableOut_rcd (i : Nat) (s : State) : (disableOut i s).rcd = s.rcd := (disableOut_same i s).same .rcd (by decide)
/-- What `startTracking` leaves as it was. -/
theorem startTracking_same (i : Nat) (s : State) : Kept [.stages] s (startTracking i s) := (startTracking_kept i s (List.Subset.refl _)).2 (Kept.refl _ s)
@[simp] theorem startTracking_pending (i : Nat) (s : State) : (startTracking i s).pending = s.pending := (startTracking_same i s).same .pending (by decide)
@[simp] theorem startTracking_now (i : Nat) (s : State) : (startTracking i s).now = s.now := (startTracking_same i s).same .now (by decide)
@[simp] theorem startTracking_outs (i : Nat) (s : State) : (startTracking i s).outs = s.outs := (startTracking_same i s).same .outs (by decide)
@[simp] theorem startTracking_freeIx (i : Nat) (s : State) : (startTracking i s).freeIx = s.freeIx := (startTracking_same i s).same .freeIx (by decide)
@[simp] theorem startTracking_pwr (i : Nat) (s : State) : (startTracking i s).pwr = s.pwr := (startTracking_same i s).same .pwr (by decide)
@[simp] theorem startTracking_host (i : Nat) (s : State) : (startTracking i s).host = s.host := (startTracking_same i s).same .host (by decide)
@[simp] theorem startTracking_flt (i : Nat) (s : State) : (startTracking i s).flt = s.flt := (startTracking_same i s).same .flt (by decide)
@[simp] theorem startTracking_prof (i : Nat) (s : State) : (startTracking i s).prof = s.prof := (startTracking_same i s).same .prof (by decide)
@[simp] theorem startTracking_alloc (i : Nat) (s : State) : (startTracking i s).alloc = s.alloc := (startTracking_same i s).same .alloc (by decide)
@[simp] theorem startTracking_paths (i : Nat) (s : State) : (startTracking i s).paths = s.paths := (startTracking_same i s).same .paths (by decide)
@[simp] theorem startTracking_law (i : Nat) (s : State) : (startTracking i s).law = s.law := (startTracking_same i s).same .law (by decide)
@[simp] theorem startTracking_lanes (i : Nat) (s : State) : (startTracking i s).lanes = s.lanes := (startTracking_same i s).same .lanes (by decide)
@[simp] theorem startTracking_pair (i : Nat) (s : State) : (startTracking i s).pair = s.pair := (startTracking_same i s).same .pair (by decide)
@[simp] theorem startTracking_acq (i : Nat) (s : State) : (startTracking i s).acq = s.acq := (startTracking_same i s).same .acq (by decide)
@[simp] theorem startTracking_thm (i : Nat) (s : State) : (startTracking i s).thm = s.thm := (startTracking_same i s).same .thm (by decide)
@[simp] theorem startTracking_sw (i : Nat) (s : State) : (startTracking i s).sw = s.sw := (startTracking_same i s).same .sw (by decide)
@[simp] theorem startTracking_met (i : Nat) (s : State) : (startTracking i s).met = s.met := (startTracking_same i s).same .met (by decide)
@[simp] theorem startTracking_veh (i : Nat) (s : State) : (startTracking i s).veh = s.veh := (startTracking_same i s).same .veh (by decide)
@[simp] theorem startTracking_civil (i : Nat) (s : State) : (startTracking i s).civil = s.civil := (startTracking_same i s).same .civil (by decide)
@[simp] theorem startTracking_key (i : Nat) (s : State) : (startTracking i s).key = s.key := (startTracking_same i s).same .key (by decide)
@[simp] theorem startTracking_can (i : Nat) (s : State) : (startTracking i s).can = s.can := (startTracking_same i s).same .can (by decide)
@[simp] theorem startTracking_plc (i : Nat) (s : State) : (startTracking i s).plc = s.plc := (startTracking_same i s).same .plc (by decide)
@[simp] theorem startTracking_rcd (i : Nat) (s : State) : (startTracking i s).rcd = s.rcd := (startTracking_same i s).same .rcd (by decide)
/-- What `endUnassigned` leaves as it was. -/
theorem endUnassigned_same (i : Nat) (s : State) : Kept [.outs, .stages, .pair] s (endUnassigned i s) := (endUnassigned_kept i s (List.Subset.refl _)).2 (Kept.refl _ s)
@[simp] theorem endUnassigned_pending (i : Nat) (s : State) : (endUnassigned i s).pending = s.pending := (endUnassigned_same i s).same .pending (by decide)
@[simp] theorem endUnassigned_now (i : Nat) (s : State) : (endUnassigned i s).now = s.now := (endUnassigned_same i s).same .now (by decide)
@[simp] theorem endUnassigned_freeIx (i : Nat) (s : State) : (endUnassigned i s).freeIx = s.freeIx := (endUnassigned_same i s).same .freeIx (by decide)
@[simp] theorem endUnassigned_pwr (i : Nat) (s : State) : (endUnassigned i s).pwr = s.pwr := (endUnassigned_same i s).same .pwr (by decide)
@[simp] theorem endUnassigned_host (i : Nat) (s : State) : (endUnassigned i s).host = s.host := (endUnassigned_same i s).same .host (by decide)
@[simp] theorem endUnassigned_flt (i : Nat) (s : State) : (endUnassigned i s).flt = s.flt := (endUnassigned_same i s).same .flt (by decide)
@[simp] theorem endUnassigned_prof (i : Nat) (s : State) : (endUnassigned i s).prof = s.prof := (endUnassigned_same i s).same .prof (by decide)
@[simp] theorem endUnassigned_alloc (i : Nat) (s : State) : (endUnassigned i s).alloc = s.alloc := (endUnassigned_same i s).same .alloc (by decide)
@[simp] theorem endUnassigned_paths (i : Nat) (s : State) : (endUnassigned i s).paths = s.paths := (endUnassigned_same i s).same .paths (by decide)
@[simp] theorem endUnassigned_law (i : Nat) (s : State) : (endUnassigned i s).law = s.law := (endUnassigned_same i s).same .law (by decide)
@[simp] theorem endUnassigned_lanes (i : Nat) (s : State) : (endUnassigned i s).lanes = s.lanes := (endUnassigned_same i s).same .lanes (by decide)
@[simp] theorem endUnassigned_acq (i : Nat) (s : State) : (endUnassigned i s).acq = s.acq := (endUnassigned_same i s).same .acq (by decide)
@[simp] theorem endUnassigned_thm (i : Nat) (s : State) : (endUnassigned i s).thm = s.thm := (endUnassigned_same i s).same .thm (by decide)
@[simp] theorem endUnassigned_sw (i : Nat) (s : State) : (endUnassigned i s).sw = s.sw := (endUnassigned_same i s).same .sw (by decide)
@[simp] theorem endUnassigned_met (i : Nat) (s : State) : (endUnassigned i s).met = s.met := (endUnassigned_same i s).same .met (by decide)
@[simp] theorem endUnassigned_veh (i : Nat) (s : State) : (endUnassigned i s).veh = s.veh := (endUnassigned_same i s).same .veh (by decide)
@[simp] theorem endUnassigned_civil (i : Nat) (s : State) : (endUnassigned i s).civil = s.civil := (endUnassigned_same i s).same .civil (by decide)
@[simp] theorem endUnassigned_key (i : Nat) (s : State) : (endUnassigned i s).key = s.key := (endUnassigned_same i s).same .key (by decide)
@[simp] theorem endUnassigned_can (i : Nat) (s : State) : (endUnassigned i s).can = s.can := (endUnassigned_same i s).same .can (by decide)
@[simp] theorem endUnassigned_plc (i : Nat) (s : State) : (endUnassigned i s).plc = s.plc := (endUnassigned_same i s).same .plc (by decide)
@[simp] theorem endUnassigned_rcd (i : Nat) (s : State) : (endUnassigned i s).rcd = s.rcd := (endUnassigned_same i s).same .rcd (by decide)
/-- What `closeCoil` leaves as it was. -/
theorem closeCoil_same (i o : Nat) (s : State) : Kept [.flt, .stages, .acq, .rcd] s (closeCoil i o s) := (closeCoil_kept i o s (List.Subset.refl _)).2 (Kept.refl _ s)
@[simp] theorem closeCoil_pending (i o : Nat) (s : State) : (closeCoil i o s).pending = s.pending := (closeCoil_same i o s).same .pending (by decide)
@[simp] theorem closeCoil_now (i o : Nat) (s : State) : (closeCoil i o s).now = s.now := (closeCoil_same i o s).same .now (by decide)
@[simp] theorem closeCoil_outs (i o : Nat) (s : State) : (closeCoil i o s).outs = s.outs := (closeCoil_same i o s).same .outs (by decide)
@[simp] theorem closeCoil_freeIx (i o : Nat) (s : State) : (closeCoil i o s).freeIx = s.freeIx := (closeCoil_same i o s).same .freeIx (by decide)
@[simp] theorem closeCoil_pwr (i o : Nat) (s : State) : (closeCoil i o s).pwr = s.pwr := (closeCoil_same i o s).same .pwr (by decide)
@[simp] theorem closeCoil_host (i o : Nat) (s : State) : (closeCoil i o s).host = s.host := (closeCoil_same i o s).same .host (by decide)
@[simp] theorem closeCoil_prof (i o : Nat) (s : State) : (closeCoil i o s).prof = s.prof := (closeCoil_same i o s).same .prof (by decide)
@[simp] theorem closeCoil_alloc (i o : Nat) (s : State) : (closeCoil i o s).alloc = s.alloc := (closeCoil_same i o s).same .alloc (by decide)
@[simp] theorem closeCoil_paths (i o : Nat) (s : State) : (closeCoil i o s).paths = s.paths := (closeCoil_same i o s).same .paths (by decide)
@[simp] theorem closeCoil_law (i o : Nat) (s : State) : (closeCoil i o s).law = s.law := (closeCoil_same i o s).same .law (by decide)
@[simp] theorem closeCoil_lanes (i o : Nat) (s : State) : (closeCoil i o s).lanes = s.lanes := (closeCoil_same i o s).same .lanes (by decide)
@[simp] theorem closeCoil_pair (i o : Nat) (s : State) : (closeCoil i o s).pair = s.pair := (closeCoil_same i o s).same .pair (by decide)
@[simp] theorem closeCoil_thm (i o : Nat) (s : State) : (closeCoil i o s).thm = s.thm := (closeCoil_same i o s).same .thm (by decide)
@[simp] theorem closeCoil_sw (i o : Nat) (s : State) : (closeCoil i o s).sw = s.sw := (closeCoil_same i o s).same .sw (by decide)
@[simp] theorem closeCoil_met (i o : Nat) (s : State) : (closeCoil i o s).met = s.met := (closeCoil_same i o s).same .met (by decide)
@[simp] theorem closeCoil_veh (i o : Nat) (s : State) : (closeCoil i o s).veh = s.veh := (closeCoil_same i o s).same .veh (by decide)
@[simp] theorem closeCoil_civil (i o : Nat) (s : State) : (closeCoil i o s).civil = s.civil := (closeCoil_same i o s).same .civil (by decide)
@[simp] theorem closeCoil_key (i o : Nat) (s : State) : (closeCoil i o s).key = s.key := (closeCoil_same i o s).same .key (by decide)
@[simp] theorem closeCoil_can (i o : Nat) (s : State) : (closeCoil i o s).can = s.can := (closeCoil_same i o s).same .can (by decide)
@[simp] theorem closeCoil_plc (i o : Nat) (s : State) : (closeCoil i o s).plc = s.plc := (closeCoil_same i o s).same .plc (by decide)
/-- What `block` leaves as it was. -/
theorem block_same (i : Nat) (s : State) : Kept [.outs, .stages, .pair] s (block i s) := (block_kept i s (List.Subset.refl _)).2 (Kept.refl _ s)
@[simp] theorem block_pending (i : Nat) (s : State) : (block i s).pending = s.pending := (block_same i s).same .pending (by decide)
@[simp] theorem block_now (i : Nat) (s : State) : (block i s).now = s.now := (block_same i s).same .now (by decide)
@[simp] theorem block_freeIx (i : Nat) (s : State) : (block i s).freeIx = s.freeIx := (block_same i s).same .freeIx (by decide)
@[simp] theorem block_pwr (i : Nat) (s : State) : (block i s).pwr = s.pwr := (block_same i s).same .pwr (by decide)
@[simp] theorem block_host (i : Nat) (s : State) : (block i s).host = s.host := (block_same i s).same .host (by decide)
@[simp] theorem block_flt (i : Nat) (s : State) : (block i s).flt = s.flt := (block_same i s).same .flt (by decide)
@[simp] theorem block_prof (i : Nat) (s : State) : (block i s).prof = s.prof := (block_same i s).same .prof (by decide)
@[simp] theorem block_alloc (i : Nat) (s : State) : (block i s).alloc = s.alloc := (block_same i s).same .alloc (by decide)
@[simp] theorem block_paths (i : Nat) (s : State) : (block i s).paths = s.paths := (block_same i s).same .paths (by decide)
@[simp] theorem block_law (i : Nat) (s : State) : (block i s).law = s.law := (block_same i s).same .law (by decide)
@[simp] theorem block_lanes (i : Nat) (s : State) : (block i s).lanes = s.lanes := (block_same i s).same .lanes (by decide)
@[simp] theorem block_acq (i : Nat) (s : State) : (block i s).acq = s.acq := (block_same i s).same .acq (by decide)
@[simp] theorem block_thm (i : Nat) (s : State) : (block i s).thm = s.thm := (block_same i s).same .thm (by decide)
@[simp] theorem block_sw (i : Nat) (s : State) : (block i s).sw = s.sw := (block_same i s).same .sw (by decide)
@[simp] theorem block_met (i : Nat) (s : State) : (block i s).met = s.met := (block_same i s).same .met (by decide)
@[simp] theorem block_veh (i : Nat) (s : State) : (block i s).veh = s.veh := (block_same i s).same .veh (by decide)
@[simp] theorem block_civil (i : Nat) (s : State) : (block i s).civil = s.civil := (block_same i s).same .civil (by decide)
@[simp] theorem block_key (i : Nat) (s : State) : (block i s).key = s.key := (block_same i s).same .key (by decide)
@[simp] theorem block_can (i : Nat) (s : State) : (block i s).can = s.can := (block_same i s).same .can (by decide)
@[simp] theorem block_plc (i : Nat) (s : State) : (block i s).plc = s.plc := (block_same i s).same .plc (by decide)
@[simp] theorem block_rcd (i : Nat) (s : State) : (block i s).rcd = s.rcd := (block_same i s).same .rcd (by decide)
/-- What `failXfer` leaves as it was. -/
theorem failXfer_same (i cause : Nat) (s : State) : Kept [.outs, .flt, .stages, .pair, .acq, .rcd] s (failXfer i cause s) := (failXfer_kept i cause s (List.Subset.refl _)).2 (Kept.refl _ s)
@[simp] theorem failXfer_pending (i cause : Nat) (s : State) : (failXfer i cause s).pending = s.pending := (failXfer_same i cause s).same .pending (by decide)
@[simp] theorem failXfer_now (i cause : Nat) (s : State) : (failXfer i cause s).now = s.now := (failXfer_same i cause s).same .now (by decide)
@[simp] theorem failXfer_freeIx (i cause : Nat) (s : State) : (failXfer i cause s).freeIx = s.freeIx := (failXfer_same i cause s).same .freeIx (by decide)
@[simp] theorem failXfer_pwr (i cause : Nat) (s : State) : (failXfer i cause s).pwr = s.pwr := (failXfer_same i cause s).same .pwr (by decide)
@[simp] theorem failXfer_host (i cause : Nat) (s : State) : (failXfer i cause s).host = s.host := (failXfer_same i cause s).same .host (by decide)
@[simp] theorem failXfer_prof (i cause : Nat) (s : State) : (failXfer i cause s).prof = s.prof := (failXfer_same i cause s).same .prof (by decide)
@[simp] theorem failXfer_alloc (i cause : Nat) (s : State) : (failXfer i cause s).alloc = s.alloc := (failXfer_same i cause s).same .alloc (by decide)
@[simp] theorem failXfer_paths (i cause : Nat) (s : State) : (failXfer i cause s).paths = s.paths := (failXfer_same i cause s).same .paths (by decide)
@[simp] theorem failXfer_law (i cause : Nat) (s : State) : (failXfer i cause s).law = s.law := (failXfer_same i cause s).same .law (by decide)
@[simp] theorem failXfer_lanes (i cause : Nat) (s : State) : (failXfer i cause s).lanes = s.lanes := (failXfer_same i cause s).same .lanes (by decide)
@[simp] theorem failXfer_thm (i cause : Nat) (s : State) : (failXfer i cause s).thm = s.thm := (failXfer_same i cause s).same .thm (by decide)
@[simp] theorem failXfer_sw (i cause : Nat) (s : State) : (failXfer i cause s).sw = s.sw := (failXfer_same i cause s).same .sw (by decide)
@[simp] theorem failXfer_met (i cause : Nat) (s : State) : (failXfer i cause s).met = s.met := (failXfer_same i cause s).same .met (by decide)
@[simp] theorem failXfer_veh (i cause : Nat) (s : State) : (failXfer i cause s).veh = s.veh := (failXfer_same i cause s).same .veh (by decide)
@[simp] theorem failXfer_civil (i cause : Nat) (s : State) : (failXfer i cause s).civil = s.civil := (failXfer_same i cause s).same .civil (by decide)
@[simp] theorem failXfer_key (i cause : Nat) (s : State) : (failXfer i cause s).key = s.key := (failXfer_same i cause s).same .key (by decide)
@[simp] theorem failXfer_can (i cause : Nat) (s : State) : (failXfer i cause s).can = s.can := (failXfer_same i cause s).same .can (by decide)
@[simp] theorem failXfer_plc (i cause : Nat) (s : State) : (failXfer i cause s).plc = s.plc := (failXfer_same i cause s).same .plc (by decide)
/-- What `settleStage` leaves as it was. -/
theorem settleStage_same (i : Nat) (s : State) : Kept [.stages] s (settleStage i s) := (settleStage_kept i s (List.Subset.refl _)).2 (Kept.refl _ s)
@[simp] theorem settleStage_pending (i : Nat) (s : State) : (settleStage i s).pending = s.pending := (settleStage_same i s).same .pending (by decide)
@[simp] theorem settleStage_now (i : Nat) (s : State) : (settleStage i s).now = s.now := (settleStage_same i s).same .now (by decide)
@[simp] theorem settleStage_outs (i : Nat) (s : State) : (settleStage i s).outs = s.outs := (settleStage_same i s).same .outs (by decide)
@[simp] theorem settleStage_freeIx (i : Nat) (s : State) : (settleStage i s).freeIx = s.freeIx := (settleStage_same i s).same .freeIx (by decide)
@[simp] theorem settleStage_pwr (i : Nat) (s : State) : (settleStage i s).pwr = s.pwr := (settleStage_same i s).same .pwr (by decide)
@[simp] theorem settleStage_host (i : Nat) (s : State) : (settleStage i s).host = s.host := (settleStage_same i s).same .host (by decide)
@[simp] theorem settleStage_flt (i : Nat) (s : State) : (settleStage i s).flt = s.flt := (settleStage_same i s).same .flt (by decide)
@[simp] theorem settleStage_prof (i : Nat) (s : State) : (settleStage i s).prof = s.prof := (settleStage_same i s).same .prof (by decide)
@[simp] theorem settleStage_alloc (i : Nat) (s : State) : (settleStage i s).alloc = s.alloc := (settleStage_same i s).same .alloc (by decide)
@[simp] theorem settleStage_paths (i : Nat) (s : State) : (settleStage i s).paths = s.paths := (settleStage_same i s).same .paths (by decide)
@[simp] theorem settleStage_law (i : Nat) (s : State) : (settleStage i s).law = s.law := (settleStage_same i s).same .law (by decide)
@[simp] theorem settleStage_lanes (i : Nat) (s : State) : (settleStage i s).lanes = s.lanes := (settleStage_same i s).same .lanes (by decide)
@[simp] theorem settleStage_pair (i : Nat) (s : State) : (settleStage i s).pair = s.pair := (settleStage_same i s).same .pair (by decide)
@[simp] theorem settleStage_acq (i : Nat) (s : State) : (settleStage i s).acq = s.acq := (settleStage_same i s).same .acq (by decide)
@[simp] theorem settleStage_thm (i : Nat) (s : State) : (settleStage i s).thm = s.thm := (settleStage_same i s).same .thm (by decide)
@[simp] theorem settleStage_sw (i : Nat) (s : State) : (settleStage i s).sw = s.sw := (settleStage_same i s).same .sw (by decide)
@[simp] theorem settleStage_met (i : Nat) (s : State) : (settleStage i s).met = s.met := (settleStage_same i s).same .met (by decide)
@[simp] theorem settleStage_veh (i : Nat) (s : State) : (settleStage i s).veh = s.veh := (settleStage_same i s).same .veh (by decide)
@[simp] theorem settleStage_civil (i : Nat) (s : State) : (settleStage i s).civil = s.civil := (settleStage_same i s).same .civil (by decide)
@[simp] theorem settleStage_key (i : Nat) (s : State) : (settleStage i s).key = s.key := (settleStage_same i s).same .key (by decide)
@[simp] theorem settleStage_can (i : Nat) (s : State) : (settleStage i s).can = s.can := (settleStage_same i s).same .can (by decide)
@[simp] theorem settleStage_plc (i : Nat) (s : State) : (settleStage i s).plc = s.plc := (settleStage_same i s).same .plc (by decide)
@[simp] theorem settleStage_rcd (i : Nat) (s : State) : (settleStage i s).rcd = s.rcd := (settleStage_same i s).same .rcd (by decide)
/-- What `haltStage` leaves as it was. -/
theorem haltStage_same (i : Nat) (fast : Bool) (s : State) : Kept [.stages] s (haltStage i fast s) := (haltStage_kept i fast s (List.Subset.refl _)).2 (Kept.refl _ s)
@[simp] theorem haltStage_pending (i : Nat) (fast : Bool) (s : State) : (haltStage i fast s).pending = s.pending := (haltStage_same i fast s).same .pending (by decide)
@[simp] theorem haltStage_now (i : Nat) (fast : Bool) (s : State) : (haltStage i fast s).now = s.now := (haltStage_same i fast s).same .now (by decide)
@[simp] theorem haltStage_outs (i : Nat) (fast : Bool) (s : State) : (haltStage i fast s).outs = s.outs := (haltStage_same i fast s).same .outs (by decide)
@[simp] theorem haltStage_freeIx (i : Nat) (fast : Bool) (s : State) : (haltStage i fast s).freeIx = s.freeIx := (haltStage_same i fast s).same .freeIx (by decide)
@[simp] theorem haltStage_pwr (i : Nat) (fast : Bool) (s : State) : (haltStage i fast s).pwr = s.pwr := (haltStage_same i fast s).same .pwr (by decide)
@[simp] theorem haltStage_host (i : Nat) (fast : Bool) (s : State) : (haltStage i fast s).host = s.host := (haltStage_same i fast s).same .host (by decide)
@[simp] theorem haltStage_flt (i : Nat) (fast : Bool) (s : State) : (haltStage i fast s).flt = s.flt := (haltStage_same i fast s).same .flt (by decide)
@[simp] theorem haltStage_prof (i : Nat) (fast : Bool) (s : State) : (haltStage i fast s).prof = s.prof := (haltStage_same i fast s).same .prof (by decide)
@[simp] theorem haltStage_alloc (i : Nat) (fast : Bool) (s : State) : (haltStage i fast s).alloc = s.alloc := (haltStage_same i fast s).same .alloc (by decide)
@[simp] theorem haltStage_paths (i : Nat) (fast : Bool) (s : State) : (haltStage i fast s).paths = s.paths := (haltStage_same i fast s).same .paths (by decide)
@[simp] theorem haltStage_law (i : Nat) (fast : Bool) (s : State) : (haltStage i fast s).law = s.law := (haltStage_same i fast s).same .law (by decide)
@[simp] theorem haltStage_lanes (i : Nat) (fast : Bool) (s : State) : (haltStage i fast s).lanes = s.lanes := (haltStage_same i fast s).same .lanes (by decide)
@[simp] theorem haltStage_pair (i : Nat) (fast : Bool) (s : State) : (haltStage i fast s).pair = s.pair := (haltStage_same i fast s).same .pair (by decide)
@[simp] theorem haltStage_acq (i : Nat) (fast : Bool) (s : State) : (haltStage i fast s).acq = s.acq := (haltStage_same i fast s).same .acq (by decide)
@[simp] theorem haltStage_thm (i : Nat) (fast : Bool) (s : State) : (haltStage i fast s).thm = s.thm := (haltStage_same i fast s).same .thm (by decide)
@[simp] theorem haltStage_sw (i : Nat) (fast : Bool) (s : State) : (haltStage i fast s).sw = s.sw := (haltStage_same i fast s).same .sw (by decide)
@[simp] theorem haltStage_met (i : Nat) (fast : Bool) (s : State) : (haltStage i fast s).met = s.met := (haltStage_same i fast s).same .met (by decide)
@[simp] theorem haltStage_veh (i : Nat) (fast : Bool) (s : State) : (haltStage i fast s).veh = s.veh := (haltStage_same i fast s).same .veh (by decide)
@[simp] theorem haltStage_civil (i : Nat) (fast : Bool) (s : State) : (haltStage i fast s).civil = s.civil := (haltStage_same i fast s).same .civil (by decide)
@[simp] theorem haltStage_key (i : Nat) (fast : Bool) (s : State) : (haltStage i fast s).key = s.key := (haltStage_same i fast s).same .key (by decide)
@[simp] theorem haltStage_can (i : Nat) (fast : Bool) (s : State) : (haltStage i fast s).can = s.can := (haltStage_same i fast s).same .can (by decide)
@[simp] theorem haltStage_plc (i : Nat) (fast : Bool) (s : State) : (haltStage i fast s).plc = s.plc := (haltStage_same i fast s).same .plc (by decide)
@[simp] theorem haltStage_rcd (i : Nat) (fast : Bool) (s : State) : (haltStage i fast s).rcd = s.rcd := (haltStage_same i fast s).same .rcd (by decide)
/-- What `abortHalt` leaves as it was. -/
theorem abortHalt_same (i : Nat) (fast : Bool) (s : State) : Kept [.outs, .flt, .stages, .pair, .acq, .rcd] s (abortHalt i fast s) := (abortHalt_kept i fast s (List.Subset.refl _)).2 (Kept.refl _ s)
@[simp] theorem abortHalt_pending (i : Nat) (fast : Bool) (s : State) : (abortHalt i fast s).pending = s.pending := (abortHalt_same i fast s).same .pending (by decide)
@[simp] theorem abortHalt_now (i : Nat) (fast : Bool) (s : State) : (abortHalt i fast s).now = s.now := (abortHalt_same i fast s).same .now (by decide)
@[simp] theorem abortHalt_freeIx (i : Nat) (fast : Bool) (s : State) : (abortHalt i fast s).freeIx = s.freeIx := (abortHalt_same i fast s).same .freeIx (by decide)
@[simp] theorem abortHalt_pwr (i : Nat) (fast : Bool) (s : State) : (abortHalt i fast s).pwr = s.pwr := (abortHalt_same i fast s).same .pwr (by decide)
@[simp] theorem abortHalt_host (i : Nat) (fast : Bool) (s : State) : (abortHalt i fast s).host = s.host := (abortHalt_same i fast s).same .host (by decide)
@[simp] theorem abortHalt_prof (i : Nat) (fast : Bool) (s : State) : (abortHalt i fast s).prof = s.prof := (abortHalt_same i fast s).same .prof (by decide)
@[simp] theorem abortHalt_alloc (i : Nat) (fast : Bool) (s : State) : (abortHalt i fast s).alloc = s.alloc := (abortHalt_same i fast s).same .alloc (by decide)
@[simp] theorem abortHalt_paths (i : Nat) (fast : Bool) (s : State) : (abortHalt i fast s).paths = s.paths := (abortHalt_same i fast s).same .paths (by decide)
@[simp] theorem abortHalt_law (i : Nat) (fast : Bool) (s : State) : (abortHalt i fast s).law = s.law := (abortHalt_same i fast s).same .law (by decide)
@[simp] theorem abortHalt_lanes (i : Nat) (fast : Bool) (s : State) : (abortHalt i fast s).lanes = s.lanes := (abortHalt_same i fast s).same .lanes (by decide)
@[simp] theorem abortHalt_thm (i : Nat) (fast : Bool) (s : State) : (abortHalt i fast s).thm = s.thm := (abortHalt_same i fast s).same .thm (by decide)
@[simp] theorem abortHalt_sw (i : Nat) (fast : Bool) (s : State) : (abortHalt i fast s).sw = s.sw := (abortHalt_same i fast s).same .sw (by decide)
@[simp] theorem abortHalt_met (i : Nat) (fast : Bool) (s : State) : (abortHalt i fast s).met = s.met := (abortHalt_same i fast s).same .met (by decide)
@[simp] theorem abortHalt_veh (i : Nat) (fast : Bool) (s : State) : (abortHalt i fast s).veh = s.veh := (abortHalt_same i fast s).same .veh (by decide)
@[simp] theorem abortHalt_civil (i : Nat) (fast : Bool) (s : State) : (abortHalt i fast s).civil = s.civil := (abortHalt_same i fast s).same .civil (by decide)
@[simp] theorem abortHalt_key (i : Nat) (fast : Bool) (s : State) : (abortHalt i fast s).key = s.key := (abortHalt_same i fast s).same .key (by decide)
@[simp] theorem abortHalt_can (i : Nat) (fast : Bool) (s : State) : (abortHalt i fast s).can = s.can := (abortHalt_same i fast s).same .can (by decide)
@[simp] theorem abortHalt_plc (i : Nat) (fast : Bool) (s : State) : (abortHalt i fast s).plc = s.plc := (abortHalt_same i fast s).same .plc (by decide)
/-- What `takeResume` leaves as it was. -/
theorem takeResume_same (i : Nat) (s : State) : Kept [.outs, .stages, .pair] s (takeResume i s) := (takeResume_kept i s (List.Subset.refl _)).2 (Kept.refl _ s)
@[simp] theorem takeResume_pending (i : Nat) (s : State) : (takeResume i s).pending = s.pending := (takeResume_same i s).same .pending (by decide)
@[simp] theorem takeResume_now (i : Nat) (s : State) : (takeResume i s).now = s.now := (takeResume_same i s).same .now (by decide)
@[simp] theorem takeResume_freeIx (i : Nat) (s : State) : (takeResume i s).freeIx = s.freeIx := (takeResume_same i s).same .freeIx (by decide)
@[simp] theorem takeResume_pwr (i : Nat) (s : State) : (takeResume i s).pwr = s.pwr := (takeResume_same i s).same .pwr (by decide)
@[simp] theorem takeResume_host (i : Nat) (s : State) : (takeResume i s).host = s.host := (takeResume_same i s).same .host (by decide)
@[simp] theorem takeResume_flt (i : Nat) (s : State) : (takeResume i s).flt = s.flt := (takeResume_same i s).same .flt (by decide)
@[simp] theorem takeResume_prof (i : Nat) (s : State) : (takeResume i s).prof = s.prof := (takeResume_same i s).same .prof (by decide)
@[simp] theorem takeResume_alloc (i : Nat) (s : State) : (takeResume i s).alloc = s.alloc := (takeResume_same i s).same .alloc (by decide)
@[simp] theorem takeResume_paths (i : Nat) (s : State) : (takeResume i s).paths = s.paths := (takeResume_same i s).same .paths (by decide)
@[simp] theorem takeResume_law (i : Nat) (s : State) : (takeResume i s).law = s.law := (takeResume_same i s).same .law (by decide)
@[simp] theorem takeResume_lanes (i : Nat) (s : State) : (takeResume i s).lanes = s.lanes := (takeResume_same i s).same .lanes (by decide)
@[simp] theorem takeResume_acq (i : Nat) (s : State) : (takeResume i s).acq = s.acq := (takeResume_same i s).same .acq (by decide)
@[simp] theorem takeResume_thm (i : Nat) (s : State) : (takeResume i s).thm = s.thm := (takeResume_same i s).same .thm (by decide)
@[simp] theorem takeResume_sw (i : Nat) (s : State) : (takeResume i s).sw = s.sw := (takeResume_same i s).same .sw (by decide)
@[simp] theorem takeResume_met (i : Nat) (s : State) : (takeResume i s).met = s.met := (takeResume_same i s).same .met (by decide)
@[simp] theorem takeResume_veh (i : Nat) (s : State) : (takeResume i s).veh = s.veh := (takeResume_same i s).same .veh (by decide)
@[simp] theorem takeResume_civil (i : Nat) (s : State) : (takeResume i s).civil = s.civil := (takeResume_same i s).same .civil (by decide)
@[simp] theorem takeResume_key (i : Nat) (s : State) : (takeResume i s).key = s.key := (takeResume_same i s).same .key (by decide)
@[simp] theorem takeResume_can (i : Nat) (s : State) : (takeResume i s).can = s.can := (takeResume_same i s).same .can (by decide)
@[simp] theorem takeResume_plc (i : Nat) (s : State) : (takeResume i s).plc = s.plc := (takeResume_same i s).same .plc (by decide)
@[simp] theorem takeResume_rcd (i : Nat) (s : State) : (takeResume i s).rcd = s.rcd := (takeResume_same i s).same .rcd (by decide)
/-- What `recomputeShares` leaves as it was. -/
theorem recomputeShares_same (o : Nat) (s : State) : Kept [.stages] s (recomputeShares o s) := (recomputeShares_kept o s (List.Subset.refl _)).2 (Kept.refl _ s)
@[simp] theorem recomputeShares_pending (o : Nat) (s : State) : (recomputeShares o s).pending = s.pending := (recomputeShares_same o s).same .pending (by decide)
@[simp] theorem recomputeShares_now (o : Nat) (s : State) : (recomputeShares o s).now = s.now := (recomputeShares_same o s).same .now (by decide)
@[simp] theorem recomputeShares_outs (o : Nat) (s : State) : (recomputeShares o s).outs = s.outs := (recomputeShares_same o s).same .outs (by decide)
@[simp] theorem recomputeShares_freeIx (o : Nat) (s : State) : (recomputeShares o s).freeIx = s.freeIx := (recomputeShares_same o s).same .freeIx (by decide)
@[simp] theorem recomputeShares_pwr (o : Nat) (s : State) : (recomputeShares o s).pwr = s.pwr := (recomputeShares_same o s).same .pwr (by decide)
@[simp] theorem recomputeShares_host (o : Nat) (s : State) : (recomputeShares o s).host = s.host := (recomputeShares_same o s).same .host (by decide)
@[simp] theorem recomputeShares_flt (o : Nat) (s : State) : (recomputeShares o s).flt = s.flt := (recomputeShares_same o s).same .flt (by decide)
@[simp] theorem recomputeShares_prof (o : Nat) (s : State) : (recomputeShares o s).prof = s.prof := (recomputeShares_same o s).same .prof (by decide)
@[simp] theorem recomputeShares_alloc (o : Nat) (s : State) : (recomputeShares o s).alloc = s.alloc := (recomputeShares_same o s).same .alloc (by decide)
@[simp] theorem recomputeShares_paths (o : Nat) (s : State) : (recomputeShares o s).paths = s.paths := (recomputeShares_same o s).same .paths (by decide)
@[simp] theorem recomputeShares_law (o : Nat) (s : State) : (recomputeShares o s).law = s.law := (recomputeShares_same o s).same .law (by decide)
@[simp] theorem recomputeShares_lanes (o : Nat) (s : State) : (recomputeShares o s).lanes = s.lanes := (recomputeShares_same o s).same .lanes (by decide)
@[simp] theorem recomputeShares_pair (o : Nat) (s : State) : (recomputeShares o s).pair = s.pair := (recomputeShares_same o s).same .pair (by decide)
@[simp] theorem recomputeShares_acq (o : Nat) (s : State) : (recomputeShares o s).acq = s.acq := (recomputeShares_same o s).same .acq (by decide)
@[simp] theorem recomputeShares_thm (o : Nat) (s : State) : (recomputeShares o s).thm = s.thm := (recomputeShares_same o s).same .thm (by decide)
@[simp] theorem recomputeShares_sw (o : Nat) (s : State) : (recomputeShares o s).sw = s.sw := (recomputeShares_same o s).same .sw (by decide)
@[simp] theorem recomputeShares_met (o : Nat) (s : State) : (recomputeShares o s).met = s.met := (recomputeShares_same o s).same .met (by decide)
@[simp] theorem recomputeShares_veh (o : Nat) (s : State) : (recomputeShares o s).veh = s.veh := (recomputeShares_same o s).same .veh (by decide)
@[simp] theorem recomputeShares_civil (o : Nat) (s : State) : (recomputeShares o s).civil = s.civil := (recomputeShares_same o s).same .civil (by decide)
@[simp] theorem recomputeShares_key (o : Nat) (s : State) : (recomputeShares o s).key = s.key := (recomputeShares_same o s).same .key (by decide)
@[simp] theorem recomputeShares_can (o : Nat) (s : State) : (recomputeShares o s).can = s.can := (recomputeShares_same o s).same .can (by decide)
@[simp] theorem recomputeShares_plc (o : Nat) (s : State) : (recomputeShares o s).plc = s.plc := (recomputeShares_same o s).same .plc (by decide)
@[simp] theorem recomputeShares_rcd (o : Nat) (s : State) : (recomputeShares o s).rcd = s.rcd := (recomputeShares_same o s).same .rcd (by decide)
/-- What `acqEnergised` leaves as it was. -/
theorem acqEnergised_same (s : State) : Kept [.flt, .acq, .rcd] s (acqEnergised s) := (acqEnergised_kept s (List.Subset.refl _)).2 (Kept.refl _ s)
@[simp] theorem acqEnergised_pending (s : State) : (acqEnergised s).pending = s.pending := (acqEnergised_same s).same .pending (by decide)
@[simp] theorem acqEnergised_now (s : State) : (acqEnergised s).now = s.now := (acqEnergised_same s).same .now (by decide)
@[simp] theorem acqEnergised_outs (s : State) : (acqEnergised s).outs = s.outs := (acqEnergised_same s).same .outs (by decide)
@[simp] theorem acqEnergised_freeIx (s : State) : (acqEnergised s).freeIx = s.freeIx := (acqEnergised_same s).same .freeIx (by decide)
@[simp] theorem acqEnergised_pwr (s : State) : (acqEnergised s).pwr = s.pwr := (acqEnergised_same s).same .pwr (by decide)
@[simp] theorem acqEnergised_host (s : State) : (acqEnergised s).host = s.host := (acqEnergised_same s).same .host (by decide)
@[simp] theorem acqEnergised_prof (s : State) : (acqEnergised s).prof = s.prof := (acqEnergised_same s).same .prof (by decide)
@[simp] theorem acqEnergised_stages (s : State) : (acqEnergised s).stages = s.stages := (acqEnergised_same s).same .stages (by decide)
@[simp] theorem acqEnergised_alloc (s : State) : (acqEnergised s).alloc = s.alloc := (acqEnergised_same s).same .alloc (by decide)
@[simp] theorem acqEnergised_paths (s : State) : (acqEnergised s).paths = s.paths := (acqEnergised_same s).same .paths (by decide)
@[simp] theorem acqEnergised_law (s : State) : (acqEnergised s).law = s.law := (acqEnergised_same s).same .law (by decide)
@[simp] theorem acqEnergised_lanes (s : State) : (acqEnergised s).lanes = s.lanes := (acqEnergised_same s).same .lanes (by decide)
@[simp] theorem acqEnergised_pair (s : State) : (acqEnergised s).pair = s.pair := (acqEnergised_same s).same .pair (by decide)
@[simp] theorem acqEnergised_thm (s : State) : (acqEnergised s).thm = s.thm := (acqEnergised_same s).same .thm (by decide)
@[simp] theorem acqEnergised_sw (s : State) : (acqEnergised s).sw = s.sw := (acqEnergised_same s).same .sw (by decide)
@[simp] theorem acqEnergised_met (s : State) : (acqEnergised s).met = s.met := (acqEnergised_same s).same .met (by decide)
@[simp] theorem acqEnergised_veh (s : State) : (acqEnergised s).veh = s.veh := (acqEnergised_same s).same .veh (by decide)
@[simp] theorem acqEnergised_civil (s : State) : (acqEnergised s).civil = s.civil := (acqEnergised_same s).same .civil (by decide)
@[simp] theorem acqEnergised_key (s : State) : (acqEnergised s).key = s.key := (acqEnergised_same s).same .key (by decide)
@[simp] theorem acqEnergised_can (s : State) : (acqEnergised s).can = s.can := (acqEnergised_same s).same .can (by decide)
@[simp] theorem acqEnergised_plc (s : State) : (acqEnergised s).plc = s.plc := (acqEnergised_same s).same .plc (by decide)
/-- What `settleVehicles` leaves as it was. -/
theorem settleVehicles_same (s : State) : Kept [.outs, .freeIx, .flt, .stages, .alloc, .paths, .pair, .acq, .met, .veh, .rcd] s (settleVehicles s) := (settleVehicles_kept s (List.Subset.refl _)).2 (Kept.refl _ s)
@[simp] theorem settleVehicles_pending (s : State) : (settleVehicles s).pending = s.pending := (settleVehicles_same s).same .pending (by decide)
@[simp] theorem settleVehicles_now (s : State) : (settleVehicles s).now = s.now := (settleVehicles_same s).same .now (by decide)
@[simp] theorem settleVehicles_pwr (s : State) : (settleVehicles s).pwr = s.pwr := (settleVehicles_same s).same .pwr (by decide)
@[simp] theorem settleVehicles_host (s : State) : (settleVehicles s).host = s.host := (settleVehicles_same s).same .host (by decide)
@[simp] theorem settleVehicles_prof (s : State) : (settleVehicles s).prof = s.prof := (settleVehicles_same s).same .prof (by decide)
@[simp] theorem settleVehicles_law (s : State) : (settleVehicles s).law = s.law := (settleVehicles_same s).same .law (by decide)
@[simp] theorem settleVehicles_lanes (s : State) : (settleVehicles s).lanes = s.lanes := (settleVehicles_same s).same .lanes (by decide)
@[simp] theorem settleVehicles_thm (s : State) : (settleVehicles s).thm = s.thm := (settleVehicles_same s).same .thm (by decide)
@[simp] theorem settleVehicles_sw (s : State) : (settleVehicles s).sw = s.sw := (settleVehicles_same s).same .sw (by decide)
@[simp] theorem settleVehicles_civil (s : State) : (settleVehicles s).civil = s.civil := (settleVehicles_same s).same .civil (by decide)
@[simp] theorem settleVehicles_key (s : State) : (settleVehicles s).key = s.key := (settleVehicles_same s).same .key (by decide)
@[simp] theorem settleVehicles_can (s : State) : (settleVehicles s).can = s.can := (settleVehicles_same s).same .can (by decide)
@[simp] theorem settleVehicles_plc (s : State) : (settleVehicles s).plc = s.plc := (settleVehicles_same s).same .plc (by decide)
/-- What `sesEvent` leaves as it was. -/
theorem sesEvent_same (o cause : Nat) (payload : List Byte) (s : State) : Kept [.flt, .acq, .rcd] s (sesEvent o cause payload s) := (sesEvent_kept o cause payload s (List.Subset.refl _)).2 (Kept.refl _ s)
@[simp] theorem sesEvent_pending (o cause : Nat) (payload : List Byte) (s : State) : (sesEvent o cause payload s).pending = s.pending := (sesEvent_same o cause payload s).same .pending (by decide)
@[simp] theorem sesEvent_now (o cause : Nat) (payload : List Byte) (s : State) : (sesEvent o cause payload s).now = s.now := (sesEvent_same o cause payload s).same .now (by decide)
@[simp] theorem sesEvent_outs (o cause : Nat) (payload : List Byte) (s : State) : (sesEvent o cause payload s).outs = s.outs := (sesEvent_same o cause payload s).same .outs (by decide)
@[simp] theorem sesEvent_freeIx (o cause : Nat) (payload : List Byte) (s : State) : (sesEvent o cause payload s).freeIx = s.freeIx := (sesEvent_same o cause payload s).same .freeIx (by decide)
@[simp] theorem sesEvent_pwr (o cause : Nat) (payload : List Byte) (s : State) : (sesEvent o cause payload s).pwr = s.pwr := (sesEvent_same o cause payload s).same .pwr (by decide)
@[simp] theorem sesEvent_host (o cause : Nat) (payload : List Byte) (s : State) : (sesEvent o cause payload s).host = s.host := (sesEvent_same o cause payload s).same .host (by decide)
@[simp] theorem sesEvent_prof (o cause : Nat) (payload : List Byte) (s : State) : (sesEvent o cause payload s).prof = s.prof := (sesEvent_same o cause payload s).same .prof (by decide)
@[simp] theorem sesEvent_stages (o cause : Nat) (payload : List Byte) (s : State) : (sesEvent o cause payload s).stages = s.stages := (sesEvent_same o cause payload s).same .stages (by decide)
@[simp] theorem sesEvent_alloc (o cause : Nat) (payload : List Byte) (s : State) : (sesEvent o cause payload s).alloc = s.alloc := (sesEvent_same o cause payload s).same .alloc (by decide)
@[simp] theorem sesEvent_paths (o cause : Nat) (payload : List Byte) (s : State) : (sesEvent o cause payload s).paths = s.paths := (sesEvent_same o cause payload s).same .paths (by decide)
@[simp] theorem sesEvent_law (o cause : Nat) (payload : List Byte) (s : State) : (sesEvent o cause payload s).law = s.law := (sesEvent_same o cause payload s).same .law (by decide)
@[simp] theorem sesEvent_lanes (o cause : Nat) (payload : List Byte) (s : State) : (sesEvent o cause payload s).lanes = s.lanes := (sesEvent_same o cause payload s).same .lanes (by decide)
@[simp] theorem sesEvent_pair (o cause : Nat) (payload : List Byte) (s : State) : (sesEvent o cause payload s).pair = s.pair := (sesEvent_same o cause payload s).same .pair (by decide)
@[simp] theorem sesEvent_thm (o cause : Nat) (payload : List Byte) (s : State) : (sesEvent o cause payload s).thm = s.thm := (sesEvent_same o cause payload s).same .thm (by decide)
@[simp] theorem sesEvent_sw (o cause : Nat) (payload : List Byte) (s : State) : (sesEvent o cause payload s).sw = s.sw := (sesEvent_same o cause payload s).same .sw (by decide)
@[simp] theorem sesEvent_met (o cause : Nat) (payload : List Byte) (s : State) : (sesEvent o cause payload s).met = s.met := (sesEvent_same o cause payload s).same .met (by decide)
@[simp] theorem sesEvent_veh (o cause : Nat) (payload : List Byte) (s : State) : (sesEvent o cause payload s).veh = s.veh := (sesEvent_same o cause payload s).same .veh (by decide)
@[simp] theorem sesEvent_civil (o cause : Nat) (payload : List Byte) (s : State) : (sesEvent o cause payload s).civil = s.civil := (sesEvent_same o cause payload s).same .civil (by decide)
@[simp] theorem sesEvent_key (o cause : Nat) (payload : List Byte) (s : State) : (sesEvent o cause payload s).key = s.key := (sesEvent_same o cause payload s).same .key (by decide)
@[simp] theorem sesEvent_can (o cause : Nat) (payload : List Byte) (s : State) : (sesEvent o cause payload s).can = s.can := (sesEvent_same o cause payload s).same .can (by decide)
@[simp] theorem sesEvent_plc (o cause : Nat) (payload : List Byte) (s : State) : (sesEvent o cause payload s).plc = s.plc := (sesEvent_same o cause payload s).same .plc (by decide)
/-- What `linkEvent` leaves as it was. -/
theorem linkEvent_same (o cause : Nat) (payload : List Byte) (s : State) : Kept [.flt, .acq, .rcd] s (linkEvent o cause payload s) := (linkEvent_kept o cause payload s (List.Subset.refl _)).2 (Kept.refl _ s)
@[simp] theorem linkEvent_pending (o cause : Nat) (payload : List Byte) (s : State) : (linkEvent o cause payload s).pending = s.pending := (linkEvent_same o cause payload s).same .pending (by decide)
@[simp] theorem linkEvent_now (o cause : Nat) (payload : List Byte) (s : State) : (linkEvent o cause payload s).now = s.now := (linkEvent_same o cause payload s).same .now (by decide)
@[simp] theorem linkEvent_outs (o cause : Nat) (payload : List Byte) (s : State) : (linkEvent o cause payload s).outs = s.outs := (linkEvent_same o cause payload s).same .outs (by decide)
@[simp] theorem linkEvent_freeIx (o cause : Nat) (payload : List Byte) (s : State) : (linkEvent o cause payload s).freeIx = s.freeIx := (linkEvent_same o cause payload s).same .freeIx (by decide)
@[simp] theorem linkEvent_pwr (o cause : Nat) (payload : List Byte) (s : State) : (linkEvent o cause payload s).pwr = s.pwr := (linkEvent_same o cause payload s).same .pwr (by decide)
@[simp] theorem linkEvent_host (o cause : Nat) (payload : List Byte) (s : State) : (linkEvent o cause payload s).host = s.host := (linkEvent_same o cause payload s).same .host (by decide)
@[simp] theorem linkEvent_prof (o cause : Nat) (payload : List Byte) (s : State) : (linkEvent o cause payload s).prof = s.prof := (linkEvent_same o cause payload s).same .prof (by decide)
@[simp] theorem linkEvent_stages (o cause : Nat) (payload : List Byte) (s : State) : (linkEvent o cause payload s).stages = s.stages := (linkEvent_same o cause payload s).same .stages (by decide)
@[simp] theorem linkEvent_alloc (o cause : Nat) (payload : List Byte) (s : State) : (linkEvent o cause payload s).alloc = s.alloc := (linkEvent_same o cause payload s).same .alloc (by decide)
@[simp] theorem linkEvent_paths (o cause : Nat) (payload : List Byte) (s : State) : (linkEvent o cause payload s).paths = s.paths := (linkEvent_same o cause payload s).same .paths (by decide)
@[simp] theorem linkEvent_law (o cause : Nat) (payload : List Byte) (s : State) : (linkEvent o cause payload s).law = s.law := (linkEvent_same o cause payload s).same .law (by decide)
@[simp] theorem linkEvent_lanes (o cause : Nat) (payload : List Byte) (s : State) : (linkEvent o cause payload s).lanes = s.lanes := (linkEvent_same o cause payload s).same .lanes (by decide)
@[simp] theorem linkEvent_pair (o cause : Nat) (payload : List Byte) (s : State) : (linkEvent o cause payload s).pair = s.pair := (linkEvent_same o cause payload s).same .pair (by decide)
@[simp] theorem linkEvent_thm (o cause : Nat) (payload : List Byte) (s : State) : (linkEvent o cause payload s).thm = s.thm := (linkEvent_same o cause payload s).same .thm (by decide)
@[simp] theorem linkEvent_sw (o cause : Nat) (payload : List Byte) (s : State) : (linkEvent o cause payload s).sw = s.sw := (linkEvent_same o cause payload s).same .sw (by decide)
@[simp] theorem linkEvent_met (o cause : Nat) (payload : List Byte) (s : State) : (linkEvent o cause payload s).met = s.met := (linkEvent_same o cause payload s).same .met (by decide)
@[simp] theorem linkEvent_veh (o cause : Nat) (payload : List Byte) (s : State) : (linkEvent o cause payload s).veh = s.veh := (linkEvent_same o cause payload s).same .veh (by decide)
@[simp] theorem linkEvent_civil (o cause : Nat) (payload : List Byte) (s : State) : (linkEvent o cause payload s).civil = s.civil := (linkEvent_same o cause payload s).same .civil (by decide)
@[simp] theorem linkEvent_key (o cause : Nat) (payload : List Byte) (s : State) : (linkEvent o cause payload s).key = s.key := (linkEvent_same o cause payload s).same .key (by decide)
@[simp] theorem linkEvent_can (o cause : Nat) (payload : List Byte) (s : State) : (linkEvent o cause payload s).can = s.can := (linkEvent_same o cause payload s).same .can (by decide)
@[simp] theorem linkEvent_plc (o cause : Nat) (payload : List Byte) (s : State) : (linkEvent o cause payload s).plc = s.plc := (linkEvent_same o cause payload s).same .plc (by decide)

end Sys2Proof.Machine
end

