-- ==== Sys2Proof/Laws/Arise.lean ====
section
/-! SUPPORT. Raising an event (R589) leaves it waiting for its record, and no later event takes it away before the step settles. -/

set_option linter.all false

namespace Sys2Proof.Machine

theorem forAll_mem {ι : Type} (f : ι → State → State) (e : Arising) (h : ∀ i s, e ∈ s.flt.arising → e ∈ (f i s).flt.arising) :
    ∀ (l : List ι) (s : State), e ∈ s.flt.arising → e ∈ (forAll l f s).flt.arising
  | [], _, k => k
  | i :: l, s, k => forAll_mem f e h l (f i s) (h i s k)

theorem arise_mem (a b c : Nat) (p : List Byte) (e : Arising) (s : State) (h : e ∈ s.flt.arising) : e ∈ (arise a b c p s).flt.arising :=
  List.mem_append_left _ h

theorem raiseWraps_mem (e : Arising) (s : State) (h : e ∈ s.flt.arising) : e ∈ (raiseWraps s).flt.arising := by
  unfold raiseWraps
  refine forAll_mem _ e (fun k u hu => ?_) _ _ h
  dsimp only
  repeat' split
  all_goals first | exact hu | exact arise_mem _ _ _ _ e _ hu

theorem recEvent_arising (a b c : Nat) (s : State) : (recEvent a b c s).flt.arising = s.flt.arising := by
  unfold recEvent; split <;> rfl

/-- An event that waits goes on waiting when another arises. -/
theorem raise_mem (a b c : Nat) (p : List Byte) (e : Arising) (s : State) (h : e ∈ s.flt.arising) : e ∈ (raise a b c p s).flt.arising :=
  raiseWraps_mem e _ (by rw [recEvent_arising]; exact arise_mem a b c p e s h)

/-- The event that is raised waits. -/
theorem raise_arose (a b c : Nat) (p : List Byte) (s u : State) (h : u.now = s.now) : Arose a b c p s (raise a b c p u) := by
  unfold Arose raise
  refine raiseWraps_mem _ _ ?_
  rw [recEvent_arising, ← h]
  exact List.mem_append_right _ (by simp)

theorem Arose.raise {a b c : Nat} {p : List Byte} {s u : State} (h : Arose a b c p s u) (x y z : Nat) (q : List Byte) :
    Arose a b c p s (raise x y z q u) := raise_mem x y z q _ u h

/-- What leaves the event log alone leaves the event waiting. -/
theorem Arose.kept {a b c : Nat} {p : List Byte} {s u v : State} {w : List Part} (h : Arose a b c p s u) (k : Kept w u v) (hf : .flt ∉ w) :
    Arose a b c p s v := by unfold Arose; rw [k.same .flt hf]; exact h

theorem Arose.posted {a b c : Nat} {p : List Byte} {s u : State} (h : Arose a b c p s u) : Posted a b c s u := ⟨p, h⟩

end Sys2Proof.Machine
end

