-- ==== Sys2Proof/Laws/Completion.lean ====
section
/-! SUPPORT. How a command comes to its effect: the guards of the rows (`ctl`, `live`), and a descriptor that passes every check (R109, R118, R127). -/

set_option linter.all false

namespace Sys2Proof.Machine

theorem ctl_next {f : State → State} {s : State} (h : s.pwr.undefinedLogic = false) : ctl f s = .next (settle (f s)) := by
  simp [ctl, run, h]

theorem ready_tolerance {s : State} (h : s.ready = true) : s.pwr.undefinedLogic = false := by simp [State.ready] at h; exact h.1

theorem ready_awake {s : State} (h : s.ready = true) : s.awake = true := by simp [State.ready] at h; exact h.2

theorem live_next {f : State → State} {s : State} (h : s.ready = true) : live f s = .next (settle (f s)) := by
  unfold live; rw [ctl_next (ready_tolerance h), if_pos (ready_awake h)]

theorem live_idle {f : State → State} {s : State} (h : s.pwr.undefinedLogic = false) (ha : s.awake = false) : live f s = .next (settle s) := by
  unfold live; rw [ctl_next h]; simp [ha]

/-- A live command whose effect is known. -/
theorem live_runs {f : State → State} {c : Instr} {s u : State} {w : List Part} {P : State → Prop} (e : exec c s = live f s) (h : s.ready = true)
    (hu : f s = u) (k : Kept w s u) (p : P u) : Runs c s w P := ⟨u, by rw [e, live_next h, hu], p, k⟩

theorem ctl_runs {f : State → State} {c : Instr} {s u : State} {w : List Part} {P : State → Prop} (e : exec c s = ctl f s)
    (h : s.pwr.undefinedLogic = false) (hu : f s = u) (k : Kept w s u) (p : P u) : Runs c s w P := ⟨u, by rw [e, ctl_next h, hu], p, k⟩

theorem runDesc_passes {op : OpInfo} {eff : Desc → State → Answer} {d : Desc} {s : State} (h : passesChecks op d s = true) :
    runDesc op eff d s = performDesc op eff d (fetched d s) := by
  simp only [passesChecks, Bool.and_eq_true, beq_iff_eq, Bool.not_eq_true', Bool.or_eq_true, decide_eq_true_eq, bne_iff_ne] at h
  obtain ⟨⟨⟨⟨⟨⟨⟨⟨⟨⟨h0, h01⟩, h02⟩, h1⟩, h2⟩, h3⟩, h4⟩, h5⟩, hb⟩, h6⟩, hs⟩ := h
  have e : runDesc op eff d s = throughToken op eff d (takeDesc d.ring s) := by
    unfold runDesc
    rw [h0, h1, h3, if_neg (by simp), if_neg (by simp [h02]), if_neg (by simp), if_neg (by simp [h2])]
    simp only [h4, Bool.false_eq_true, if_false]
  have k : throughToken op eff d (takeDesc d.ring s) = beginOrWait op eff d (paid d s) := by
    unfold throughToken paid
    by_cases hr : ringClass d.ring = 0
    · have h8 : ¬ (((takeDesc d.ring s).modSq d.ring (refill (takeDesc d.ring s).now)).sq d.ring).bucket < million := by
        rcases h5 with h5 | h5
        · exact absurd hr h5
        · exact Nat.not_lt.2 h5
      rw [if_neg (Classical.not_not.2 hr), if_neg (Classical.not_not.2 hr)]
      dsimp only
      rw [if_neg h8]
      rfl
    · rw [if_pos hr, if_pos hr]
  rw [e, k]
  unfold beginOrWait
  rw [hb, if_neg (by simp)]
  unfold admitted
  rw [h6]
  dsimp only
  unfold executeDesc
  unfold staysInside at hs
  show (match d.stray with
    | some a => if strayOutside (startOp d .waiting (fetched d s)) d a then violatedDesc a eff d (fetched d s) else performDesc op eff d (fetched d s)
    | none => performDesc op eff d (fetched d s)) = _
  cases hd : d.stray with
  | none => rfl
  | some a => rw [hd] at hs; simp at hs; simp [hs]

theorem performDesc_finish {op : OpInfo} {eff : Desc → State → Answer} {d : Desc} {s u : State} {st res : Nat}
    (h : unmirrored op s = true) (he : eff d s = (u, some (st, res))) : performDesc op eff d s = completeDesc d st res u := by
  unfold performDesc; rw [he]
  unfold unmirrored at h
  have q : (op.acc != .unit && s.paired) = false := by revert h; cases op.acc <;> cases s.paired <;> simp
  simp [q]

theorem performDesc_start {op : OpInfo} {eff : Desc → State → Answer} {d : Desc} {s u : State}
    (h : unmirrored op s = true) (he : eff d s = (u, none)) : performDesc op eff d s = u := by
  unfold performDesc; rw [he]
  unfold unmirrored at h
  have q : (op.acc != .unit && s.paired) = false := by revert h; cases op.acc <;> cases s.paired <;> simp
  simp [q, when]

/-- A descriptor that the controller runs by itself ends as its operation answers. -/
theorem live_finish {op : OpInfo} {eff : Desc → State → Answer} {d : Desc} {s u : State} {st res : Nat}
    (h : admits op d s = true) (he : eff d (fetched d s) = (u, some (st, res))) :
    live (runDesc op eff d) s = .next (settle (completeDesc d st res u)) := by
  simp only [admits, Bool.and_eq_true] at h
  rw [live_next h.1.1, runDesc_passes h.1.2, performDesc_finish h.2 he]

theorem live_start {op : OpInfo} {eff : Desc → State → Answer} {d : Desc} {s u : State}
    (h : admits op d s = true) (he : eff d (fetched d s) = (u, none)) :
    live (runDesc op eff d) s = .next (settle u) := by
  simp only [admits, Bool.and_eq_true] at h
  rw [live_next h.1.1, runDesc_passes h.1.2, performDesc_start h.2 he]

end Sys2Proof.Machine
end

