-- ==== Sys2Proof/Laws/FrameAcquisition.lean ====
section
/-! SUPPORT. Frames of the operations of Acquisition: what each may change. -/

set_option linter.all false

namespace Sys2Proof.Machine

variable {F : List Part} {s₀ : State}

@[simp] theorem holdoffEndEffect_kept (u : Nat) (s : State) (hW : [.acq] ⊆ F) : Kept F s₀ (holdoffEndEffect u s) ↔ Kept F s₀ s := by
  simp at hW; (unfold holdoffEndEffect; try simp [hW]) <;> repeat' ((first | split | apply forAll_step | apply forAll_keep | apply foldl_step | apply foldl_keep | intro _) <;> try simp [hW])

theorem execHoldoffEnd_keeps {t : State} (unit : Nat) (s : State) (e : execHoldoffEnd unit s = .next t) : ∃ u, t = settle u ∧ Kept [.acq] s u := by
  unfold execHoldoffEnd live at e; refine ctl_keeps ?_ e; (try simp) <;> repeat' ((first | split | apply forAll_keep | apply foldl_keep | intro _) <;> try simp)

@[simp] theorem trigPulse_kept (s : State) (hW : [.outs, .acq] ⊆ F) : Kept F s₀ (trigPulse s) ↔ Kept F s₀ s := by
  simp at hW; (unfold trigPulse; try simp [hW]) <;> repeat' ((first | split | apply forAll_step | apply forAll_keep | apply foldl_step | apply foldl_keep | intro _) <;> try simp [hW])

@[simp] theorem captureTriggerEffect_kept (u : Nat) (s : State) (hW : [.outs, .flt, .acq, .rcd] ⊆ F) : Kept F s₀ (captureTriggerEffect u s) ↔ Kept F s₀ s := by
  simp at hW; (unfold captureTriggerEffect; try simp [hW]) <;> repeat' ((first | split | apply forAll_step | apply forAll_keep | apply foldl_step | apply foldl_keep | intro _) <;> try simp [hW])

theorem execCaptureTrigger_keeps {t : State} (unit : Nat) (s : State) (e : execCaptureTrigger unit s = .next t) : ∃ u, t = settle u ∧ Kept [.outs, .flt, .acq, .rcd] s u := by
  unfold execCaptureTrigger live at e; refine ctl_keeps ?_ e; (try simp) <;> repeat' ((first | split | apply forAll_keep | apply foldl_keep | intro _) <;> try simp)

@[simp] theorem externalEdgeEffect_kept (rising : Bool) (time : Nat) (s : State) (hW : [.acq] ⊆ F) : Kept F s₀ (externalEdgeEffect rising time s) ↔ Kept F s₀ s := by
  simp at hW; (unfold externalEdgeEffect; try simp [hW]) <;> repeat' ((first | split | apply forAll_step | apply forAll_keep | apply foldl_step | apply foldl_keep | intro _) <;> try simp [hW])

theorem execExternalTriggerEdge_keeps {t : State} (rising : Bool) (time : Nat) (s : State) (e : execExternalTriggerEdge rising time s = .next t) : ∃ u, t = settle u ∧ Kept [.acq] s u := by
  unfold execExternalTriggerEdge live at e; refine ctl_keeps ?_ e; (try simp) <;> repeat' ((first | split | apply forAll_keep | apply foldl_keep | intro _) <;> try simp)

@[simp] theorem captureDoneEffect_kept (u : Nat) (s : State) (hW : [.freeIx, .flt, .acq, .rcd] ⊆ F) : Kept F s₀ (captureDoneEffect u s) ↔ Kept F s₀ s := by
  simp at hW; (unfold captureDoneEffect; try simp [hW]) <;> repeat' ((first | split | apply forAll_step | apply forAll_keep | apply foldl_step | apply foldl_keep | intro _) <;> try simp [hW])

theorem execCaptureDone_keeps {t : State} (unit : Nat) (s : State) (e : execCaptureDone unit s = .next t) : ∃ u, t = settle u ∧ Kept [.freeIx, .flt, .acq, .rcd] s u := by
  unfold execCaptureDone live at e; refine ctl_keeps ?_ e; (try simp) <;> repeat' ((first | split | apply forAll_keep | apply foldl_keep | intro _) <;> try simp)

theorem execCalDone_keeps {t : State} (unit : Nat) (s : State) (e : execCalDone unit s = .next t) : ∃ u, t = settle u ∧ Kept [.flt, .acq, .rcd] s u := by
  unfold execCalDone live at e; refine ctl_keeps ?_ e; (try simp) <;> repeat' ((first | split | apply forAll_keep | apply foldl_keep | intro _) <;> try simp)

@[simp] theorem acqConversionEffect_kept (codes : List Half) (s : State) (hW : [.flt, .acq, .rcd] ⊆ F) : Kept F s₀ (acqConversionEffect codes s) ↔ Kept F s₀ s := by
  simp at hW; (unfold acqConversionEffect; try simp [hW]) <;> repeat' ((first | split | apply forAll_step | apply forAll_keep | apply foldl_step | apply foldl_keep | intro _) <;> try simp [hW])

theorem execAcqConversion_keeps {t : State} (codes : List Half) (s : State) (e : execAcqConversion codes s = .next t) : ∃ u, t = settle u ∧ Kept [.flt, .acq, .rcd] s u := by
  unfold execAcqConversion live at e; refine ctl_keeps ?_ e; (try simp) <;> repeat' ((first | split | apply forAll_keep | apply foldl_keep | intro _) <;> try simp)

@[simp] theorem captureArmOp_kept (d : Desc) (s : State) (hW : [.flt, .acq, .rcd] ⊆ F) : Kept F s₀ (captureArmOp d s).1 ↔ Kept F s₀ s := by
  simp at hW; (unfold captureArmOp; try simp [hW]) <;> repeat' ((first | split | apply forAll_step | apply forAll_keep | apply foldl_step | apply foldl_keep | intro _) <;> try simp [hW])

theorem execCaptureArm_keeps {t : State} (d : Desc) (s : State) (e : execCaptureArm d s = .next t) : ∃ u, t = settle u ∧ Kept [.outs, .freeIx, .host, .flt, .pair, .acq, .rcd, .rings, .faults] s u := by
  unfold execCaptureArm live at e; refine ctl_keeps ?_ e; (try simp) <;> repeat' ((first | split | apply forAll_keep | apply foldl_keep | intro _) <;> try simp)

@[simp] theorem captureCalibrateOp_kept (d : Desc) (s : State) (hW : [.outs, .acq] ⊆ F) : Kept F s₀ (captureCalibrateOp d s).1 ↔ Kept F s₀ s := by
  simp at hW; (unfold captureCalibrateOp; try simp [hW]) <;> repeat' ((first | split | apply forAll_step | apply forAll_keep | apply foldl_step | apply foldl_keep | intro _) <;> try simp [hW])

theorem execCaptureCalibrate_keeps {t : State} (d : Desc) (s : State) (e : execCaptureCalibrate d s = .next t) : ∃ u, t = settle u ∧ Kept [.outs, .freeIx, .host, .flt, .pair, .acq, .rcd, .rings, .faults] s u := by
  unfold execCaptureCalibrate live at e; refine ctl_keeps ?_ e; (try simp) <;> repeat' ((first | split | apply forAll_keep | apply foldl_keep | intro _) <;> try simp)

@[simp] theorem captureDisarmOp_kept (d : Desc) (s : State) (hW : [.freeIx, .flt, .acq, .rcd] ⊆ F) : Kept F s₀ (captureDisarmOp d s).1 ↔ Kept F s₀ s := by
  simp at hW; (unfold captureDisarmOp; try simp [hW]) <;> repeat' ((first | split | apply forAll_step | apply forAll_keep | apply foldl_step | apply foldl_keep | intro _) <;> try simp [hW])

theorem execCaptureDisarm_keeps {t : State} (d : Desc) (s : State) (e : execCaptureDisarm d s = .next t) : ∃ u, t = settle u ∧ Kept [.outs, .freeIx, .host, .flt, .pair, .acq, .rcd, .rings, .faults] s u := by
  unfold execCaptureDisarm live at e; refine ctl_keeps ?_ e; (try simp) <;> repeat' ((first | split | apply forAll_keep | apply foldl_keep | intro _) <;> try simp)

@[simp] theorem afterRead_kept (u : Nat) (s : State) (hW : [.flt, .acq, .rcd] ⊆ F) : Kept F s₀ (afterRead u s) ↔ Kept F s₀ s := by
  simp at hW; (unfold afterRead; try simp [hW]) <;> repeat' ((first | split | apply forAll_step | apply forAll_keep | apply foldl_step | apply foldl_keep | intro _) <;> try simp [hW])

@[simp] theorem captureReadOp_kept (d : Desc) (s : State) (hW : [.outs, .host, .flt, .acq, .rcd] ⊆ F) : Kept F s₀ (captureReadOp d s).1 ↔ Kept F s₀ s := by
  simp at hW; (unfold captureReadOp; try simp [hW]) <;> repeat' ((first | split | apply forAll_step | apply forAll_keep | apply foldl_step | apply foldl_keep | intro _) <;> try simp [hW])

theorem execCaptureRead_keeps {t : State} (d : Desc) (s : State) (e : execCaptureRead d s = .next t) : ∃ u, t = settle u ∧ Kept [.outs, .freeIx, .host, .flt, .pair, .acq, .rcd, .rings, .faults] s u := by
  unfold execCaptureRead live at e; refine ctl_keeps ?_ e; (try simp) <;> repeat' ((first | split | apply forAll_keep | apply foldl_keep | intro _) <;> try simp)

end Sys2Proof.Machine
end

