-- ==== Sys2Proof/Laws/FrameAllocOps.lean ====
section
/-! SUPPORT. Frames of the operations of AllocOps: what each may change. -/

set_option linter.all false

namespace Sys2Proof.Machine

variable {F : List Part} {s₀ : State}

@[simp] theorem setE32_kept (o cause : Nat) (on : Bool) (s : State) (hW : [.flt, .alloc, .acq, .rcd] ⊆ F) : Kept F s₀ (setE32 o cause on s) ↔ Kept F s₀ s := by
  simp at hW; (unfold setE32; try simp [hW]) <;> repeat' ((first | split | apply forAll_step | apply forAll_keep | apply foldl_step | apply foldl_keep | intro _) <;> try simp [hW])

@[simp] theorem issueOrders_kept (orders : List (StageOrder × Nat × Option Nat)) (s : State) (hW : [.outs, .stages, .pair] ⊆ F) : Kept F s₀ (issueOrders orders s) ↔ Kept F s₀ s := by
  simp at hW; (unfold issueOrders; try simp [hW]) <;> repeat' ((first | split | apply forAll_step | apply forAll_keep | apply foldl_step | apply foldl_keep | intro _) <;> try simp [hW])

@[simp] theorem recordImport_kept (s : State) (hW : [.rcd] ⊆ F) : Kept F s₀ (recordImport s) ↔ Kept F s₀ s := by
  simp at hW; (unfold recordImport; try simp [hW]) <;> repeat' ((first | split | apply forAll_step | apply forAll_keep | apply foldl_step | apply foldl_keep | intro _) <;> try simp [hW])

@[simp] theorem capEvents_kept (oldCap : Bool) (src : Nat) (s : State) (hW : [.flt, .alloc, .acq, .rcd] ⊆ F) : Kept F s₀ (capEvents oldCap src s) ↔ Kept F s₀ s := by
  simp at hW; (unfold capEvents; try simp [hW]) <;> repeat' ((first | split | apply forAll_step | apply forAll_keep | apply foldl_step | apply foldl_keep | intro _) <;> try simp [hW])

@[simp] theorem publishOutlet_kept (l : AlcLatch) (p : Plan) (b1 : List Nat) (f : Fill) (paused : List Nat) (o : Nat) (s : State) (hW : [.flt, .alloc, .acq, .rcd] ⊆ F) : Kept F s₀ (publishOutlet l p b1 f paused o s) ↔ Kept F s₀ s := by
  simp at hW; (unfold publishOutlet; try simp [hW]) <;> repeat' ((first | split | apply forAll_step | apply forAll_keep | apply foldl_step | apply foldl_keep | intro _) <;> try simp [hW])

@[simp] theorem publish_kept (l : AlcLatch) (s : State) (hW : [.outs, .flt, .stages, .alloc, .paths, .pair, .acq, .rcd] ⊆ F) : Kept F s₀ (publish l s) ↔ Kept F s₀ s := by
  simp at hW; (unfold publish; try simp [hW]) <;> repeat' ((first | split | apply forAll_step | apply forAll_keep | apply foldl_step | apply foldl_keep | intro _) <;> try simp [hW])

@[simp] theorem checkPlan_kept (i : Nat) (s : State) (hW : [.outs, .flt, .stages, .paths, .pair, .acq, .rcd] ⊆ F) : Kept F s₀ (checkPlan i s) ↔ Kept F s₀ s := by
  simp at hW; (unfold checkPlan; try simp [hW]) <;> repeat' ((first | split | apply forAll_step | apply forAll_keep | apply foldl_step | apply foldl_keep | intro _) <;> try simp [hW])

@[simp] theorem checkFeedback_kept (i : Nat) (s : State) (hW : [.flt, .stages, .acq, .rcd] ⊆ F) : Kept F s₀ (checkFeedback i s) ↔ Kept F s₀ s := by
  simp at hW; (unfold checkFeedback; try simp [hW]) <;> repeat' ((first | split | apply forAll_step | apply forAll_keep | apply foldl_step | apply foldl_keep | intro _) <;> try simp [hW])

@[simp] theorem restPower_kept (s : State) (hW : [.pwr] ⊆ F) : Kept F s₀ (restPower s) ↔ Kept F s₀ s := by
  simp at hW; (unfold restPower; try simp [hW]) <;> repeat' ((first | split | apply forAll_step | apply forAll_keep | apply foldl_step | apply foldl_keep | intro _) <;> try simp [hW])

@[simp] theorem updatePower_kept (s : State) (hW : [.pwr] ⊆ F) : Kept F s₀ (updatePower s) ↔ Kept F s₀ s := by
  simp at hW; (unfold updatePower; try simp [hW]) <;> repeat' ((first | split | apply forAll_step | apply forAll_keep | apply foldl_step | apply foldl_keep | intro _) <;> try simp [hW])

@[simp] theorem overrunBoundary_kept (s : State) (hW : [.flt, .acq, .rcd] ⊆ F) : Kept F s₀ (overrunBoundary s) ↔ Kept F s₀ s := by
  simp at hW; (unfold overrunBoundary; try simp [hW]) <;> repeat' ((first | split | apply forAll_step | apply forAll_keep | apply foldl_step | apply foldl_keep | intro _) <;> try simp [hW])

@[simp] theorem allocate_kept (overrun : Bool) (s : State) (hW : [.outs, .pwr, .flt, .stages, .alloc, .paths, .pair, .acq, .rcd] ⊆ F) : Kept F s₀ (allocate overrun s) ↔ Kept F s₀ s := by
  simp at hW; (unfold allocate; try simp [hW]) <;> repeat' ((first | split | apply forAll_step | apply forAll_keep | apply foldl_step | apply foldl_keep | intro _) <;> try simp [hW])

@[simp] theorem idleAllocator_kept (s : State) (hW : [.alloc] ⊆ F) : Kept F s₀ (idleAllocator s) ↔ Kept F s₀ s := by
  simp at hW; (unfold idleAllocator; try simp [hW]) <;> repeat' ((first | split | apply forAll_step | apply forAll_keep | apply foldl_step | apply foldl_keep | intro _) <;> try simp [hW])

end Sys2Proof.Machine
end

