-- ==== Sys2Proof/Laws/FrameHolds.lean ====
section
/-! SUPPORT. Frames of the operations of Holds: what each may change. -/

set_option linter.all false

namespace Sys2Proof.Machine

variable {F : List Part} {s₀ : State}

@[simp] theorem watchStage_kept (i : Nat) (s : State) (hW : [.stages] ⊆ F) : Kept F s₀ (watchStage i s) ↔ Kept F s₀ s := by
  simp at hW; (unfold watchStage; try simp [hW]) <;> repeat' ((first | split | apply forAll_step | apply forAll_keep | apply foldl_step | apply foldl_keep | intro _) <;> try simp [hW])

@[simp] theorem watchPath_kept (o : Nat) (s : State) (hW : [.paths] ⊆ F) : Kept F s₀ (watchPath o s) ↔ Kept F s₀ s := by
  simp at hW; (unfold watchPath; try simp [hW]) <;> repeat' ((first | split | apply forAll_step | apply forAll_keep | apply foldl_step | apply foldl_keep | intro _) <;> try simp [hW])

@[simp] theorem watch_kept (s : State) (hW : [.stages, .paths] ⊆ F) : Kept F s₀ (watch s) ↔ Kept F s₀ s := by
  simp at hW; (unfold watch; try simp [hW]) <;> repeat' ((first | split | apply forAll_step | apply forAll_keep | apply foldl_step | apply foldl_keep | intro _) <;> try simp [hW])

end Sys2Proof.Machine
end

