-- ==== Sys2Proof/Laws/FrameCanOps.lean ====
section
/-! SUPPORT. Frames of the operations of CanOps: what each may change. -/

set_option linter.all false

namespace Sys2Proof.Machine

variable {F : List Part} {s₀ : State}

@[simp] theorem State.modCan_kept (n : Nat) (f : CanCtl → CanCtl) (s : State) (hW : [.can] ⊆ F) : Kept F s₀ (State.modCan n f s) ↔ Kept F s₀ s := Kept.iff (v := [.can]) (kept_iff.2 <| by intro p hp; cases p <;> first | rfl | exact ⟨rfl, rfl⟩ | exact absurd (by decide) hp) hW

@[simp] theorem canRingWrite_kept (n : Nat) (s : State) (hW : [.outs, .host, .can] ⊆ F) : Kept F s₀ (canRingWrite n s) ↔ Kept F s₀ s := by
  simp at hW; (unfold canRingWrite; try simp [hW]) <;> repeat' ((first | split | apply forAll_step | apply forAll_keep | apply foldl_step | apply foldl_keep | intro _) <;> try simp [hW])

@[simp] theorem canCoalesce_kept (s : State) (hW : [.host, .can] ⊆ F) : Kept F s₀ (canCoalesce s) ↔ Kept F s₀ s := by
  simp at hW; (unfold canCoalesce; try simp [hW]) <;> repeat' ((first | split | apply forAll_step | apply forAll_keep | apply foldl_step | apply foldl_keep | intro _) <;> try simp [hW])

@[simp] theorem canEvent_kept (n cause : Nat) (payload : List Byte) (s : State) (hW : [.flt, .acq, .rcd] ⊆ F) : Kept F s₀ (canEvent n cause payload s) ↔ Kept F s₀ s := by
  simp at hW; (unfold canEvent; try simp [hW]) <;> repeat' ((first | split | apply forAll_step | apply forAll_keep | apply foldl_step | apply foldl_keep | intro _) <;> try simp [hW])

@[simp] theorem confineEvents_kept (n : Nat) (old : CanCtl) (s : State) (hW : [.flt, .acq, .rcd] ⊆ F) : Kept F s₀ (confineEvents n old s) ↔ Kept F s₀ s := by
  simp at hW; (unfold confineEvents; try simp [hW]) <;> repeat' ((first | split | apply forAll_step | apply forAll_keep | apply foldl_step | apply foldl_keep | intro _) <;> try simp [hW])

@[simp] theorem canCount_kept (n : Nat) (f : CanCtl → CanCtl) (s : State) (hW : [.flt, .acq, .can, .rcd] ⊆ F) : Kept F s₀ (canCount n f s) ↔ Kept F s₀ s := by
  simp at hW; (unfold canCount; try simp [hW]) <;> repeat' ((first | split | apply forAll_step | apply forAll_keep | apply foldl_step | apply foldl_keep | intro _) <;> try simp [hW])

@[simp] theorem canOffer_kept (n : Nat) (s : State) (hW : [.can] ⊆ F) : Kept F s₀ (canOffer n s) ↔ Kept F s₀ s := by
  simp at hW; (unfold canOffer; try simp [hW]) <;> repeat' ((first | split | apply forAll_step | apply forAll_keep | apply foldl_step | apply foldl_keep | intro _) <;> try simp [hW])

@[simp] theorem canIdleOffer_kept (n : Nat) (s : State) (hW : [.can] ⊆ F) : Kept F s₀ (canIdleOffer n s) ↔ Kept F s₀ s := by
  simp at hW; (unfold canIdleOffer; try simp [hW]) <;> repeat' ((first | split | apply forAll_step | apply forAll_keep | apply foldl_step | apply foldl_keep | intro _) <;> try simp [hW])

@[simp] theorem canAbort_kept (n reason : Nat) (p : Nat → Bool) (s : State) (hW : [.outs, .freeIx, .host, .can, .rings] ⊆ F) : Kept F s₀ (canAbort n reason p s) ↔ Kept F s₀ s := by
  simp at hW; (unfold canAbort; try simp [hW]) <;> repeat' ((first | split | apply forAll_step | apply forAll_keep | apply foldl_step | apply foldl_keep | intro _) <;> try simp [hW])

@[simp] theorem canAbortAll_kept (n reason : Nat) (s : State) (hW : [.outs, .freeIx, .host, .can, .rings] ⊆ F) : Kept F s₀ (canAbortAll n reason s) ↔ Kept F s₀ s := by
  simp at hW; (unfold canAbortAll; try simp [hW]) <;> repeat' ((first | split | apply forAll_step | apply forAll_keep | apply foldl_step | apply foldl_keep | intro _) <;> try simp [hW])

@[simp] theorem canAbortOthers_kept (n reason : Nat) (s : State) (hW : [.outs, .freeIx, .host, .can, .rings] ⊆ F) : Kept F s₀ (canAbortOthers n reason s) ↔ Kept F s₀ s := by
  simp at hW; (unfold canAbortOthers; try simp [hW]) <;> repeat' ((first | split | apply forAll_step | apply forAll_keep | apply foldl_step | apply foldl_keep | intro _) <;> try simp [hW])

@[simp] theorem detectStart_kept (n : Nat) (s : State) (hW : [.can] ⊆ F) : Kept F s₀ (detectStart n s) ↔ Kept F s₀ s := by
  simp at hW; (unfold detectStart; try simp [hW]) <;> repeat' ((first | split | apply forAll_step | apply forAll_keep | apply foldl_step | apply foldl_keep | intro _) <;> try simp [hW])

@[simp] theorem nextCandidate_kept (n : Nat) (s : State) (hW : [.flt, .acq, .can, .rcd] ⊆ F) : Kept F s₀ (nextCandidate n s) ↔ Kept F s₀ s := by
  simp at hW; (unfold nextCandidate; try simp [hW]) <;> repeat' ((first | split | apply forAll_step | apply forAll_keep | apply foldl_step | apply foldl_keep | intro _) <;> try simp [hW])

@[simp] theorem canFresh_kept (n : Nat) (s : State) (hW : [.can] ⊆ F) : Kept F s₀ (canFresh n s) ↔ Kept F s₀ s := by
  simp at hW; (unfold canFresh; try simp [hW]) <;> repeat' ((first | split | apply forAll_step | apply forAll_keep | apply foldl_step | apply foldl_keep | intro _) <;> try simp [hW])

@[simp] theorem canRestart_kept (n : Nat) (s : State) (hW : [.outs, .freeIx, .host, .can, .rings] ⊆ F) : Kept F s₀ (canRestart n s) ↔ Kept F s₀ s := by
  simp at hW; (unfold canRestart; try simp [hW]) <;> repeat' ((first | split | apply forAll_step | apply forAll_keep | apply foldl_step | apply foldl_keep | intro _) <;> try simp [hW])

@[simp] theorem canProfile_kept (s : State) (hW : [.outs, .freeIx, .host, .can, .rings] ⊆ F) : Kept F s₀ (canProfile s) ↔ Kept F s₀ s := by
  simp at hW; (unfold canProfile; try simp [hW]) <;> repeat' ((first | split | apply forAll_step | apply forAll_keep | apply foldl_step | apply foldl_keep | intro _) <;> try simp [hW])

@[simp] theorem canLeaseLost_kept (s : State) (hW : [.outs, .freeIx, .host, .can, .rings] ⊆ F) : Kept F s₀ (canLeaseLost s) ↔ Kept F s₀ s := by
  simp at hW; (unfold canLeaseLost; try simp [hW]) <;> repeat' ((first | split | apply forAll_step | apply forAll_keep | apply foldl_step | apply foldl_keep | intro _) <;> try simp [hW])

@[simp] theorem canLeaseGained_kept (s : State) (hW : [.can] ⊆ F) : Kept F s₀ (canLeaseGained s) ↔ Kept F s₀ s := by
  simp at hW; (unfold canLeaseGained; try simp [hW]) <;> repeat' ((first | split | apply forAll_step | apply forAll_keep | apply foldl_step | apply foldl_keep | intro _) <;> try simp [hW])

@[simp] theorem canDetectAll_kept (s : State) (hW : [.can] ⊆ F) : Kept F s₀ (canDetectAll s) ↔ Kept F s₀ s := by
  simp at hW; (unfold canDetectAll; try simp [hW]) <;> repeat' ((first | split | apply forAll_step | apply forAll_keep | apply foldl_step | apply foldl_keep | intro _) <;> try simp [hW])

@[simp] theorem canLeave_kept (n : Nat) (s : State) (hW : [.outs, .freeIx, .host, .can, .rings] ⊆ F) : Kept F s₀ (canLeave n s) ↔ Kept F s₀ s := by
  simp at hW; (unfold canLeave; try simp [hW]) <;> repeat' ((first | split | apply forAll_step | apply forAll_keep | apply foldl_step | apply foldl_keep | intro _) <;> try simp [hW])

@[simp] theorem enterBusOff_kept (n : Nat) (s : State) (hW : [.outs, .freeIx, .host, .flt, .acq, .can, .rcd, .rings] ⊆ F) : Kept F s₀ (enterBusOff n s) ↔ Kept F s₀ s := by
  simp at hW; (unfold enterBusOff; try simp [hW]) <;> repeat' ((first | split | apply forAll_step | apply forAll_keep | apply foldl_step | apply foldl_keep | intro _) <;> try simp [hW])

@[simp] theorem busOffRecovered_kept (n : Nat) (s : State) (hW : [.flt, .acq, .can, .rcd] ⊆ F) : Kept F s₀ (busOffRecovered n s) ↔ Kept F s₀ s := by
  simp at hW; (unfold busOffRecovered; try simp [hW]) <;> repeat' ((first | split | apply forAll_step | apply forAll_keep | apply foldl_step | apply foldl_keep | intro _) <;> try simp [hW])

end Sys2Proof.Machine
end

