-- ==== Sys2Proof/Laws/FramePlcOps.lean ====
section
/-! SUPPORT. Frames of the operations of PlcOps: what each may change. -/

set_option linter.all false

namespace Sys2Proof.Machine

variable {F : List Part} {s₀ : State}

@[simp] theorem modNode_kept (a : Nat) (f : PlcNode → PlcNode) (s : State) (hW : [.plc] ⊆ F) : Kept F s₀ (modNode a f s) ↔ Kept F s₀ s := by
  simp at hW; (unfold modNode; try simp [hW]) <;> repeat' ((first | split | apply forAll_step | apply forAll_keep | apply foldl_step | apply foldl_keep | intro _) <;> try simp [hW])

@[simp] theorem setRegion_kept (a r : Nat) (f : PlcRegion → PlcRegion) (s : State) (hW : [.flt, .acq, .plc, .rcd] ⊆ F) : Kept F s₀ (setRegion a r f s) ↔ Kept F s₀ s := by
  simp at hW; (unfold setRegion; try simp [hW]) <;> repeat' ((first | split | apply forAll_step | apply forAll_keep | apply foldl_step | apply foldl_keep | intro _) <;> try simp [hW])

@[simp] theorem heardNode_kept (a : Nat) (link : Bool) (s : State) (hW : [.flt, .acq, .plc, .rcd] ⊆ F) : Kept F s₀ (heardNode a link s) ↔ Kept F s₀ s := by
  simp at hW; (unfold heardNode; try simp [hW]) <;> repeat' ((first | split | apply forAll_step | apply forAll_keep | apply foldl_step | apply foldl_keep | intro _) <;> try simp [hW])

@[simp] theorem takeHop_kept (dest r : Nat) (s : State) (hW : [.flt, .acq, .plc, .rcd] ⊆ F) : Kept F s₀ (takeHop dest r s) ↔ Kept F s₀ s := by
  simp at hW; (unfold takeHop; try simp [hW]) <;> repeat' ((first | split | apply forAll_step | apply forAll_keep | apply foldl_step | apply foldl_keep | intro _) <;> try simp [hW])

@[simp] theorem refreshPaths_kept (s : State) (hW : [.flt, .acq, .plc, .rcd] ⊆ F) : Kept F s₀ (refreshPaths s) ↔ Kept F s₀ s := by
  simp at hW; (unfold refreshPaths; try simp [hW]) <;> repeat' ((first | split | apply forAll_step | apply forAll_keep | apply foldl_step | apply foldl_keep | intro _) <;> try simp [hW])

@[simp] theorem queueMsg_kept (type prio final : Nat) (payload : List Byte) (own robust held : Bool) (s : State) (hW : [.plc] ⊆ F) : Kept F s₀ (queueMsg type prio final payload own robust held s) ↔ Kept F s₀ s := by
  simp at hW; (unfold queueMsg; try simp [hW]) <;> repeat' ((first | split | apply forAll_step | apply forAll_keep | apply foldl_step | apply foldl_keep | intro _) <;> try simp [hW])

@[simp] theorem modMsg_kept (num : Nat) (f : PlcMsg → PlcMsg) (s : State) (hW : [.plc] ⊆ F) : Kept F s₀ (modMsg num f s) ↔ Kept F s₀ s := by
  simp at hW; (unfold modMsg; try simp [hW]) <;> repeat' ((first | split | apply forAll_step | apply forAll_keep | apply foldl_step | apply foldl_keep | intro _) <;> try simp [hW])

@[simp] theorem dropMsg_kept (num : Nat) (s : State) (hW : [.plc] ⊆ F) : Kept F s₀ (dropMsg num s) ↔ Kept F s₀ s := by
  simp at hW; (unfold dropMsg; try simp [hW]) <;> repeat' ((first | split | apply forAll_step | apply forAll_keep | apply foldl_step | apply foldl_keep | intro _) <;> try simp [hW])

@[simp] theorem failMsgs_kept (p : PlcMsg → Bool) (reason : Nat) (s : State) (hW : [.outs, .freeIx, .host, .plc, .rings] ⊆ F) : Kept F s₀ (failMsgs p reason s) ↔ Kept F s₀ s := by
  simp at hW; (unfold failMsgs; try simp [hW]) <;> repeat' ((first | split | apply forAll_step | apply forAll_keep | apply foldl_step | apply foldl_keep | intro _) <;> try simp [hW])

@[simp] theorem msgDone_kept (num : Nat) (s : State) (hW : [.outs, .freeIx, .host, .plc, .rings] ⊆ F) : Kept F s₀ (msgDone num s) ↔ Kept F s₀ s := by
  simp at hW; (unfold msgDone; try simp [hW]) <;> repeat' ((first | split | apply forAll_step | apply forAll_keep | apply foldl_step | apply foldl_keep | intro _) <;> try simp [hW])

@[simp] theorem plcLeaseLost_kept (s : State) (hW : [.outs, .freeIx, .host, .plc, .rings] ⊆ F) : Kept F s₀ (plcLeaseLost s) ↔ Kept F s₀ s := by
  simp at hW; (unfold plcLeaseLost; try simp [hW]) <;> repeat' ((first | split | apply forAll_step | apply forAll_keep | apply foldl_step | apply foldl_keep | intro _) <;> try simp [hW])

@[simp] theorem emitPlc_kept (type dst : Nat) (frame : List Byte) (s : State) (hW : [.outs] ⊆ F) : Kept F s₀ (emitPlc type dst frame s) ↔ Kept F s₀ s := by
  simp at hW; (unfold emitPlc; try simp [hW]) <;> repeat' ((first | split | apply forAll_step | apply forAll_keep | apply foldl_step | apply foldl_keep | intro _) <;> try simp [hW])

@[simp] theorem plcTransmit_kept (wait : Nat) (s : State) (hW : [.outs, .flt, .acq, .plc, .rcd] ⊆ F) : Kept F s₀ (plcTransmit wait s) ↔ Kept F s₀ s := by
  simp at hW; (unfold plcTransmit; try simp [hW]) <;> repeat' ((first | split | apply forAll_step | apply forAll_keep | apply foldl_step | apply foldl_keep | intro _) <;> try simp [hW])

@[simp] theorem noteBad_kept (r n : Nat) (s : State) (hW : [.flt, .acq, .plc, .rcd] ⊆ F) : Kept F s₀ (noteBad r n s) ↔ Kept F s₀ s := by
  simp at hW; (unfold noteBad; try simp [hW]) <;> repeat' ((first | split | apply forAll_step | apply forAll_keep | apply foldl_step | apply foldl_keep | intro _) <;> try simp [hW])

@[simp] theorem plcRingWrite_kept (e : List Byte) (s : State) (hW : [.outs, .host, .plc] ⊆ F) : Kept F s₀ (plcRingWrite e s) ↔ Kept F s₀ s := by
  simp at hW; (unfold plcRingWrite; try simp [hW]) <;> repeat' ((first | split | apply forAll_step | apply forAll_keep | apply foldl_step | apply foldl_keep | intro _) <;> try simp [hW])

@[simp] theorem plcDrain_kept (s : State) (hW : [.outs, .host, .plc] ⊆ F) : Kept F s₀ (plcDrain s) ↔ Kept F s₀ s := by
  simp at hW; (unfold plcDrain; try simp [hW]) <;> repeat' ((first | split | apply forAll_step | apply forAll_keep | apply foldl_step | apply foldl_keep | intro _) <;> try simp [hW])

@[simp] theorem plcCoalesce_kept (s : State) (hW : [.host, .plc] ⊆ F) : Kept F s₀ (plcCoalesce s) ↔ Kept F s₀ s := by
  simp at hW; (unfold plcCoalesce; try simp [hW]) <;> repeat' ((first | split | apply forAll_step | apply forAll_keep | apply foldl_step | apply foldl_keep | intro _) <;> try simp [hW])

@[simp] theorem plcDeliver_kept (c : FrameControl) (d : List Byte) (s : State) (hW : [.outs, .host, .plc] ⊆ F) : Kept F s₀ (plcDeliver c d s) ↔ Kept F s₀ s := by
  simp at hW; (unfold plcDeliver; try simp [hW]) <;> repeat' ((first | split | apply forAll_step | apply forAll_keep | apply foldl_step | apply foldl_keep | intro _) <;> try simp [hW])

@[simp] theorem sendSack_kept (c : FrameControl) (badMap : Nat) (s : State) (hW : [.outs] ⊆ F) : Kept F s₀ (sendSack c badMap s) ↔ Kept F s₀ s := by
  simp at hW; (unfold sendSack; try simp [hW]) <;> repeat' ((first | split | apply forAll_step | apply forAll_keep | apply foldl_step | apply foldl_keep | intro _) <;> try simp [hW])

@[simp] theorem answerTone_kept (c : FrameControl) (est : Option ToneMap) (s : State) (hW : [.plc] ⊆ F) : Kept F s₀ (answerTone c est s) ↔ Kept F s₀ s := by
  simp at hW; (unfold answerTone; try simp [hW]) <;> repeat' ((first | split | apply forAll_step | apply forAll_keep | apply foldl_step | apply foldl_keep | intro _) <;> try simp [hW])

@[simp] theorem assembleMsg_kept (c : FrameControl) (blocks : List (Nat × Option (List Byte))) (s : State) (hW : [.plc] ⊆ F) : Kept F s₀ (assembleMsg c blocks s).1 ↔ Kept F s₀ s := by
  simp at hW; (unfold assembleMsg; try simp [hW]) <;> repeat' ((first | split | apply forAll_step | apply forAll_keep | apply foldl_step | apply foldl_keep | intro _) <;> try simp [hW])

@[simp] theorem relayMsg_kept (c : FrameControl) (raw : List Byte) (s : State) (hW : [.plc] ⊆ F) : Kept F s₀ (relayMsg c raw s) ↔ Kept F s₀ s := by
  simp at hW; (unfold relayMsg; try simp [hW]) <;> repeat' ((first | split | apply forAll_step | apply forAll_keep | apply foldl_step | apply foldl_keep | intro _) <;> try simp [hW])

@[simp] theorem authPayload_kept (c : FrameControl) (raw : List Byte) (auth : Option (Nat × List Byte)) (s : State) (hW : [.plc] ⊆ F) : Kept F s₀ (authPayload c raw auth s).1 ↔ Kept F s₀ s := by
  simp at hW; (unfold authPayload; try simp [hW]) <;> repeat' ((first | split | apply forAll_step | apply forAll_keep | apply foldl_step | apply foldl_keep | intro _) <;> try simp [hW])

@[simp] theorem takeFrame_kept (type : Nat) (f : PlcFrame) (s : State) (hW : [.outs, .flt, .acq, .plc, .rcd] ⊆ F) : Kept F s₀ (takeFrame type f s).1 ↔ Kept F s₀ s := by
  simp at hW; (unfold takeFrame; try simp [hW]) <;> repeat' ((first | split | apply forAll_step | apply forAll_keep | apply foldl_step | apply foldl_keep | intro _) <;> try simp [hW])

@[simp] theorem sendBeacon_kept (depth : Nat) (wake : List Nat) (s : State) (hW : [.outs, .plc] ⊆ F) : Kept F s₀ (sendBeacon depth wake s) ↔ Kept F s₀ s := by
  simp at hW; (unfold sendBeacon; try simp [hW]) <;> repeat' ((first | split | apply forAll_step | apply forAll_keep | apply foldl_step | apply foldl_keep | intro _) <;> try simp [hW])

@[simp] theorem askAddress_kept (want : Nat) (s : State) (hW : [.plc] ⊆ F) : Kept F s₀ (askAddress want s) ↔ Kept F s₀ s := by
  simp at hW; (unfold askAddress; try simp [hW]) <;> repeat' ((first | split | apply forAll_step | apply forAll_keep | apply foldl_step | apply foldl_keep | intro _) <;> try simp [hW])

@[simp] theorem askOwed_kept (s : State) (hW : [.plc] ⊆ F) : Kept F s₀ (askOwed s) ↔ Kept F s₀ s := by
  simp at hW; (unfold askOwed; try simp [hW]) <;> repeat' ((first | split | apply forAll_step | apply forAll_keep | apply foldl_step | apply foldl_keep | intro _) <;> try simp [hW])

@[simp] theorem sendRoute_kept (sleeping : Bool) (s : State) (hW : [.plc] ⊆ F) : Kept F s₀ (sendRoute sleeping s) ↔ Kept F s₀ s := by
  simp at hW; (unfold sendRoute; try simp [hW]) <;> repeat' ((first | split | apply forAll_step | apply forAll_keep | apply foldl_step | apply foldl_keep | intro _) <;> try simp [hW])

@[simp] theorem plcStart_kept (s : State) (hW : [.plc] ⊆ F) : Kept F s₀ (plcStart s) ↔ Kept F s₀ s := by
  simp at hW; (unfold plcStart; try simp [hW]) <;> repeat' ((first | split | apply forAll_step | apply forAll_keep | apply foldl_step | apply foldl_keep | intro _) <;> try simp [hW])

@[simp] theorem plcProfile_kept (s : State) (hW : [.outs, .freeIx, .host, .flt, .acq, .plc, .rcd, .rings] ⊆ F) : Kept F s₀ (plcProfile s) ↔ Kept F s₀ s := by
  simp at hW; (unfold plcProfile; try simp [hW]) <;> repeat' ((first | split | apply forAll_step | apply forAll_keep | apply foldl_step | apply foldl_keep | intro _) <;> try simp [hW])

@[simp] theorem plcBeforeSleep_kept (s : State) (hW : [.plc] ⊆ F) : Kept F s₀ (plcBeforeSleep s) ↔ Kept F s₀ s := by
  simp at hW; (unfold plcBeforeSleep; try simp [hW]) <;> repeat' ((first | split | apply forAll_step | apply forAll_keep | apply foldl_step | apply foldl_keep | intro _) <;> try simp [hW])

end Sys2Proof.Machine
end

