-- ==== Sys2Proof/Laws/FrameKeyOps.lean ====
section
/-! SUPPORT. Frames of the operations of KeyOps: what each may change. -/

set_option linter.all false

namespace Sys2Proof.Machine

variable {F : List Part} {s₀ : State}

@[simp] theorem rederive_kept (s : State) (hW : [.key] ⊆ F) : Kept F s₀ (rederive s) ↔ Kept F s₀ s := by
  simp at hW; (unfold rederive; try simp [hW]) <;> repeat' ((first | split | apply forAll_step | apply forAll_keep | apply foldl_step | apply foldl_keep | intro _) <;> try simp [hW])

@[simp] theorem measure_kept (s : State) (hW : [.key] ⊆ F) : Kept F s₀ (measure s) ↔ Kept F s₀ s := by
  simp at hW; (unfold measure; try simp [hW]) <;> repeat' ((first | split | apply forAll_step | apply forAll_keep | apply foldl_step | apply foldl_keep | intro _) <;> try simp [hW])

@[simp] theorem restoreKeys_kept (s : State) (hW : [.key] ⊆ F) : Kept F s₀ (restoreKeys s) ↔ Kept F s₀ s := by
  simp at hW; (unfold restoreKeys; try simp [hW]) <;> repeat' ((first | split | apply forAll_step | apply forAll_keep | apply foldl_step | apply foldl_keep | intro _) <;> try simp [hW])

@[simp] theorem persist_kept (s : State) (hW : [.key] ⊆ F) : Kept F s₀ (persist s) ↔ Kept F s₀ s := by
  simp at hW; (unfold persist; try simp [hW]) <;> repeat' ((first | split | apply forAll_step | apply forAll_keep | apply foldl_step | apply foldl_keep | intro _) <;> try simp [hW])

@[simp] theorem orphan_kept (i : Nat) (desc : List Nat) (s : State) (hW : [.flt, .acq, .key, .rcd] ⊆ F) : Kept F s₀ (orphan i desc s) ↔ Kept F s₀ s := by
  simp at hW; (unfold orphan; try simp [hW]) <;> repeat' ((first | split | apply forAll_step | apply forAll_keep | apply foldl_step | apply foldl_keep | intro _) <;> try simp [hW])

@[simp] theorem tagFailed_kept (i cause : Nat) (s : State) (hW : [.flt, .acq, .key, .rcd] ⊆ F) : Kept F s₀ (tagFailed i cause s) ↔ Kept F s₀ s := by
  simp at hW; (unfold tagFailed; try simp [hW]) <;> repeat' ((first | split | apply forAll_step | apply forAll_keep | apply foldl_step | apply foldl_keep | intro _) <;> try simp [hW])

@[simp] theorem slotUse_kept (i : Nat) (s : State) (hW : [.flt, .acq, .key, .rcd] ⊆ F) : Kept F s₀ (slotUse i s).1 ↔ Kept F s₀ s := by
  simp at hW; (unfold slotUse; try simp [hW]) <;> repeat' ((first | split | apply forAll_step | apply forAll_keep | apply foldl_step | apply foldl_keep | intro _) <;> try simp [hW])

end Sys2Proof.Machine
end

