-- ==== Sys2Proof/Laws/FrameKey.lean ====
section
/-! SUPPORT. Frames of the operations of Key: what each may change. -/

set_option linter.all false

namespace Sys2Proof.Machine

variable {F : List Part} {s₀ : State}

@[simp] theorem keyAnswer_kept (d : Desc) (out : List Byte) (s : State) (hW : [.outs, .host] ⊆ F) : Kept F s₀ (keyAnswer d out s).1 ↔ Kept F s₀ s := by
  simp at hW; (unfold keyAnswer; try simp [hW]) <;> repeat' ((first | split | apply forAll_step | apply forAll_keep | apply foldl_step | apply foldl_keep | intro _) <;> try simp [hW])

@[simp] theorem placeKey_kept (d : Desc) (p : KeyParams) (origin : KeyOrigin) (material : Nat → List Byte) (withPub : Bool) (s : State) (hW : [.outs, .freeIx, .host, .key] ⊆ F) : Kept F s₀ (placeKey d p origin material withPub s).1 ↔ Kept F s₀ s := by
  simp at hW; (unfold placeKey; try simp [hW]) <;> repeat' ((first | split | apply forAll_step | apply forAll_keep | apply foldl_step | apply foldl_keep | intro _) <;> try simp [hW])

@[simp] theorem deriveOp_kept (d : Desc) (s : State) (hW : [.outs, .freeIx, .host, .flt, .acq, .key, .rcd] ⊆ F) : Kept F s₀ (deriveOp d s).1 ↔ Kept F s₀ s := by
  simp at hW; (unfold deriveOp; try simp [hW]) <;> repeat' ((first | split | apply forAll_step | apply forAll_keep | apply foldl_step | apply foldl_keep | intro _) <;> try simp [hW])

theorem execDerive_keeps {t : State} (d : Desc) (s : State) (e : execDerive d s = .next t) : ∃ u, t = settle u ∧ Kept [.outs, .freeIx, .host, .flt, .pair, .acq, .key, .rcd, .rings, .faults] s u := by
  unfold execDerive storeRow live at e; refine ctl_keeps ?_ e; (try simp) <;> repeat' ((first | split | apply forAll_keep | apply foldl_keep | intro _) <;> try simp)

@[simp] theorem generateOp_kept (d : Desc) (s : State) (hW : [.outs, .freeIx, .host, .key] ⊆ F) : Kept F s₀ (generateOp d s).1 ↔ Kept F s₀ s := by
  simp at hW; (unfold generateOp; try simp [hW]) <;> repeat' ((first | split | apply forAll_step | apply forAll_keep | apply foldl_step | apply foldl_keep | intro _) <;> try simp [hW])

theorem execGenerate_keeps {t : State} (d : Desc) (s : State) (e : execGenerate d s = .next t) : ∃ u, t = settle u ∧ Kept [.outs, .freeIx, .host, .flt, .pair, .acq, .key, .rcd, .rings, .faults] s u := by
  unfold execGenerate storeRow live at e; refine ctl_keeps ?_ e; (try simp) <;> repeat' ((first | split | apply forAll_keep | apply foldl_keep | intro _) <;> try simp)

@[simp] theorem importWrappedOp_kept (d : Desc) (s : State) (hW : [.outs, .freeIx, .host, .flt, .acq, .key, .rcd] ⊆ F) :
    Kept F s₀ (importWrappedOp d s).1 ↔ Kept F s₀ s := by
  have k := slotUse_kept (s₀ := s₀) 1 s (F := F) fun p hp => hW (by revert p; decide)
  simp at hW
  unfold importWrappedOp
  split
  · simp
  · dsimp only
    split
    · simp
    · split
      · simp
      · split
        · simp
        · split <;> rename_i e <;> rw [e] at k
          · simpa using k
          · split <;> simp [hW, k]

theorem execImportWrapped_keeps {t : State} (d : Desc) (s : State) (e : execImportWrapped d s = .next t) : ∃ u, t = settle u ∧ Kept [.outs, .freeIx, .host, .flt, .pair, .acq, .key, .rcd, .rings, .faults] s u := by
  unfold execImportWrapped storeRow live at e; refine ctl_keeps ?_ e; (try simp) <;> repeat' ((first | split | apply forAll_keep | apply foldl_keep | intro _) <;> try simp)

@[simp] theorem importPublicOp_kept (d : Desc) (s : State) (hW : [.outs, .freeIx, .host, .key] ⊆ F) : Kept F s₀ (importPublicOp d s).1 ↔ Kept F s₀ s := by
  simp at hW; (unfold importPublicOp; try simp [hW]) <;> repeat' ((first | split | apply forAll_step | apply forAll_keep | apply foldl_step | apply foldl_keep | intro _) <;> try simp [hW])

theorem execImportPublic_keeps {t : State} (d : Desc) (s : State) (e : execImportPublic d s = .next t) : ∃ u, t = settle u ∧ Kept [.outs, .freeIx, .host, .flt, .pair, .acq, .key, .rcd, .rings, .faults] s u := by
  unfold execImportPublic storeRow live at e; refine ctl_keeps ?_ e; (try simp) <;> repeat' ((first | split | apply forAll_keep | apply foldl_keep | intro _) <;> try simp)

@[simp] theorem withSlot_kept {s : State} {d : Desc} {fits : KeySlot → Bool} {f : KeySlot → State → Answer} (h : [.flt, .acq, .key, .rcd] ⊆ F)
    (hf : ∀ k s, Kept F s (f k s).1) : Kept F s₀ (withSlot d fits f s).1 ↔ Kept F s₀ s := by
  have k := slotUse_kept (s₀ := s₀) d.ix s h
  have q := fun k u => (hf k u).iff (s := s₀) (fun _ h => h)
  unfold withSlot
  split
  · simp
  · split <;> rename_i e <;> rw [e] at k <;> simp_all

@[simp] theorem readPublicOp_kept (d : Desc) (s : State) (hW : [.outs, .host, .flt, .acq, .key, .rcd] ⊆ F) : Kept F s₀ (readPublicOp d s).1 ↔ Kept F s₀ s := by
  simp at hW; (unfold readPublicOp; try simp [hW]) <;> repeat' ((first | split | apply forAll_step | apply forAll_keep | apply foldl_step | apply foldl_keep | intro _) <;> try simp [hW])

theorem execReadPublic_keeps {t : State} (d : Desc) (s : State) (e : execReadPublic d s = .next t) : ∃ u, t = settle u ∧ Kept [.outs, .freeIx, .host, .flt, .pair, .acq, .key, .rcd, .rings, .faults] s u := by
  unfold execReadPublic cryptoRow live at e; refine ctl_keeps ?_ e; (try simp) <;> repeat' ((first | split | apply forAll_keep | apply foldl_keep | intro _) <;> try simp)

@[simp] theorem signOp_kept (d : Desc) (s : State) (hW : [.outs, .freeIx, .host, .flt, .acq, .key, .rcd] ⊆ F) : Kept F s₀ (signOp d s).1 ↔ Kept F s₀ s := by
  simp at hW; (unfold signOp; try simp [hW]) <;> repeat' ((first | split | apply forAll_step | apply forAll_keep | apply foldl_step | apply foldl_keep | intro _) <;> try simp [hW])

theorem execSign_keeps {t : State} (d : Desc) (s : State) (e : execSign d s = .next t) : ∃ u, t = settle u ∧ Kept [.outs, .freeIx, .host, .flt, .pair, .acq, .key, .rcd, .rings, .faults] s u := by
  unfold execSign cryptoRow live at e; refine ctl_keeps ?_ e; (try simp) <;> repeat' ((first | split | apply forAll_keep | apply foldl_keep | intro _) <;> try simp)

@[simp] theorem infoOp_kept (d : Desc) (s : State) (hW : [.outs, .host] ⊆ F) : Kept F s₀ (infoOp d s).1 ↔ Kept F s₀ s := by
  simp at hW; (unfold infoOp; try simp [hW]) <;> repeat' ((first | split | apply forAll_step | apply forAll_keep | apply foldl_step | apply foldl_keep | intro _) <;> try simp [hW])

theorem execInfo_keeps {t : State} (d : Desc) (s : State) (e : execInfo d s = .next t) : ∃ u, t = settle u ∧ Kept [.outs, .freeIx, .host, .flt, .pair, .acq, .rcd, .rings, .faults] s u := by
  unfold execInfo cryptoRow live at e; refine ctl_keeps ?_ e; (try simp) <;> repeat' ((first | split | apply forAll_keep | apply foldl_keep | intro _) <;> try simp)

@[simp] theorem revokeEffect_kept (i : Nat) (delete : Bool) (s : State) (hW : [.flt, .acq, .key, .rcd] ⊆ F) : Kept F s₀ (revokeEffect i delete s) ↔ Kept F s₀ s := by
  simp at hW; (unfold revokeEffect; try simp [hW]) <;> repeat' ((first | split | apply forAll_step | apply forAll_keep | apply foldl_step | apply foldl_keep | intro _) <;> try simp [hW])

@[simp] theorem revokeOp_kept (delete : Bool) (d : Desc) (s : State) (hW : [.flt, .acq, .key, .rcd] ⊆ F) : Kept F s₀ (revokeOp delete d s).1 ↔ Kept F s₀ s := by
  simp at hW; (unfold revokeOp; try simp [hW]) <;> repeat' ((first | split | apply forAll_step | apply forAll_keep | apply foldl_step | apply foldl_keep | intro _) <;> try simp [hW])

theorem execRevoke_keeps {t : State} (d : Desc) (s : State) (e : execRevoke d s = .next t) : ∃ u, t = settle u ∧ Kept [.outs, .freeIx, .host, .flt, .pair, .acq, .key, .rcd, .rings, .faults] s u := by
  unfold execRevoke storeRow live at e; refine ctl_keeps ?_ e; (try simp) <;> repeat' ((first | split | apply forAll_keep | apply foldl_keep | intro _) <;> try simp)

theorem execDelete_keeps {t : State} (d : Desc) (s : State) (e : execDelete d s = .next t) : ∃ u, t = settle u ∧ Kept [.outs, .freeIx, .host, .flt, .pair, .acq, .key, .rcd, .rings, .faults] s u := by
  unfold execDelete storeRow live at e; refine ctl_keeps ?_ e; (try simp) <;> repeat' ((first | split | apply forAll_keep | apply foldl_keep | intro _) <;> try simp)

@[simp] theorem certWriteOp_kept (d : Desc) (s : State) (hW : [.key] ⊆ F) : Kept F s₀ (certWriteOp d s).1 ↔ Kept F s₀ s := by
  simp at hW; (unfold certWriteOp; try simp [hW]) <;> repeat' ((first | split | apply forAll_step | apply forAll_keep | apply foldl_step | apply foldl_keep | intro _) <;> try simp [hW])

theorem execCertWrite_keeps {t : State} (d : Desc) (s : State) (e : execCertWrite d s = .next t) : ∃ u, t = settle u ∧ Kept [.outs, .freeIx, .host, .flt, .pair, .acq, .key, .rcd, .rings, .faults] s u := by
  unfold execCertWrite storeRow live at e; refine ctl_keeps ?_ e; (try simp) <;> repeat' ((first | split | apply forAll_keep | apply foldl_keep | intro _) <;> try simp)

@[simp] theorem certReadOp_kept (d : Desc) (s : State) (hW : [.outs, .host] ⊆ F) : Kept F s₀ (certReadOp d s).1 ↔ Kept F s₀ s := by
  simp at hW; (unfold certReadOp; try simp [hW]) <;> repeat' ((first | split | apply forAll_step | apply forAll_keep | apply foldl_step | apply foldl_keep | intro _) <;> try simp [hW])

theorem execCertRead_keeps {t : State} (d : Desc) (s : State) (e : execCertRead d s = .next t) : ∃ u, t = settle u ∧ Kept [.outs, .freeIx, .host, .flt, .pair, .acq, .rcd, .rings, .faults] s u := by
  unfold execCertRead cryptoRow live at e; refine ctl_keeps ?_ e; (try simp) <;> repeat' ((first | split | apply forAll_keep | apply foldl_keep | intro _) <;> try simp)

@[simp] theorem setOwner_kept (key : List Byte) (s : State) (hW : [.freeIx, .key] ⊆ F) : Kept F s₀ (setOwner key s) ↔ Kept F s₀ s := by
  simp at hW; (unfold setOwner; try simp [hW]) <;> repeat' ((first | split | apply forAll_step | apply forAll_keep | apply foldl_step | apply foldl_keep | intro _) <;> try simp [hW])

@[simp] theorem enrollOwnerOp_kept (d : Desc) (s : State) (hW : [.freeIx, .flt, .acq, .key, .rcd] ⊆ F) : Kept F s₀ (enrollOwnerOp d s).1 ↔ Kept F s₀ s := by
  have k := slotUse_kept (s₀ := s₀) 3 s (F := F) fun p hp => hW (by revert p; decide)
  simp at hW
  unfold enrollOwnerOp
  split
  · simp
  · split
    · repeat' (split <;> try simp [hW])
    · split <;> rename_i e <;> rw [e] at k
      · simpa using k
      · dsimp only; repeat' (split <;> try simp [hW, k])

theorem execEnrollOwner_keeps {t : State} (d : Desc) (s : State) (e : execEnrollOwner d s = .next t) : ∃ u, t = settle u ∧ Kept [.outs, .freeIx, .host, .flt, .pair, .acq, .key, .rcd, .rings, .faults] s u := by
  unfold execEnrollOwner storeRow live at e; refine ctl_keeps ?_ e; (try simp) <;> repeat' ((first | split | apply forAll_keep | apply foldl_keep | intro _) <;> try simp)

@[simp] theorem visitSlot_kept (bad old : List Nat) (i : Nat) (s : State) (hW : [.freeIx, .flt, .acq, .key, .rcd] ⊆ F) : Kept F s₀ (visitSlot bad old i s) ↔ Kept F s₀ s := by
  simp at hW; (unfold visitSlot; try simp [hW]) <;> repeat' ((first | split | apply forAll_step | apply forAll_keep | apply foldl_step | apply foldl_keep | intro _) <;> try simp [hW])

@[simp] theorem remaskEffect_kept (bad : List Nat) (s : State) (hW : [.freeIx, .flt, .acq, .key, .rcd] ⊆ F) : Kept F s₀ (remaskEffect bad s) ↔ Kept F s₀ s := by
  simp at hW; (unfold remaskEffect; try simp [hW]) <;> repeat' ((first | split | apply forAll_step | apply forAll_keep | apply foldl_step | apply foldl_keep | intro _) <;> try simp [hW])

theorem execRemaskPass_keeps {t : State} (bad : List Nat) (s : State) (e : execRemaskPass bad s = .next t) : ∃ u, t = settle u ∧ Kept [.freeIx, .flt, .acq, .key, .rcd] s u := by
  unfold execRemaskPass live at e; refine ctl_keeps ?_ e; (try simp) <;> repeat' ((first | split | apply forAll_keep | apply foldl_keep | intro _) <;> try simp)

@[simp] theorem attestOp_kept (d : Desc) (s : State) (hW : [.outs, .freeIx, .host, .flt, .acq, .key, .rcd] ⊆ F) : Kept F s₀ (attestOp d s).1 ↔ Kept F s₀ s := by
  have k := slotUse_kept (s₀ := s₀) 0 s (F := F) fun p hp => hW (by revert p; decide)
  simp at hW
  unfold attestOp
  dsimp only
  split
  · simp
  · split <;> rename_i e <;> rw [e] at k
    · simpa using k
    · simp [hW, k]

theorem execAttest_keeps {t : State} (d : Desc) (s : State) (e : execAttest d s = .next t) : ∃ u, t = settle u ∧ Kept [.outs, .freeIx, .host, .flt, .pair, .acq, .key, .rcd, .rings, .faults] s u := by
  unfold execAttest cryptoRow live at e; refine ctl_keeps ?_ e; (try simp) <;> repeat' ((first | split | apply forAll_keep | apply foldl_keep | intro _) <;> try simp)

end Sys2Proof.Machine
end

