-- ==== Sys2Proof/Laws/FrameLawRun.lean ====
section
/-! SUPPORT. Frames of the operations of LawRun: what each may change. -/

set_option linter.all false

namespace Sys2Proof.Machine

variable {F : List Part} {s₀ : State}

@[simp] theorem startRun_kept (e : Nat) (s : State) (hW : [.law] ⊆ F) : Kept F s₀ (startRun e s) ↔ Kept F s₀ s := by
  simp at hW; (unfold startRun; try simp [hW]) <;> repeat' ((first | split | apply forAll_step | apply forAll_keep | apply foldl_step | apply foldl_keep | intro _) <;> try simp [hW])

@[simp] theorem spend_kept (e cycles : Nat) (s : State) (hW : [.flt, .law] ⊆ F) : Kept F s₀ (spend e cycles s) ↔ Kept F s₀ s := by
  simp at hW; (unfold spend; try simp [hW]) <;> repeat' ((first | split | apply forAll_step | apply forAll_keep | apply foldl_step | apply foldl_keep | intro _) <;> try simp [hW])

theorem execLawNop_keeps {t : State} (e : Fin 8) (s : State) (e : execLawNop e s = .next t) : Kept [.flt, .law] s t := by
  unfold execLawNop lawRow at e; refine quiet_keeps ?_ e; (try simp) <;> repeat' ((first | split | apply forAll_keep | apply foldl_keep | intro _) <;> try simp)

theorem execLdc_keeps {t : State} (e : Fin 8) (rd : BitVec 4) (k : Byte) (s : State) (e : execLdc e rd k s = .next t) : Kept [.flt, .law] s t := by
  unfold execLdc lawRow at e; refine quiet_keeps ?_ e; (try simp) <;> repeat' ((first | split | apply forAll_keep | apply foldl_keep | intro _) <;> try simp)

theorem execLds_keeps {t : State} (e : Fin 8) (rd : BitVec 4) (k : Byte) (s : State) (e : execLds e rd k s = .next t) : Kept [.flt, .law] s t := by
  unfold execLds lawRow at e; refine quiet_keeps ?_ e; (try simp) <;> repeat' ((first | split | apply forAll_keep | apply foldl_keep | intro _) <;> try simp)

theorem execSts_keeps {t : State} (e : Fin 8) (ra : BitVec 4) (k : Byte) (s : State) (e : execSts e ra k s = .next t) : Kept [.flt, .law] s t := by
  unfold execSts lawRow at e; refine quiet_keeps ?_ e; (try simp) <;> repeat' ((first | split | apply forAll_keep | apply foldl_keep | intro _) <;> try simp)

theorem execLin_keeps {t : State} (e : Fin 8) (rd : BitVec 4) (k : Byte) (s : State) (e : execLin e rd k s = .next t) : Kept [.flt, .law] s t := by
  unfold execLin lawRow at e; refine quiet_keeps ?_ e; (try simp) <;> repeat' ((first | split | apply forAll_keep | apply foldl_keep | intro _) <;> try simp)

theorem execLout_keeps {t : State} (e : Fin 8) (ra : BitVec 4) (k : Byte) (s : State) (e : execLout e ra k s = .next t) : Kept [.flt, .law] s t := by
  unfold execLout lawRow at e; refine quiet_keeps ?_ e; (try simp) <;> repeat' ((first | split | apply forAll_keep | apply foldl_keep | intro _) <;> try simp)

theorem execLdi_keeps {t : State} (e : Fin 8) (rd : BitVec 4) (imm : Half) (s : State) (e : execLdi e rd imm s = .next t) : Kept [.flt, .law] s t := by
  unfold execLdi lawRow at e; refine quiet_keeps ?_ e; (try simp) <;> repeat' ((first | split | apply forAll_keep | apply foldl_keep | intro _) <;> try simp)

theorem execMov_keeps {t : State} (e : Fin 8) (rd ra : BitVec 4) (s : State) (e : execMov e rd ra s = .next t) : Kept [.flt, .law] s t := by
  unfold execMov lawRow at e; refine quiet_keeps ?_ e; (try simp) <;> repeat' ((first | split | apply forAll_keep | apply foldl_keep | intro _) <;> try simp)

theorem execClr_keeps {t : State} (e : Fin 8) (ac : Bool) (s : State) (e : execClr e ac s = .next t) : Kept [.flt, .law] s t := by
  unfold execClr lawRow at e; refine quiet_keeps ?_ e; (try simp) <;> repeat' ((first | split | apply forAll_keep | apply foldl_keep | intro _) <;> try simp)

theorem execMpy_keeps {t : State} (e : Fin 8) (ac : Bool) (ra rb : BitVec 4) (s : State) (e : execMpy e ac ra rb s = .next t) : Kept [.flt, .law] s t := by
  unfold execMpy lawRow at e; refine quiet_keeps ?_ e; (try simp) <;> repeat' ((first | split | apply forAll_keep | apply foldl_keep | intro _) <;> try simp)

theorem execMac_keeps {t : State} (e : Fin 8) (ac : Bool) (ra rb : BitVec 4) (s : State) (e : execMac e ac ra rb s = .next t) : Kept [.flt, .law] s t := by
  unfold execMac lawRow at e; refine quiet_keeps ?_ e; (try simp) <;> repeat' ((first | split | apply forAll_keep | apply foldl_keep | intro _) <;> try simp)

theorem execMsu_keeps {t : State} (e : Fin 8) (ac : Bool) (ra rb : BitVec 4) (s : State) (e : execMsu e ac ra rb s = .next t) : Kept [.flt, .law] s t := by
  unfold execMsu lawRow at e; refine quiet_keeps ?_ e; (try simp) <;> repeat' ((first | split | apply forAll_keep | apply foldl_keep | intro _) <;> try simp)

theorem execMacc_keeps {t : State} (e : Fin 8) (ac : Bool) (ra : BitVec 4) (k : Byte) (s : State) (e : execMacc e ac ra k s = .next t) : Kept [.flt, .law] s t := by
  unfold execMacc lawRow at e; refine quiet_keeps ?_ e; (try simp) <;> repeat' ((first | split | apply forAll_keep | apply foldl_keep | intro _) <;> try simp)

theorem execMsuc_keeps {t : State} (e : Fin 8) (ac : Bool) (ra : BitVec 4) (k : Byte) (s : State) (e : execMsuc e ac ra k s = .next t) : Kept [.flt, .law] s t := by
  unfold execMsuc lawRow at e; refine quiet_keeps ?_ e; (try simp) <;> repeat' ((first | split | apply forAll_keep | apply foldl_keep | intro _) <;> try simp)

theorem execLda_keeps {t : State} (e : Fin 8) (ac : Bool) (ra : BitVec 4) (s : State) (e : execLda e ac ra s = .next t) : Kept [.flt, .law] s t := by
  unfold execLda lawRow at e; refine quiet_keeps ?_ e; (try simp) <;> repeat' ((first | split | apply forAll_keep | apply foldl_keep | intro _) <;> try simp)

theorem execAdda_keeps {t : State} (e : Fin 8) (ac : Bool) (ra : BitVec 4) (s : State) (e : execAdda e ac ra s = .next t) : Kept [.flt, .law] s t := by
  unfold execAdda lawRow at e; refine quiet_keeps ?_ e; (try simp) <;> repeat' ((first | split | apply forAll_keep | apply foldl_keep | intro _) <;> try simp)

theorem execSuba_keeps {t : State} (e : Fin 8) (ac : Bool) (ra : BitVec 4) (s : State) (e : execSuba e ac ra s = .next t) : Kept [.flt, .law] s t := by
  unfold execSuba lawRow at e; refine quiet_keeps ?_ e; (try simp) <;> repeat' ((first | split | apply forAll_keep | apply foldl_keep | intro _) <;> try simp)

theorem execAccadd_keeps {t : State} (e : Fin 8) (ac : Bool) (s : State) (e : execAccadd e ac s = .next t) : Kept [.flt, .law] s t := by
  unfold execAccadd lawRow at e; refine quiet_keeps ?_ e; (try simp) <;> repeat' ((first | split | apply forAll_keep | apply foldl_keep | intro _) <;> try simp)

theorem execSha_keeps {t : State} (e : Fin 8) (ac : Bool) (sc : BitVec 5) (s : State) (e : execSha e ac sc s = .next t) : Kept [.flt, .law] s t := by
  unfold execSha lawRow at e; refine quiet_keeps ?_ e; (try simp) <;> repeat' ((first | split | apply forAll_keep | apply foldl_keep | intro _) <;> try simp)

theorem execAcclim_keeps {t : State} (e : Fin 8) (ac : Bool) (ra rb : BitVec 4) (s : State) (e : execAcclim e ac ra rb s = .next t) : Kept [.flt, .law] s t := by
  unfold execAcclim lawRow at e; refine quiet_keeps ?_ e; (try simp) <;> repeat' ((first | split | apply forAll_keep | apply foldl_keep | intro _) <;> try simp)

theorem execStr_keeps {t : State} (e : Fin 8) (rd : BitVec 4) (ac : Bool) (s : State) (e : execStr e rd ac s = .next t) : Kept [.flt, .law] s t := by
  unfold execStr lawRow at e; refine quiet_keeps ?_ e; (try simp) <;> repeat' ((first | split | apply forAll_keep | apply foldl_keep | intro _) <;> try simp)

theorem execStas_keeps {t : State} (e : Fin 8) (ac : Bool) (k : Byte) (s : State) (e : execStas e ac k s = .next t) : Kept [.flt, .law] s t := by
  unfold execStas lawRow at e; refine quiet_keeps ?_ e; (try simp) <;> repeat' ((first | split | apply forAll_keep | apply foldl_keep | intro _) <;> try simp)

theorem execLdas_keeps {t : State} (e : Fin 8) (ac : Bool) (k : Byte) (s : State) (e : execLdas e ac k s = .next t) : Kept [.flt, .law] s t := by
  unfold execLdas lawRow at e; refine quiet_keeps ?_ e; (try simp) <;> repeat' ((first | split | apply forAll_keep | apply foldl_keep | intro _) <;> try simp)

theorem execAdd_keeps {t : State} (e : Fin 8) (rd ra rb : BitVec 4) (s : State) (e : execAdd e rd ra rb s = .next t) : Kept [.flt, .law] s t := by
  unfold execAdd lawRow at e; refine quiet_keeps ?_ e; (try simp) <;> repeat' ((first | split | apply forAll_keep | apply foldl_keep | intro _) <;> try simp)

theorem execSub_keeps {t : State} (e : Fin 8) (rd ra rb : BitVec 4) (s : State) (e : execSub e rd ra rb s = .next t) : Kept [.flt, .law] s t := by
  unfold execSub lawRow at e; refine quiet_keeps ?_ e; (try simp) <;> repeat' ((first | split | apply forAll_keep | apply foldl_keep | intro _) <;> try simp)

theorem execMul_keeps {t : State} (e : Fin 8) (rd ra rb : BitVec 4) (s : State) (e : execMul e rd ra rb s = .next t) : Kept [.flt, .law] s t := by
  unfold execMul lawRow at e; refine quiet_keeps ?_ e; (try simp) <;> repeat' ((first | split | apply forAll_keep | apply foldl_keep | intro _) <;> try simp)

theorem execMin_keeps {t : State} (e : Fin 8) (rd ra rb : BitVec 4) (s : State) (e : execMin e rd ra rb s = .next t) : Kept [.flt, .law] s t := by
  unfold execMin lawRow at e; refine quiet_keeps ?_ e; (try simp) <;> repeat' ((first | split | apply forAll_keep | apply foldl_keep | intro _) <;> try simp)

theorem execMax_keeps {t : State} (e : Fin 8) (rd ra rb : BitVec 4) (s : State) (e : execMax e rd ra rb s = .next t) : Kept [.flt, .law] s t := by
  unfold execMax lawRow at e; refine quiet_keeps ?_ e; (try simp) <;> repeat' ((first | split | apply forAll_keep | apply foldl_keep | intro _) <;> try simp)

theorem execAbs_keeps {t : State} (e : Fin 8) (rd ra : BitVec 4) (s : State) (e : execAbs e rd ra s = .next t) : Kept [.flt, .law] s t := by
  unfold execAbs lawRow at e; refine quiet_keeps ?_ e; (try simp) <;> repeat' ((first | split | apply forAll_keep | apply foldl_keep | intro _) <;> try simp)

theorem execNeg_keeps {t : State} (e : Fin 8) (rd ra : BitVec 4) (s : State) (e : execNeg e rd ra s = .next t) : Kept [.flt, .law] s t := by
  unfold execNeg lawRow at e; refine quiet_keeps ?_ e; (try simp) <;> repeat' ((first | split | apply forAll_keep | apply foldl_keep | intro _) <;> try simp)

theorem execShx_keeps {t : State} (e : Fin 8) (rd ra : BitVec 4) (sc : BitVec 5) (s : State) (e : execShx e rd ra sc s = .next t) : Kept [.flt, .law] s t := by
  unfold execShx lawRow at e; refine quiet_keeps ?_ e; (try simp) <;> repeat' ((first | split | apply forAll_keep | apply foldl_keep | intro _) <;> try simp)

theorem execAnd_keeps {t : State} (e : Fin 8) (rd ra rb : BitVec 4) (s : State) (e : execAnd e rd ra rb s = .next t) : Kept [.flt, .law] s t := by
  unfold execAnd lawRow at e; refine quiet_keeps ?_ e; (try simp) <;> repeat' ((first | split | apply forAll_keep | apply foldl_keep | intro _) <;> try simp)

theorem execOr_keeps {t : State} (e : Fin 8) (rd ra rb : BitVec 4) (s : State) (e : execOr e rd ra rb s = .next t) : Kept [.flt, .law] s t := by
  unfold execOr lawRow at e; refine quiet_keeps ?_ e; (try simp) <;> repeat' ((first | split | apply forAll_keep | apply foldl_keep | intro _) <;> try simp)

theorem execXor_keeps {t : State} (e : Fin 8) (rd ra rb : BitVec 4) (s : State) (e : execXor e rd ra rb s = .next t) : Kept [.flt, .law] s t := by
  unfold execXor lawRow at e; refine quiet_keeps ?_ e; (try simp) <;> repeat' ((first | split | apply forAll_keep | apply foldl_keep | intro _) <;> try simp)

theorem execCmp_keeps {t : State} (e : Fin 8) (ra rb : BitVec 4) (s : State) (e : execCmp e ra rb s = .next t) : Kept [.flt, .law] s t := by
  unfold execCmp lawRow at e; refine quiet_keeps ?_ e; (try simp) <;> repeat' ((first | split | apply forAll_keep | apply foldl_keep | intro _) <;> try simp)

theorem execSel_keeps {t : State} (e : Fin 8) (rd ra rb cond : BitVec 4) (s : State) (e : execSel e rd ra rb cond s = .next t) : Kept [.flt, .law] s t := by
  unfold execSel lawRow at e; refine quiet_keeps ?_ e; (try simp) <;> repeat' ((first | split | apply forAll_keep | apply foldl_keep | intro _) <;> try simp)

theorem execLut_keeps {t : State} (e : Fin 8) (rd ra : BitVec 4) (k : Byte) (s : State) (e : execLut e rd ra k s = .next t) : Kept [.flt, .law] s t := by
  unfold execLut lawRow at e; refine quiet_keeps ?_ e; (try simp) <;> repeat' ((first | split | apply forAll_keep | apply foldl_keep | intro _) <;> try simp)

theorem execBr_keeps {t : State} (e : Fin 8) (cond : BitVec 4) (off : BitVec 10) (s : State) (e : execBr e cond off s = .next t) : Kept [.flt, .law] s t := by
  unfold execBr lawRow at e; refine quiet_keeps ?_ e; (try simp) <;> repeat' ((first | split | apply forAll_keep | apply foldl_keep | intro _) <;> try simp)

@[simp] theorem endInjection_kept (e reason : Nat) (s : State) (hW : [.flt, .law, .acq, .rcd] ⊆ F) : Kept F s₀ (endInjection e reason s) ↔ Kept F s₀ s := by
  simp at hW; (unfold endInjection; try simp [hW]) <;> repeat' ((first | split | apply forAll_step | apply forAll_keep | apply foldl_step | apply foldl_keep | intro _) <;> try simp [hW])

@[simp] theorem injectSkip_kept (e slot : Nat) (s : State) (hW : [.flt, .law, .acq, .rcd] ⊆ F) : Kept F s₀ (injectSkip e slot s) ↔ Kept F s₀ s := by
  simp at hW; (unfold injectSkip; try simp [hW]) <;> repeat' ((first | split | apply forAll_step | apply forAll_keep | apply foldl_step | apply foldl_keep | intro _) <;> try simp [hW])

@[simp] theorem skipSlot_kept (r : List Byte) (s : State) (hW : [.flt, .law, .acq, .rcd] ⊆ F) : Kept F s₀ (skipSlot r s) ↔ Kept F s₀ s := by
  simp at hW; (unfold skipSlot; try simp [hW]) <;> repeat' ((first | split | apply forAll_step | apply forAll_keep | apply foldl_step | apply foldl_keep | intro _) <;> try simp [hW])

@[simp] theorem commitRun_kept (e : Nat) (r : Run) (s : State) (hW : [.flt, .law, .acq, .rcd] ⊆ F) : Kept F s₀ (commitRun e r s) ↔ Kept F s₀ s := by
  simp at hW; (unfold commitRun; try simp [hW]) <;> repeat' ((first | split | apply forAll_step | apply forAll_keep | apply foldl_step | apply foldl_keep | intro _) <;> try simp [hW])

@[simp] theorem endRunEffect_kept (e : Nat) (s : State) (hW : [.flt, .law, .acq, .rcd] ⊆ F) : Kept F s₀ (endRunEffect e s) ↔ Kept F s₀ s := by
  simp at hW; (unfold endRunEffect; try simp [hW]) <;> repeat' ((first | split | apply forAll_step | apply forAll_keep | apply foldl_step | apply foldl_keep | intro _) <;> try simp [hW])

theorem execEndRun_keeps {t : State} (e : Fin 8) (s : State) (e : execEndRun e s = .next t) : ∃ u, t = settle u ∧ Kept [.flt, .law, .acq, .rcd] s u := by
  unfold execEndRun live at e; refine ctl_keeps ?_ e; (try simp) <;> repeat' ((first | split | apply forAll_keep | apply foldl_keep | intro _) <;> try simp)

end Sys2Proof.Machine
end

