-- ==== Sys2Proof/Laws/FrameLaw.lean ====
section
/-! SUPPORT. Frames of the operations of Law: what each may change. -/

set_option linter.all false

namespace Sys2Proof.Machine

variable {F : List Part} {s₀ : State}

@[simp] theorem injectRun_kept (e slot : Nat) (s : State) (hW : [.flt, .law, .acq, .rcd] ⊆ F) : Kept F s₀ (injectRun e slot s) ↔ Kept F s₀ s := by
  simp at hW; (unfold injectRun; try simp [hW]) <;> repeat' ((first | split | apply forAll_step | apply forAll_keep | apply foldl_step | apply foldl_keep | intro _) <;> try simp [hW])

@[simp] theorem injectBoundary_kept (s : State) (hW : [.law] ⊆ F) : Kept F s₀ (injectBoundary s) ↔ Kept F s₀ s := by
  simp at hW; (unfold injectBoundary; try simp [hW]) <;> repeat' ((first | split | apply forAll_step | apply forAll_keep | apply foldl_step | apply foldl_keep | intro _) <;> try simp [hW])

@[simp] theorem endInjections_kept (reason : Nat) (s : State) (hW : [.flt, .law, .acq, .rcd] ⊆ F) : Kept F s₀ (endInjections reason s) ↔ Kept F s₀ s := by
  simp at hW; (unfold endInjections; try simp [hW]) <;> repeat' ((first | split | apply forAll_step | apply forAll_keep | apply foldl_step | apply foldl_keep | intro _) <;> try simp [hW])

@[simp] theorem queueSlot_kept (r : List Byte) (s : State) (hW : [.flt, .law, .acq, .rcd] ⊆ F) : Kept F s₀ (queueSlot r s) ↔ Kept F s₀ s := by
  simp at hW; (unfold queueSlot; try simp [hW]) <;> repeat' ((first | split | apply forAll_step | apply forAll_keep | apply foldl_step | apply foldl_keep | intro _) <;> try simp [hW])

@[simp] theorem latchAcq_kept (s : State) (hW : [.paths, .acq] ⊆ F) : Kept F s₀ (latchAcq s) ↔ Kept F s₀ s := by
  simp at hW; (unfold latchAcq; try simp [hW]) <;> repeat' ((first | split | apply forAll_step | apply forAll_keep | apply foldl_step | apply foldl_keep | intro _) <;> try simp [hW])

@[simp] theorem latchSignals_kept (s : State) (hW : [.flt, .law, .acq, .rcd] ⊆ F) : Kept F s₀ (latchSignals s) ↔ Kept F s₀ s := by
  simp at hW; (unfold latchSignals; try simp [hW]) <;> repeat' ((first | split | apply forAll_step | apply forAll_keep | apply foldl_step | apply foldl_keep | intro _) <;> try simp [hW])

@[simp] theorem lawWindowOpenEffect_kept (flips : List Nat) (s : State) (hW : [.flt, .stages, .paths, .law, .acq, .rcd] ⊆ F) : Kept F s₀ (lawWindowOpenEffect flips s) ↔ Kept F s₀ s := by
  simp at hW; (unfold lawWindowOpenEffect; try simp [hW]) <;> repeat' ((first | split | apply forAll_step | apply forAll_keep | apply foldl_step | apply foldl_keep | intro _) <;> try simp [hW])

theorem execLawWindowOpen_keeps {t : State} (flips : List Nat) (s : State) (e : execLawWindowOpen flips s = .next t) : ∃ u, t = settle u ∧ Kept [.flt, .stages, .paths, .law, .acq, .rcd] s u := by
  unfold execLawWindowOpen live at e; refine ctl_keeps ?_ e; (try simp) <;> repeat' ((first | split | apply forAll_keep | apply foldl_keep | intro _) <;> try simp)

@[simp] theorem missStop_kept (r : List Byte) (s : State) (hW : [.outs, .flt, .stages, .paths, .pair, .acq, .rcd] ⊆ F) : Kept F s₀ (missStop r s) ↔ Kept F s₀ s := by
  simp at hW; (unfold missStop; try simp [hW]) <;> repeat' ((first | split | apply forAll_step | apply forAll_keep | apply foldl_step | apply foldl_keep | intro _) <;> try simp [hW])

@[simp] theorem missSlot_kept (r : List Byte) (s : State) (hW : [.outs, .flt, .stages, .paths, .law, .pair, .acq, .rcd] ⊆ F) : Kept F s₀ (missSlot r s) ↔ Kept F s₀ s := by
  simp at hW; (unfold missSlot; try simp [hW]) <;> repeat' ((first | split | apply forAll_step | apply forAll_keep | apply foldl_step | apply foldl_keep | intro _) <;> try simp [hW])

@[simp] theorem lawWindowCloseEffect_kept (s : State) (hW : [.outs, .flt, .stages, .paths, .law, .pair, .acq, .rcd] ⊆ F) : Kept F s₀ (lawWindowCloseEffect s) ↔ Kept F s₀ s := by
  simp at hW; (unfold lawWindowCloseEffect; try simp [hW]) <;> repeat' ((first | split | apply forAll_step | apply forAll_keep | apply foldl_step | apply foldl_keep | intro _) <;> try simp [hW])

theorem execLawWindowClose_keeps {t : State} (s : State) (e : execLawWindowClose s = .next t) : ∃ u, t = settle u ∧ Kept [.outs, .flt, .stages, .paths, .law, .pair, .acq, .rcd] s u := by
  unfold execLawWindowClose live at e; refine ctl_keeps ?_ e; (try simp) <;> repeat' ((first | split | apply forAll_keep | apply foldl_keep | intro _) <;> try simp)

@[simp] theorem memUncorrectableEffect_kept (e mem : Nat) (s : State) (hW : [.flt, .law, .acq, .rcd] ⊆ F) : Kept F s₀ (memUncorrectableEffect e mem s) ↔ Kept F s₀ s := by
  simp at hW; (unfold memUncorrectableEffect; try simp [hW]) <;> repeat' ((first | split | apply forAll_step | apply forAll_keep | apply foldl_step | apply foldl_keep | intro _) <;> try simp [hW])

theorem execMemUncorrectable_keeps {t : State} (engine mem : Nat) (s : State) (e : execMemUncorrectable engine mem s = .next t) : ∃ u, t = settle u ∧ Kept [.flt, .law, .acq, .rcd] s u := by
  unfold execMemUncorrectable live at e; refine ctl_keeps ?_ e; (try simp) <;> repeat' ((first | split | apply forAll_keep | apply foldl_keep | intro _) <;> try simp)

theorem execInjectionRunsDone_keeps {t : State} (engine : Nat) (s : State) (e : execInjectionRunsDone engine s = .next t) : ∃ u, t = settle u ∧ Kept [.flt, .law, .acq, .rcd] s u := by
  unfold execInjectionRunsDone live at e; refine ctl_keeps ?_ e; (try simp) <;> repeat' ((first | split | apply forAll_keep | apply foldl_keep | intro _) <;> try simp)

@[simp] theorem injectBody_kept (off : Bool) (d : Desc) (s : State) (hW : [.flt, .law, .acq, .rcd] ⊆ F) : Kept F s₀ (injectBody off d s).1 ↔ Kept F s₀ s := by
  simp at hW; (unfold injectBody; try simp [hW]) <;> repeat' ((first | split | apply forAll_step | apply forAll_keep | apply foldl_step | apply foldl_keep | intro _) <;> try simp [hW])

@[simp] theorem injectOp_kept (d : Desc) (s : State) (hW : [.flt, .law, .acq, .rcd] ⊆ F) : Kept F s₀ (injectOp d s).1 ↔ Kept F s₀ s := by
  simp at hW; (unfold injectOp; try simp [hW]) <;> repeat' ((first | split | apply forAll_step | apply forAll_keep | apply foldl_step | apply foldl_keep | intro _) <;> try simp [hW])

@[simp] theorem injectOffOp_kept (d : Desc) (s : State) (hW : [.flt, .law, .acq, .rcd] ⊆ F) : Kept F s₀ (injectOffOp d s).1 ↔ Kept F s₀ s := by
  simp at hW; (unfold injectOffOp; try simp [hW]) <;> repeat' ((first | split | apply forAll_step | apply forAll_keep | apply foldl_step | apply foldl_keep | intro _) <;> try simp [hW])

theorem execInject_keeps {t : State} (d : Desc) (s : State) (e : execInject d s = .next t) : ∃ u, t = settle u ∧ Kept [.outs, .freeIx, .host, .flt, .law, .pair, .acq, .rcd, .rings, .faults] s u := by
  unfold execInject live at e; refine ctl_keeps ?_ e; (try simp) <;> repeat' ((first | split | apply forAll_keep | apply foldl_keep | intro _) <;> try simp)

theorem execInjectOff_keeps {t : State} (d : Desc) (s : State) (e : execInjectOff d s = .next t) : ∃ u, t = settle u ∧ Kept [.outs, .freeIx, .host, .flt, .law, .pair, .acq, .rcd, .rings, .faults] s u := by
  unfold execInjectOff live at e; refine ctl_keeps ?_ e; (try simp) <;> repeat' ((first | split | apply forAll_keep | apply foldl_keep | intro _) <;> try simp)

@[simp] theorem loadLaws_kept (s : State) (hW : [.flt, .law, .acq, .rcd] ⊆ F) : Kept F s₀ (loadLaws s) ↔ Kept F s₀ s := by
  simp at hW; (unfold loadLaws; try simp [hW]) <;> repeat' ((first | split | apply forAll_step | apply forAll_keep | apply foldl_step | apply foldl_keep | intro _) <;> try simp [hW])

end Sys2Proof.Machine
end

