-- ==== Sys2Proof/Laws/FramePairOps.lean ====
section
/-! SUPPORT. Frames of the operations of PairOps: what each may change. -/

set_option linter.all false

namespace Sys2Proof.Machine

variable {F : List Part} {s₀ : State}

@[simp] theorem authEvent_kept (cause : Nat) (before : PairState) (s : State) (hW : [.flt, .acq, .rcd] ⊆ F) : Kept F s₀ (authEvent cause before s) ↔ Kept F s₀ s := by
  simp at hW; (unfold authEvent; try simp [hW]) <;> repeat' ((first | split | apply forAll_step | apply forAll_keep | apply foldl_step | apply foldl_keep | intro _) <;> try simp [hW])

@[simp] theorem setAuth_kept (cause : Nat) (s : State) (hW : [.outs, .flt, .stages, .paths, .pair, .acq, .sw, .rcd, .auth] ⊆ F) : Kept F s₀ (setAuth cause s) ↔ Kept F s₀ s := by
  simp at hW; (unfold setAuth; try simp [hW]) <;> repeat' ((first | split | apply forAll_step | apply forAll_keep | apply foldl_step | apply foldl_keep | intro _) <;> try simp [hW])

@[simp] theorem clearAuth_kept (cause : Option Nat) (s : State) (hW : [.flt, .pair, .acq, .sw, .rcd, .auth] ⊆ F) : Kept F s₀ (clearAuth cause s) ↔ Kept F s₀ s := by
  simp at hW; (unfold clearAuth; try simp [hW]) <;> repeat' ((first | split | apply forAll_step | apply forAll_keep | apply foldl_step | apply foldl_keep | intro _) <;> try simp [hW])

@[simp] theorem settleAuth_kept (s : State) (hW : [.outs, .flt, .stages, .paths, .pair, .acq, .sw, .rcd, .auth] ⊆ F) : Kept F s₀ (settleAuth s) ↔ Kept F s₀ s := by
  simp at hW; (unfold settleAuth; try simp [hW]) <;> repeat' ((first | split | apply forAll_step | apply forAll_keep | apply foldl_step | apply foldl_keep | intro _) <;> try simp [hW])

@[simp] theorem leaseEvent_kept (ev cause : Nat) (more : List Byte) (s : State) (hW : [.flt, .acq, .rcd] ⊆ F) : Kept F s₀ (leaseEvent ev cause more s) ↔ Kept F s₀ s := by
  simp at hW; (unfold leaseEvent; try simp [hW]) <;> repeat' ((first | split | apply forAll_step | apply forAll_keep | apply foldl_step | apply foldl_keep | intro _) <;> try simp [hW])

@[simp] theorem leaseGone_kept (s : State) (hW : [.outs, .freeIx, .host, .can, .plc, .rings] ⊆ F) : Kept F s₀ (leaseGone s) ↔ Kept F s₀ s := by
  simp at hW; (unfold leaseGone; try simp [hW]) <;> repeat' ((first | split | apply forAll_step | apply forAll_keep | apply foldl_step | apply foldl_keep | intro _) <;> try simp [hW])

@[simp] theorem acquireLease_kept (cause mask : Nat) (term : Word) (s : State) (hW : [.outs, .freeIx, .flt, .pair, .acq, .met, .veh, .can, .rcd] ⊆ F) : Kept F s₀ (acquireLease cause mask term s) ↔ Kept F s₀ s := by
  simp at hW; (unfold acquireLease; try simp [hW]) <;> repeat' ((first | split | apply forAll_step | apply forAll_keep | apply foldl_step | apply foldl_keep | intro _) <;> try simp [hW])

@[simp] theorem peerLease_kept (term : Word) (held : Bool) (s : State) (hW : [.outs, .freeIx, .host, .flt, .pair, .acq, .can, .plc, .rcd, .rings] ⊆ F) : Kept F s₀ (peerLease term held s) ↔ Kept F s₀ s := by
  simp at hW; (unfold peerLease; try simp [hW]) <;> repeat' ((first | split | apply forAll_step | apply forAll_keep | apply foldl_step | apply foldl_keep | intro _) <;> try simp [hW])

@[simp] theorem witnessed_kept (i : Nat) (s : State) (hW : [.outs, .freeIx, .flt, .pair, .acq, .met, .veh, .can, .rcd] ⊆ F) : Kept F s₀ (witnessed i s) ↔ Kept F s₀ s := by
  simp at hW; (unfold witnessed; try simp [hW]) <;> repeat' ((first | split | apply forAll_step | apply forAll_keep | apply foldl_step | apply foldl_keep | intro _) <;> try simp [hW])

@[simp] theorem issueCas_kept (new : BitVec 64) (claims : Bool) (s : State) (hW : [.outs, .host, .pair] ⊆ F) : Kept F s₀ (issueCas new claims s) ↔ Kept F s₀ s := by
  simp at hW; (unfold issueCas; try simp [hW]) <;> repeat' ((first | split | apply forAll_step | apply forAll_keep | apply foldl_step | apply foldl_keep | intro _) <;> try simp [hW])

@[simp] theorem noteAnswer_kept (s : State) (hW : [.pair] ⊆ F) : Kept F s₀ (noteAnswer s) ↔ Kept F s₀ s := by
  simp at hW; (unfold noteAnswer; try simp [hW]) <;> repeat' ((first | split | apply forAll_step | apply forAll_keep | apply foldl_step | apply foldl_keep | intro _) <;> try simp [hW])

@[simp] theorem settleDouble_kept (s : State) (hW : [.outs, .flt, .stages, .paths, .pair, .acq, .sw, .rcd, .auth] ⊆ F) : Kept F s₀ (settleDouble s) ↔ Kept F s₀ s := by
  simp at hW; (unfold settleDouble; try simp [hW]) <;> repeat' ((first | split | apply forAll_step | apply forAll_keep | apply foldl_step | apply foldl_keep | intro _) <;> try simp [hW])

@[simp] theorem takeRecord_kept {s : State} {seq : Word} {f : State → State} (h : [.outs, .pair] ⊆ F) (hf : ∀ s, Kept F s (f s)) :
    Kept F s₀ (takeRecord seq f s) ↔ Kept F s₀ s := by
  have k := fun u => (hf u).iff (s := s₀) (fun _ h => h)
  simp at h; unfold takeRecord; repeat' (split <;> try simp [h, k])

@[simp] theorem sendLanes_kept (s : State) (hW : [.outs, .pair] ⊆ F) : Kept F s₀ (sendLanes s) ↔ Kept F s₀ s := by
  simp at hW; (unfold sendLanes; try simp [hW]) <;> repeat' ((first | split | apply forAll_step | apply forAll_keep | apply foldl_step | apply foldl_keep | intro _) <;> try simp [hW])

@[simp] theorem sendHello_kept (s : State) (hW : [.outs, .freeIx, .pair] ⊆ F) : Kept F s₀ (sendHello s) ↔ Kept F s₀ s := by
  simp at hW; (unfold sendHello; try simp [hW]) <;> repeat' ((first | split | apply forAll_step | apply forAll_keep | apply foldl_step | apply foldl_keep | intro _) <;> try simp [hW])

@[simp] theorem placePairKey_kept (s : State) (hW : [.key] ⊆ F) : Kept F s₀ (placePairKey s) ↔ Kept F s₀ s := by
  simp at hW; (unfold placePairKey; try simp [hW]) <;> repeat' ((first | split | apply forAll_step | apply forAll_keep | apply foldl_step | apply foldl_keep | intro _) <;> try simp [hW])

@[simp] theorem renewPairKey_kept (s : State) (hW : [.pair, .key] ⊆ F) : Kept F s₀ (renewPairKey s) ↔ Kept F s₀ s := by
  simp at hW; (unfold renewPairKey; try simp [hW]) <;> repeat' ((first | split | apply forAll_step | apply forAll_keep | apply foldl_step | apply foldl_keep | intro _) <;> try simp [hW])

@[simp] theorem requestSnapshot_kept (s : State) (hW : [.outs, .pair] ⊆ F) : Kept F s₀ (requestSnapshot s) ↔ Kept F s₀ s := by
  simp at hW; (unfold requestSnapshot; try simp [hW]) <;> repeat' ((first | split | apply forAll_step | apply forAll_keep | apply foldl_step | apply foldl_keep | intro _) <;> try simp [hW])

@[simp] theorem enterResync_kept (s : State) (hW : [.outs, .pair] ⊆ F) : Kept F s₀ (enterResync s) ↔ Kept F s₀ s := by
  simp at hW; (unfold enterResync; try simp [hW]) <;> repeat' ((first | split | apply forAll_step | apply forAll_keep | apply foldl_step | apply foldl_keep | intro _) <;> try simp [hW])

@[simp] theorem handoverInstant_kept (s : State) (hW : [.outs, .freeIx, .flt, .pair, .acq, .met, .veh, .can, .rcd] ⊆ F) : Kept F s₀ (handoverInstant s) ↔ Kept F s₀ s := by
  simp at hW; (unfold handoverInstant; try simp [hW]) <;> repeat' ((first | split | apply forAll_step | apply forAll_keep | apply foldl_step | apply foldl_keep | intro _) <;> try simp [hW])

@[simp] theorem digestMatch_kept (peerLoss : Bool) (s : State) (hW : [.flt, .pair, .acq, .rcd] ⊆ F) : Kept F s₀ (digestMatch peerLoss s) ↔ Kept F s₀ s := by
  simp at hW; (unfold digestMatch; try simp [hW]) <;> repeat' ((first | split | apply forAll_step | apply forAll_keep | apply foldl_step | apply foldl_keep | intro _) <;> try simp [hW])

@[simp] theorem dropNewHandover_kept (s : State) (hW : [.pair, .sw] ⊆ F) : Kept F s₀ (dropNewHandover s) ↔ Kept F s₀ s := by
  simp at hW; (unfold dropNewHandover; try simp [hW]) <;> repeat' ((first | split | apply forAll_step | apply forAll_keep | apply foldl_step | apply foldl_keep | intro _) <;> try simp [hW])

@[simp] theorem digestMismatch_kept (peerLoss : Bool) (s : State) (hW : [.outs, .flt, .pair, .acq, .sw, .rcd] ⊆ F) : Kept F s₀ (digestMismatch peerLoss s) ↔ Kept F s₀ s := by
  simp at hW; (unfold digestMismatch; try simp [hW]) <;> repeat' ((first | split | apply forAll_step | apply forAll_keep | apply foldl_step | apply foldl_keep | intro _) <;> try simp [hW])

@[simp] theorem compareDigest_kept (l : List Block) (s : State) (hW : [.outs, .flt, .pair, .acq, .sw, .rcd] ⊆ F) : Kept F s₀ (compareDigest l s) ↔ Kept F s₀ s := by
  simp at hW; (unfold compareDigest; try simp [hW]) <;> repeat' ((first | split | apply forAll_step | apply forAll_keep | apply foldl_step | apply foldl_keep | intro _) <;> try simp [hW])

@[simp] theorem takeDigest_kept (l : List Block) (s : State) (hW : [.outs, .flt, .pair, .acq, .sw, .rcd] ⊆ F) : Kept F s₀ (takeDigest l s) ↔ Kept F s₀ s := by
  simp at hW; (unfold takeDigest; try simp [hW]) <;> repeat' ((first | split | apply forAll_step | apply forAll_keep | apply foldl_step | apply foldl_keep | intro _) <;> try simp [hW])

@[simp] theorem pairBoundary_kept (s : State) (hW : [.outs, .freeIx, .flt, .pair, .acq, .sw, .met, .veh, .can, .rcd] ⊆ F) : Kept F s₀ (pairBoundary s) ↔ Kept F s₀ s := by
  simp at hW; (unfold pairBoundary; try simp [hW]) <;> repeat' ((first | split | apply forAll_step | apply forAll_keep | apply foldl_step | apply foldl_keep | intro _) <;> try simp [hW])

@[simp] theorem digestAdd_kept (l : List Byte) (s : State) (hW : [.pair] ⊆ F) : Kept F s₀ (digestAdd l s) ↔ Kept F s₀ s := by
  simp at hW; (unfold digestAdd; try simp [hW]) <;> repeat' ((first | split | apply forAll_step | apply forAll_keep | apply foldl_step | apply foldl_keep | intro _) <;> try simp [hW])

@[simp] theorem linkDown_kept (declared : Bool) (s : State) (hW : [.outs, .freeIx, .flt, .pair, .acq, .rcd] ⊆ F) : Kept F s₀ (linkDown declared s) ↔ Kept F s₀ s := by
  simp at hW; (unfold linkDown; try simp [hW]) <;> repeat' ((first | split | apply forAll_step | apply forAll_keep | apply foldl_step | apply foldl_keep | intro _) <;> try simp [hW])

@[simp] theorem pairFault_kept (cause : Nat) (s : State) (hW : [.flt, .acq, .rcd] ⊆ F) : Kept F s₀ (pairFault cause s) ↔ Kept F s₀ s := by
  simp at hW; (unfold pairFault; try simp [hW]) <;> repeat' ((first | split | apply forAll_step | apply forAll_keep | apply foldl_step | apply foldl_keep | intro _) <;> try simp [hW])

@[simp] theorem linkUp_kept (s : State) (hW : [.outs, .freeIx, .flt, .pair, .acq, .rcd] ⊆ F) : Kept F s₀ (linkUp s) ↔ Kept F s₀ s := by
  simp at hW; (unfold linkUp; try simp [hW]) <;> repeat' ((first | split | apply forAll_step | apply forAll_keep | apply foldl_step | apply foldl_keep | intro _) <;> try simp [hW])

@[simp] theorem ilkEvents_kept (cls : IlkClass) (s : State) (hW : [.flt, .pair, .acq, .rcd] ⊆ F) : Kept F s₀ (ilkEvents cls s) ↔ Kept F s₀ s := by
  simp at hW; (unfold ilkEvents; try simp [hW]) <;> repeat' ((first | split | apply forAll_step | apply forAll_keep | apply foldl_step | apply foldl_keep | intro _) <;> try simp [hW])

@[simp] theorem ilkLow_kept (s : State) (hW : [.outs, .flt, .stages, .paths, .pair, .acq, .sw, .rcd, .auth] ⊆ F) : Kept F s₀ (ilkLow s) ↔ Kept F s₀ s := by
  simp at hW; (unfold ilkLow; try simp [hW]) <;> repeat' ((first | split | apply forAll_step | apply forAll_keep | apply foldl_step | apply foldl_keep | intro _) <;> try simp [hW])

@[simp] theorem ilkEffect_kept (cls : IlkClass) (at_ : Nat) (s : State) (hW : [.outs, .freeIx, .flt, .stages, .alloc, .paths, .pair, .acq, .sw, .met, .veh, .rcd, .auth] ⊆ F) : Kept F s₀ (ilkEffect cls at_ s) ↔ Kept F s₀ s := by
  simp at hW; (unfold ilkEffect; try simp [hW]) <;> repeat' ((first | split | apply forAll_step | apply forAll_keep | apply foldl_step | apply foldl_keep | intro _) <;> try simp [hW])

@[simp] theorem ilkWake_kept (s : State) (hW : [.outs, .freeIx, .flt, .stages, .alloc, .paths, .pair, .acq, .sw, .met, .veh, .rcd, .auth] ⊆ F) : Kept F s₀ (ilkWake s) ↔ Kept F s₀ s := by
  simp at hW; (unfold ilkWake; try simp [hW]) <;> repeat' ((first | split | apply forAll_step | apply forAll_keep | apply foldl_step | apply foldl_keep | intro _) <;> try simp [hW])

@[simp] theorem loadPart_kept (part : SnapPart) (s : State) (hW : [.stages, .alloc, .paths, .law, .pair, .thm, .veh] ⊆ F) : Kept F s₀ (loadPart part s) ↔ Kept F s₀ s := by
  simp at hW; (unfold loadPart; try simp [hW]) <;> repeat' ((first | split | apply forAll_step | apply forAll_keep | apply foldl_step | apply foldl_keep | intro _) <;> try simp [hW])

end Sys2Proof.Machine
end

