-- ==== Sys2Proof/Laws/FrameRecord.lean ====
section
/-! SUPPORT. Frames of the operations of Record: what each may change. -/

set_option linter.all false

namespace Sys2Proof.Machine

variable {F : List Part} {s₀ : State}

@[simp] theorem recWrite_kept (f : Recorder → Recorder) (s : State) (hW : [.flt, .acq, .rcd] ⊆ F) : Kept F s₀ (recWrite f s) ↔ Kept F s₀ s := by
  simp at hW; (unfold recWrite; try simp [hW]) <;> repeat' ((first | split | apply forAll_step | apply forAll_keep | apply foldl_step | apply foldl_keep | intro _) <;> try simp [hW])

@[simp] theorem closeReached_kept (t : Nat) (s : State) (hW : [.flt, .acq, .rcd] ⊆ F) : Kept F s₀ (closeReached t s) ↔ Kept F s₀ s := by
  simp at hW; (unfold closeReached; try simp [hW]) <;> repeat' ((first | split | apply forAll_step | apply forAll_keep | apply foldl_step | apply foldl_keep | intro _) <;> try simp [hW])

@[simp] theorem sampleSecond_kept (s : State) (hW : [.flt, .acq, .rcd] ⊆ F) : Kept F s₀ (sampleSecond s) ↔ Kept F s₀ s := by
  simp at hW; (unfold sampleSecond; try simp [hW]) <;> repeat' ((first | split | apply forAll_step | apply forAll_keep | apply foldl_step | apply foldl_keep | intro _) <;> try simp [hW])

theorem execRecorderSecond_keeps {t : State} (s : State) (e : execRecorderSecond s = .next t) : ∃ u, t = settle u ∧ Kept [.flt, .acq, .rcd] s u := by
  unfold execRecorderSecond live at e; refine ctl_keeps ?_ e; (try simp) <;> repeat' ((first | split | apply forAll_keep | apply foldl_keep | intro _) <;> try simp)

theorem execPageClose_keeps {t : State} (s : State) (e : execPageClose s = .next t) : ∃ u, t = settle u ∧ Kept [.flt, .acq, .rcd] s u := by
  unfold execPageClose live at e; refine ctl_keeps ?_ e; (try simp) <;> repeat' ((first | split | apply forAll_keep | apply foldl_keep | intro _) <;> try simp)

@[simp] theorem closeStepped_kept (s : State) (hW : [.flt, .acq, .rcd] ⊆ F) : Kept F s₀ (closeStepped s) ↔ Kept F s₀ s := by
  simp at hW; (unfold closeStepped; try simp [hW]) <;> repeat' ((first | split | apply forAll_step | apply forAll_keep | apply foldl_step | apply foldl_keep | intro _) <;> try simp [hW])

@[simp] theorem recProfile_kept (s : State) (hW : [.flt, .acq, .rcd] ⊆ F) : Kept F s₀ (recProfile s) ↔ Kept F s₀ s := by
  simp at hW; (unfold recProfile; try simp [hW]) <;> repeat' ((first | split | apply forAll_step | apply forAll_keep | apply foldl_step | apply foldl_keep | intro _) <;> try simp [hW])

@[simp] theorem framFailureEffect_kept (cause addr : Nat) (s : State) (hW : [.flt, .acq, .rcd] ⊆ F) : Kept F s₀ (framFailureEffect cause addr s) ↔ Kept F s₀ s := by
  simp at hW; (unfold framFailureEffect; try simp [hW]) <;> repeat' ((first | split | apply forAll_step | apply forAll_keep | apply foldl_step | apply foldl_keep | intro _) <;> try simp [hW])

theorem execFramFailure_keeps {t : State} (cause addr : Nat) (s : State) (e : execFramFailure cause addr s = .next t) : ∃ u, t = settle u ∧ Kept [.flt, .acq, .rcd] s u := by
  unfold execFramFailure live at e; refine ctl_keeps ?_ e; (try simp) <;> repeat' ((first | split | apply forAll_keep | apply foldl_keep | intro _) <;> try simp)

@[simp] theorem recStart_kept (s : State) (hW : [.flt, .acq, .rcd] ⊆ F) : Kept F s₀ (recStart s) ↔ Kept F s₀ s := by
  simp at hW; (unfold recStart; try simp [hW]) <;> repeat' ((first | split | apply forAll_step | apply forAll_keep | apply foldl_step | apply foldl_keep | intro _) <;> try simp [hW])

@[simp] theorem civilStep_kept (source : Nat) (new : Int) (s : State) (hW : [.flt, .acq, .civil, .rcd] ⊆ F) : Kept F s₀ (civilStep source new s) ↔ Kept F s₀ s := by
  simp at hW; (unfold civilStep; try simp [hW]) <;> repeat' ((first | split | apply forAll_step | apply forAll_keep | apply foldl_step | apply foldl_keep | intro _) <;> try simp [hW])

@[simp] theorem setCivilOp_kept (d : Desc) (s : State) (hW : [.flt, .acq, .civil, .rcd] ⊆ F) : Kept F s₀ (setCivilOp d s).1 ↔ Kept F s₀ s := by
  simp at hW; (unfold setCivilOp; try simp [hW]) <;> repeat' ((first | split | apply forAll_step | apply forAll_keep | apply foldl_step | apply foldl_keep | intro _) <;> try simp [hW])

theorem execSetCivilTime_keeps {t : State} (d : Desc) (s : State) (e : execSetCivilTime d s = .next t) : ∃ u, t = settle u ∧ Kept [.outs, .freeIx, .host, .flt, .pair, .acq, .civil, .rcd, .rings, .faults] s u := by
  unfold execSetCivilTime live at e; refine ctl_keeps ?_ e; (try simp) <;> repeat' ((first | split | apply forAll_keep | apply foldl_keep | intro _) <;> try simp)

@[simp] theorem recordReadOp_kept (d : Desc) (s : State) (hW : [.outs, .host] ⊆ F) : Kept F s₀ (recordReadOp d s).1 ↔ Kept F s₀ s := by
  simp at hW; (unfold recordReadOp; try simp [hW]) <;> repeat' ((first | split | apply forAll_step | apply forAll_keep | apply foldl_step | apply foldl_keep | intro _) <;> try simp [hW])

theorem execRecordRead_keeps {t : State} (d : Desc) (s : State) (e : execRecordRead d s = .next t) : ∃ u, t = settle u ∧ Kept [.outs, .freeIx, .host, .flt, .pair, .acq, .rcd, .rings, .faults] s u := by
  unfold execRecordRead live at e; refine ctl_keeps ?_ e; (try simp) <;> repeat' ((first | split | apply forAll_keep | apply foldl_keep | intro _) <;> try simp)

end Sys2Proof.Machine
end

