-- ==== Sys2Proof/Laws/FrameSafeOps.lean ====
section
/-! SUPPORT. Frames of the operations of SafeOps: what each may change. -/

set_option linter.all false

namespace Sys2Proof.Machine

variable {F : List Part} {s₀ : State}

@[simp] theorem safeActions_kept (s : State) (hW : [.outs, .pwr, .flt, .stages, .alloc, .paths, .law, .pair, .acq, .veh, .rcd, .opState] ⊆ F) : Kept F s₀ (safeActions s) ↔ Kept F s₀ s := by
  simp at hW; (unfold safeActions; try simp [hW]) <;> repeat' ((first | split | apply forAll_step | apply forAll_keep | apply foldl_step | apply foldl_keep | intro _) <;> try simp [hW])

@[simp] theorem safePair_kept (s : State) (hW : [.pair, .auth] ⊆ F) : Kept F s₀ (safePair s) ↔ Kept F s₀ s := by
  simp at hW; (unfold safePair; try simp [hW]) <;> repeat' ((first | split | apply forAll_step | apply forAll_keep | apply foldl_step | apply foldl_keep | intro _) <;> try simp [hW])

@[simp] theorem enterSafe_kept (bit : Nat) (s : State) (hW : [.outs, .freeIx, .pwr, .flt, .stages, .alloc, .paths, .law, .pair, .acq, .met, .veh, .rcd, .auth, .opState, .faults] ⊆ F) : Kept F s₀ (enterSafe bit s) ↔ Kept F s₀ s := by
  simp at hW; (unfold enterSafe; try simp [hW]) <;> repeat' ((first | split | apply forAll_step | apply forAll_keep | apply foldl_step | apply foldl_keep | intro _) <;> try simp [hW])

@[simp] theorem startAllocator_kept (s : State) (hW : [.alloc] ⊆ F) : Kept F s₀ (startAllocator s) ↔ Kept F s₀ s := by
  simp at hW; (unfold startAllocator; try simp [hW]) <;> repeat' ((first | split | apply forAll_step | apply forAll_keep | apply foldl_step | apply foldl_keep | intro _) <;> try simp [hW])

@[simp] theorem pulsesOn_kept (s : State) (hW : [.pair] ⊆ F) : Kept F s₀ (pulsesOn s) ↔ Kept F s₀ s := by
  simp at hW; (unfold pulsesOn; try simp [hW]) <;> repeat' ((first | split | apply forAll_step | apply forAll_keep | apply foldl_step | apply foldl_keep | intro _) <;> try simp [hW])

@[simp] theorem driveOwn_kept (s : State) (hW : [.sw] ⊆ F) : Kept F s₀ (driveOwn s) ↔ Kept F s₀ s := by
  simp at hW; (unfold driveOwn; try simp [hW]) <;> repeat' ((first | split | apply forAll_step | apply forAll_keep | apply foldl_step | apply foldl_keep | intro _) <;> try simp [hW])

@[simp] theorem clearExitCauses_kept (s : State) (hW : [.flt, .faults] ⊆ F) : Kept F s₀ (clearExitCauses s) ↔ Kept F s₀ s := by
  simp at hW; (unfold clearExitCauses; try simp [hW]) <;> repeat' ((first | split | apply forAll_step | apply forAll_keep | apply foldl_step | apply foldl_keep | intro _) <;> try simp [hW])

@[simp] theorem leaveSafe_kept (s : State) (hW : [.outs, .pwr, .flt, .stages, .alloc, .paths, .pair, .acq, .sw, .rcd, .auth, .opState, .faults] ⊆ F) : Kept F s₀ (leaveSafe s).1 ↔ Kept F s₀ s := by
  simp at hW; (unfold leaveSafe; try simp [hW]) <;> repeat' ((first | split | apply forAll_step | apply forAll_keep | apply foldl_step | apply foldl_keep | intro _) <;> try simp [hW])

@[simp] theorem endLock_kept (s : State) (hW : [.outs, .freeIx, .flt, .prof, .stages, .alloc, .paths, .pair, .acq, .met, .veh, .rcd] ⊆ F) : Kept F s₀ (endLock s) ↔ Kept F s₀ s := by
  simp at hW; (unfold endLock; try simp [hW]) <;> repeat' ((first | split | apply forAll_step | apply forAll_keep | apply foldl_step | apply foldl_keep | intro _) <;> try simp [hW])

@[simp] theorem settleLock_kept (s : State) (hW : [.outs, .freeIx, .flt, .prof, .stages, .alloc, .paths, .pair, .acq, .met, .veh, .rcd] ⊆ F) : Kept F s₀ (settleLock s) ↔ Kept F s₀ s := by
  simp at hW; (unfold settleLock; try simp [hW]) <;> repeat' ((first | split | apply forAll_step | apply forAll_keep | apply foldl_step | apply foldl_keep | intro _) <;> try simp [hW])

@[simp] theorem clearSafeCauses_kept (s : State) (hW : [.flt, .faults] ⊆ F) : Kept F s₀ (clearSafeCauses s) ↔ Kept F s₀ s := by
  simp at hW; (unfold clearSafeCauses; try simp [hW]) <;> repeat' ((first | split | apply forAll_step | apply forAll_keep | apply foldl_step | apply foldl_keep | intro _) <;> try simp [hW])

end Sys2Proof.Machine
end

