-- ==== Sys2Proof/Laws/FrameAllocator.lean ====
section
/-! SUPPORT. Frames of the operations of Allocator: what each may change. -/

set_option linter.all false

namespace Sys2Proof.Machine

variable {F : List Part} {s₀ : State}

@[simp] theorem allocateRow_kept (overrun : Bool) (s : State) (hW : [.outs, .pwr, .flt, .stages, .alloc, .paths, .pair, .acq, .rcd] ⊆ F) : Kept F s₀ (allocateRow overrun s) ↔ Kept F s₀ s := by
  simp at hW; (unfold allocateRow; try simp [hW]) <;> repeat' ((first | split | apply forAll_step | apply forAll_keep | apply foldl_step | apply foldl_keep | intro _) <;> try simp [hW])

@[simp] theorem allocationBoundaryEffect_kept (overrun : Bool) (s : State) (hW : [.outs, .freeIx, .pwr, .flt, .stages, .alloc, .paths, .law, .pair, .acq, .thm, .sw, .met, .veh, .rcd] ⊆ F) : Kept F s₀ (allocationBoundaryEffect overrun s) ↔ Kept F s₀ s := by
  simp at hW; (unfold allocationBoundaryEffect; try simp [hW]) <;> repeat' ((first | split | apply forAll_step | apply forAll_keep | apply foldl_step | apply foldl_keep | intro _) <;> try simp [hW])

theorem execAllocationBoundary_keeps {t : State} (overrun : Bool) (s : State) (e : execAllocationBoundary overrun s = .next t) : ∃ u, t = settle u ∧ Kept [.outs, .freeIx, .pwr, .flt, .stages, .alloc, .paths, .law, .pair, .acq, .thm, .sw, .met, .veh, .rcd] s u := by
  unfold execAllocationBoundary live at e; refine ctl_keeps ?_ e; (try simp) <;> repeat' ((first | split | apply forAll_keep | apply foldl_keep | intro _) <;> try simp)

@[simp] theorem contactLevel_kept (contact : Nat) (level : Bool) (s : State) (hW : [.alloc] ⊆ F) : Kept F s₀ (contactLevel contact level s) ↔ Kept F s₀ s := by
  simp at hW; (unfold contactLevel; try simp [hW]) <;> repeat' ((first | split | apply forAll_step | apply forAll_keep | apply foldl_step | apply foldl_keep | intro _) <;> try simp [hW])

theorem execFastCapChange_keeps {t : State} (contact : Nat) (level : Bool) (s : State) (e : execFastCapChange contact level s = .next t) : ∃ u, t = settle u ∧ Kept [.alloc] s u := by
  unfold execFastCapChange at e; refine ctl_keeps ?_ e; (try simp) <;> repeat' ((first | split | apply forAll_keep | apply foldl_keep | intro _) <;> try simp)

@[simp] theorem gridCapHoldEffect_kept (s : State) (hW : [.alloc] ⊆ F) : Kept F s₀ (gridCapHoldEffect s) ↔ Kept F s₀ s := by
  simp at hW; (unfold gridCapHoldEffect; try simp [hW]) <;> repeat' ((first | split | apply forAll_step | apply forAll_keep | apply foldl_step | apply foldl_keep | intro _) <;> try simp [hW])

theorem execGridCapHoldExpiry_keeps {t : State} (s : State) (e : execGridCapHoldExpiry s = .next t) : ∃ u, t = settle u ∧ Kept [.alloc] s u := by
  unfold execGridCapHoldExpiry live at e; refine ctl_keeps ?_ e; (try simp) <;> repeat' ((first | split | apply forAll_keep | apply foldl_keep | intro _) <;> try simp)

@[simp] theorem releaseHoldEffect_kept (o : Nat) (s : State) (hW : [.alloc] ⊆ F) : Kept F s₀ (releaseHoldEffect o s) ↔ Kept F s₀ s := by
  simp at hW; (unfold releaseHoldEffect; try simp [hW]) <;> repeat' ((first | split | apply forAll_step | apply forAll_keep | apply foldl_step | apply foldl_keep | intro _) <;> try simp [hW])

theorem execReleaseHoldExpiry_keeps {t : State} (outlet : Nat) (s : State) (e : execReleaseHoldExpiry outlet s = .next t) : ∃ u, t = settle u ∧ Kept [.alloc] s u := by
  unfold execReleaseHoldExpiry live at e; refine ctl_keeps ?_ e; (try simp) <;> repeat' ((first | split | apply forAll_keep | apply foldl_keep | intro _) <;> try simp)

@[simp] theorem transferRampDoneEffect_kept (i : Nat) (s : State) (hW : [.outs, .stages, .pair] ⊆ F) : Kept F s₀ (transferRampDoneEffect i s) ↔ Kept F s₀ s := by
  simp at hW; (unfold transferRampDoneEffect; try simp [hW]) <;> repeat' ((first | split | apply forAll_step | apply forAll_keep | apply foldl_step | apply foldl_keep | intro _) <;> try simp [hW])

theorem execTransferRampDone_keeps {t : State} (stage : Nat) (s : State) (e : execTransferRampDone stage s = .next t) : ∃ u, t = settle u ∧ Kept [.outs, .freeIx, .pwr, .flt, .stages, .alloc, .paths, .pair, .acq, .met, .veh, .rcd] s u := by
  unfold execTransferRampDone stageRow live at e; refine ctl_keeps ?_ e; (try simp) <;> repeat' ((first | split | apply forAll_keep | apply foldl_keep | intro _) <;> try simp)

@[simp] theorem failIn_kept (x : Xfer) (i ms cause : Nat) (s : State) (hW : [.outs, .flt, .stages, .pair, .acq, .rcd] ⊆ F) : Kept F s₀ (failIn x i ms cause s) ↔ Kept F s₀ s := by
  simp at hW; (unfold failIn; try simp [hW]) <;> repeat' ((first | split | apply forAll_step | apply forAll_keep | apply foldl_step | apply foldl_keep | intro _) <;> try simp [hW])

theorem execTransferRampTimeout_keeps {t : State} (stage : Nat) (s : State) (e : execTransferRampTimeout stage s = .next t) : ∃ u, t = settle u ∧ Kept [.outs, .freeIx, .pwr, .flt, .stages, .alloc, .paths, .pair, .acq, .met, .veh, .rcd] s u := by
  unfold execTransferRampTimeout stageRow live at e; refine ctl_keeps ?_ e; (try simp) <;> repeat' ((first | split | apply forAll_keep | apply foldl_keep | intro _) <;> try simp)

@[simp] theorem xpOpenVerifiedEffect_kept (i : Nat) (s : State) (hW : [.outs, .flt, .stages, .pair, .acq, .rcd] ⊆ F) : Kept F s₀ (xpOpenVerifiedEffect i s) ↔ Kept F s₀ s := by
  simp at hW; (unfold xpOpenVerifiedEffect; try simp [hW]) <;> repeat' ((first | split | apply forAll_step | apply forAll_keep | apply foldl_step | apply foldl_keep | intro _) <;> try simp [hW])

theorem execXpOpenVerified_keeps {t : State} (stage : Nat) (s : State) (e : execXpOpenVerified stage s = .next t) : ∃ u, t = settle u ∧ Kept [.outs, .freeIx, .pwr, .flt, .stages, .alloc, .paths, .pair, .acq, .met, .veh, .rcd] s u := by
  unfold execXpOpenVerified stageRow live at e; refine ctl_keeps ?_ e; (try simp) <;> repeat' ((first | split | apply forAll_keep | apply foldl_keep | intro _) <;> try simp)

theorem execXpOpenTimeout_keeps {t : State} (stage : Nat) (s : State) (e : execXpOpenTimeout stage s = .next t) : ∃ u, t = settle u ∧ Kept [.outs, .freeIx, .pwr, .flt, .stages, .alloc, .paths, .pair, .acq, .met, .veh, .rcd] s u := by
  unfold execXpOpenTimeout stageRow live at e; refine ctl_keeps ?_ e; (try simp) <;> repeat' ((first | split | apply forAll_keep | apply foldl_keep | intro _) <;> try simp)

@[simp] theorem trackingDoneEffect_kept (i : Nat) (s : State) (hW : [.outs, .flt, .stages, .pair, .acq, .rcd] ⊆ F) : Kept F s₀ (trackingDoneEffect i s) ↔ Kept F s₀ s := by
  simp at hW; (unfold trackingDoneEffect; try simp [hW]) <;> repeat' ((first | split | apply forAll_step | apply forAll_keep | apply foldl_step | apply foldl_keep | intro _) <;> try simp [hW])

theorem execTrackingDone_keeps {t : State} (stage : Nat) (s : State) (e : execTrackingDone stage s = .next t) : ∃ u, t = settle u ∧ Kept [.outs, .freeIx, .pwr, .flt, .stages, .alloc, .paths, .pair, .acq, .met, .veh, .rcd] s u := by
  unfold execTrackingDone stageRow live at e; refine ctl_keeps ?_ e; (try simp) <;> repeat' ((first | split | apply forAll_keep | apply foldl_keep | intro _) <;> try simp)

@[simp] theorem trackTimeoutEffect_kept (i : Nat) (s : State) (hW : [.outs, .flt, .stages, .pair, .acq, .rcd] ⊆ F) : Kept F s₀ (trackTimeoutEffect i s) ↔ Kept F s₀ s := by
  simp at hW; (unfold trackTimeoutEffect; try simp [hW]) <;> repeat' ((first | split | apply forAll_step | apply forAll_keep | apply foldl_step | apply foldl_keep | intro _) <;> try simp [hW])

theorem execTrackTimeout_keeps {t : State} (stage : Nat) (s : State) (e : execTrackTimeout stage s = .next t) : ∃ u, t = settle u ∧ Kept [.outs, .freeIx, .pwr, .flt, .stages, .alloc, .paths, .pair, .acq, .met, .veh, .rcd] s u := by
  unfold execTrackTimeout stageRow live at e; refine ctl_keeps ?_ e; (try simp) <;> repeat' ((first | split | apply forAll_keep | apply foldl_keep | intro _) <;> try simp)

@[simp] theorem xpCloseVerifiedEffect_kept (i : Nat) (s : State) (hW : [.outs, .flt, .stages, .pair, .acq, .rcd] ⊆ F) : Kept F s₀ (xpCloseVerifiedEffect i s) ↔ Kept F s₀ s := by
  simp at hW; (unfold xpCloseVerifiedEffect; try simp [hW]) <;> repeat' ((first | split | apply forAll_step | apply forAll_keep | apply foldl_step | apply foldl_keep | intro _) <;> try simp [hW])

theorem execXpCloseVerified_keeps {t : State} (stage : Nat) (s : State) (e : execXpCloseVerified stage s = .next t) : ∃ u, t = settle u ∧ Kept [.outs, .freeIx, .pwr, .flt, .stages, .alloc, .paths, .pair, .acq, .met, .veh, .rcd] s u := by
  unfold execXpCloseVerified stageRow live at e; refine ctl_keeps ?_ e; (try simp) <;> repeat' ((first | split | apply forAll_keep | apply foldl_keep | intro _) <;> try simp)

theorem execXpCloseTimeout_keeps {t : State} (stage : Nat) (s : State) (e : execXpCloseTimeout stage s = .next t) : ∃ u, t = settle u ∧ Kept [.outs, .freeIx, .pwr, .flt, .stages, .alloc, .paths, .pair, .acq, .met, .veh, .rcd] s u := by
  unfold execXpCloseTimeout stageRow live at e; refine ctl_keeps ?_ e; (try simp) <;> repeat' ((first | split | apply forAll_keep | apply foldl_keep | intro _) <;> try simp)

@[simp] theorem transferTimeoutEffect_kept (i : Nat) (s : State) (hW : [.outs, .flt, .stages, .pair, .acq, .rcd] ⊆ F) : Kept F s₀ (transferTimeoutEffect i s) ↔ Kept F s₀ s := by
  simp at hW; (unfold transferTimeoutEffect; try simp [hW]) <;> repeat' ((first | split | apply forAll_step | apply forAll_keep | apply foldl_step | apply foldl_keep | intro _) <;> try simp [hW])

theorem execTransferTimeout_keeps {t : State} (stage : Nat) (s : State) (e : execTransferTimeout stage s = .next t) : ∃ u, t = settle u ∧ Kept [.outs, .freeIx, .pwr, .flt, .stages, .alloc, .paths, .pair, .acq, .met, .veh, .rcd] s u := by
  unfold execTransferTimeout stageRow live at e; refine ctl_keeps ?_ e; (try simp) <;> repeat' ((first | split | apply forAll_keep | apply foldl_keep | intro _) <;> try simp)

@[simp] theorem xpReleaseEffect_kept (i : Nat) (s : State) (hW : [.stages] ⊆ F) : Kept F s₀ (xpReleaseEffect i s) ↔ Kept F s₀ s := by
  simp at hW; (unfold xpReleaseEffect; try simp [hW]) <;> repeat' ((first | split | apply forAll_step | apply forAll_keep | apply foldl_step | apply foldl_keep | intro _) <;> try simp [hW])

theorem execXpCommandRelease_keeps {t : State} (stage : Nat) (s : State) (e : execXpCommandRelease stage s = .next t) : ∃ u, t = settle u ∧ Kept [.outs, .freeIx, .pwr, .flt, .stages, .alloc, .paths, .pair, .acq, .met, .veh, .rcd] s u := by
  unfold execXpCommandRelease stageRow live at e; refine ctl_keeps ?_ e; (try simp) <;> repeat' ((first | split | apply forAll_keep | apply foldl_keep | intro _) <;> try simp)

@[simp] theorem xpCurrentEffect_kept (i : Nat) (s : State) (hW : [.flt, .stages, .acq, .rcd] ⊆ F) : Kept F s₀ (xpCurrentEffect i s) ↔ Kept F s₀ s := by
  simp at hW; (unfold xpCurrentEffect; try simp [hW]) <;> repeat' ((first | split | apply forAll_step | apply forAll_keep | apply foldl_step | apply foldl_keep | intro _) <;> try simp [hW])

theorem execXpCurrent_keeps {t : State} (stage : Nat) (s : State) (e : execXpCurrent stage s = .next t) : ∃ u, t = settle u ∧ Kept [.outs, .freeIx, .pwr, .flt, .stages, .alloc, .paths, .pair, .acq, .met, .veh, .rcd] s u := by
  unfold execXpCurrent stageRow live at e; refine ctl_keeps ?_ e; (try simp) <;> repeat' ((first | split | apply forAll_keep | apply foldl_keep | intro _) <;> try simp)

theorem execFeedbackMismatch_keeps {t : State} (stage : Nat) (s : State) (e : execFeedbackMismatch stage s = .next t) : ∃ u, t = settle u ∧ Kept [.outs, .freeIx, .pwr, .flt, .stages, .alloc, .paths, .pair, .acq, .met, .veh, .rcd] s u := by
  unfold execFeedbackMismatch stageRow live at e; refine ctl_keeps ?_ e; (try simp) <;> repeat' ((first | split | apply forAll_keep | apply foldl_keep | intro _) <;> try simp)

@[simp] theorem gridCapOp_kept (d : Desc) (s : State) (hW : [.alloc] ⊆ F) : Kept F s₀ (gridCapOp d s).1 ↔ Kept F s₀ s := by
  simp at hW; (unfold gridCapOp; try simp [hW]) <;> repeat' ((first | split | apply forAll_step | apply forAll_keep | apply foldl_step | apply foldl_keep | intro _) <;> try simp [hW])

theorem execGridCap_keeps {t : State} (d : Desc) (s : State) (e : execGridCap d s = .next t) : ∃ u, t = settle u ∧ Kept [.outs, .freeIx, .host, .flt, .alloc, .pair, .acq, .rcd, .rings, .faults] s u := by
  unfold execGridCap live at e; refine ctl_keeps ?_ e; (try simp) <;> repeat' ((first | split | apply forAll_keep | apply foldl_keep | intro _) <;> try simp)

@[simp] theorem outletPolicyOp_kept (d : Desc) (s : State) (hW : [.alloc] ⊆ F) : Kept F s₀ (outletPolicyOp d s).1 ↔ Kept F s₀ s := by
  simp at hW; (unfold outletPolicyOp; try simp [hW]) <;> repeat' ((first | split | apply forAll_step | apply forAll_keep | apply foldl_step | apply foldl_keep | intro _) <;> try simp [hW])

theorem execOutletPolicy_keeps {t : State} (d : Desc) (s : State) (e : execOutletPolicy d s = .next t) : ∃ u, t = settle u ∧ Kept [.outs, .freeIx, .host, .flt, .alloc, .pair, .acq, .rcd, .rings, .faults] s u := by
  unfold execOutletPolicy live at e; refine ctl_keeps ?_ e; (try simp) <;> repeat' ((first | split | apply forAll_keep | apply foldl_keep | intro _) <;> try simp)

@[simp] theorem outletHaltOp_kept (d : Desc) (s : State) (hW : [.outs, .freeIx, .flt, .stages, .alloc, .paths, .pair, .acq, .met, .veh, .rcd] ⊆ F) : Kept F s₀ (outletHaltOp d s).1 ↔ Kept F s₀ s := by
  simp at hW; (unfold outletHaltOp; try simp [hW]) <;> repeat' ((first | split | apply forAll_step | apply forAll_keep | apply foldl_step | apply foldl_keep | intro _) <;> try simp [hW])

theorem execOutletHalt_keeps {t : State} (d : Desc) (s : State) (e : execOutletHalt d s = .next t) : ∃ u, t = settle u ∧ Kept [.outs, .freeIx, .host, .flt, .stages, .alloc, .paths, .pair, .acq, .met, .veh, .rcd, .rings, .faults] s u := by
  unfold execOutletHalt live at e; refine ctl_keeps ?_ e; (try simp) <;> repeat' ((first | split | apply forAll_keep | apply foldl_keep | intro _) <;> try simp)

@[simp] theorem outletResumeOp_kept (d : Desc) (s : State) (hW : [.paths] ⊆ F) : Kept F s₀ (outletResumeOp d s).1 ↔ Kept F s₀ s := by
  simp at hW; (unfold outletResumeOp; try simp [hW]) <;> repeat' ((first | split | apply forAll_step | apply forAll_keep | apply foldl_step | apply foldl_keep | intro _) <;> try simp [hW])

theorem execOutletResume_keeps {t : State} (d : Desc) (s : State) (e : execOutletResume d s = .next t) : ∃ u, t = settle u ∧ Kept [.outs, .freeIx, .host, .flt, .paths, .pair, .acq, .rcd, .rings, .faults] s u := by
  unfold execOutletResume live at e; refine ctl_keeps ?_ e; (try simp) <;> repeat' ((first | split | apply forAll_keep | apply foldl_keep | intro _) <;> try simp)

@[simp] theorem stageHaltOp_kept (d : Desc) (s : State) (hW : [.outs, .freeIx, .flt, .stages, .alloc, .paths, .pair, .acq, .met, .veh, .rcd] ⊆ F) : Kept F s₀ (stageHaltOp d s).1 ↔ Kept F s₀ s := by
  simp at hW; (unfold stageHaltOp; try simp [hW]) <;> repeat' ((first | split | apply forAll_step | apply forAll_keep | apply foldl_step | apply foldl_keep | intro _) <;> try simp [hW])

theorem execStageHalt_keeps {t : State} (d : Desc) (s : State) (e : execStageHalt d s = .next t) : ∃ u, t = settle u ∧ Kept [.outs, .freeIx, .host, .flt, .stages, .alloc, .paths, .pair, .acq, .met, .veh, .rcd, .rings, .faults] s u := by
  unfold execStageHalt live at e; refine ctl_keeps ?_ e; (try simp) <;> repeat' ((first | split | apply forAll_keep | apply foldl_keep | intro _) <;> try simp)

@[simp] theorem stageResumeOp_kept (d : Desc) (s : State) (hW : [.outs, .stages, .pair] ⊆ F) : Kept F s₀ (stageResumeOp d s).1 ↔ Kept F s₀ s := by
  simp at hW; (unfold stageResumeOp; try simp [hW]) <;> repeat' ((first | split | apply forAll_step | apply forAll_keep | apply foldl_step | apply foldl_keep | intro _) <;> try simp [hW])

theorem execStageResume_keeps {t : State} (d : Desc) (s : State) (e : execStageResume d s = .next t) : ∃ u, t = settle u ∧ Kept [.outs, .freeIx, .host, .flt, .stages, .pair, .acq, .rcd, .rings, .faults] s u := by
  unfold execStageResume live at e; refine ctl_keeps ?_ e; (try simp) <;> repeat' ((first | split | apply forAll_keep | apply foldl_keep | intro _) <;> try simp)

theorem execStageResumeTakeEffect_keeps {t : State} (stage : Nat) (s : State) (e : execStageResumeTakeEffect stage s = .next t) : ∃ u, t = settle u ∧ Kept [.outs, .freeIx, .pwr, .flt, .stages, .alloc, .paths, .pair, .acq, .met, .veh, .rcd] s u := by
  unfold execStageResumeTakeEffect stageRow live at e; refine ctl_keeps ?_ e; (try simp) <;> repeat' ((first | split | apply forAll_keep | apply foldl_keep | intro _) <;> try simp)

end Sys2Proof.Machine
end

