-- ==== Sys2Proof/Laws/FrameHostOps.lean ====
section
/-! SUPPORT. Frames of the operations of HostOps: what each may change. -/

set_option linter.all false

namespace Sys2Proof.Machine

variable {F : List Part} {s₀ : State}

@[simp] theorem startRings_kept (s : State) (hW : [.host, .rings] ⊆ F) : Kept F s₀ (startRings s) ↔ Kept F s₀ s := by
  simp at hW; (unfold startRings; try simp [hW]) <;> repeat' ((first | split | apply forAll_step | apply forAll_keep | apply foldl_step | apply foldl_keep | intro _) <;> try simp [hW])

@[simp] theorem descReads_kept (base size fuel : Nat) (p q : RingPos) (s : State) (hW : [.outs, .host] ⊆ F) :
    Kept F s₀ (descReads base size fuel p q s) ↔ Kept F s₀ s := by
  simp at hW
  induction fuel generalizing p s with
  | zero => rfl
  | succ n ih => unfold descReads; split <;> simp [ih, hW]

@[simp] theorem takeTail_kept (block : List Byte) (n : Nat) (s : State) (hW : [.outs, .host, .flt, .acq, .rcd, .rings] ⊆ F) : Kept F s₀ (takeTail block n s) ↔ Kept F s₀ s := by
  simp at hW; (unfold takeTail; try simp [hW]) <;> repeat' ((first | split | apply forAll_step | apply forAll_keep | apply foldl_step | apply foldl_keep | intro _) <;> try simp [hW])

@[simp] theorem takeEvHead_kept (block : List Byte) (s : State) (hW : [.host, .flt, .acq, .rcd] ⊆ F) : Kept F s₀ (takeEvHead block s) ↔ Kept F s₀ s := by
  simp at hW; (unfold takeEvHead; try simp [hW]) <;> repeat' ((first | split | apply forAll_step | apply forAll_keep | apply foldl_step | apply foldl_keep | intro _) <;> try simp [hW])

@[simp] theorem takeDoorbell_kept (block : List Byte) (s : State) (hW : [.outs, .host, .flt, .acq, .rcd, .rings] ⊆ F) : Kept F s₀ (takeDoorbell block s) ↔ Kept F s₀ s := by
  simp at hW; (unfold takeDoorbell; try simp [hW]) <;> repeat' ((first | split | apply forAll_step | apply forAll_keep | apply foldl_step | apply foldl_keep | intro _) <;> try simp [hW])

@[simp] theorem fetchFailed_kept (how : Nat) (s : State) (hW : [.host, .flt, .acq, .rcd, .rings] ⊆ F) : Kept F s₀ (fetchFailed how s) ↔ Kept F s₀ s := by
  simp at hW; (unfold fetchFailed; try simp [hW]) <;> repeat' ((first | split | apply forAll_step | apply forAll_keep | apply foldl_step | apply foldl_keep | intro _) <;> try simp [hW])

@[simp] theorem drainOne_kept (s : State) (hW : [.outs, .host] ⊆ F) : Kept F s₀ (drainOne s) ↔ Kept F s₀ s := by
  simp at hW; (unfold drainOne; try simp [hW]) <;> repeat' ((first | split | apply forAll_step | apply forAll_keep | apply foldl_step | apply foldl_keep | intro _) <;> try simp [hW])

@[simp] theorem writeOverflow_kept (s : State) (hW : [.outs, .host, .flt] ⊆ F) : Kept F s₀ (writeOverflow s) ↔ Kept F s₀ s := by
  simp at hW; (unfold writeOverflow; try simp [hW]) <;> repeat' ((first | split | apply forAll_step | apply forAll_keep | apply foldl_step | apply foldl_keep | intro _) <;> try simp [hW])

@[simp] theorem drainHeld_kept (n : Nat) (s : State) (h : [.outs, .host] ⊆ F) : Kept F s₀ (drainHeld n s) ↔ Kept F s₀ s := by
  induction n generalizing s with
  | zero => rfl
  | succ n ih => unfold drainHeld; split <;> simp_all

@[simp] theorem drainEvents_kept (s : State) (hW : [.outs, .host, .flt] ⊆ F) : Kept F s₀ (drainEvents s) ↔ Kept F s₀ s := by
  simp at hW; (unfold drainEvents; try simp [hW]) <;> repeat' ((first | split | apply forAll_step | apply forAll_keep | apply foldl_step | apply foldl_keep | intro _) <;> try simp [hW])

@[simp] theorem endOldest_kept (p : OpKind → Bool) (status result : Nat) (s : State) (hW : [.outs, .freeIx, .host, .rings] ⊆ F) : Kept F s₀ (endOldest p status result s) ↔ Kept F s₀ s := by
  simp at hW; (unfold endOldest; try simp [hW]) <;> repeat' ((first | split | apply forAll_step | apply forAll_keep | apply foldl_step | apply foldl_keep | intro _) <;> try simp [hW])

@[simp] theorem State.modEth_kept (n : Nat) (f : EthPort → EthPort) (s : State) (hW : [.host, .rings] ⊆ F) : Kept F s₀ (State.modEth n f s) ↔ Kept F s₀ s := by
  simp at hW; (unfold State.modEth; try simp [hW]) <;> repeat' ((first | split | apply forAll_step | apply forAll_keep | apply foldl_step | apply foldl_keep | intro _) <;> try simp [hW])

@[simp] theorem resetHostRings_kept (s : State) (hW : [.host, .can, .plc, .rings] ⊆ F) : Kept F s₀ (resetHostRings s) ↔ Kept F s₀ s := Kept.iff (v := [.host, .can, .plc, .rings]) (kept_iff.2 <| by intro p hp; cases p <;> first | rfl | exact ⟨rfl, rfl⟩ | exact absurd (by decide) hp) hW

end Sys2Proof.Machine
end

