-- ==== Sys2Proof/Laws/FrameSnapshot.lean ====
section
/-! SUPPORT. Frames of the operations of Snapshot: what each may change. -/

set_option linter.all false

namespace Sys2Proof.Machine

variable {F : List Part} {s₀ : State}

@[simp] theorem completeSnapshots_kept (s : State) (hW : [.outs, .freeIx, .host, .rings] ⊆ F) : Kept F s₀ (completeSnapshots s) ↔ Kept F s₀ s := by
  simp at hW; (unfold completeSnapshots; try simp [hW]) <;> repeat' ((first | split | apply forAll_step | apply forAll_keep | apply foldl_step | apply foldl_keep | intro _) <;> try simp [hW])

@[simp] theorem snapshotOp_kept (d : Desc) (s : State) (hW : [.host, .rings] ⊆ F) : Kept F s₀ (snapshotOp d s).1 ↔ Kept F s₀ s := by
  simp at hW; (unfold snapshotOp; try simp [hW]) <;> repeat' ((first | split | apply forAll_step | apply forAll_keep | apply foldl_step | apply foldl_keep | intro _) <;> try simp [hW])

theorem execSnapshot_keeps {t : State} (d : Desc) (s : State) (e : execSnapshot d s = .next t) : ∃ u, t = settle u ∧ Kept [.outs, .freeIx, .host, .flt, .pair, .acq, .rcd, .rings, .faults] s u := by
  unfold execSnapshot live at e; refine ctl_keeps ?_ e; (try simp) <;> repeat' ((first | split | apply forAll_keep | apply foldl_keep | intro _) <;> try simp)

end Sys2Proof.Machine
end

