-- ==== Sys2Proof/Laws/FrameThermal.lean ====
section
/-! SUPPORT. Frames of the operations of Thermal: what each may change. -/

set_option linter.all false

namespace Sys2Proof.Machine

variable {F : List Part} {s₀ : State}

theorem execLossTick_keeps {t : State} (s : State) (e : execLossTick s = .next t) : ∃ u, t = settle u ∧ Kept [.thm] s u := by
  unfold execLossTick live at e; refine ctl_keeps ?_ e; (try simp) <;> repeat' ((first | split | apply forAll_keep | apply foldl_keep | intro _) <;> try simp)

@[simp] theorem stopOutletFault_kept (o : Nat) (s : State) (hW : [.outs, .flt, .stages, .paths, .pair, .acq, .rcd] ⊆ F) : Kept F s₀ (stopOutletFault o s) ↔ Kept F s₀ s := by
  simp at hW; (unfold stopOutletFault; try simp [hW]) <;> repeat' ((first | split | apply forAll_step | apply forAll_keep | apply foldl_step | apply foldl_keep | intro _) <;> try simp [hW])

@[simp] theorem stopAction_kept (r : List Byte) (s : State) (hW : [.outs, .flt, .stages, .paths, .pair, .acq, .rcd] ⊆ F) : Kept F s₀ (stopAction r s) ↔ Kept F s₀ s := by
  simp at hW; (unfold stopAction; try simp [hW]) <;> repeat' ((first | split | apply forAll_step | apply forAll_keep | apply foldl_step | apply foldl_keep | intro _) <;> try simp [hW])

@[simp] theorem objEvents_kept (j : Nat) (old new : ThmObj) (stop : Bool) (s : State) (hW : [.flt, .acq, .rcd] ⊆ F) : Kept F s₀ (objEvents j old new stop s) ↔ Kept F s₀ s := by
  simp at hW; (unfold objEvents; try simp [hW]) <;> repeat' ((first | split | apply forAll_step | apply forAll_keep | apply foldl_step | apply foldl_keep | intro _) <;> try simp [hW])

@[simp] theorem publishObj_kept (j at_ : Nat) (meanSq : Rat) (s : State) (hW : [.thm] ⊆ F) : Kept F s₀ (publishObj j at_ meanSq s) ↔ Kept F s₀ s := by
  simp at hW; (unfold publishObj; try simp [hW]) <;> repeat' ((first | split | apply forAll_step | apply forAll_keep | apply foldl_step | apply foldl_keep | intro _) <;> try simp [hW])

@[simp] theorem thermalSampleEffect_kept (j : Nat) (s : State) (hW : [.outs, .flt, .stages, .paths, .pair, .acq, .thm, .sw, .rcd] ⊆ F) : Kept F s₀ (thermalSampleEffect j s) ↔ Kept F s₀ s := by
  simp at hW; (unfold thermalSampleEffect; try simp [hW]) <;> repeat' ((first | split | apply forAll_step | apply forAll_keep | apply foldl_step | apply foldl_keep | intro _) <;> try simp [hW])

theorem execThermalSample_keeps {t : State} (object : Nat) (s : State) (e : execThermalSample object s = .next t) : ∃ u, t = settle u ∧ Kept [.outs, .flt, .stages, .paths, .pair, .acq, .thm, .sw, .rcd] s u := by
  unfold execThermalSample live at e; refine ctl_keeps ?_ e; (try simp) <;> repeat' ((first | split | apply forAll_keep | apply foldl_keep | intro _) <;> try simp)

@[simp] theorem sendReadings_kept (ids : List Nat) (s : State) (hW : [.outs, .pair] ⊆ F) : Kept F s₀ (sendReadings ids s) ↔ Kept F s₀ s := by
  simp at hW; (unfold sendReadings; try simp [hW]) <;> repeat' ((first | split | apply forAll_step | apply forAll_keep | apply foldl_step | apply foldl_keep | intro _) <;> try simp [hW])

@[simp] theorem rtdConversionEffect_kept (readings : List (Nat × Nat)) (leads : List Nat) (s : State) (hW : [.outs, .flt, .pair, .acq, .thm, .rcd] ⊆ F) : Kept F s₀ (rtdConversionEffect readings leads s) ↔ Kept F s₀ s := by
  simp at hW; (unfold rtdConversionEffect; try simp [hW]) <;> repeat' ((first | split | apply forAll_step | apply forAll_keep | apply foldl_step | apply foldl_keep | intro _) <;> try simp [hW])

theorem execRtdConversion_keeps {t : State} (readings : List (Nat × Nat)) (leads : List Nat) (s : State) (e : execRtdConversion readings leads s = .next t) : ∃ u, t = settle u ∧ Kept [.outs, .flt, .pair, .acq, .thm, .rcd] s u := by
  unfold execRtdConversion at e; refine ctl_keeps ?_ e; (try simp) <;> repeat' ((first | split | apply forAll_keep | apply foldl_keep | intro _) <;> try simp)

@[simp] theorem applyReadings_kept (at_ : Nat) (s : State) (hW : [.thm, .rcd] ⊆ F) : Kept F s₀ (applyReadings at_ s) ↔ Kept F s₀ s := by
  simp at hW; (unfold applyReadings; try simp [hW]) <;> repeat' ((first | split | apply forAll_step | apply forAll_keep | apply foldl_step | apply foldl_keep | intro _) <;> try simp [hW])

@[simp] theorem readingApplyEffect_kept (s : State) (hW : [.thm, .rcd] ⊆ F) : Kept F s₀ (readingApplyEffect s) ↔ Kept F s₀ s := by
  simp at hW; (unfold readingApplyEffect; try simp [hW]) <;> repeat' ((first | split | apply forAll_step | apply forAll_keep | apply foldl_step | apply foldl_keep | intro _) <;> try simp [hW])

theorem execReadingApply_keeps {t : State} (s : State) (e : execReadingApply s = .next t) : ∃ u, t = settle u ∧ Kept [.thm, .rcd] s u := by
  unfold execReadingApply live at e; refine ctl_keeps ?_ e; (try simp) <;> repeat' ((first | split | apply forAll_keep | apply foldl_keep | intro _) <;> try simp)

@[simp] theorem divergedEffect_kept (j : Nat) (s : State) (hW : [.flt, .acq, .thm, .rcd] ⊆ F) : Kept F s₀ (divergedEffect j s) ↔ Kept F s₀ s := by
  simp at hW; (unfold divergedEffect; try simp [hW]) <;> repeat' ((first | split | apply forAll_step | apply forAll_keep | apply foldl_step | apply foldl_keep | intro _) <;> try simp [hW])

theorem execDiverged_keeps {t : State} (object : Nat) (s : State) (e : execDiverged object s = .next t) : ∃ u, t = settle u ∧ Kept [.flt, .acq, .thm, .rcd] s u := by
  unfold execDiverged live at e; refine ctl_keeps ?_ e; (try simp) <;> repeat' ((first | split | apply forAll_keep | apply foldl_keep | intro _) <;> try simp)

@[simp] theorem notePulses_kept (counts : List Nat) (s : State) (hW : [.thm] ⊆ F) : Kept F s₀ (notePulses counts s) ↔ Kept F s₀ s := by
  simp at hW; (unfold notePulses; try simp [hW]) <;> repeat' ((first | split | apply forAll_step | apply forAll_keep | apply foldl_step | apply foldl_keep | intro _) <;> try simp [hW])

@[simp] theorem flowUpdateEffect_kept (counts : List Nat) (s : State) (hW : [.outs, .pair, .thm, .sw, .rcd] ⊆ F) : Kept F s₀ (flowUpdateEffect counts s) ↔ Kept F s₀ s := by
  simp at hW; (unfold flowUpdateEffect; try simp [hW]) <;> repeat' ((first | split | apply forAll_step | apply forAll_keep | apply foldl_step | apply foldl_keep | intro _) <;> try simp [hW])

theorem execFlowUpdate_keeps {t : State} (counts : List Nat) (s : State) (e : execFlowUpdate counts s = .next t) : ∃ u, t = settle u ∧ Kept [.outs, .pair, .thm, .sw, .rcd] s u := by
  unfold execFlowUpdate live at e; refine ctl_keeps ?_ e; (try simp) <;> repeat' ((first | split | apply forAll_keep | apply foldl_keep | intro _) <;> try simp)

@[simp] theorem flowLowEffect_kept (l : Nat) (s : State) (hW : [.flt, .acq, .thm, .rcd] ⊆ F) : Kept F s₀ (flowLowEffect l s) ↔ Kept F s₀ s := by
  simp at hW; (unfold flowLowEffect; try simp [hW]) <;> repeat' ((first | split | apply forAll_step | apply forAll_keep | apply foldl_step | apply foldl_keep | intro _) <;> try simp [hW])

theorem execFlowLow_keeps {t : State} (loop : Nat) (s : State) (e : execFlowLow loop s = .next t) : ∃ u, t = settle u ∧ Kept [.flt, .acq, .thm, .rcd] s u := by
  unfold execFlowLow live at e; refine ctl_keeps ?_ e; (try simp) <;> repeat' ((first | split | apply forAll_keep | apply foldl_keep | intro _) <;> try simp)

@[simp] theorem flowRecoveredEffect_kept (l : Nat) (s : State) (hW : [.flt, .acq, .thm, .rcd] ⊆ F) : Kept F s₀ (flowRecoveredEffect l s) ↔ Kept F s₀ s := by
  simp at hW; (unfold flowRecoveredEffect; try simp [hW]) <;> repeat' ((first | split | apply forAll_step | apply forAll_keep | apply foldl_step | apply foldl_keep | intro _) <;> try simp [hW])

theorem execFlowRecovered_keeps {t : State} (loop : Nat) (s : State) (e : execFlowRecovered loop s = .next t) : ∃ u, t = settle u ∧ Kept [.flt, .acq, .thm, .rcd] s u := by
  unfold execFlowRecovered live at e; refine ctl_keeps ?_ e; (try simp) <;> repeat' ((first | split | apply forAll_keep | apply foldl_keep | intro _) <;> try simp)

@[simp] theorem runonEffect_kept (l : Nat) (s : State) (hW : [.thm, .sw] ⊆ F) : Kept F s₀ (runonEffect l s) ↔ Kept F s₀ s := by
  simp at hW; (unfold runonEffect; try simp [hW]) <;> repeat' ((first | split | apply forAll_step | apply forAll_keep | apply foldl_step | apply foldl_keep | intro _) <;> try simp [hW])

theorem execRunonExpiry_keeps {t : State} (loop : Nat) (s : State) (e : execRunonExpiry loop s = .next t) : ∃ u, t = settle u ∧ Kept [.thm, .sw] s u := by
  unfold execRunonExpiry live at e; refine ctl_keeps ?_ e; (try simp) <;> repeat' ((first | split | apply forAll_keep | apply foldl_keep | intro _) <;> try simp)

@[simp] theorem dieTempReadEffect_kept (temps : List Int) (s : State) (hW : [.flt, .acq, .thm, .rcd] ⊆ F) : Kept F s₀ (dieTempReadEffect temps s) ↔ Kept F s₀ s := by
  simp at hW; (unfold dieTempReadEffect; try simp [hW]) <;> repeat' ((first | split | apply forAll_step | apply forAll_keep | apply foldl_step | apply foldl_keep | intro _) <;> try simp [hW])

theorem execDieTempRead_keeps {t : State} (temps : List Int) (s : State) (e : execDieTempRead temps s = .next t) : ∃ u, t = settle u ∧ Kept [.flt, .acq, .thm, .rcd] s u := by
  unfold execDieTempRead live at e; refine ctl_keeps ?_ e; (try simp) <;> repeat' ((first | split | apply forAll_keep | apply foldl_keep | intro _) <;> try simp)

end Sys2Proof.Machine
end

