-- ==== Sys2Proof/Laws/FrameLane.lean ====
section
/-! SUPPORT. Frames of the operations of Lane: what each may change. -/

set_option linter.all false

namespace Sys2Proof.Machine

variable {F : List Part} {s₀ : State}

@[simp] theorem noteCoils_kept (was new : Block) (i : Nat) (s : State) (hW : [.stages] ⊆ F) : Kept F s₀ (noteCoils was new i s) ↔ Kept F s₀ s := by
  simp at hW; (unfold noteCoils; try simp [hW]) <;> repeat' ((first | split | apply forAll_step | apply forAll_keep | apply foldl_step | apply foldl_keep | intro _) <;> try simp [hW])

@[simp] theorem sendDownlink_kept (incomplete : Half) (n : Nat) (s : State) (hW : [.outs, .flt, .stages, .lanes, .pair] ⊆ F) : Kept F s₀ (sendDownlink incomplete n s) ↔ Kept F s₀ s := by
  simp at hW; (unfold sendDownlink; try simp [hW]) <;> repeat' ((first | split | apply forAll_step | apply forAll_keep | apply foldl_step | apply foldl_keep | intro _) <;> try simp [hW])

@[simp] theorem feedOutlets_kept (s : State) (hW : [.rcd] ⊆ F) : Kept F s₀ (feedOutlets s) ↔ Kept F s₀ s := by
  simp at hW; (unfold feedOutlets; try simp [hW]) <;> repeat' ((first | split | apply forAll_step | apply forAll_keep | apply foldl_step | apply foldl_keep | intro _) <;> try simp [hW])

@[simp] theorem downlinkSendEffect_kept (incomplete : Half) (s : State) (hW : [.outs, .freeIx, .pwr, .host, .flt, .stages, .alloc, .paths, .law, .lanes, .pair, .acq, .sw, .met, .veh, .can, .rcd, .auth, .opState, .rings, .faults] ⊆ F) : Kept F s₀ (downlinkSendEffect incomplete s) ↔ Kept F s₀ s := by
  simp at hW; (unfold downlinkSendEffect; try simp [hW]) <;> repeat' ((first | split | apply forAll_step | apply forAll_keep | apply foldl_step | apply foldl_keep | intro _) <;> try simp [hW])

theorem execDownlinkSend_keeps {t : State} (incomplete : Half) (s : State) (e : execDownlinkSend incomplete s = .next t) : ∃ u, t = settle u ∧ Kept [.outs, .freeIx, .pwr, .host, .flt, .prof, .stages, .alloc, .paths, .law, .lanes, .pair, .acq, .sw, .met, .veh, .can, .rcd, .auth, .opState, .rings, .faults] s u := by
  unfold execDownlinkSend live at e; refine ctl_keeps ?_ e; (try simp) <;> repeat' ((first | split | apply forAll_keep | apply foldl_keep | intro _) <;> try simp)

@[simp] theorem uplinkReceiveEffect_kept (n : Nat) (type : Byte) (blocks : List Block) (s : State) (hW : [.flt, .lanes] ⊆ F) : Kept F s₀ (uplinkReceiveEffect n type blocks s) ↔ Kept F s₀ s := by
  simp at hW; (unfold uplinkReceiveEffect; try simp [hW]) <;> repeat' ((first | split | apply forAll_step | apply forAll_keep | apply foldl_step | apply foldl_keep | intro _) <;> try simp [hW])

theorem execUplinkReceive_keeps {t : State} (lane : Nat) (type : Byte) (blocks : List Block) (s : State) (e : execUplinkReceive lane type blocks s = .next t) : ∃ u, t = settle u ∧ Kept [.flt, .lanes] s u := by
  unfold execUplinkReceive live at e; refine ctl_keeps ?_ e; (try simp) <;> repeat' ((first | split | apply forAll_keep | apply foldl_keep | intro _) <;> try simp)

@[simp] theorem noteWindow_kept (i : Nat) (s : State) (hW : [.stages] ⊆ F) : Kept F s₀ (noteWindow i s) ↔ Kept F s₀ s := by
  simp at hW; (unfold noteWindow; try simp [hW]) <;> repeat' ((first | split | apply forAll_step | apply forAll_keep | apply foldl_step | apply foldl_keep | intro _) <;> try simp [hW])

@[simp] theorem countFrozen_kept (i : Nat) (s : State) (hW : [.stages] ⊆ F) : Kept F s₀ (countFrozen i s) ↔ Kept F s₀ s := by
  simp at hW; (unfold countFrozen; try simp [hW]) <;> repeat' ((first | split | apply forAll_step | apply forAll_keep | apply foldl_step | apply foldl_keep | intro _) <;> try simp [hW])

@[simp] theorem takeFeedback_kept (i : Nat) (s : State) (hW : [.stages] ⊆ F) : Kept F s₀ (takeFeedback i s) ↔ Kept F s₀ s := by
  simp at hW; (unfold takeFeedback; try simp [hW]) <;> repeat' ((first | split | apply forAll_step | apply forAll_keep | apply foldl_step | apply foldl_keep | intro _) <;> try simp [hW])

@[simp] theorem takeBus_kept (n : Nat) (s : State) (hW : [.alloc] ⊆ F) : Kept F s₀ (takeBus n s) ↔ Kept F s₀ s := by
  simp at hW; (unfold takeBus; try simp [hW]) <;> repeat' ((first | split | apply forAll_step | apply forAll_keep | apply foldl_step | apply foldl_keep | intro _) <;> try simp [hW])

@[simp] theorem gateFault_kept (p : Nat) (s : State) (hW : [.outs, .flt, .stages, .paths, .pair, .acq, .rcd] ⊆ F) : Kept F s₀ (gateFault p s) ↔ Kept F s₀ s := by
  simp at hW; (unfold gateFault; try simp [hW]) <;> repeat' ((first | split | apply forAll_step | apply forAll_keep | apply foldl_step | apply foldl_keep | intro _) <;> try simp [hW])

@[simp] theorem nodeStop_kept (n m old new : Nat) (s : State) (hW : [.outs, .flt, .stages, .paths, .pair, .acq, .rcd] ⊆ F) : Kept F s₀ (nodeStop n m old new s) ↔ Kept F s₀ s := by
  simp at hW; (unfold nodeStop; try simp [hW]) <;> repeat' ((first | split | apply forAll_step | apply forAll_keep | apply foldl_step | apply foldl_keep | intro _) <;> try simp [hW])

@[simp] theorem nodeStatus_kept (n old0 old1 : Nat) (s : State) (hW : [.outs, .flt, .stages, .paths, .pair, .acq, .rcd] ⊆ F) : Kept F s₀ (nodeStatus n old0 old1 s) ↔ Kept F s₀ s := by
  simp at hW; (unfold nodeStatus; try simp [hW]) <;> repeat' ((first | split | apply forAll_step | apply forAll_keep | apply foldl_step | apply foldl_keep | intro _) <;> try simp [hW])

@[simp] theorem latchUplink_kept (n : Nat) (blocks : List Block) (s : State) (hW : [.outs, .flt, .stages, .alloc, .paths, .lanes, .pair, .acq, .thm, .rcd] ⊆ F) : Kept F s₀ (latchUplink n blocks s) ↔ Kept F s₀ s := by
  simp at hW; (unfold latchUplink; try simp [hW]) <;> repeat' ((first | split | apply forAll_step | apply forAll_keep | apply foldl_step | apply foldl_keep | intro _) <;> try simp [hW])

@[simp] theorem endFrozen_kept (i : Nat) (s : State) (hW : [.stages] ⊆ F) : Kept F s₀ (endFrozen i s) ↔ Kept F s₀ s := by
  simp at hW; (unfold endFrozen; try simp [hW]) <;> repeat' ((first | split | apply forAll_step | apply forAll_keep | apply foldl_step | apply foldl_keep | intro _) <;> try simp [hW])

@[simp] theorem missUplink_kept (n : Nat) (s : State) (hW : [.flt, .stages, .lanes, .acq, .rcd] ⊆ F) : Kept F s₀ (missUplink n s) ↔ Kept F s₀ s := by
  simp at hW; (unfold missUplink; try simp [hW]) <;> repeat' ((first | split | apply forAll_step | apply forAll_keep | apply foldl_step | apply foldl_keep | intro _) <;> try simp [hW])

@[simp] theorem laneActive_kept (n : Nat) (s : State) (hW : [.outs, .flt, .lanes, .pair, .acq, .rcd] ⊆ F) : Kept F s₀ (laneActive n s) ↔ Kept F s₀ s := by
  simp at hW; (unfold laneActive; try simp [hW]) <;> repeat' ((first | split | apply forAll_step | apply forAll_keep | apply foldl_step | apply foldl_keep | intro _) <;> try simp [hW])

@[simp] theorem trainPeriod_kept (n usable : Nat) (found : Option (List Block)) (s : State) (hW : [.outs, .flt, .stages, .alloc, .paths, .lanes, .pair, .acq, .thm, .rcd] ⊆ F) : Kept F s₀ (trainPeriod n usable found s) ↔ Kept F s₀ s := by
  simp at hW; (unfold trainPeriod; try simp [hW]) <;> repeat' ((first | split | apply forAll_step | apply forAll_keep | apply foldl_step | apply foldl_keep | intro _) <;> try simp [hW])

@[simp] theorem matchArrived_kept (n : Nat) (s : State) (hW : [.lanes] ⊆ F) : Kept F s₀ (matchArrived n s) ↔ Kept F s₀ s := by
  simp at hW; (unfold matchArrived; try simp [hW]) <;> repeat' ((first | split | apply forAll_step | apply forAll_keep | apply foldl_step | apply foldl_keep | intro _) <;> try simp [hW])

@[simp] theorem noteLoss_kept (n : Nat) (found : Option (List Block)) (s : State) (hW : [.pair] ⊆ F) : Kept F s₀ (noteLoss n found s) ↔ Kept F s₀ s := by
  simp at hW; (unfold noteLoss; try simp [hW]) <;> repeat' ((first | split | apply forAll_step | apply forAll_keep | apply foldl_step | apply foldl_keep | intro _) <;> try simp [hW])

@[simp] theorem uplinkLatchEffect_kept (n : Nat) (s : State) (hW : [.outs, .flt, .stages, .alloc, .paths, .lanes, .pair, .acq, .thm, .rcd] ⊆ F) : Kept F s₀ (uplinkLatchEffect n s) ↔ Kept F s₀ s := by
  simp at hW; (unfold uplinkLatchEffect; try simp [hW]) <;> repeat' ((first | split | apply forAll_step | apply forAll_keep | apply foldl_step | apply foldl_keep | intro _) <;> try simp [hW])

theorem execUplinkLatch_keeps {t : State} (lane : Nat) (s : State) (e : execUplinkLatch lane s = .next t) : ∃ u, t = settle u ∧ Kept [.outs, .freeIx, .pwr, .flt, .prof, .stages, .alloc, .paths, .lanes, .pair, .acq, .thm, .met, .veh, .rcd] s u := by
  unfold execUplinkLatch live at e; refine ctl_keeps ?_ e; (try simp) <;> repeat' ((first | split | apply forAll_keep | apply foldl_keep | intro _) <;> try simp)

@[simp] theorem startHandover_kept (kind least : Nat) (s : State) (hW : [.outs, .pair] ⊆ F) : Kept F s₀ (startHandover kind least s) ↔ Kept F s₀ s := by
  simp at hW; (unfold startHandover; try simp [hW]) <;> repeat' ((first | split | apply forAll_step | apply forAll_keep | apply foldl_step | apply foldl_keep | intro _) <;> try simp [hW])

@[simp] theorem laneLossStops_kept (n : Nat) (s : State) (hW : [.outs, .flt, .stages, .paths, .pair, .acq, .rcd] ⊆ F) : Kept F s₀ (laneLossStops n s) ↔ Kept F s₀ s := by
  simp at hW; (unfold laneLossStops; try simp [hW]) <;> repeat' ((first | split | apply forAll_step | apply forAll_keep | apply foldl_step | apply foldl_keep | intro _) <;> try simp [hW])

@[simp] theorem loseLane_kept (n payload : Nat) (s : State) (hW : [.outs, .flt, .stages, .paths, .lanes, .pair, .acq, .rcd] ⊆ F) : Kept F s₀ (loseLane n payload s) ↔ Kept F s₀ s := by
  simp at hW; (unfold loseLane; try simp [hW]) <;> repeat' ((first | split | apply forAll_step | apply forAll_keep | apply foldl_step | apply foldl_keep | intro _) <;> try simp [hW])

theorem execLaneLost_keeps {t : State} (lane : Nat) (s : State) (e : execLaneLost lane s = .next t) : ∃ u, t = settle u ∧ Kept [.outs, .freeIx, .flt, .stages, .alloc, .paths, .lanes, .pair, .acq, .met, .veh, .rcd] s u := by
  unfold execLaneLost live at e; refine ctl_keeps ?_ e; (try simp) <;> repeat' ((first | split | apply forAll_keep | apply foldl_keep | intro _) <;> try simp)

@[simp] theorem State.modPairLane_kept (k : Nat) (f : PairLane → PairLane) (s : State) (hW : [.pair] ⊆ F) : Kept F s₀ (State.modPairLane k f s) ↔ Kept F s₀ s := by
  simp at hW; (unfold State.modPairLane; try simp [hW]) <;> repeat' ((first | split | apply forAll_step | apply forAll_keep | apply foldl_step | apply foldl_keep | intro _) <;> try simp [hW])

@[simp] theorem pairLaneLock_kept (k : Nat) (lock : Bool) (s : State) (hW : [.outs, .freeIx, .flt, .stages, .alloc, .paths, .pair, .acq, .sw, .met, .veh, .rcd, .auth] ⊆ F) : Kept F s₀ (pairLaneLock k lock s) ↔ Kept F s₀ s := by
  simp at hW; (unfold pairLaneLock; try simp [hW]) <;> repeat' ((first | split | apply forAll_step | apply forAll_keep | apply foldl_step | apply foldl_keep | intro _) <;> try simp [hW])

@[simp] theorem blockLockLossEffect_kept (n : Nat) (s : State) (hW : [.outs, .freeIx, .flt, .stages, .alloc, .paths, .lanes, .pair, .acq, .sw, .met, .veh, .rcd, .auth] ⊆ F) : Kept F s₀ (blockLockLossEffect n s) ↔ Kept F s₀ s := by
  simp at hW; (unfold blockLockLossEffect; try simp [hW]) <;> repeat' ((first | split | apply forAll_step | apply forAll_keep | apply foldl_step | apply foldl_keep | intro _) <;> try simp [hW])

theorem execBlockLockLoss_keeps {t : State} (lane : Nat) (s : State) (e : execBlockLockLoss lane s = .next t) : ∃ u, t = settle u ∧ Kept [.outs, .freeIx, .flt, .stages, .alloc, .paths, .lanes, .pair, .acq, .sw, .met, .veh, .rcd, .auth] s u := by
  unfold execBlockLockLoss live at e; refine ctl_keeps ?_ e; (try simp) <;> repeat' ((first | split | apply forAll_keep | apply foldl_keep | intro _) <;> try simp)

@[simp] theorem blockLockEffect_kept (n : Nat) (s : State) (hW : [.outs, .freeIx, .flt, .stages, .alloc, .paths, .lanes, .pair, .acq, .sw, .met, .veh, .rcd, .auth] ⊆ F) : Kept F s₀ (blockLockEffect n s) ↔ Kept F s₀ s := by
  simp at hW; (unfold blockLockEffect; try simp [hW]) <;> repeat' ((first | split | apply forAll_step | apply forAll_keep | apply foldl_step | apply foldl_keep | intro _) <;> try simp [hW])

theorem execBlockLock_keeps {t : State} (lane : Nat) (s : State) (e : execBlockLock lane s = .next t) : ∃ u, t = settle u ∧ Kept [.outs, .freeIx, .flt, .stages, .alloc, .paths, .lanes, .pair, .acq, .sw, .met, .veh, .rcd, .auth] s u := by
  unfold execBlockLock live at e; refine ctl_keeps ?_ e; (try simp) <;> repeat' ((first | split | apply forAll_keep | apply foldl_keep | intro _) <;> try simp)

@[simp] theorem laneTrainReqEffect_kept (n : Nat) (s : State) (hW : [.outs, .lanes] ⊆ F) : Kept F s₀ (laneTrainReqEffect n s) ↔ Kept F s₀ s := by
  simp at hW; (unfold laneTrainReqEffect; try simp [hW]) <;> repeat' ((first | split | apply forAll_step | apply forAll_keep | apply foldl_step | apply foldl_keep | intro _) <;> try simp [hW])

@[simp] theorem pairTrainReqEffect_kept (k : Nat) (s : State) (hW : [.outs, .pair] ⊆ F) : Kept F s₀ (pairTrainReqEffect k s) ↔ Kept F s₀ s := by
  simp at hW; (unfold pairTrainReqEffect; try simp [hW]) <;> repeat' ((first | split | apply forAll_step | apply forAll_keep | apply foldl_step | apply foldl_keep | intro _) <;> try simp [hW])

theorem execTrainReqSend_keeps {t : State} (lane : Nat) (s : State) (e : execTrainReqSend lane s = .next t) : ∃ u, t = settle u ∧ Kept [.outs, .lanes, .pair] s u := by
  unfold execTrainReqSend live at e; refine ctl_keeps ?_ e; (try simp) <;> repeat' ((first | split | apply forAll_keep | apply foldl_keep | intro _) <;> try simp)

@[simp] theorem refuseLane_kept (n cause : Nat) (payload : List Byte) (s : State) (hW : [.outs, .flt, .lanes, .pair, .acq, .rcd] ⊆ F) : Kept F s₀ (refuseLane n cause payload s) ↔ Kept F s₀ s := by
  simp at hW; (unfold refuseLane; try simp [hW]) <;> repeat' ((first | split | apply forAll_step | apply forAll_keep | apply foldl_step | apply foldl_keep | intro _) <;> try simp [hW])

@[simp] theorem phaseTrainAck_kept (n : Nat) (blocks : List Block) (arrivedAt : Nat) (s : State) (hW : [.outs, .flt, .lanes, .pair, .acq, .rcd] ⊆ F) : Kept F s₀ (phaseTrainAck n blocks arrivedAt s) ↔ Kept F s₀ s := by
  simp at hW; (unfold phaseTrainAck; try simp [hW]) <;> repeat' ((first | split | apply forAll_step | apply forAll_keep | apply foldl_step | apply foldl_keep | intro _) <;> try simp [hW])

@[simp] theorem pairTrainAck_kept (k : Nat) (blocks : List Block) (arrivedAt : Nat) (s : State) (hW : [.pair] ⊆ F) : Kept F s₀ (pairTrainAck k blocks arrivedAt s) ↔ Kept F s₀ s := by
  simp at hW; (unfold pairTrainAck; try simp [hW]) <;> repeat' ((first | split | apply forAll_step | apply forAll_keep | apply foldl_step | apply foldl_keep | intro _) <;> try simp [hW])

@[simp] theorem trainAckEffect_kept (n : Nat) (type : Byte) (blocks : List Block) (arrivedAt : Nat) (s : State) (hW : [.outs, .flt, .lanes, .pair, .acq, .rcd] ⊆ F) : Kept F s₀ (trainAckEffect n type blocks arrivedAt s) ↔ Kept F s₀ s := by
  simp at hW; (unfold trainAckEffect; try simp [hW]) <;> repeat' ((first | split | apply forAll_step | apply forAll_keep | apply foldl_step | apply foldl_keep | intro _) <;> try simp [hW])

theorem execTrainAck_keeps {t : State} (lane : Nat) (type : Byte) (blocks : List Block) (arrivedAt : Nat) (s : State) (e : execTrainAck lane type blocks arrivedAt s = .next t) : ∃ u, t = settle u ∧ Kept [.outs, .freeIx, .flt, .prof, .stages, .alloc, .paths, .lanes, .pair, .acq, .met, .veh, .rcd] s u := by
  unfold execTrainAck live at e; refine ctl_keeps ?_ e; (try simp) <;> repeat' ((first | split | apply forAll_keep | apply foldl_keep | intro _) <;> try simp)

@[simp] theorem trainTimeoutEffect_kept (n : Nat) (s : State) (hW : [.flt, .lanes, .acq, .rcd] ⊆ F) : Kept F s₀ (trainTimeoutEffect n s) ↔ Kept F s₀ s := by
  simp at hW; (unfold trainTimeoutEffect; try simp [hW]) <;> repeat' ((first | split | apply forAll_step | apply forAll_keep | apply foldl_step | apply foldl_keep | intro _) <;> try simp [hW])

theorem execTrainTimeout_keeps {t : State} (lane : Nat) (s : State) (e : execTrainTimeout lane s = .next t) : ∃ u, t = settle u ∧ Kept [.flt, .lanes, .acq, .rcd] s u := by
  unfold execTrainTimeout live at e; refine ctl_keeps ?_ e; (try simp) <;> repeat' ((first | split | apply forAll_keep | apply foldl_keep | intro _) <;> try simp)

@[simp] theorem refusedRetryEffect_kept (n : Nat) (s : State) (hW : [.outs, .lanes, .pair] ⊆ F) : Kept F s₀ (refusedRetryEffect n s) ↔ Kept F s₀ s := by
  simp at hW; (unfold refusedRetryEffect; try simp [hW]) <;> repeat' ((first | split | apply forAll_step | apply forAll_keep | apply foldl_step | apply foldl_keep | intro _) <;> try simp [hW])

@[simp] theorem pairRetryEffect_kept (k : Nat) (s : State) (hW : [.pair] ⊆ F) : Kept F s₀ (pairRetryEffect k s) ↔ Kept F s₀ s := by
  simp at hW; (unfold pairRetryEffect; try simp [hW]) <;> repeat' ((first | split | apply forAll_step | apply forAll_keep | apply foldl_step | apply foldl_keep | intro _) <;> try simp [hW])

theorem execRefusedRetry_keeps {t : State} (lane : Nat) (s : State) (e : execRefusedRetry lane s = .next t) : ∃ u, t = settle u ∧ Kept [.outs, .lanes, .pair] s u := by
  unfold execRefusedRetry live at e; refine ctl_keeps ?_ e; (try simp) <;> repeat' ((first | split | apply forAll_keep | apply foldl_keep | intro _) <;> try simp)

@[simp] theorem retrain_kept (n : Nat) (s : State) (hW : [.lanes] ⊆ F) : Kept F s₀ (retrain n s) ↔ Kept F s₀ s := by
  simp at hW; (unfold retrain; try simp [hW]) <;> repeat' ((first | split | apply forAll_step | apply forAll_keep | apply foldl_step | apply foldl_keep | intro _) <;> try simp [hW])

@[simp] theorem lanesForProfile_kept (again : Nat → Bool) (s : State) (hW : [.lanes] ⊆ F) : Kept F s₀ (lanesForProfile again s) ↔ Kept F s₀ s := by
  simp at hW; (unfold lanesForProfile; try simp [hW]) <;> repeat' ((first | split | apply forAll_step | apply forAll_keep | apply foldl_step | apply foldl_keep | intro _) <;> try simp [hW])

@[simp] theorem lanesSleep_kept (s : State) (hW : [.lanes] ⊆ F) : Kept F s₀ (lanesSleep s) ↔ Kept F s₀ s := by
  simp at hW; (unfold lanesSleep; try simp [hW]) <;> repeat' ((first | split | apply forAll_step | apply forAll_keep | apply foldl_step | apply foldl_keep | intro _) <;> try simp [hW])

@[simp] theorem lanesAwake_kept (s : State) (hW : [.lanes] ⊆ F) : Kept F s₀ (lanesAwake s) ↔ Kept F s₀ s := Kept.iff (v := [.lanes]) (kept_iff.2 <| by intro p hp; cases p <;> first | rfl | exact ⟨rfl, rfl⟩ | exact absurd (by decide) hp) hW

@[simp] theorem lanesWake_kept (s : State) (hW : [.lanes] ⊆ F) : Kept F s₀ (lanesWake s) ↔ Kept F s₀ s := Kept.iff (v := [.lanes]) (kept_iff.2 <| by intro p hp; cases p <;> first | rfl | exact ⟨rfl, rfl⟩ | exact absurd (by decide) hp) hW

end Sys2Proof.Machine
end

