-- ==== Sys2Proof/Laws/FramePath.lean ====
section
/-! SUPPORT. Frames of the operations of Path: what each may change. -/

set_option linter.all false

namespace Sys2Proof.Machine

variable {F : List Part} {s₀ : State}

@[simp] theorem portUp_kept (o : Nat) (s : State) (hW : [.outs, .freeIx, .flt, .paths, .pair, .acq, .rcd] ⊆ F) : Kept F s₀ (portUp o s) ↔ Kept F s₀ s := by
  simp at hW; (unfold portUp; try simp [hW]) <;> repeat' ((first | split | apply forAll_step | apply forAll_keep | apply foldl_step | apply foldl_keep | intro _) <;> try simp [hW])

theorem execSpLinkUp_keeps {t : State} (outlet : Nat) (s : State) (e : execSpLinkUp outlet s = .next t) : ∃ u, t = settle u ∧ Kept [.outs, .freeIx, .pwr, .flt, .stages, .alloc, .paths, .pair, .acq, .met, .veh, .rcd] s u := by
  unfold execSpLinkUp pathRow live at e; refine ctl_keeps ?_ e; (try simp) <;> repeat' ((first | split | apply forAll_keep | apply foldl_keep | intro _) <;> try simp)

@[simp] theorem portDown_kept (o : Nat) (s : State) (hW : [.outs, .freeIx, .flt, .paths, .pair, .acq, .rcd] ⊆ F) : Kept F s₀ (portDown o s) ↔ Kept F s₀ s := by
  simp at hW; (unfold portDown; try simp [hW]) <;> repeat' ((first | split | apply forAll_step | apply forAll_keep | apply foldl_step | apply foldl_keep | intro _) <;> try simp [hW])

theorem execSpLinkDown_keeps {t : State} (outlet : Nat) (s : State) (e : execSpLinkDown outlet s = .next t) : ∃ u, t = settle u ∧ Kept [.outs, .freeIx, .pwr, .flt, .stages, .alloc, .paths, .pair, .acq, .met, .veh, .rcd] s u := by
  unfold execSpLinkDown pathRow live at e; refine ctl_keeps ?_ e; (try simp) <;> repeat' ((first | split | apply forAll_keep | apply foldl_keep | intro _) <;> try simp)

@[simp] theorem discardFrame_kept (o : Nat) (s : State) (hW : [.flt, .paths] ⊆ F) : Kept F s₀ (discardFrame o s) ↔ Kept F s₀ s := by
  simp at hW; (unfold discardFrame; try simp [hW]) <;> repeat' ((first | split | apply forAll_step | apply forAll_keep | apply foldl_step | apply foldl_keep | intro _) <;> try simp [hW])

@[simp] theorem supersedeWaiting_kept (o : Nat) (t : List Byte) (s : State) (hW : [.outs, .prof, .paths, .pair] ⊆ F) : Kept F s₀ (supersedeWaiting o t s) ↔ Kept F s₀ s := by
  simp at hW; (unfold supersedeWaiting; try simp [hW]) <;> repeat' ((first | split | apply forAll_step | apply forAll_keep | apply foldl_step | apply foldl_keep | intro _) <;> try simp [hW])

@[simp] theorem takeNew_kept (o : Nat) (t : List Byte) (s : State) (hW : [.outs, .flt, .prof, .paths, .pair, .acq, .rcd] ⊆ F) : Kept F s₀ (takeNew o t s) ↔ Kept F s₀ s := by
  simp at hW; (unfold takeNew; try simp [hW]) <;> repeat' ((first | split | apply forAll_step | apply forAll_keep | apply foldl_step | apply foldl_keep | intro _) <;> try simp [hW])

@[simp] theorem takeTarget_kept (o : Nat) (f : List Byte) (s : State) (hW : [.outs, .flt, .prof, .paths, .pair, .acq, .rcd] ⊆ F) : Kept F s₀ (takeTarget o f s) ↔ Kept F s₀ s := by
  simp at hW; (unfold takeTarget; try simp [hW]) <;> repeat' ((first | split | apply forAll_step | apply forAll_keep | apply foldl_step | apply foldl_keep | intro _) <;> try simp [hW])

@[simp] theorem portFrame_kept (o : Nat) (f : List Byte) (s : State) (hW : [.outs, .freeIx, .flt, .prof, .paths, .pair, .acq, .rcd] ⊆ F) : Kept F s₀ (portFrame o f s) ↔ Kept F s₀ s := by
  simp at hW; (unfold portFrame; try simp [hW]) <;> repeat' ((first | split | apply forAll_step | apply forAll_keep | apply foldl_step | apply foldl_keep | intro _) <;> try simp [hW])

theorem execTargetStop_keeps {t : State} (outlet : Nat) (frame : List Byte) (s : State) (e : execTargetStop outlet frame s = .next t) : ∃ u, t = settle u ∧ Kept [.outs, .freeIx, .pwr, .flt, .prof, .stages, .alloc, .paths, .pair, .acq, .met, .veh, .rcd] s u := by
  unfold execTargetStop pathRow live at e; refine ctl_keeps ?_ e; (try simp) <;> repeat' ((first | split | apply forAll_keep | apply foldl_keep | intro _) <;> try simp)

theorem execTargetConnect_keeps {t : State} (outlet : Nat) (frame : List Byte) (s : State) (e : execTargetConnect outlet frame s = .next t) : ∃ u, t = settle u ∧ Kept [.outs, .freeIx, .pwr, .flt, .prof, .stages, .alloc, .paths, .pair, .acq, .met, .veh, .rcd] s u := by
  unfold execTargetConnect pathRow live at e; refine ctl_keeps ?_ e; (try simp) <;> repeat' ((first | split | apply forAll_keep | apply foldl_keep | intro _) <;> try simp)

theorem execTargetCheck_keeps {t : State} (outlet : Nat) (frame : List Byte) (s : State) (e : execTargetCheck outlet frame s = .next t) : ∃ u, t = settle u ∧ Kept [.outs, .freeIx, .pwr, .flt, .prof, .stages, .alloc, .paths, .pair, .acq, .met, .veh, .rcd] s u := by
  unfold execTargetCheck pathRow live at e; refine ctl_keeps ?_ e; (try simp) <;> repeat' ((first | split | apply forAll_keep | apply foldl_keep | intro _) <;> try simp)

theorem execTargetPrecharge_keeps {t : State} (outlet : Nat) (frame : List Byte) (s : State) (e : execTargetPrecharge outlet frame s = .next t) : ∃ u, t = settle u ∧ Kept [.outs, .freeIx, .pwr, .flt, .prof, .stages, .alloc, .paths, .pair, .acq, .met, .veh, .rcd] s u := by
  unfold execTargetPrecharge pathRow live at e; refine ctl_keeps ?_ e; (try simp) <;> repeat' ((first | split | apply forAll_keep | apply foldl_keep | intro _) <;> try simp)

theorem execTargetCharge_keeps {t : State} (outlet : Nat) (frame : List Byte) (s : State) (e : execTargetCharge outlet frame s = .next t) : ∃ u, t = settle u ∧ Kept [.outs, .freeIx, .pwr, .flt, .prof, .stages, .alloc, .paths, .pair, .acq, .met, .veh, .rcd] s u := by
  unfold execTargetCharge pathRow live at e; refine ctl_keeps ?_ e; (try simp) <;> repeat' ((first | split | apply forAll_keep | apply foldl_keep | intro _) <;> try simp)

theorem execTargetPause_keeps {t : State} (outlet : Nat) (frame : List Byte) (s : State) (e : execTargetPause outlet frame s = .next t) : ∃ u, t = settle u ∧ Kept [.outs, .freeIx, .pwr, .flt, .prof, .stages, .alloc, .paths, .pair, .acq, .met, .veh, .rcd] s u := by
  unfold execTargetPause pathRow live at e; refine ctl_keeps ?_ e; (try simp) <;> repeat' ((first | split | apply forAll_keep | apply foldl_keep | intro _) <;> try simp)

theorem execStatusPeriod_keeps {t : State} (outlet : Nat) (s : State) (e : execStatusPeriod outlet s = .next t) : ∃ u, t = settle u ∧ Kept [.outs] s u := by
  unfold execStatusPeriod live at e; refine ctl_keeps ?_ e; (try simp) <;> repeat' ((first | split | apply forAll_keep | apply foldl_keep | intro _) <;> try simp)

@[simp] theorem portTimeoutEffect_kept (o : Nat) (s : State) (hW : [.outs, .flt, .paths, .pair, .acq, .rcd] ⊆ F) : Kept F s₀ (portTimeoutEffect o s) ↔ Kept F s₀ s := by
  simp at hW; (unfold portTimeoutEffect; try simp [hW]) <;> repeat' ((first | split | apply forAll_step | apply forAll_keep | apply foldl_step | apply foldl_keep | intro _) <;> try simp [hW])

theorem execPortTimeout_keeps {t : State} (outlet : Nat) (s : State) (e : execPortTimeout outlet s = .next t) : ∃ u, t = settle u ∧ Kept [.outs, .freeIx, .pwr, .flt, .stages, .alloc, .paths, .pair, .acq, .met, .veh, .rcd] s u := by
  unfold execPortTimeout pathRow live at e; refine ctl_keeps ?_ e; (try simp) <;> repeat' ((first | split | apply forAll_keep | apply foldl_keep | intro _) <;> try simp)

@[simp] theorem leaveRate_kept (o : Nat) (s : State) (hW : [.flt, .paths, .acq, .rcd] ⊆ F) : Kept F s₀ (leaveRate o s) ↔ Kept F s₀ s := by
  simp at hW; (unfold leaveRate; try simp [hW]) <;> repeat' ((first | split | apply forAll_step | apply forAll_keep | apply foldl_step | apply foldl_keep | intro _) <;> try simp [hW])

@[simp] theorem followInlet_kept (o : Nat) (s : State) (hW : [.paths] ⊆ F) : Kept F s₀ (followInlet o s) ↔ Kept F s₀ s := by
  simp at hW; (unfold followInlet; try simp [hW]) <;> repeat' ((first | split | apply forAll_step | apply forAll_keep | apply foldl_step | apply foldl_keep | intro _) <;> try simp [hW])

@[simp] theorem tickOutlet_kept (o : Nat) (s : State) (hW : [.flt, .paths, .acq, .rcd] ⊆ F) : Kept F s₀ (tickOutlet o s) ↔ Kept F s₀ s := by
  simp at hW; (unfold tickOutlet; try simp [hW]) <;> repeat' ((first | split | apply forAll_step | apply forAll_keep | apply foldl_step | apply foldl_keep | intro _) <;> try simp [hW])

theorem execGeneratorTick_keeps {t : State} (s : State) (e : execGeneratorTick s = .next t) : ∃ u, t = settle u ∧ Kept [.flt, .stages, .paths, .acq, .rcd] s u := by
  unfold execGeneratorTick live at e; refine ctl_keeps ?_ e; (try simp) <;> repeat' ((first | split | apply forAll_keep | apply foldl_keep | intro _) <;> try simp)

@[simp] theorem ackDecisionEffect_kept (o : Nat) (s : State) (hW : [.outs, .paths, .pair] ⊆ F) : Kept F s₀ (ackDecisionEffect o s) ↔ Kept F s₀ s := by
  simp at hW; (unfold ackDecisionEffect; try simp [hW]) <;> repeat' ((first | split | apply forAll_step | apply forAll_keep | apply foldl_step | apply foldl_keep | intro _) <;> try simp [hW])

theorem execAckDecision_keeps {t : State} (outlet : Nat) (s : State) (e : execAckDecision outlet s = .next t) : ∃ u, t = settle u ∧ Kept [.outs, .freeIx, .pwr, .flt, .stages, .alloc, .paths, .pair, .acq, .met, .veh, .rcd] s u := by
  unfold execAckDecision pathRow live at e; refine ctl_keeps ?_ e; (try simp) <;> repeat' ((first | split | apply forAll_keep | apply foldl_keep | intro _) <;> try simp)

@[simp] theorem notReachedEffect_kept (o : Nat) (s : State) (hW : [.outs, .paths, .pair] ⊆ F) : Kept F s₀ (notReachedEffect o s) ↔ Kept F s₀ s := by
  simp at hW; (unfold notReachedEffect; try simp [hW]) <;> repeat' ((first | split | apply forAll_step | apply forAll_keep | apply foldl_step | apply foldl_keep | intro _) <;> try simp [hW])

theorem execNotReached_keeps {t : State} (outlet : Nat) (s : State) (e : execNotReached outlet s = .next t) : ∃ u, t = settle u ∧ Kept [.outs, .freeIx, .pwr, .flt, .stages, .alloc, .paths, .pair, .acq, .met, .veh, .rcd] s u := by
  unfold execNotReached pathRow live at e; refine ctl_keeps ?_ e; (try simp) <;> repeat' ((first | split | apply forAll_keep | apply foldl_keep | intro _) <;> try simp)

@[simp] theorem connectMatchEffect_kept (o : Nat) (s : State) (hW : [.paths] ⊆ F) : Kept F s₀ (connectMatchEffect o s) ↔ Kept F s₀ s := by
  simp at hW; (unfold connectMatchEffect; try simp [hW]) <;> repeat' ((first | split | apply forAll_step | apply forAll_keep | apply foldl_step | apply foldl_keep | intro _) <;> try simp [hW])

theorem execConnectMatch_keeps {t : State} (outlet : Nat) (s : State) (e : execConnectMatch outlet s = .next t) : ∃ u, t = settle u ∧ Kept [.outs, .freeIx, .pwr, .flt, .stages, .alloc, .paths, .pair, .acq, .met, .veh, .rcd] s u := by
  unfold execConnectMatch pathRow live at e; refine ctl_keeps ?_ e; (try simp) <;> repeat' ((first | split | apply forAll_keep | apply foldl_keep | intro _) <;> try simp)

@[simp] theorem verifiedClosedEffect_kept (o : Nat) (s : State) (hW : [.outs, .flt, .paths, .pair, .acq, .rcd] ⊆ F) : Kept F s₀ (verifiedClosedEffect o s) ↔ Kept F s₀ s := by
  simp at hW; (unfold verifiedClosedEffect; try simp [hW]) <;> repeat' ((first | split | apply forAll_step | apply forAll_keep | apply foldl_step | apply foldl_keep | intro _) <;> try simp [hW])

theorem execContactorVerifiedClosed_keeps {t : State} (outlet : Nat) (s : State) (e : execContactorVerifiedClosed outlet s = .next t) : ∃ u, t = settle u ∧ Kept [.outs, .freeIx, .pwr, .flt, .stages, .alloc, .paths, .pair, .acq, .met, .veh, .rcd] s u := by
  unfold execContactorVerifiedClosed pathRow live at e; refine ctl_keeps ?_ e; (try simp) <;> repeat' ((first | split | apply forAll_keep | apply foldl_keep | intro _) <;> try simp)

@[simp] theorem connectTimeoutEffect_kept (o : Nat) (s : State) (hW : [.outs, .flt, .paths, .pair, .acq, .rcd] ⊆ F) : Kept F s₀ (connectTimeoutEffect o s) ↔ Kept F s₀ s := by
  simp at hW; (unfold connectTimeoutEffect; try simp [hW]) <;> repeat' ((first | split | apply forAll_step | apply forAll_keep | apply foldl_step | apply foldl_keep | intro _) <;> try simp [hW])

theorem execConnectTimeout_keeps {t : State} (outlet : Nat) (s : State) (e : execConnectTimeout outlet s = .next t) : ∃ u, t = settle u ∧ Kept [.outs, .freeIx, .pwr, .flt, .stages, .alloc, .paths, .pair, .acq, .met, .veh, .rcd] s u := by
  unfold execConnectTimeout pathRow live at e; refine ctl_keeps ?_ e; (try simp) <;> repeat' ((first | split | apply forAll_keep | apply foldl_keep | intro _) <;> try simp)

@[simp] theorem closeTimeoutEffect_kept (o : Nat) (s : State) (hW : [.outs, .flt, .paths, .pair, .acq, .rcd] ⊆ F) : Kept F s₀ (closeTimeoutEffect o s) ↔ Kept F s₀ s := by
  simp at hW; (unfold closeTimeoutEffect; try simp [hW]) <;> repeat' ((first | split | apply forAll_step | apply forAll_keep | apply foldl_step | apply foldl_keep | intro _) <;> try simp [hW])

theorem execContactorCloseTimeout_keeps {t : State} (outlet : Nat) (s : State) (e : execContactorCloseTimeout outlet s = .next t) : ∃ u, t = settle u ∧ Kept [.outs, .freeIx, .pwr, .flt, .stages, .alloc, .paths, .pair, .acq, .met, .veh, .rcd] s u := by
  unfold execContactorCloseTimeout pathRow live at e; refine ctl_keeps ?_ e; (try simp) <;> repeat' ((first | split | apply forAll_keep | apply foldl_keep | intro _) <;> try simp)

@[simp] theorem startDischarge_kept (o : Nat) (s : State) (hW : [.paths] ⊆ F) : Kept F s₀ (startDischarge o s) ↔ Kept F s₀ s := by
  simp at hW; (unfold startDischarge; try simp [hW]) <;> repeat' ((first | split | apply forAll_step | apply forAll_keep | apply foldl_step | apply foldl_keep | intro _) <;> try simp [hW])

@[simp] theorem currentLowEffect_kept (o : Nat) (s : State) (hW : [.flt, .paths, .acq, .rcd] ⊆ F) : Kept F s₀ (currentLowEffect o s) ↔ Kept F s₀ s := by
  simp at hW; (unfold currentLowEffect; try simp [hW]) <;> repeat' ((first | split | apply forAll_step | apply forAll_keep | apply foldl_step | apply foldl_keep | intro _) <;> try simp [hW])

theorem execOutletCurrentLow_keeps {t : State} (outlet : Nat) (s : State) (e : execOutletCurrentLow outlet s = .next t) : ∃ u, t = settle u ∧ Kept [.outs, .freeIx, .pwr, .flt, .stages, .alloc, .paths, .pair, .acq, .met, .veh, .rcd] s u := by
  unfold execOutletCurrentLow pathRow live at e; refine ctl_keeps ?_ e; (try simp) <;> repeat' ((first | split | apply forAll_keep | apply foldl_keep | intro _) <;> try simp)

@[simp] theorem verifiedOpenEffect_kept (o : Nat) (s : State) (hW : [.paths] ⊆ F) : Kept F s₀ (verifiedOpenEffect o s) ↔ Kept F s₀ s := by
  simp at hW; (unfold verifiedOpenEffect; try simp [hW]) <;> repeat' ((first | split | apply forAll_step | apply forAll_keep | apply foldl_step | apply foldl_keep | intro _) <;> try simp [hW])

theorem execContactorVerifiedOpen_keeps {t : State} (outlet : Nat) (s : State) (e : execContactorVerifiedOpen outlet s = .next t) : ∃ u, t = settle u ∧ Kept [.outs, .freeIx, .pwr, .flt, .stages, .alloc, .paths, .pair, .acq, .met, .veh, .rcd] s u := by
  unfold execContactorVerifiedOpen pathRow live at e; refine ctl_keeps ?_ e; (try simp) <;> repeat' ((first | split | apply forAll_keep | apply foldl_keep | intro _) <;> try simp)

@[simp] theorem openTimeoutEffect_kept (o : Nat) (s : State) (hW : [.outs, .flt, .stages, .paths, .pair, .acq, .rcd] ⊆ F) : Kept F s₀ (openTimeoutEffect o s) ↔ Kept F s₀ s := by
  simp at hW; (unfold openTimeoutEffect; try simp [hW]) <;> repeat' ((first | split | apply forAll_step | apply forAll_keep | apply foldl_step | apply foldl_keep | intro _) <;> try simp [hW])

theorem execContactorOpenTimeout_keeps {t : State} (outlet : Nat) (s : State) (e : execContactorOpenTimeout outlet s = .next t) : ∃ u, t = settle u ∧ Kept [.outs, .freeIx, .pwr, .flt, .stages, .alloc, .paths, .pair, .acq, .met, .veh, .rcd] s u := by
  unfold execContactorOpenTimeout pathRow live at e; refine ctl_keeps ?_ e; (try simp) <;> repeat' ((first | split | apply forAll_keep | apply foldl_keep | intro _) <;> try simp)

@[simp] theorem dischargeReachedEffect_kept (o : Nat) (s : State) (hW : [.paths] ⊆ F) : Kept F s₀ (dischargeReachedEffect o s) ↔ Kept F s₀ s := by
  simp at hW; (unfold dischargeReachedEffect; try simp [hW]) <;> repeat' ((first | split | apply forAll_step | apply forAll_keep | apply foldl_step | apply foldl_keep | intro _) <;> try simp [hW])

theorem execDischargeReached_keeps {t : State} (outlet : Nat) (s : State) (e : execDischargeReached outlet s = .next t) : ∃ u, t = settle u ∧ Kept [.outs, .freeIx, .pwr, .flt, .stages, .alloc, .paths, .pair, .acq, .met, .veh, .rcd] s u := by
  unfold execDischargeReached pathRow live at e; refine ctl_keeps ?_ e; (try simp) <;> repeat' ((first | split | apply forAll_keep | apply foldl_keep | intro _) <;> try simp)

@[simp] theorem dischargeCompleteEffect_kept (o : Nat) (s : State) (hW : [.outs, .flt, .paths, .pair, .acq, .rcd] ⊆ F) : Kept F s₀ (dischargeCompleteEffect o s) ↔ Kept F s₀ s := by
  simp at hW; (unfold dischargeCompleteEffect; try simp [hW]) <;> repeat' ((first | split | apply forAll_step | apply forAll_keep | apply foldl_step | apply foldl_keep | intro _) <;> try simp [hW])

theorem execDischargeComplete_keeps {t : State} (outlet : Nat) (s : State) (e : execDischargeComplete outlet s = .next t) : ∃ u, t = settle u ∧ Kept [.outs, .freeIx, .pwr, .flt, .stages, .alloc, .paths, .pair, .acq, .met, .veh, .rcd] s u := by
  unfold execDischargeComplete pathRow live at e; refine ctl_keeps ?_ e; (try simp) <;> repeat' ((first | split | apply forAll_keep | apply foldl_keep | intro _) <;> try simp)

@[simp] theorem stopTimeoutEffect_kept (o : Nat) (s : State) (hW : [.outs, .flt, .stages, .paths, .pair, .acq, .rcd] ⊆ F) : Kept F s₀ (stopTimeoutEffect o s) ↔ Kept F s₀ s := by
  simp at hW; (unfold stopTimeoutEffect; try simp [hW]) <;> repeat' ((first | split | apply forAll_step | apply forAll_keep | apply foldl_step | apply foldl_keep | intro _) <;> try simp [hW])

theorem execStopTimeout_keeps {t : State} (outlet : Nat) (s : State) (e : execStopTimeout outlet s = .next t) : ∃ u, t = settle u ∧ Kept [.outs, .freeIx, .pwr, .flt, .stages, .alloc, .paths, .pair, .acq, .met, .veh, .rcd] s u := by
  unfold execStopTimeout pathRow live at e; refine ctl_keeps ?_ e; (try simp) <;> repeat' ((first | split | apply forAll_keep | apply foldl_keep | intro _) <;> try simp)

@[simp] theorem shortStart_kept (o i : Nat) (s : State) (hW : [.outs, .flt, .stages, .paths, .pair, .acq, .rcd] ⊆ F) : Kept F s₀ (shortStart o i s) ↔ Kept F s₀ s := by
  simp at hW; (unfold shortStart; try simp [hW]) <;> repeat' ((first | split | apply forAll_step | apply forAll_keep | apply foldl_step | apply foldl_keep | intro _) <;> try simp [hW])

@[simp] theorem shortEffect_kept (i : Nat) (s : State) (hW : [.outs, .flt, .stages, .paths, .pair, .acq, .rcd] ⊆ F) : Kept F s₀ (shortEffect i s) ↔ Kept F s₀ s := by
  simp at hW; (unfold shortEffect; try simp [hW]) <;> repeat' ((first | split | apply forAll_step | apply forAll_keep | apply foldl_step | apply foldl_keep | intro _) <;> try simp [hW])

theorem execShortAtStart_keeps {t : State} (stage : Nat) (s : State) (e : execShortAtStart stage s = .next t) : ∃ u, t = settle u ∧ Kept [.outs, .freeIx, .pwr, .flt, .stages, .alloc, .paths, .pair, .acq, .met, .veh, .rcd] s u := by
  unfold execShortAtStart live at e; refine ctl_keeps ?_ e; (try simp) <;> repeat' ((first | split | apply forAll_keep | apply foldl_keep | intro _) <;> try simp)

@[simp] theorem phaseCheckEffect_kept (i : Nat) (s : State) (hW : [.outs, .flt, .stages, .paths, .pair, .acq, .rcd] ⊆ F) : Kept F s₀ (phaseCheckEffect i s) ↔ Kept F s₀ s := by
  simp at hW; (unfold phaseCheckEffect; try simp [hW]) <;> repeat' ((first | split | apply forAll_step | apply forAll_keep | apply foldl_step | apply foldl_keep | intro _) <;> try simp [hW])

theorem execPhaseCheckWindow_keeps {t : State} (stage : Nat) (s : State) (e : execPhaseCheckWindow stage s = .next t) : ∃ u, t = settle u ∧ Kept [.outs, .freeIx, .pwr, .flt, .stages, .alloc, .paths, .pair, .acq, .met, .veh, .rcd] s u := by
  unfold execPhaseCheckWindow live at e; refine ctl_keeps ?_ e; (try simp) <;> repeat' ((first | split | apply forAll_keep | apply foldl_keep | intro _) <;> try simp)

theorem execPhaseSenseFailed_keeps {t : State} (stage phase : Nat) (s : State) (e : execPhaseSenseFailed stage phase s = .next t) : ∃ u, t = settle u ∧ Kept [.outs, .freeIx, .pwr, .flt, .stages, .alloc, .paths, .pair, .acq, .met, .veh, .rcd] s u := by
  unfold execPhaseSenseFailed live at e; refine ctl_keeps ?_ e; (try simp) <;> repeat' ((first | split | apply forAll_keep | apply foldl_keep | intro _) <;> try simp)

end Sys2Proof.Machine
end

