-- ==== Sys2Proof/Laws/FrameProfileCheck.lean ====
section
/-! SUPPORT. Frames of the operations of ProfileCheck: what each may change. -/

set_option linter.all false

namespace Sys2Proof.Machine

variable {F : List Part} {s₀ : State}

@[simp] theorem State.withImage_kept (s : State) (img : List Byte) (hW : [.prof] ⊆ F) : Kept F s₀ (State.withImage s img) ↔ Kept F s₀ s := Kept.iff (v := [.prof]) (kept_iff.2 <| by intro p hp; cases p <;> first | rfl | exact ⟨rfl, rfl⟩ | exact absurd (by decide) hp) hW

end Sys2Proof.Machine
end

