-- ==== Sys2Proof/Laws/FramePowerOps.lean ====
section
/-! SUPPORT. Frames of the operations of PowerOps: what each may change. -/

set_option linter.all false

namespace Sys2Proof.Machine

variable {F : List Part} {s₀ : State}

@[simp] theorem stopClocks_kept (s : State) (hW : [.outs, .pwr, .host] ⊆ F) : Kept F s₀ (stopClocks s) ↔ Kept F s₀ s := by
  simp at hW; (unfold stopClocks; try simp [hW]) <;> repeat' ((first | split | apply forAll_step | apply forAll_keep | apply foldl_step | apply foldl_keep | intro _) <;> try simp [hW])

@[simp] theorem enterSleep_kept (s : State) (hW : [.outs, .pwr, .host, .lanes, .plc] ⊆ F) : Kept F s₀ (enterSleep s) ↔ Kept F s₀ s := by
  simp at hW; (unfold enterSleep; try simp [hW]) <;> repeat' ((first | split | apply forAll_step | apply forAll_keep | apply foldl_step | apply foldl_keep | intro _) <;> try simp [hW])

@[simp] theorem restartDoze_kept (s : State) (hW : [.pwr] ⊆ F) : Kept F s₀ (restartDoze s) ↔ Kept F s₀ s := by
  simp at hW; (unfold restartDoze; try simp [hW]) <;> repeat' ((first | split | apply forAll_step | apply forAll_keep | apply foldl_step | apply foldl_keep | intro _) <;> try simp [hW])

@[simp] theorem backToDoze_kept (s : State) (hW : [.outs, .freeIx, .pwr, .flt, .stages, .alloc, .paths, .lanes, .pair, .acq, .sw, .met, .veh, .rcd, .auth] ⊆ F) : Kept F s₀ (backToDoze s) ↔ Kept F s₀ s := by
  simp at hW; (unfold backToDoze; try simp [hW]) <;> repeat' ((first | split | apply forAll_step | apply forAll_keep | apply foldl_step | apply foldl_keep | intro _) <;> try simp [hW])

@[simp] theorem wakeUp_kept (mask : BitVec 10) (s : State) (hW : [.outs, .freeIx, .pwr, .host, .flt, .stages, .alloc, .paths, .lanes, .pair, .acq, .thm, .sw, .met, .veh, .can, .rcd, .auth] ⊆ F) : Kept F s₀ (wakeUp mask s) ↔ Kept F s₀ s := by
  simp at hW; (unfold wakeUp; try simp [hW]) <;> repeat' ((first | split | apply forAll_step | apply forAll_keep | apply foldl_step | apply foldl_keep | intro _) <;> try simp [hW])

@[simp] theorem resetLogic_kept (s : State) (hW : [.pwr, .host, .flt, .prof, .stages, .alloc, .paths, .law, .lanes, .pair, .acq, .thm, .sw, .veh, .key, .can, .plc, .rcd, .auth, .opState, .rings, .faults] ⊆ F) : Kept F s₀ (resetLogic s) ↔ Kept F s₀ s := Kept.iff (v := [.pwr, .host, .flt, .prof, .stages, .alloc, .paths, .law, .lanes, .pair, .acq, .thm, .sw, .veh, .key, .can, .plc, .rcd, .auth, .opState, .rings, .faults]) (kept_iff.2 <| by intro p hp; cases p <;> first | rfl | exact ⟨rfl, rfl⟩ | exact absurd (by decide) hp) hW

@[simp] theorem holdReset_kept (s : State) (hW : [.pwr, .host, .flt, .prof, .stages, .alloc, .paths, .law, .lanes, .pair, .acq, .thm, .sw, .veh, .key, .can, .plc, .rcd, .auth, .opState, .rings, .faults] ⊆ F) : Kept F s₀ (holdReset s) ↔ Kept F s₀ s := by
  simp at hW; (unfold holdReset; try simp [hW]) <;> repeat' ((first | split | apply forAll_step | apply forAll_keep | apply foldl_step | apply foldl_keep | intro _) <;> try simp [hW])

@[simp] theorem releaseReset_kept (cause : Nat) (straps : Straps) (s : State) (hW : [.pwr, .host, .flt, .prof, .stages, .alloc, .paths, .law, .lanes, .pair, .acq, .thm, .sw, .veh, .key, .can, .plc, .rcd, .auth, .opState, .rings, .faults] ⊆ F) : Kept F s₀ (releaseReset cause straps s) ↔ Kept F s₀ s := by
  simp at hW; (unfold releaseReset; try simp [hW]) <;> repeat' ((first | split | apply forAll_step | apply forAll_keep | apply foldl_step | apply foldl_keep | intro _) <;> try simp [hW])

@[simp] theorem tryRelease_kept (cause : Nat) (straps : Straps) (s : State) (hW : [.pwr, .host, .flt, .prof, .stages, .alloc, .paths, .law, .lanes, .pair, .acq, .thm, .sw, .veh, .key, .can, .plc, .rcd, .auth, .opState, .rings, .faults] ⊆ F) : Kept F s₀ (tryRelease cause straps s) ↔ Kept F s₀ s := by
  simp at hW; (unfold tryRelease; try simp [hW]) <;> repeat' ((first | split | apply forAll_step | apply forAll_keep | apply foldl_step | apply foldl_keep | intro _) <;> try simp [hW])

@[simp] theorem loadParams_kept (s : State) (hW : [.flt, .paths, .acq, .rcd] ⊆ F) : Kept F s₀ (loadParams s) ↔ Kept F s₀ s := by
  simp at hW; (unfold loadParams; try simp [hW]) <;> repeat' ((first | split | apply forAll_step | apply forAll_keep | apply foldl_step | apply foldl_keep | intro _) <;> try simp [hW])

@[simp] theorem pairForProfile_kept (s : State) (hW : [.outs, .freeIx, .pair, .key] ⊆ F) : Kept F s₀ (pairForProfile s) ↔ Kept F s₀ s := by
  simp at hW; (unfold pairForProfile; try simp [hW]) <;> repeat' ((first | split | apply forAll_step | apply forAll_keep | apply foldl_step | apply foldl_keep | intro _) <;> try simp [hW])

@[simp] theorem takeProfile_kept (slot : Nat) (img : List Byte) (s : State) (hW : [.outs, .freeIx, .host, .flt, .prof, .paths, .law, .lanes, .pair, .acq, .thm, .sw, .key, .can, .plc, .rcd, .rings] ⊆ F) : Kept F s₀ (takeProfile slot img s) ↔ Kept F s₀ s := by
  simp at hW; (unfold takeProfile; try simp [hW]) <;> repeat' ((first | split | apply forAll_step | apply forAll_keep | apply foldl_step | apply foldl_keep | intro _) <;> try simp [hW])

@[simp] theorem startBank_kept (bank : Nat) (s : State) (hW : [.key] ⊆ F) : Kept F s₀ (startBank bank s) ↔ Kept F s₀ s := by
  simp at hW; (unfold startBank; try simp [hW]) <;> repeat' ((first | split | apply forAll_step | apply forAll_keep | apply foldl_step | apply foldl_keep | intro _) <;> try simp [hW])

@[simp] theorem slotsUnder_kept (img : Option (List Byte)) (s : State) (hW : [.key] ⊆ F) : Kept F s₀ (slotsUnder img s) ↔ Kept F s₀ s := by
  simp at hW; (unfold slotsUnder; try simp [hW]) <;> repeat' ((first | split | apply forAll_step | apply forAll_keep | apply foldl_step | apply foldl_keep | intro _) <;> try simp [hW])

@[simp] theorem loadAtBoot_kept (slot : Nat) (img : List Byte) (s : State) (hW : [.flt, .prof, .paths, .law, .lanes, .acq, .thm, .sw, .rcd] ⊆ F) : Kept F s₀ (loadAtBoot slot img s) ↔ Kept F s₀ s := by
  simp at hW; (unfold loadAtBoot; try simp [hW]) <;> repeat' ((first | split | apply forAll_step | apply forAll_keep | apply foldl_step | apply foldl_keep | intro _) <;> try simp [hW])

@[simp] theorem leaveBoot_kept (refused : Bool) (s : State) (hW : [.pwr, .opState] ⊆ F) : Kept F s₀ (leaveBoot refused s) ↔ Kept F s₀ s := by
  simp at hW; (unfold leaveBoot; try simp [hW]) <;> repeat' ((first | split | apply forAll_step | apply forAll_keep | apply foldl_step | apply foldl_keep | intro _) <;> try simp [hW])

@[simp] theorem startEvents_kept (s : State) (hW : [.outs, .pwr, .host, .flt, .acq, .thm, .rcd] ⊆ F) : Kept F s₀ (startEvents s) ↔ Kept F s₀ s := by
  simp at hW; (unfold startEvents; try simp [hW]) <;> repeat' ((first | split | apply forAll_step | apply forAll_keep | apply foldl_step | apply foldl_keep | intro _) <;> try simp [hW])

@[simp] theorem firmwareEvents_kept (wanted : Option Nat) (s : State) (hW : [.flt, .acq, .key, .rcd] ⊆ F) : Kept F s₀ (firmwareEvents wanted s) ↔ Kept F s₀ s := by
  simp at hW; (unfold firmwareEvents; try simp [hW]) <;> repeat' ((first | split | apply forAll_step | apply forAll_keep | apply foldl_step | apply foldl_keep | intro _) <;> try simp [hW])

@[simp] theorem startBlocks_kept (s : State) (hW : [.outs, .flt, .stages, .paths, .pair, .acq, .sw, .met, .key, .can, .rcd, .auth] ⊆ F) : Kept F s₀ (startBlocks s) ↔ Kept F s₀ s := by
  simp at hW; (unfold startBlocks; try simp [hW]) <;> repeat' ((first | split | apply forAll_step | apply forAll_keep | apply foldl_step | apply foldl_keep | intro _) <;> try simp [hW])

@[simp] theorem endBoot_kept (bank : Nat) (s : State) (hW : [.outs, .pwr, .host, .flt, .prof, .stages, .paths, .law, .lanes, .pair, .acq, .thm, .sw, .met, .key, .can, .rcd, .auth, .opState, .faults] ⊆ F) : Kept F s₀ (endBoot bank s) ↔ Kept F s₀ s := by
  simp at hW; (unfold endBoot; try simp [hW]) <;> repeat' ((first | split | apply forAll_step | apply forAll_keep | apply foldl_step | apply foldl_keep | intro _) <;> try simp [hW])

end Sys2Proof.Machine
end

