-- ==== Sys2Proof/Laws/FrameCan.lean ====
section
/-! SUPPORT. Frames of the operations of Can: what each may change. -/

set_option linter.all false

namespace Sys2Proof.Machine

variable {F : List Part} {s₀ : State}

@[simp] theorem fifoPut_kept (n : Nat) (e : CanRx) (s : State) (hW : [.flt, .acq, .can, .rcd] ⊆ F) : Kept F s₀ (fifoPut n e s) ↔ Kept F s₀ s := by
  simp at hW; (unfold fifoPut; try simp [hW]) <;> repeat' ((first | split | apply forAll_step | apply forAll_keep | apply foldl_step | apply foldl_keep | intro _) <;> try simp [hW])

@[simp] theorem storeFrame_kept (n : Nat) (f : CanFrame) (s : State) (hW : [.flt, .acq, .can, .rcd] ⊆ F) : Kept F s₀ (storeFrame n f s) ↔ Kept F s₀ s := by
  simp at hW; (unfold storeFrame; try simp [hW]) <;> repeat' ((first | split | apply forAll_step | apply forAll_keep | apply foldl_step | apply foldl_keep | intro _) <;> try simp [hW])

@[simp] theorem detectFrame_kept (n : Nat) (f : CanFrame) (s : State) (hW : [.flt, .acq, .can, .rcd] ⊆ F) : Kept F s₀ (detectFrame n f s) ↔ Kept F s₀ s := by
  simp at hW; (unfold detectFrame; try simp [hW]) <;> repeat' ((first | split | apply forAll_step | apply forAll_keep | apply foldl_step | apply foldl_keep | intro _) <;> try simp [hW])

@[simp] theorem frameReceiveEffect_kept (n : Nat) (f : CanFrame) (s : State) (hW : [.flt, .acq, .can, .rcd] ⊆ F) : Kept F s₀ (frameReceiveEffect n f s) ↔ Kept F s₀ s := by
  simp at hW; (unfold frameReceiveEffect; try simp [hW]) <;> repeat' ((first | split | apply forAll_step | apply forAll_keep | apply foldl_step | apply foldl_keep | intro _) <;> try simp [hW])

theorem execCanFrameReceive_keeps {t : State} (c : Nat) (frame : CanFrame) (s : State) (e : execCanFrameReceive c frame s = .next t) : ∃ u, t = settle u ∧ Kept [.flt, .acq, .can, .rcd] s u := by
  unfold execCanFrameReceive canRow live at e; refine ctl_keeps ?_ e; (try simp) <;> repeat' ((first | split | apply forAll_keep | apply foldl_keep | intro _) <;> try simp)

theorem execCanRxRingWrite_keeps {t : State} (c : Nat) (s : State) (e : execCanRxRingWrite c s = .next t) : ∃ u, t = settle u ∧ Kept [.outs, .host, .can] s u := by
  unfold execCanRxRingWrite canRow live at e; refine ctl_keeps ?_ e; (try simp) <;> repeat' ((first | split | apply forAll_keep | apply foldl_keep | intro _) <;> try simp)

@[simp] theorem txCompleteEffect_kept (n : Nat) (s : State) (hW : [.outs, .freeIx, .host, .flt, .acq, .can, .rcd, .rings] ⊆ F) : Kept F s₀ (txCompleteEffect n s) ↔ Kept F s₀ s := by
  simp at hW; (unfold txCompleteEffect; try simp [hW]) <;> repeat' ((first | split | apply forAll_step | apply forAll_keep | apply foldl_step | apply foldl_keep | intro _) <;> try simp [hW])

theorem execCanTxComplete_keeps {t : State} (c : Nat) (s : State) (e : execCanTxComplete c s = .next t) : ∃ u, t = settle u ∧ Kept [.outs, .freeIx, .host, .flt, .acq, .can, .rcd, .rings] s u := by
  unfold execCanTxComplete canRow live at e; refine ctl_keeps ?_ e; (try simp) <;> repeat' ((first | split | apply forAll_keep | apply foldl_keep | intro _) <;> try simp)

@[simp] theorem attemptEnd_kept (n : Nat) (loss : Bool) (s : State) (hW : [.flt, .acq, .can, .rcd] ⊆ F) : Kept F s₀ (attemptEnd n loss s) ↔ Kept F s₀ s := by
  simp at hW; (unfold attemptEnd; try simp [hW]) <;> repeat' ((first | split | apply forAll_step | apply forAll_keep | apply foldl_step | apply foldl_keep | intro _) <;> try simp [hW])

@[simp] theorem detectError_kept (n : Nat) (h : CanHappening) (s : State) (hW : [.flt, .acq, .can, .rcd] ⊆ F) : Kept F s₀ (detectError n h s) ↔ Kept F s₀ s := by
  simp at hW; (unfold detectError; try simp [hW]) <;> repeat' ((first | split | apply forAll_step | apply forAll_keep | apply foldl_step | apply foldl_keep | intro _) <;> try simp [hW])

@[simp] theorem canErrorEffect_kept (n : Nat) (h : CanHappening) (s : State) (hW : [.outs, .freeIx, .host, .flt, .stages, .paths, .pair, .acq, .veh, .can, .rcd, .rings] ⊆ F) : Kept F s₀ (canErrorEffect n h s) ↔ Kept F s₀ s := by
  simp at hW; (unfold canErrorEffect; try simp [hW]) <;> repeat' ((first | split | apply forAll_step | apply forAll_keep | apply foldl_step | apply foldl_keep | intro _) <;> try simp [hW])

theorem execCanError_keeps {t : State} (c : Nat) (what : CanHappening) (s : State) (e : execCanError c what s = .next t) : ∃ u, t = settle u ∧ Kept [.outs, .freeIx, .host, .flt, .stages, .alloc, .paths, .pair, .acq, .met, .veh, .can, .rcd, .rings] s u := by
  unfold execCanError canRow live at e; refine ctl_keeps ?_ e; (try simp) <;> repeat' ((first | split | apply forAll_keep | apply foldl_keep | intro _) <;> try simp)

theorem execBusOffRecoveryDone_keeps {t : State} (c : Nat) (s : State) (e : execBusOffRecoveryDone c s = .next t) : ∃ u, t = settle u ∧ Kept [.flt, .acq, .can, .rcd] s u := by
  unfold execBusOffRecoveryDone canRow live at e; refine ctl_keeps ?_ e; (try simp) <;> repeat' ((first | split | apply forAll_keep | apply foldl_keep | intro _) <;> try simp)

@[simp] theorem recoverWrite_kept (n : Nat) (v : Word) (s : State) (hW : [.can] ⊆ F) : Kept F s₀ (recoverWrite n v s) ↔ Kept F s₀ s := by
  simp at hW; (unfold recoverWrite; try simp [hW]) <;> repeat' ((first | split | apply forAll_step | apply forAll_keep | apply foldl_step | apply foldl_keep | intro _) <;> try simp [hW])

@[simp] theorem redetectWrite_kept (n : Nat) (v : Word) (s : State) (hW : [.outs, .freeIx, .host, .can, .rings] ⊆ F) : Kept F s₀ (redetectWrite n v s) ↔ Kept F s₀ s := by
  simp at hW; (unfold redetectWrite; try simp [hW]) <;> repeat' ((first | split | apply forAll_step | apply forAll_keep | apply foldl_step | apply foldl_keep | intro _) <;> try simp [hW])

@[simp] theorem canCmdWrite_kept (n : Nat) (v : Word) (s : State) (hW : [.outs, .freeIx, .host, .can, .rings] ⊆ F) : Kept F s₀ (canCmdWrite n v s) ↔ Kept F s₀ s := by
  simp at hW; (unfold canCmdWrite; try simp [hW]) <;> repeat' ((first | split | apply forAll_step | apply forAll_keep | apply foldl_step | apply foldl_keep | intro _) <;> try simp [hW])

theorem execRecover_keeps {t : State} (c : Nat) (value : Word) (s : State) (e : execRecover c value s = .next t) : ∃ u, t = settle u ∧ Kept [.outs, .freeIx, .pwr, .host, .flt, .stages, .alloc, .paths, .lanes, .pair, .acq, .thm, .sw, .met, .veh, .can, .rcd, .auth, .rings] s u := by
  unfold execRecover hostRow at e; refine ctl_keeps ?_ e; (try simp) <;> repeat' ((first | split | apply forAll_keep | apply foldl_keep | intro _) <;> try simp)

theorem execRedetect_keeps {t : State} (c : Nat) (value : Word) (s : State) (e : execRedetect c value s = .next t) : ∃ u, t = settle u ∧ Kept [.outs, .freeIx, .pwr, .host, .flt, .stages, .alloc, .paths, .lanes, .pair, .acq, .thm, .sw, .met, .veh, .can, .rcd, .auth, .rings] s u := by
  unfold execRedetect hostRow at e; refine ctl_keeps ?_ e; (try simp) <;> repeat' ((first | split | apply forAll_keep | apply foldl_keep | intro _) <;> try simp)

theorem execDetectWindowExpiry_keeps {t : State} (c : Nat) (s : State) (e : execDetectWindowExpiry c s = .next t) : ∃ u, t = settle u ∧ Kept [.flt, .acq, .can, .rcd] s u := by
  unfold execDetectWindowExpiry canRow live at e; refine ctl_keeps ?_ e; (try simp) <;> repeat' ((first | split | apply forAll_keep | apply foldl_keep | intro _) <;> try simp)

theorem execCanRestrictedExit_keeps {t : State} (c : Nat) (s : State) (e : execCanRestrictedExit c s = .next t) : ∃ u, t = settle u ∧ Kept [.can] s u := by
  unfold execCanRestrictedExit canRow live at e; refine ctl_keeps ?_ e; (try simp) <;> repeat' ((first | split | apply forAll_keep | apply foldl_keep | intro _) <;> try simp)

@[simp] theorem canSendOp_kept (d : Desc) (s : State) (hW : [.host, .can, .rings] ⊆ F) : Kept F s₀ (canSendOp d s).1 ↔ Kept F s₀ s := by
  simp at hW; (unfold canSendOp; try simp [hW]) <;> repeat' ((first | split | apply forAll_step | apply forAll_keep | apply foldl_step | apply foldl_keep | intro _) <;> try simp [hW])

theorem execCanSend_keeps {t : State} (d : Desc) (s : State) (e : execCanSend d s = .next t) : ∃ u, t = settle u ∧ Kept [.outs, .freeIx, .host, .flt, .pair, .acq, .can, .rcd, .rings, .faults] s u := by
  unfold execCanSend live at e; refine ctl_keeps ?_ e; (try simp) <;> repeat' ((first | split | apply forAll_keep | apply foldl_keep | intro _) <;> try simp)

end Sys2Proof.Machine
end

