-- ==== Sys2Proof/Laws/FrameHost.lean ====
section
/-! SUPPORT. Frames of the operations of Host: what each may change. -/

set_option linter.all false

namespace Sys2Proof.Machine

variable {F : List Part} {s₀ : State}

@[simp] theorem pcieResetEffect_kept (s : State) (hW : [.host, .flt, .acq, .can, .plc, .rcd, .rings] ⊆ F) : Kept F s₀ (pcieResetEffect s) ↔ Kept F s₀ s := by
  simp at hW; (unfold pcieResetEffect; try simp [hW]) <;> repeat' ((first | split | apply forAll_step | apply forAll_keep | apply foldl_step | apply foldl_keep | intro _) <;> try simp [hW])

theorem execPcieReset_keeps {t : State} (s : State) (e : execPcieReset s = .next t) : ∃ u, t = settle u ∧ Kept [.host, .flt, .acq, .can, .plc, .rcd, .rings] s u := by
  unfold execPcieReset endpointRow at e; refine ctl_keeps ?_ e; (try simp) <;> repeat' ((first | split | apply forAll_keep | apply foldl_keep | intro _) <;> try simp)

@[simp] theorem pcieUpEffect_kept (gen width maxRead : Nat) (s : State) (hW : [.host, .flt, .acq, .rcd, .rings] ⊆ F) : Kept F s₀ (pcieUpEffect gen width maxRead s) ↔ Kept F s₀ s := by
  simp at hW; (unfold pcieUpEffect; try simp [hW]) <;> repeat' ((first | split | apply forAll_step | apply forAll_keep | apply foldl_step | apply foldl_keep | intro _) <;> try simp [hW])

theorem execPcieLinkUp_keeps {t : State} (gen width maxRead : Nat) (s : State) (e : execPcieLinkUp gen width maxRead s = .next t) : ∃ u, t = settle u ∧ Kept [.host, .flt, .acq, .rcd, .rings] s u := by
  unfold execPcieLinkUp endpointRow at e; refine ctl_keeps ?_ e; (try simp) <;> repeat' ((first | split | apply forAll_keep | apply foldl_keep | intro _) <;> try simp)

@[simp] theorem pcieDownEffect_kept (s : State) (hW : [.host, .flt, .acq, .rcd, .rings] ⊆ F) : Kept F s₀ (pcieDownEffect s) ↔ Kept F s₀ s := by
  simp at hW; (unfold pcieDownEffect; try simp [hW]) <;> repeat' ((first | split | apply forAll_step | apply forAll_keep | apply foldl_step | apply foldl_keep | intro _) <;> try simp [hW])

theorem execPcieLinkDown_keeps {t : State} (s : State) (e : execPcieLinkDown s = .next t) : ∃ u, t = settle u ∧ Kept [.host, .flt, .acq, .rcd, .rings] s u := by
  unfold execPcieLinkDown endpointRow at e; refine ctl_keeps ?_ e; (try simp) <;> repeat' ((first | split | apply forAll_keep | apply foldl_keep | intro _) <;> try simp)

@[simp] theorem ringsGoEffect_kept (value : Word) (s : State) (hW : [.host, .rings] ⊆ F) : Kept F s₀ (ringsGoEffect value s) ↔ Kept F s₀ s := by
  simp at hW; (unfold ringsGoEffect; try simp [hW]) <;> repeat' ((first | split | apply forAll_step | apply forAll_keep | apply foldl_step | apply foldl_keep | intro _) <;> try simp [hW])

theorem execRingsGo_keeps {t : State} (value : Word) (s : State) (e : execRingsGo value s = .next t) : ∃ u, t = settle u ∧ Kept [.outs, .freeIx, .pwr, .host, .flt, .stages, .alloc, .paths, .lanes, .pair, .acq, .thm, .sw, .met, .veh, .can, .rcd, .auth, .rings] s u := by
  unfold execRingsGo hostRow at e; refine ctl_keeps ?_ e; (try simp) <;> repeat' ((first | split | apply forAll_keep | apply foldl_keep | intro _) <;> try simp)

@[simp] theorem fetchEffect_kept (s : State) (hW : [.outs, .pwr, .host, .rings] ⊆ F) : Kept F s₀ (fetchEffect s) ↔ Kept F s₀ s := by
  simp at hW; (unfold fetchEffect; try simp [hW]) <;> repeat' ((first | split | apply forAll_step | apply forAll_keep | apply foldl_step | apply foldl_keep | intro _) <;> try simp [hW])

theorem execDoorbellFetch_keeps {t : State} (s : State) (e : execDoorbellFetch s = .next t) : ∃ u, t = settle u ∧ Kept [.outs, .pwr, .host, .rings] s u := by
  unfold execDoorbellFetch live at e; refine ctl_keeps ?_ e; (try simp) <;> repeat' ((first | split | apply forAll_keep | apply foldl_keep | intro _) <;> try simp)

theorem execDoorbellFetchComplete_keeps {t : State} (block : List Byte) (s : State) (e : execDoorbellFetchComplete block s = .next t) : ∃ u, t = settle u ∧ Kept [.outs, .host, .flt, .acq, .rcd, .rings] s u := by
  unfold execDoorbellFetchComplete live at e; refine ctl_keeps ?_ e; (try simp) <;> repeat' ((first | split | apply forAll_keep | apply foldl_keep | intro _) <;> try simp)

theorem execDoorbellFetchTimeout_keeps {t : State} (timedOut : Bool) (s : State) (e : execDoorbellFetchTimeout timedOut s = .next t) : ∃ u, t = settle u ∧ Kept [.host, .flt, .acq, .rcd, .rings] s u := by
  unfold execDoorbellFetchTimeout live at e; refine ctl_keeps ?_ e; (try simp) <;> repeat' ((first | split | apply forAll_keep | apply foldl_keep | intro _) <;> try simp)

@[simp] theorem tagResumeEffect_kept (n : Nat) (s : State) (hW : [.host, .rings] ⊆ F) : Kept F s₀ (tagResumeEffect n s) ↔ Kept F s₀ s := by
  simp at hW; (unfold tagResumeEffect; try simp [hW]) <;> repeat' ((first | split | apply forAll_step | apply forAll_keep | apply foldl_step | apply foldl_keep | intro _) <;> try simp [hW])

theorem execTagWaitResume_keeps {t : State} (ring : Nat) (s : State) (e : execTagWaitResume ring s = .next t) : ∃ u, t = settle u ∧ Kept [.host, .rings] s u := by
  unfold execTagWaitResume live at e; refine ctl_keeps ?_ e; (try simp) <;> repeat' ((first | split | apply forAll_keep | apply foldl_keep | intro _) <;> try simp)

theorem execEventQueueDrain_keeps {t : State} (s : State) (e : execEventQueueDrain s = .next t) : ∃ u, t = settle u ∧ Kept [.outs, .host, .flt] s u := by
  unfold execEventQueueDrain live at e; refine ctl_keeps ?_ e; (try simp) <;> repeat' ((first | split | apply forAll_keep | apply foldl_keep | intro _) <;> try simp)

@[simp] theorem coalesceEffect_kept (s : State) (hW : [.host, .can, .plc] ⊆ F) : Kept F s₀ (coalesceEffect s) ↔ Kept F s₀ s := by
  simp at hW; (unfold coalesceEffect; try simp [hW]) <;> repeat' ((first | split | apply forAll_step | apply forAll_keep | apply foldl_step | apply foldl_keep | intro _) <;> try simp [hW])

theorem execCoalesceTimerExpiry_keeps {t : State} (s : State) (e : execCoalesceTimerExpiry s = .next t) : ∃ u, t = settle u ∧ Kept [.host, .can, .plc] s u := by
  unfold execCoalesceTimerExpiry live at e; refine ctl_keeps ?_ e; (try simp) <;> repeat' ((first | split | apply forAll_keep | apply foldl_keep | intro _) <;> try simp)

@[simp] theorem nopOp_kept (x : Desc) (s : State) : Kept F s₀ (nopOp x s).1 ↔ Kept F s₀ s := by
  (unfold nopOp; try simp ) <;> repeat' ((first | split | apply forAll_step | apply forAll_keep | apply foldl_step | apply foldl_keep | intro _) <;> try simp )

theorem execNop_keeps {t : State} (d : Desc) (s : State) (e : execNop d s = .next t) : ∃ u, t = settle u ∧ Kept [.outs, .freeIx, .host, .flt, .pair, .acq, .rcd, .rings, .faults] s u := by
  unfold execNop live at e; refine ctl_keeps ?_ e; (try simp) <;> repeat' ((first | split | apply forAll_keep | apply foldl_keep | intro _) <;> try simp)

@[simp] theorem armRingOp_kept (d : Desc) (s : State) (hW : [.host, .rings] ⊆ F) : Kept F s₀ (armRingOp d s).1 ↔ Kept F s₀ s := by
  simp at hW; (unfold armRingOp; try simp [hW]) <;> repeat' ((first | split | apply forAll_step | apply forAll_keep | apply foldl_step | apply foldl_keep | intro _) <;> try simp [hW])

theorem execArmRing_keeps {t : State} (d : Desc) (s : State) (e : execArmRing d s = .next t) : ∃ u, t = settle u ∧ Kept [.outs, .freeIx, .host, .flt, .pair, .acq, .rcd, .rings, .faults] s u := by
  unfold execArmRing live at e; refine ctl_keeps ?_ e; (try simp) <;> repeat' ((first | split | apply forAll_keep | apply foldl_keep | intro _) <;> try simp)

@[simp] theorem ringResetOp_kept (d : Desc) (s : State) (hW : [.host, .rings] ⊆ F) : Kept F s₀ (ringResetOp d s).1 ↔ Kept F s₀ s := by
  simp at hW; (unfold ringResetOp; try simp [hW]) <;> repeat' ((first | split | apply forAll_step | apply forAll_keep | apply foldl_step | apply foldl_keep | intro _) <;> try simp [hW])

theorem execRingReset_keeps {t : State} (d : Desc) (s : State) (e : execRingReset d s = .next t) : ∃ u, t = settle u ∧ Kept [.outs, .freeIx, .host, .flt, .pair, .acq, .rcd, .rings, .faults] s u := by
  unfold execRingReset live at e; refine ctl_keeps ?_ e; (try simp) <;> repeat' ((first | split | apply forAll_keep | apply foldl_keep | intro _) <;> try simp)

@[simp] theorem releaseMaster_kept (m : Nat) (s : State) (hW : [.outs, .freeIx, .host, .flt, .stages, .alloc, .paths, .pair, .acq, .met, .veh, .rcd, .rings, .faults] ⊆ F) : Kept F s₀ (releaseMaster m s) ↔ Kept F s₀ s := by
  simp at hW; (unfold releaseMaster; try simp [hW]) <;> repeat' ((first | split | apply forAll_step | apply forAll_keep | apply foldl_step | apply foldl_keep | intro _) <;> try simp [hW])

@[simp] theorem releaseMasterOp_kept (d : Desc) (s : State) (hW : [.outs, .freeIx, .host, .flt, .stages, .alloc, .paths, .pair, .acq, .met, .veh, .rcd, .rings, .faults] ⊆ F) : Kept F s₀ (releaseMasterOp d s).1 ↔ Kept F s₀ s := by
  simp at hW; (unfold releaseMasterOp; try simp [hW]) <;> repeat' ((first | split | apply forAll_step | apply forAll_keep | apply foldl_step | apply foldl_keep | intro _) <;> try simp [hW])

theorem execReleaseMaster_keeps {t : State} (d : Desc) (s : State) (e : execReleaseMaster d s = .next t) : ∃ u, t = settle u ∧ Kept [.outs, .freeIx, .host, .flt, .stages, .alloc, .paths, .pair, .acq, .met, .veh, .rcd, .rings, .faults] s u := by
  unfold execReleaseMaster live at e; refine ctl_keeps ?_ e; (try simp) <;> repeat' ((first | split | apply forAll_keep | apply foldl_keep | intro _) <;> try simp)

@[simp] theorem safeEnterOp_kept (x : Desc) (s : State) (hW : [.outs, .freeIx, .pwr, .flt, .stages, .alloc, .paths, .law, .pair, .acq, .met, .veh, .rcd, .auth, .opState, .faults] ⊆ F) : Kept F s₀ (safeEnterOp x s).1 ↔ Kept F s₀ s := by
  simp at hW; (unfold safeEnterOp; try simp [hW]) <;> repeat' ((first | split | apply forAll_step | apply forAll_keep | apply foldl_step | apply foldl_keep | intro _) <;> try simp [hW])

theorem execSafeEnter_keeps {t : State} (d : Desc) (s : State) (e : execSafeEnter d s = .next t) : ∃ u, t = settle u ∧ Kept [.outs, .freeIx, .pwr, .host, .flt, .stages, .alloc, .paths, .law, .pair, .acq, .met, .veh, .rcd, .auth, .opState, .rings, .faults] s u := by
  unfold execSafeEnter live at e; refine ctl_keeps ?_ e; (try simp) <;> repeat' ((first | split | apply forAll_keep | apply foldl_keep | intro _) <;> try simp)

@[simp] theorem safeExitOp_kept (d : Desc) (s : State) (hW : [.outs, .pwr, .flt, .stages, .alloc, .paths, .pair, .acq, .sw, .rcd, .auth, .opState, .faults] ⊆ F) :
    Kept F s₀ (safeExitOp d s).1 ↔ Kept F s₀ s := by
  have k := leaveSafe_kept s (F := F) (s₀ := s₀) fun p hp => hW (by revert p; decide)
  unfold safeExitOp; split <;> rename_i e <;> rw [e] at k <;> simpa using k

theorem execSafeExit_keeps {t : State} (d : Desc) (s : State) (e : execSafeExit d s = .next t) : ∃ u, t = settle u ∧ Kept [.outs, .freeIx, .pwr, .host, .flt, .stages, .alloc, .paths, .pair, .acq, .sw, .rcd, .auth, .opState, .rings, .faults] s u := by
  unfold execSafeExit live at e; refine ctl_keeps ?_ e; (try simp) <;> repeat' ((first | split | apply forAll_keep | apply foldl_keep | intro _) <;> try simp)

@[simp] theorem ethSendOp_kept (d : Desc) (s : State) (hW : [.outs] ⊆ F) : Kept F s₀ (ethSendOp d s).1 ↔ Kept F s₀ s := by
  simp at hW; (unfold ethSendOp; try simp [hW]) <;> repeat' ((first | split | apply forAll_step | apply forAll_keep | apply foldl_step | apply foldl_keep | intro _) <;> try simp [hW])

theorem execEthSend_keeps {t : State} (d : Desc) (s : State) (e : execEthSend d s = .next t) : ∃ u, t = settle u ∧ Kept [.outs, .freeIx, .host, .flt, .pair, .acq, .rcd, .rings, .faults] s u := by
  unfold execEthSend live at e; refine ctl_keeps ?_ e; (try simp) <;> repeat' ((first | split | apply forAll_keep | apply foldl_keep | intro _) <;> try simp)

@[simp] theorem ethReceiveOp_kept (d : Desc) (s : State) (hW : [.host, .rings] ⊆ F) : Kept F s₀ (ethReceiveOp d s).1 ↔ Kept F s₀ s := by
  simp at hW; (unfold ethReceiveOp; try simp [hW]) <;> repeat' ((first | split | apply forAll_step | apply forAll_keep | apply foldl_step | apply foldl_keep | intro _) <;> try simp [hW])

theorem execEthReceive_keeps {t : State} (d : Desc) (s : State) (e : execEthReceive d s = .next t) : ∃ u, t = settle u ∧ Kept [.outs, .freeIx, .host, .flt, .pair, .acq, .rcd, .rings, .faults] s u := by
  unfold execEthReceive live at e; refine ctl_keeps ?_ e; (try simp) <;> repeat' ((first | split | apply forAll_keep | apply foldl_keep | intro _) <;> try simp)

@[simp] theorem dropFrame_kept (port : Nat) (s : State) (hW : [.host, .rings] ⊆ F) : Kept F s₀ (dropFrame port s) ↔ Kept F s₀ s := by
  simp at hW; (unfold dropFrame; try simp [hW]) <;> repeat' ((first | split | apply forAll_step | apply forAll_keep | apply foldl_step | apply foldl_keep | intro _) <;> try simp [hW])

@[simp] theorem ethFrameEffect_kept (port : Nat) (frame : List Byte) (s : State) (hW : [.outs, .freeIx, .host, .rings] ⊆ F) : Kept F s₀ (ethFrameEffect port frame s) ↔ Kept F s₀ s := by
  simp at hW; (unfold ethFrameEffect; try simp [hW]) <;> repeat' ((first | split | apply forAll_step | apply forAll_keep | apply foldl_step | apply foldl_keep | intro _) <;> try simp [hW])

theorem execEthFrameReceive_keeps {t : State} (port : Nat) (frame : List Byte) (s : State) (e : execEthFrameReceive port frame s = .next t) : ∃ u, t = settle u ∧ Kept [.outs, .freeIx, .host, .rings] s u := by
  unfold execEthFrameReceive live at e; refine ctl_keeps ?_ e; (try simp) <;> repeat' ((first | split | apply forAll_keep | apply foldl_keep | intro _) <;> try simp)

@[simp] theorem ptpLimit_kept (port : Nat) (offset : Int) (s : State) (hW : [.host, .flt, .acq, .rcd, .rings] ⊆ F) : Kept F s₀ (ptpLimit port offset s) ↔ Kept F s₀ s := by
  simp at hW; (unfold ptpLimit; try simp [hW]) <;> repeat' ((first | split | apply forAll_step | apply forAll_keep | apply foldl_step | apply foldl_keep | intro _) <;> try simp [hW])

@[simp] theorem State.modPtp_kept (f : Ptp → Ptp) (s : State) (hW : [.host, .rings] ⊆ F) : Kept F s₀ (State.modPtp f s) ↔ Kept F s₀ s := by
  simp at hW; (unfold State.modPtp; try simp [hW]) <;> repeat' ((first | split | apply forAll_step | apply forAll_keep | apply foldl_step | apply foldl_keep | intro _) <;> try simp [hW])

@[simp] theorem ptpOffset_kept (port : Nat) (offset : Int) (locked : Bool) (s : State) (hW : [.host, .flt, .acq, .civil, .rcd, .rings] ⊆ F) : Kept F s₀ (ptpOffset port offset locked s) ↔ Kept F s₀ s := by
  simp at hW; (unfold ptpOffset; try simp [hW]) <;> repeat' ((first | split | apply forAll_step | apply forAll_keep | apply foldl_step | apply foldl_keep | intro _) <;> try simp [hW])

@[simp] theorem ptpSync_kept (port : Nat) (utc origin corr ingress : Int) (locked : Bool) (s : State) (hW : [.outs, .host, .flt, .acq, .civil, .rcd, .rings] ⊆ F) : Kept F s₀ (ptpSync port utc origin corr ingress locked s) ↔ Kept F s₀ s := by
  simp at hW; (unfold ptpSync; try simp [hW]) <;> repeat' ((first | split | apply forAll_step | apply forAll_keep | apply foldl_step | apply foldl_keep | intro _) <;> try simp [hW])

@[simp] theorem ptpEffect_kept (port : Nat) (m : PtpMsg) (locked : Bool) (s : State) (hW : [.outs, .host, .flt, .acq, .civil, .rcd, .rings] ⊆ F) : Kept F s₀ (ptpEffect port m locked s) ↔ Kept F s₀ s := by
  simp at hW; (unfold ptpEffect; try simp [hW]) <;> repeat' ((first | split | apply forAll_step | apply forAll_keep | apply foldl_step | apply foldl_keep | intro _) <;> try simp [hW])

theorem execPtpMessageReceive_keeps {t : State} (port : Nat) (transport : PtpTransport) (msg : PtpMsg) (locked : Bool) (s : State) (e : execPtpMessageReceive port transport msg locked s = .next t) : ∃ u, t = settle u ∧ Kept [.outs, .host, .flt, .acq, .civil, .rcd, .rings] s u := by
  unfold execPtpMessageReceive live at e; refine ctl_keeps ?_ e; (try simp) <;> repeat' ((first | split | apply forAll_keep | apply foldl_keep | intro _) <;> try simp)

@[simp] theorem civilSecondEffect_kept (s : State) (hW : [.outs, .host, .rings] ⊆ F) : Kept F s₀ (civilSecondEffect s) ↔ Kept F s₀ s := by
  simp at hW; (unfold civilSecondEffect; try simp [hW]) <;> repeat' ((first | split | apply forAll_step | apply forAll_keep | apply foldl_step | apply foldl_keep | intro _) <;> try simp [hW])

theorem execCivilSecond_keeps {t : State} (s : State) (e : execCivilSecond s = .next t) : ∃ u, t = settle u ∧ Kept [.outs, .host, .rings] s u := by
  unfold execCivilSecond live at e; refine ctl_keeps ?_ e; (try simp) <;> repeat' ((first | split | apply forAll_keep | apply foldl_keep | intro _) <;> try simp)

@[simp] theorem ethLink_kept (port : Nat) (up : Bool) (s : State) (hW : [.outs, .freeIx, .host, .flt, .pair, .acq, .rcd, .rings] ⊆ F) : Kept F s₀ (ethLink port up s) ↔ Kept F s₀ s := by
  simp at hW; (unfold ethLink; try simp [hW]) <;> repeat' ((first | split | apply forAll_step | apply forAll_keep | apply foldl_step | apply foldl_keep | intro _) <;> try simp [hW])

theorem execEthLinkUp_keeps {t : State} (port : Nat) (s : State) (e : execEthLinkUp port s = .next t) : ∃ u, t = settle u ∧ Kept [.outs, .freeIx, .host, .flt, .pair, .acq, .rcd, .rings] s u := by
  unfold execEthLinkUp live at e; refine ctl_keeps ?_ e; (try simp) <;> repeat' ((first | split | apply forAll_keep | apply foldl_keep | intro _) <;> try simp)

theorem execEthLinkDown_keeps {t : State} (port : Nat) (s : State) (e : execEthLinkDown port s = .next t) : ∃ u, t = settle u ∧ Kept [.outs, .freeIx, .host, .flt, .pair, .acq, .rcd, .rings] s u := by
  unfold execEthLinkDown live at e; refine ctl_keeps ?_ e; (try simp) <;> repeat' ((first | split | apply forAll_keep | apply foldl_keep | intro _) <;> try simp)

@[simp] theorem plcFrozen_kept (s : State) (hW : [.outs, .freeIx, .host, .flt, .acq, .plc, .rcd, .rings] ⊆ F) : Kept F s₀ (plcFrozen s) ↔ Kept F s₀ s := by
  simp at hW; (unfold plcFrozen; try simp [hW]) <;> repeat' ((first | split | apply forAll_step | apply forAll_keep | apply foldl_step | apply foldl_keep | intro _) <;> try simp [hW])

@[simp] theorem frozenEffect_kept (m : Nat) (s : State) (hW : [.outs, .freeIx, .pwr, .host, .flt, .stages, .alloc, .paths, .law, .pair, .acq, .met, .veh, .plc, .rcd, .auth, .opState, .rings, .faults] ⊆ F) : Kept F s₀ (frozenEffect m s) ↔ Kept F s₀ s := by
  simp at hW; (unfold frozenEffect; try simp [hW]) <;> repeat' ((first | split | apply forAll_step | apply forAll_keep | apply foldl_step | apply foldl_keep | intro _) <;> try simp [hW])

@[simp] theorem violationEffect_kept (a : Access) (tag : Option (BitVec 7)) (s : State) (hW : [.outs, .freeIx, .pwr, .host, .flt, .stages, .alloc, .paths, .law, .pair, .acq, .met, .veh, .plc, .rcd, .auth, .opState, .rings, .faults] ⊆ F) : Kept F s₀ (violationEffect a tag s) ↔ Kept F s₀ s := by
  simp at hW; (unfold violationEffect; try simp [hW]) <;> repeat' ((first | split | apply forAll_step | apply forAll_keep | apply foldl_step | apply foldl_keep | intro _) <;> try simp [hW])

theorem execMasterViolation_keeps {t : State} (access : Access) (tag : Option (BitVec 7)) (s : State) (e : execMasterViolation access tag s = .next t) : ∃ u, t = settle u ∧ Kept [.outs, .freeIx, .pwr, .host, .flt, .stages, .alloc, .paths, .law, .pair, .acq, .met, .veh, .plc, .rcd, .auth, .opState, .rings, .faults] s u := by
  unfold execMasterViolation live at e; refine ctl_keeps ?_ e; (try simp) <;> repeat' ((first | split | apply forAll_keep | apply foldl_keep | intro _) <;> try simp)

@[simp] theorem secondTickEffect_kept (s : State) (hW : [.flt, .acq, .rcd] ⊆ F) : Kept F s₀ (secondTickEffect s) ↔ Kept F s₀ s := by
  simp at hW; (unfold secondTickEffect; try simp [hW]) <;> repeat' ((first | split | apply forAll_step | apply forAll_keep | apply foldl_step | apply foldl_keep | intro _) <;> try simp [hW])

theorem execEventSecondTick_keeps {t : State} (s : State) (e : execEventSecondTick s = .next t) : ∃ u, t = settle u ∧ Kept [.flt, .acq, .rcd] s u := by
  unfold execEventSecondTick live at e; refine ctl_keeps ?_ e; (try simp) <;> repeat' ((first | split | apply forAll_keep | apply foldl_keep | intro _) <;> try simp)

end Sys2Proof.Machine
end

