-- ==== Sys2Proof/Laws/FrameLawOps.lean ====
section
/-! SUPPORT. Frames of the operations of LawOps: what each may change. -/

set_option linter.all false

namespace Sys2Proof.Machine

variable {F : List Part} {s₀ : State}


end Sys2Proof.Machine
end

