-- ==== Sys2Proof/Laws/FrameMetrology.lean ====
section
/-! SUPPORT. Frames of the operations of Metrology: what each may change. -/

set_option linter.all false

namespace Sys2Proof.Machine

variable {F : List Part} {s₀ : State}

@[simp] theorem meterOp_kept {s : State} {f : Desc → State → MeterAnswer} {d : Desc} (h : [.outs, .host] ⊆ F)
    (hf : ∀ d s, Kept F s (f d s).1) : Kept F s₀ (meterOp f d s).1 ↔ Kept F s₀ s := by
  have k := (hf d s).iff (s := s₀) (fun _ h => h)
  simp at h; unfold meterOp; split <;> rename_i e <;> rw [e] at k <;> simpa [h] using k

@[simp] theorem meterRequest_kept {s : State} {f : Desc → State → MeterAnswer} {d : Desc} (h : [.outs, .host, .rings] ⊆ F)
    (hf : ∀ d s, Kept F s (f d s).1) : Kept F s₀ (meterRequest f d s).1 ↔ Kept F s₀ s := by
  simp at h; unfold meterRequest; split
  · exact meterOp_kept (by simp [h]) hf
  · split <;> simp [h]

@[simp] theorem runMeter_kept {op : OpInfo} {f : Desc → State → MeterAnswer} {d : Desc} {s : State}
    (h : [.outs, .freeIx, .host, .flt, .pair, .acq, .rcd, .rings, .faults] ⊆ F) (hf : ∀ d s, Kept F s (f d s).1) :
    Kept F s₀ (runDesc op (meterRequest f) d s) ↔ Kept F s₀ s :=
  runDesc_kept h fun d s => (meterRequest_kept (fun p hp => h (by revert p; decide)) hf).2 (Kept.refl _ _)

@[simp] theorem txnStartOp_kept (d : Desc) (s : State) (hW : [.outs, .freeIx, .flt, .pair, .acq, .met, .rcd] ⊆ F) : Kept F s₀ (txnStartOp d s).1 ↔ Kept F s₀ s := by
  simp at hW; (unfold txnStartOp; try simp [hW]) <;> repeat' ((first | split | apply forAll_step | apply forAll_keep | apply foldl_step | apply foldl_keep | intro _) <;> try simp [hW])

@[simp] theorem txnStopOp_kept (d : Desc) (s : State) (hW : [.outs, .freeIx, .flt, .pair, .acq, .met, .rcd] ⊆ F) : Kept F s₀ (txnStopOp d s).1 ↔ Kept F s₀ s := by
  simp at hW; (unfold txnStopOp; try simp [hW]) <;> repeat' ((first | split | apply forAll_step | apply forAll_keep | apply foldl_step | apply foldl_keep | intro _) <;> try simp [hW])

@[simp] theorem readRegistersOp_kept (d : Desc) (s : State) (hW : [.freeIx] ⊆ F) : Kept F s₀ (readRegistersOp d s).1 ↔ Kept F s₀ s := by
  simp at hW; (unfold readRegistersOp; try simp [hW]) <;> repeat' ((first | split | apply forAll_step | apply forAll_keep | apply foldl_step | apply foldl_keep | intro _) <;> try simp [hW])

@[simp] theorem readRecordOp_kept (d : Desc) (s : State) : Kept F s₀ (readRecordOp d s).1 ↔ Kept F s₀ s := by
  (unfold readRecordOp; try simp ) <;> repeat' ((first | split | apply forAll_step | apply forAll_keep | apply foldl_step | apply foldl_keep | intro _) <;> try simp )

@[simp] theorem readLogOp_kept (d : Desc) (s : State) (hW : [.freeIx] ⊆ F) : Kept F s₀ (readLogOp d s).1 ↔ Kept F s₀ s := by
  simp at hW; (unfold readLogOp; try simp [hW]) <;> repeat' ((first | split | apply forAll_step | apply forAll_keep | apply foldl_step | apply foldl_keep | intro _) <;> try simp [hW])

@[simp] theorem identifyOp_kept (x : Desc) (s : State) : Kept F s₀ (identifyOp x s).1 ↔ Kept F s₀ s := by
  (unfold identifyOp; try simp ) <;> repeat' ((first | split | apply forAll_step | apply forAll_keep | apply foldl_step | apply foldl_keep | intro _) <;> try simp )

@[simp] theorem setParameterOp_kept (d : Desc) (s : State) (hW : [.flt, .acq, .met, .rcd] ⊆ F) : Kept F s₀ (setParameterOp d s).1 ↔ Kept F s₀ s := by
  simp at hW; (unfold setParameterOp; try simp [hW]) <;> repeat' ((first | split | apply forAll_step | apply forAll_keep | apply foldl_step | apply foldl_keep | intro _) <;> try simp [hW])

@[simp] theorem selfTestOp_kept (x : Desc) (s : State) : Kept F s₀ (selfTestOp x s).1 ↔ Kept F s₀ s := by
  (unfold selfTestOp; try simp ) <;> repeat' ((first | split | apply forAll_step | apply forAll_keep | apply foldl_step | apply foldl_keep | intro _) <;> try simp )

theorem requestOf_keeps (code : Nat) (d : Desc) (s : State) (hW : [.outs, .freeIx, .host, .flt, .pair, .acq, .met, .rcd, .rings] ⊆ F) : Kept F s (requestOf code d s).1 := by
  simp at hW; unfold requestOf; split <;> simp [hW]

theorem serve_keeps (d : Desc) (s : State) (hW : [.outs, .freeIx, .host, .flt, .pair, .acq, .met, .rcd, .rings] ⊆ F) :
    Kept F s (match meterOp (requestOf (d.b 8)) d s with
      | (s1, some (st, res)) => endOps (· == .meter d.tag) st res s1
      | (s1, none) => s1) := by
  simp at hW
  have k := (meterOp_kept (F := F) (s₀ := s) (s := s) (f := requestOf (d.b 8)) (d := d) (by simp [hW]) fun d s => requestOf_keeps _ d s (by simp [hW])).2 (Kept.refl _ _)
  split <;> rename_i e <;> rw [e] at k <;> simpa [hW] using k

@[simp] theorem serveWaiting_kept (w : MeterWait) (s : State) (hW : [.outs, .freeIx, .host, .flt, .pair, .acq, .met, .rcd, .rings] ⊆ F) : Kept F s₀ (serveWaiting w s) ↔ Kept F s₀ s := by
  unfold serveWaiting
  split
  · simp at hW; simp [hW]
  · dsimp only
    split
    · exact muted_kept (fun p hp => hW (by revert p; decide)) fun u => serve_keeps _ u hW
    · exact (serve_keeps _ s hW).iff (fun _ h => h)

@[simp] theorem serveMailbox_kept (s : State) (hW : [.outs, .freeIx, .host, .flt, .alloc, .paths, .pair, .acq, .met, .veh, .rcd, .rings] ⊆ F) : Kept F s₀ (serveMailbox s) ↔ Kept F s₀ s := by
  simp at hW; (unfold serveMailbox; try simp [hW]) <;> repeat' ((first | split | apply forAll_step | apply forAll_keep | apply foldl_step | apply foldl_keep | intro _) <;> try simp [hW])

@[simp] theorem testEvent_kept (t : Nat) (was failed : Bool) (s : State) (hW : [.flt, .acq, .met, .rcd] ⊆ F) : Kept F s₀ (testEvent t was failed s) ↔ Kept F s₀ s := by
  simp at hW; (unfold testEvent; try simp [hW]) <;> repeat' ((first | split | apply forAll_step | apply forAll_keep | apply foldl_step | apply foldl_keep | intro _) <;> try simp [hW])

@[simp] theorem caddisStartEffect_kept (failed : Nat) (otherOk : Bool) (s : State) (hW : [.outs, .freeIx, .host, .flt, .alloc, .paths, .pair, .acq, .met, .veh, .key, .rcd, .rings] ⊆ F) : Kept F s₀ (caddisStartEffect failed otherOk s) ↔ Kept F s₀ s := by
  simp at hW; (unfold caddisStartEffect; try simp [hW]) <;> repeat' ((first | split | apply forAll_step | apply forAll_keep | apply foldl_step | apply foldl_keep | intro _) <;> try simp [hW])

theorem execCaddisStart_keeps {t : State} (failed : Nat) (otherOk : Bool) (s : State) (e : execCaddisStart failed otherOk s = .next t) : ∃ u, t = settle u ∧ Kept [.outs, .freeIx, .host, .flt, .alloc, .paths, .pair, .acq, .met, .veh, .key, .rcd, .rings] s u := by
  unfold execCaddisStart at e; refine run_keeps ?_ e; (try simp) <;> repeat' ((first | split | apply forAll_keep | apply foldl_keep | intro _) <;> try simp)

theorem execWarmupEnd_keeps {t : State} (s : State) (e : execWarmupEnd s = .next t) : ∃ u, t = settle u ∧ Kept [.met] s u := by
  unfold execWarmupEnd at e; refine run_keeps ?_ e; (try simp) <;> repeat' ((first | split | apply forAll_keep | apply foldl_keep | intro _) <;> try simp)

theorem execCaddisCommit_keeps {t : State} (s : State) (e : execCaddisCommit s = .next t) : ∃ u, t = settle u ∧ Kept [.met] s u := by
  unfold execCaddisCommit at e; refine run_keeps ?_ e; (try simp) <;> repeat' ((first | split | apply forAll_keep | apply foldl_keep | intro _) <;> try simp)

@[simp] theorem metRefreshEffect_kept (s : State) (hW : [.met] ⊆ F) : Kept F s₀ (metRefreshEffect s) ↔ Kept F s₀ s := by
  simp at hW; (unfold metRefreshEffect; try simp [hW]) <;> repeat' ((first | split | apply forAll_step | apply forAll_keep | apply foldl_step | apply foldl_keep | intro _) <;> try simp [hW])

theorem execMetRefresh_keeps {t : State} (s : State) (e : execMetRefresh s = .next t) : ∃ u, t = settle u ∧ Kept [.met] s u := by
  unfold execMetRefresh at e; refine run_keeps ?_ e; (try simp) <;> repeat' ((first | split | apply forAll_keep | apply foldl_keep | intro _) <;> try simp)

@[simp] theorem inputChange_kept (opened : Nat) (intact : Bool) (s : State) (hW : [.flt, .acq, .met, .rcd] ⊆ F) : Kept F s₀ (inputChange opened intact s) ↔ Kept F s₀ s := by
  simp at hW; (unfold inputChange; try simp [hW]) <;> repeat' ((first | split | apply forAll_step | apply forAll_keep | apply foldl_step | apply foldl_keep | intro _) <;> try simp [hW])

theorem execSealChange_keeps {t : State} (intact : Bool) (s : State) (e : execSealChange intact s = .next t) : ∃ u, t = settle u ∧ Kept [.flt, .acq, .met, .rcd] s u := by
  unfold execSealChange at e; refine run_keeps ?_ e; (try simp) <;> repeat' ((first | split | apply forAll_keep | apply foldl_keep | intro _) <;> try simp)

theorem execTamperChange_keeps {t : State} (intact : Bool) (s : State) (e : execTamperChange intact s = .next t) : ∃ u, t = settle u ∧ Kept [.flt, .acq, .met, .rcd] s u := by
  unfold execTamperChange at e; refine run_keeps ?_ e; (try simp) <;> repeat' ((first | split | apply forAll_keep | apply foldl_keep | intro _) <;> try simp)

@[simp] theorem caddisTestEffect_kept (test o : Nat) (passed : Bool) (s : State) (hW : [.flt, .acq, .met, .rcd] ⊆ F) : Kept F s₀ (caddisTestEffect test o passed s) ↔ Kept F s₀ s := by
  simp at hW; (unfold caddisTestEffect; try simp [hW]) <;> repeat' ((first | split | apply forAll_step | apply forAll_keep | apply foldl_step | apply foldl_keep | intro _) <;> try simp [hW])

theorem execCaddisSelfTestRun_keeps {t : State} (test outlet : Nat) (passed : Bool) (s : State) (e : execCaddisSelfTestRun test outlet passed s = .next t) : ∃ u, t = settle u ∧ Kept [.flt, .acq, .met, .rcd] s u := by
  unfold execCaddisSelfTestRun at e; refine run_keeps ?_ e; (try simp) <;> repeat' ((first | split | apply forAll_keep | apply foldl_keep | intro _) <;> try simp)

@[simp] theorem overrangeEvent_kept (o : Nat) (cu ci : Int) (s : State) (hW : [.flt, .acq, .met, .rcd] ⊆ F) : Kept F s₀ (overrangeEvent o cu ci s) ↔ Kept F s₀ s := by
  simp at hW; (unfold overrangeEvent; try simp [hW]) <;> repeat' ((first | split | apply forAll_step | apply forAll_keep | apply foldl_step | apply foldl_keep | intro _) <;> try simp [hW])

@[simp] theorem caddisSampleEffect_kept (codes : List (Int × Int)) (stuck : Byte) (s : State) (hW : [.flt, .acq, .met, .rcd] ⊆ F) : Kept F s₀ (caddisSampleEffect codes stuck s) ↔ Kept F s₀ s := by
  simp at hW; (unfold caddisSampleEffect; try simp [hW]) <;> repeat' ((first | split | apply forAll_step | apply forAll_keep | apply foldl_step | apply foldl_keep | intro _) <;> try simp [hW])

theorem execCaddisSample_keeps {t : State} (codes : List (Int × Int)) (stuck : Byte) (s : State) (e : execCaddisSample codes stuck s = .next t) : ∃ u, t = settle u ∧ Kept [.flt, .acq, .met, .rcd] s u := by
  unfold execCaddisSample at e; refine run_keeps ?_ e; (try simp) <;> repeat' ((first | split | apply forAll_keep | apply foldl_keep | intro _) <;> try simp)

@[simp] theorem supplyLossEffect_kept (s : State) (hW : [.met, .key] ⊆ F) : Kept F s₀ (supplyLossEffect s) ↔ Kept F s₀ s := by
  simp at hW; (unfold supplyLossEffect; try simp [hW]) <;> repeat' ((first | split | apply forAll_step | apply forAll_keep | apply foldl_step | apply foldl_keep | intro _) <;> try simp [hW])

theorem execCaddisSupplyLoss_keeps {t : State} (s : State) (e : execCaddisSupplyLoss s = .next t) : ∃ u, t = settle u ∧ Kept [.met, .key] s u := by
  unfold execCaddisSupplyLoss at e; refine run_keeps ?_ e; (try simp) <;> repeat' ((first | split | apply forAll_keep | apply foldl_keep | intro _) <;> try simp)

theorem execTxnStart_keeps {t : State} (d : Desc) (s : State) (e : execTxnStart d s = .next t) : ∃ u, t = settle u ∧ Kept [.outs, .freeIx, .host, .flt, .pair, .acq, .met, .rcd, .rings, .faults] s u := by
  unfold execTxnStart live at e; refine ctl_keeps ?_ e; (try simp) <;> repeat' ((first | split | apply forAll_keep | apply foldl_keep | intro _) <;> try simp)

theorem execTxnStop_keeps {t : State} (d : Desc) (s : State) (e : execTxnStop d s = .next t) : ∃ u, t = settle u ∧ Kept [.outs, .freeIx, .host, .flt, .pair, .acq, .met, .rcd, .rings, .faults] s u := by
  unfold execTxnStop live at e; refine ctl_keeps ?_ e; (try simp) <;> repeat' ((first | split | apply forAll_keep | apply foldl_keep | intro _) <;> try simp)

theorem execReadRegisters_keeps {t : State} (d : Desc) (s : State) (e : execReadRegisters d s = .next t) : ∃ u, t = settle u ∧ Kept [.outs, .freeIx, .host, .flt, .pair, .acq, .rcd, .rings, .faults] s u := by
  unfold execReadRegisters live at e; refine ctl_keeps ?_ e; (try simp) <;> repeat' ((first | split | apply forAll_keep | apply foldl_keep | intro _) <;> try simp)

theorem execReadRecord_keeps {t : State} (d : Desc) (s : State) (e : execReadRecord d s = .next t) : ∃ u, t = settle u ∧ Kept [.outs, .freeIx, .host, .flt, .pair, .acq, .rcd, .rings, .faults] s u := by
  unfold execReadRecord live at e; refine ctl_keeps ?_ e; (try simp) <;> repeat' ((first | split | apply forAll_keep | apply foldl_keep | intro _) <;> try simp)

theorem execReadLog_keeps {t : State} (d : Desc) (s : State) (e : execReadLog d s = .next t) : ∃ u, t = settle u ∧ Kept [.outs, .freeIx, .host, .flt, .pair, .acq, .rcd, .rings, .faults] s u := by
  unfold execReadLog live at e; refine ctl_keeps ?_ e; (try simp) <;> repeat' ((first | split | apply forAll_keep | apply foldl_keep | intro _) <;> try simp)

theorem execIdentify_keeps {t : State} (d : Desc) (s : State) (e : execIdentify d s = .next t) : ∃ u, t = settle u ∧ Kept [.outs, .freeIx, .host, .flt, .pair, .acq, .rcd, .rings, .faults] s u := by
  unfold execIdentify live at e; refine ctl_keeps ?_ e; (try simp) <;> repeat' ((first | split | apply forAll_keep | apply foldl_keep | intro _) <;> try simp)

theorem execSetParameter_keeps {t : State} (d : Desc) (s : State) (e : execSetParameter d s = .next t) : ∃ u, t = settle u ∧ Kept [.outs, .freeIx, .host, .flt, .pair, .acq, .met, .rcd, .rings, .faults] s u := by
  unfold execSetParameter live at e; refine ctl_keeps ?_ e; (try simp) <;> repeat' ((first | split | apply forAll_keep | apply foldl_keep | intro _) <;> try simp)

theorem execSelfTest_keeps {t : State} (d : Desc) (s : State) (e : execSelfTest d s = .next t) : ∃ u, t = settle u ∧ Kept [.outs, .freeIx, .host, .flt, .pair, .acq, .rcd, .rings, .faults] s u := by
  unfold execSelfTest live at e; refine ctl_keeps ?_ e; (try simp) <;> repeat' ((first | split | apply forAll_keep | apply foldl_keep | intro _) <;> try simp)

end Sys2Proof.Machine
end

