-- ==== Sys2Proof/Laws/FramePairLease.lean ====
section
/-! SUPPORT. Frames of the operations of PairLease: what each may change. -/

set_option linter.all false

namespace Sys2Proof.Machine

variable {F : List Part} {s₀ : State}

@[simp] theorem leaseSettled_kept (s : State) (hW : [.outs, .freeIx, .flt, .stages, .alloc, .paths, .pair, .acq, .sw, .met, .veh, .rcd, .auth] ⊆ F) : Kept F s₀ (leaseSettled s) ↔ Kept F s₀ s := by
  simp at hW; (unfold leaseSettled; try simp [hW]) <;> repeat' ((first | split | apply forAll_step | apply forAll_keep | apply foldl_step | apply foldl_keep | intro _) <;> try simp [hW])

@[simp] theorem learnTerm_kept (term : Word) (holderB held : Bool) (s : State) (hW : [.outs, .freeIx, .host, .flt, .pair, .acq, .can, .plc, .rcd, .rings] ⊆ F) : Kept F s₀ (learnTerm term holderB held s) ↔ Kept F s₀ s := by
  simp at hW; (unfold learnTerm; try simp [hW]) <;> repeat' ((first | split | apply forAll_step | apply forAll_keep | apply foldl_step | apply foldl_keep | intro _) <;> try simp [hW])

@[simp] theorem sendLease_kept (plc : Bool) (op : Nat) (term : Word) (count : Nat) (s : State) (hW : [.outs, .pair] ⊆ F) : Kept F s₀ (sendLease plc op term count s) ↔ Kept F s₀ s := by
  simp at hW; (unfold sendLease; try simp [hW]) <;> repeat' ((first | split | apply forAll_step | apply forAll_keep | apply foldl_step | apply foldl_keep | intro _) <;> try simp [hW])

@[simp] theorem leaseRenewed_kept (plc : Bool) (term : Word) (count : Nat) (s : State) (hW : [.outs, .freeIx, .host, .flt, .pair, .acq, .can, .plc, .rcd, .rings] ⊆ F) : Kept F s₀ (leaseRenewed plc term count s) ↔ Kept F s₀ s := by
  simp at hW; (unfold leaseRenewed; try simp [hW]) <;> repeat' ((first | split | apply forAll_step | apply forAll_keep | apply foldl_step | apply foldl_keep | intro _) <;> try simp [hW])

@[simp] theorem leaseAcked_kept (i : Nat) (term : Word) (s0 : State) (hW : [.outs, .freeIx, .flt, .pair, .acq, .met, .veh, .can, .rcd] ⊆ F) : Kept F s₀ (leaseAcked i term s0) ↔ Kept F s₀ s0 := by
  simp at hW; (unfold leaseAcked; try simp [hW]) <;> repeat' ((first | split | apply forAll_step | apply forAll_keep | apply foldl_step | apply foldl_keep | intro _) <;> try simp [hW])

@[simp] theorem leaseGranted_kept (plc : Bool) (term : Word) (s : State) (hW : [.outs, .freeIx, .flt, .pair, .acq, .met, .veh, .can, .rcd] ⊆ F) : Kept F s₀ (leaseGranted plc term s) ↔ Kept F s₀ s := by
  simp at hW; (unfold leaseGranted; try simp [hW]) <;> repeat' ((first | split | apply forAll_step | apply forAll_keep | apply foldl_step | apply foldl_keep | intro _) <;> try simp [hW])

@[simp] theorem leaseReleased_kept (term : Word) (s : State) (hW : [.pair] ⊆ F) : Kept F s₀ (leaseReleased term s) ↔ Kept F s₀ s := by
  simp at hW; (unfold leaseReleased; try simp [hW]) <;> repeat' ((first | split | apply forAll_step | apply forAll_keep | apply foldl_step | apply foldl_keep | intro _) <;> try simp [hW])

@[simp] theorem leaseBodyEffect_kept (plc : Bool) (body : List Byte) (s : State) (hW : [.outs, .freeIx, .host, .flt, .stages, .alloc, .paths, .pair, .acq, .sw, .met, .veh, .can, .plc, .rcd, .auth, .rings] ⊆ F) : Kept F s₀ (leaseBodyEffect plc body s) ↔ Kept F s₀ s := by
  simp at hW; (unfold leaseBodyEffect; try simp [hW]) <;> repeat' ((first | split | apply forAll_step | apply forAll_keep | apply foldl_step | apply foldl_keep | intro _) <;> try simp [hW])

theorem execLease_keeps {t : State} (seq : Word) (body : List Byte) (plc : Bool) (s : State) (e : execLease seq body plc s = .next t) : ∃ u, t = settle u ∧ Kept [.outs, .freeIx, .host, .flt, .stages, .alloc, .paths, .pair, .acq, .sw, .met, .veh, .can, .plc, .rcd, .auth, .rings] s u := by
  unfold execLease pairRow live at e; refine ctl_keeps ?_ e; (try simp) <;> repeat' ((first | split | apply forAll_keep | apply foldl_keep | intro _) <;> try simp)

@[simp] theorem renewHost_kept (s : State) (hW : [.outs, .host, .pair] ⊆ F) : Kept F s₀ (renewHost s) ↔ Kept F s₀ s := by
  simp at hW; (unfold renewHost; try simp [hW]) <;> repeat' ((first | split | apply forAll_step | apply forAll_keep | apply foldl_step | apply foldl_keep | intro _) <;> try simp [hW])

@[simp] theorem renewEffect_kept (s : State) (hW : [.outs, .host, .pair] ⊆ F) : Kept F s₀ (renewEffect s) ↔ Kept F s₀ s := by
  simp at hW; (unfold renewEffect; try simp [hW]) <;> repeat' ((first | split | apply forAll_step | apply forAll_keep | apply foldl_step | apply foldl_keep | intro _) <;> try simp [hW])

theorem execLeaseRenew_keeps {t : State} (s : State) (e : execLeaseRenew s = .next t) : ∃ u, t = settle u ∧ Kept [.outs, .host, .pair] s u := by
  unfold execLeaseRenew pairRow live at e; refine ctl_keeps ?_ e; (try simp) <;> repeat' ((first | split | apply forAll_keep | apply foldl_keep | intro _) <;> try simp)

@[simp] theorem expiryEffect_kept (s : State) (hW : [.outs, .freeIx, .host, .flt, .stages, .alloc, .paths, .pair, .acq, .sw, .met, .veh, .can, .plc, .rcd, .auth, .rings] ⊆ F) : Kept F s₀ (expiryEffect s) ↔ Kept F s₀ s := by
  simp at hW; (unfold expiryEffect; try simp [hW]) <;> repeat' ((first | split | apply forAll_step | apply forAll_keep | apply foldl_step | apply foldl_keep | intro _) <;> try simp [hW])

theorem execLeaseExpiry_keeps {t : State} (s : State) (e : execLeaseExpiry s = .next t) : ∃ u, t = settle u ∧ Kept [.outs, .freeIx, .host, .flt, .stages, .alloc, .paths, .pair, .acq, .sw, .met, .veh, .can, .plc, .rcd, .auth, .rings] s u := by
  unfold execLeaseExpiry pairRow live at e; refine ctl_keeps ?_ e; (try simp) <;> repeat' ((first | split | apply forAll_keep | apply foldl_keep | intro _) <;> try simp)

@[simp] theorem claimEffect_kept (s : State) (hW : [.outs, .freeIx, .host, .flt, .stages, .alloc, .paths, .pair, .acq, .sw, .met, .veh, .can, .rcd, .auth] ⊆ F) : Kept F s₀ (claimEffect s) ↔ Kept F s₀ s := by
  simp at hW; (unfold claimEffect; try simp [hW]) <;> repeat' ((first | split | apply forAll_step | apply forAll_keep | apply foldl_step | apply foldl_keep | intro _) <;> try simp [hW])

theorem execLeaseClaim_keeps {t : State} (s : State) (e : execLeaseClaim s = .next t) : ∃ u, t = settle u ∧ Kept [.outs, .freeIx, .host, .flt, .stages, .alloc, .paths, .pair, .acq, .sw, .met, .veh, .can, .rcd, .auth] s u := by
  unfold execLeaseClaim pairRow live at e; refine ctl_keeps ?_ e; (try simp) <;> repeat' ((first | split | apply forAll_keep | apply foldl_keep | intro _) <;> try simp)

@[simp] theorem boardSeen_kept (w : BitVec 64) (s : State) (hW : [.outs, .freeIx, .host, .flt, .pair, .acq, .can, .plc, .rcd, .rings] ⊆ F) : Kept F s₀ (boardSeen w s) ↔ Kept F s₀ s := by
  simp at hW; (unfold boardSeen; try simp [hW]) <;> repeat' ((first | split | apply forAll_step | apply forAll_keep | apply foldl_step | apply foldl_keep | intro _) <;> try simp [hW])

@[simp] theorem pollEffect_kept (word : Option (BitVec 64)) (s : State) (hW : [.outs, .freeIx, .host, .flt, .stages, .alloc, .paths, .pair, .acq, .sw, .met, .veh, .can, .plc, .rcd, .auth, .rings] ⊆ F) : Kept F s₀ (pollEffect word s) ↔ Kept F s₀ s := by
  simp at hW; (unfold pollEffect; try simp [hW]) <;> repeat' ((first | split | apply forAll_step | apply forAll_keep | apply foldl_step | apply foldl_keep | intro _) <;> try simp [hW])

theorem execHostBoardPoll_keeps {t : State} (word : Option (BitVec 64)) (s : State) (e : execHostBoardPoll word s = .next t) : ∃ u, t = settle u ∧ Kept [.outs, .freeIx, .host, .flt, .stages, .alloc, .paths, .pair, .acq, .sw, .met, .veh, .can, .plc, .rcd, .auth, .rings] s u := by
  unfold execHostBoardPoll pairRow live at e; refine ctl_keeps ?_ e; (try simp) <;> repeat' ((first | split | apply forAll_keep | apply foldl_keep | intro _) <;> try simp)

@[simp] theorem casEffect_kept (found : Option (BitVec 64)) (s : State) (hW : [.outs, .freeIx, .host, .flt, .stages, .alloc, .paths, .pair, .acq, .sw, .met, .veh, .can, .plc, .rcd, .auth, .rings] ⊆ F) : Kept F s₀ (casEffect found s) ↔ Kept F s₀ s := by
  simp at hW; (unfold casEffect; try simp [hW]) <;> repeat' ((first | split | apply forAll_step | apply forAll_keep | apply foldl_step | apply foldl_keep | intro _) <;> try simp [hW])

theorem execHostCasComplete_keeps {t : State} (found : Option (BitVec 64)) (s : State) (e : execHostCasComplete found s = .next t) : ∃ u, t = settle u ∧ Kept [.outs, .freeIx, .host, .flt, .stages, .alloc, .paths, .pair, .acq, .sw, .met, .veh, .can, .plc, .rcd, .auth, .rings] s u := by
  unfold execHostCasComplete pairRow live at e; refine ctl_keeps ?_ e; (try simp) <;> repeat' ((first | split | apply forAll_keep | apply foldl_keep | intro _) <;> try simp)

end Sys2Proof.Machine
end

