-- ==== Sys2Proof/Laws/FramePlc.lean ====
section
/-! SUPPORT. Frames of the operations of Plc: what each may change. -/

set_option linter.all false

namespace Sys2Proof.Machine

variable {F : List Part} {s₀ : State}

@[simp] theorem radio_kept {s : State} {f : State → State} (hf : ∀ s, Kept F s (f s)) : Kept F s₀ (radio f s) ↔ Kept F s₀ s := by
  have k := (hf s).iff (s := s₀) (fun _ h => h)
  unfold radio; split <;> simp [k]

@[simp] theorem zeroCrossingEffect_kept (time : Nat) (s : State) (hW : [.flt, .acq, .plc, .rcd] ⊆ F) : Kept F s₀ (zeroCrossingEffect time s) ↔ Kept F s₀ s := by
  simp at hW; (unfold zeroCrossingEffect; try simp [hW]) <;> repeat' ((first | split | apply forAll_step | apply forAll_keep | apply foldl_step | apply foldl_keep | intro _) <;> try simp [hW])

theorem execZeroCrossing_keeps {t : State} (time : Nat) (s : State) (e : execZeroCrossing time s = .next t) : ∃ u, t = settle u ∧ Kept [.flt, .acq, .plc, .rcd] s u := by
  unfold execZeroCrossing live at e; refine ctl_keeps ?_ e; (try simp) <;> repeat' ((first | split | apply forAll_keep | apply foldl_keep | intro _) <;> try simp)

@[simp] theorem zcLostEffect_kept (s : State) (hW : [.flt, .acq, .plc, .rcd] ⊆ F) : Kept F s₀ (zcLostEffect s) ↔ Kept F s₀ s := by
  simp at hW; (unfold zcLostEffect; try simp [hW]) <;> repeat' ((first | split | apply forAll_step | apply forAll_keep | apply foldl_step | apply foldl_keep | intro _) <;> try simp [hW])

theorem execZcLost_keeps {t : State} (s : State) (e : execZcLost s = .next t) : ∃ u, t = settle u ∧ Kept [.flt, .acq, .plc, .rcd] s u := by
  unfold execZcLost live at e; refine ctl_keeps ?_ e; (try simp) <;> repeat' ((first | split | apply forAll_keep | apply foldl_keep | intro _) <;> try simp)

@[simp] theorem coordBeacon_kept (s : State) (hW : [.outs, .plc] ⊆ F) : Kept F s₀ (coordBeacon s) ↔ Kept F s₀ s := by
  simp at hW; (unfold coordBeacon; try simp [hW]) <;> repeat' ((first | split | apply forAll_step | apply forAll_keep | apply foldl_step | apply foldl_keep | intro _) <;> try simp [hW])

@[simp] theorem beaconWindowEffect_kept (slot : Nat) (s : State) (hW : [.outs, .plc] ⊆ F) : Kept F s₀ (beaconWindowEffect slot s) ↔ Kept F s₀ s := by
  simp at hW; (unfold beaconWindowEffect; try simp [hW]) <;> repeat' ((first | split | apply forAll_step | apply forAll_keep | apply foldl_step | apply foldl_keep | intro _) <;> try simp [hW])

theorem execBeaconWindow_keeps {t : State} (slot : Nat) (s : State) (e : execBeaconWindow slot s = .next t) : ∃ u, t = settle u ∧ Kept [.outs, .plc] s u := by
  unfold execBeaconWindow beaconRow at e; refine ctl_keeps ?_ e; (try simp) <;> repeat' ((first | split | apply forAll_keep | apply foldl_keep | intro _) <;> try simp)

@[simp] theorem takeTiming_kept (c : FrameControl) (pl : List Byte) (start : Nat) (s : State) (hW : [.plc] ⊆ F) : Kept F s₀ (takeTiming c pl start s) ↔ Kept F s₀ s := by
  simp at hW; (unfold takeTiming; try simp [hW]) <;> repeat' ((first | split | apply forAll_step | apply forAll_keep | apply foldl_step | apply foldl_keep | intro _) <;> try simp [hW])

@[simp] theorem beaconEffect_kept (f : PlcFrame) (start rank : Nat) (s : State) (hW : [.flt, .acq, .plc, .rcd] ⊆ F) : Kept F s₀ (beaconEffect f start rank s) ↔ Kept F s₀ s := by
  simp at hW; (unfold beaconEffect; try simp [hW]) <;> repeat' ((first | split | apply forAll_step | apply forAll_keep | apply foldl_step | apply foldl_keep | intro _) <;> try simp [hW])

theorem execBeacon_keeps {t : State} (f : PlcFrame) (start rank : Nat) (s : State) (e : execBeacon f start rank s = .next t) : ∃ u, t = settle u ∧ Kept [.flt, .acq, .plc, .rcd] s u := by
  unfold execBeacon beaconRow at e; refine ctl_keeps ?_ e; (try simp) <;> repeat' ((first | split | apply forAll_keep | apply foldl_keep | intro _) <;> try simp)

@[simp] theorem beaconLockLossEffect_kept (s : State) (hW : [.flt, .acq, .plc, .rcd] ⊆ F) : Kept F s₀ (beaconLockLossEffect s) ↔ Kept F s₀ s := by
  simp at hW; (unfold beaconLockLossEffect; try simp [hW]) <;> repeat' ((first | split | apply forAll_step | apply forAll_keep | apply foldl_step | apply foldl_keep | intro _) <;> try simp [hW])

theorem execBeaconLockLoss_keeps {t : State} (s : State) (e : execBeaconLockLoss s = .next t) : ∃ u, t = settle u ∧ Kept [.flt, .acq, .plc, .rcd] s u := by
  unfold execBeaconLockLoss beaconRow at e; refine ctl_keeps ?_ e; (try simp) <;> repeat' ((first | split | apply forAll_keep | apply foldl_keep | intro _) <;> try simp)

@[simp] theorem coordStartEffect_kept (s : State) (hW : [.plc] ⊆ F) : Kept F s₀ (coordStartEffect s) ↔ Kept F s₀ s := by
  simp at hW; (unfold coordStartEffect; try simp [hW]) <;> repeat' ((first | split | apply forAll_step | apply forAll_keep | apply foldl_step | apply foldl_keep | intro _) <;> try simp [hW])

theorem execCoordStart_keeps {t : State} (s : State) (e : execCoordStart s = .next t) : ∃ u, t = settle u ∧ Kept [.plc] s u := by
  unfold execCoordStart beaconRow at e; refine ctl_keeps ?_ e; (try simp) <;> repeat' ((first | split | apply forAll_keep | apply foldl_keep | intro _) <;> try simp)

@[simp] theorem plcContentionEffect_kept (won : Bool) (backoff : Nat) (s : State) (hW : [.outs, .flt, .acq, .plc, .rcd] ⊆ F) : Kept F s₀ (plcContentionEffect won backoff s) ↔ Kept F s₀ s := by
  simp at hW; (unfold plcContentionEffect; try simp [hW]) <;> repeat' ((first | split | apply forAll_step | apply forAll_keep | apply foldl_step | apply foldl_keep | intro _) <;> try simp [hW])

theorem execPlcContention_keeps {t : State} (won : Bool) (backoff : Nat) (s : State) (e : execPlcContention won backoff s = .next t) : ∃ u, t = settle u ∧ Kept [.outs, .flt, .acq, .plc, .rcd] s u := by
  unfold execPlcContention plcRow live at e; refine ctl_keeps ?_ e; (try simp) <;> repeat' ((first | split | apply forAll_keep | apply foldl_keep | intro _) <;> try simp)

@[simp] theorem linkResult_kept (dst r : Nat) (bad : Bool) (s : State) (hW : [.flt, .acq, .plc, .rcd] ⊆ F) : Kept F s₀ (linkResult dst r bad s) ↔ Kept F s₀ s := by
  simp at hW; (unfold linkResult; try simp [hW]) <;> repeat' ((first | split | apply forAll_step | apply forAll_keep | apply foldl_step | apply foldl_keep | intro _) <;> try simp [hW])

@[simp] theorem sackEffect_kept (fc : List Byte) (s : State) (hW : [.outs, .freeIx, .host, .flt, .acq, .plc, .rcd, .rings] ⊆ F) : Kept F s₀ (sackEffect fc s) ↔ Kept F s₀ s := by
  simp at hW; (unfold sackEffect; try simp [hW]) <;> repeat' ((first | split | apply forAll_step | apply forAll_keep | apply foldl_step | apply foldl_keep | intro _) <;> try simp [hW])

theorem execSack_keeps {t : State} (fc : List Byte) (s : State) (e : execSack fc s = .next t) : ∃ u, t = settle u ∧ Kept [.outs, .freeIx, .host, .flt, .acq, .plc, .rcd, .rings] s u := by
  unfold execSack plcRow live at e; refine ctl_keeps ?_ e; (try simp) <;> repeat' ((first | split | apply forAll_keep | apply foldl_keep | intro _) <;> try simp)

theorem execSackTimeout_keeps {t : State} (s : State) (e : execSackTimeout s = .next t) : ∃ u, t = settle u ∧ Kept [.flt, .acq, .plc, .rcd] s u := by
  unfold execSackTimeout plcRow live at e; refine ctl_keeps ?_ e; (try simp) <;> repeat' ((first | split | apply forAll_keep | apply foldl_keep | intro _) <;> try simp)

@[simp] theorem dataEffect_kept (f : PlcFrame) (s : State) (hW : [.outs, .host, .flt, .acq, .plc, .rcd] ⊆ F) : Kept F s₀ (dataEffect f s) ↔ Kept F s₀ s := by
  simp at hW; (unfold dataEffect; try simp [hW]) <;> repeat' ((first | split | apply forAll_step | apply forAll_keep | apply foldl_step | apply foldl_keep | intro _) <;> try simp [hW])

theorem execData_keeps {t : State} (f : PlcFrame) (s : State) (e : execData f s = .next t) : ∃ u, t = settle u ∧ Kept [.outs, .host, .flt, .acq, .plc, .rcd] s u := by
  unfold execData plcRow live at e; refine ctl_keeps ?_ e; (try simp) <;> repeat' ((first | split | apply forAll_keep | apply foldl_keep | intro _) <;> try simp)

@[simp] theorem e2eAckEffect_kept (f : PlcFrame) (s : State) (hW : [.outs, .freeIx, .host, .flt, .acq, .plc, .rcd, .rings] ⊆ F) : Kept F s₀ (e2eAckEffect f s) ↔ Kept F s₀ s := by
  simp at hW; (unfold e2eAckEffect; try simp [hW]) <;> repeat' ((first | split | apply forAll_step | apply forAll_keep | apply foldl_step | apply foldl_keep | intro _) <;> try simp [hW])

theorem execE2eAck_keeps {t : State} (f : PlcFrame) (s : State) (e : execE2eAck f s = .next t) : ∃ u, t = settle u ∧ Kept [.outs, .freeIx, .host, .flt, .acq, .plc, .rcd, .rings] s u := by
  unfold execE2eAck plcRow live at e; refine ctl_keeps ?_ e; (try simp) <;> repeat' ((first | split | apply forAll_keep | apply foldl_keep | intro _) <;> try simp)

@[simp] theorem assocReqEffect_kept (f : PlcFrame) (s : State) (hW : [.outs, .flt, .acq, .plc, .rcd] ⊆ F) : Kept F s₀ (assocReqEffect f s) ↔ Kept F s₀ s := by
  simp at hW; (unfold assocReqEffect; try simp [hW]) <;> repeat' ((first | split | apply forAll_step | apply forAll_keep | apply foldl_step | apply foldl_keep | intro _) <;> try simp [hW])

theorem execAssocReq_keeps {t : State} (f : PlcFrame) (s : State) (e : execAssocReq f s = .next t) : ∃ u, t = settle u ∧ Kept [.outs, .flt, .acq, .plc, .rcd] s u := by
  unfold execAssocReq plcRow live at e; refine ctl_keeps ?_ e; (try simp) <;> repeat' ((first | split | apply forAll_keep | apply foldl_keep | intro _) <;> try simp)

@[simp] theorem assocResEffect_kept (f : PlcFrame) (s : State) (hW : [.outs, .flt, .acq, .plc, .rcd] ⊆ F) : Kept F s₀ (assocResEffect f s) ↔ Kept F s₀ s := by
  simp at hW; unfold assocResEffect; dsimp only; repeat' split
  all_goals simp [hW]

theorem execAssocRes_keeps {t : State} (f : PlcFrame) (s : State) (e : execAssocRes f s = .next t) : ∃ u, t = settle u ∧ Kept [.outs, .flt, .acq, .plc, .rcd] s u := by
  unfold execAssocRes plcRow live at e; refine ctl_keeps ?_ e; (try simp) <;> repeat' ((first | split | apply forAll_keep | apply foldl_keep | intro _) <;> try simp)

@[simp] theorem tonemapEffect_kept (f : PlcFrame) (s : State) (hW : [.outs, .flt, .acq, .plc, .rcd] ⊆ F) : Kept F s₀ (tonemapEffect f s) ↔ Kept F s₀ s := by
  simp at hW; (unfold tonemapEffect; try simp [hW]) <;> repeat' ((first | split | apply forAll_step | apply forAll_keep | apply foldl_step | apply foldl_keep | intro _) <;> try simp [hW])

theorem execTonemap_keeps {t : State} (f : PlcFrame) (s : State) (e : execTonemap f s = .next t) : ∃ u, t = settle u ∧ Kept [.outs, .flt, .acq, .plc, .rcd] s u := by
  unfold execTonemap plcRow live at e; refine ctl_keeps ?_ e; (try simp) <;> repeat' ((first | split | apply forAll_keep | apply foldl_keep | intro _) <;> try simp)

@[simp] theorem routeEffect_kept (f : PlcFrame) (s : State) (hW : [.outs, .flt, .acq, .plc, .rcd] ⊆ F) : Kept F s₀ (routeEffect f s) ↔ Kept F s₀ s := by
  simp at hW; (unfold routeEffect; try simp [hW]) <;> repeat' ((first | split | apply forAll_step | apply forAll_keep | apply foldl_step | apply foldl_keep | intro _) <;> try simp [hW])

theorem execRoute_keeps {t : State} (f : PlcFrame) (s : State) (e : execRoute f s = .next t) : ∃ u, t = settle u ∧ Kept [.outs, .flt, .acq, .plc, .rcd] s u := by
  unfold execRoute plcRow live at e; refine ctl_keeps ?_ e; (try simp) <;> repeat' ((first | split | apply forAll_keep | apply foldl_keep | intro _) <;> try simp)

@[simp] theorem addWake_kept (a : Nat) (s : State) (hW : [.plc] ⊆ F) : Kept F s₀ (addWake a s) ↔ Kept F s₀ s := by
  simp at hW; (unfold addWake; try simp [hW]) <;> repeat' ((first | split | apply forAll_step | apply forAll_keep | apply foldl_step | apply foldl_keep | intro _) <;> try simp [hW])

@[simp] theorem wakeReqEffect_kept (f : PlcFrame) (s : State) (hW : [.outs, .flt, .acq, .plc, .rcd] ⊆ F) : Kept F s₀ (wakeReqEffect f s) ↔ Kept F s₀ s := by
  simp at hW; (unfold wakeReqEffect; try simp [hW]) <;> repeat' ((first | split | apply forAll_step | apply forAll_keep | apply foldl_step | apply foldl_keep | intro _) <;> try simp [hW])

theorem execWakeReq_keeps {t : State} (f : PlcFrame) (s : State) (e : execWakeReq f s = .next t) : ∃ u, t = settle u ∧ Kept [.outs, .flt, .acq, .plc, .rcd] s u := by
  unfold execWakeReq plcRow live at e; refine ctl_keeps ?_ e; (try simp) <;> repeat' ((first | split | apply forAll_keep | apply foldl_keep | intro _) <;> try simp)

theorem execRouteTimer_keeps {t : State} (s : State) (e : execRouteTimer s = .next t) : ∃ u, t = settle u ∧ Kept [.flt, .acq, .plc, .rcd] s u := by
  unfold execRouteTimer plcRow live at e; refine ctl_keeps ?_ e; (try simp) <;> repeat' ((first | split | apply forAll_keep | apply foldl_keep | intro _) <;> try simp)

theorem execAssocRetry_keeps {t : State} (s : State) (e : execAssocRetry s = .next t) : ∃ u, t = settle u ∧ Kept [.flt, .acq, .plc, .rcd] s u := by
  unfold execAssocRetry plcRow live at e; refine ctl_keeps ?_ e; (try simp) <;> repeat' ((first | split | apply forAll_keep | apply foldl_keep | intro _) <;> try simp)

@[simp] theorem addressHoldEffect_kept (a : Nat) (s : State) (hW : [.flt, .acq, .plc, .rcd] ⊆ F) : Kept F s₀ (addressHoldEffect a s) ↔ Kept F s₀ s := by
  simp at hW; (unfold addressHoldEffect; try simp [hW]) <;> repeat' ((first | split | apply forAll_step | apply forAll_keep | apply foldl_step | apply foldl_keep | intro _) <;> try simp [hW])

theorem execAddressHoldExpiry_keeps {t : State} (addr : Nat) (s : State) (e : execAddressHoldExpiry addr s = .next t) : ∃ u, t = settle u ∧ Kept [.flt, .acq, .plc, .rcd] s u := by
  unfold execAddressHoldExpiry plcRow live at e; refine ctl_keeps ?_ e; (try simp) <;> repeat' ((first | split | apply forAll_keep | apply foldl_keep | intro _) <;> try simp)

theorem execPlcMsgTimeout_keeps {t : State} (seq : Half) (s : State) (e : execPlcMsgTimeout seq s = .next t) : ∃ u, t = settle u ∧ Kept [.outs, .freeIx, .host, .plc, .rings] s u := by
  unfold execPlcMsgTimeout live at e; refine ctl_keeps ?_ e; (try simp) <;> repeat' ((first | split | apply forAll_keep | apply foldl_keep | intro _) <;> try simp)

@[simp] theorem plcFailed_kept (reason : Nat) (s : State) (hW : [.plc] ⊆ F) : Kept F s₀ (plcFailed reason s).1 ↔ Kept F s₀ s := by
  simp at hW; (unfold plcFailed; try simp [hW]) <;> repeat' ((first | split | apply forAll_step | apply forAll_keep | apply foldl_step | apply foldl_keep | intro _) <;> try simp [hW])

@[simp] theorem plcSendOp_kept (d : Desc) (s : State) (hW : [.host, .plc, .rings] ⊆ F) : Kept F s₀ (plcSendOp d s).1 ↔ Kept F s₀ s := by
  simp at hW; (unfold plcSendOp; try simp [hW]) <;> repeat' ((first | split | apply forAll_step | apply forAll_keep | apply foldl_step | apply foldl_keep | intro _) <;> try simp [hW])

theorem execPlcSend_keeps {t : State} (d : Desc) (s : State) (e : execPlcSend d s = .next t) : ∃ u, t = settle u ∧ Kept [.outs, .freeIx, .host, .flt, .pair, .acq, .plc, .rcd, .rings, .faults] s u := by
  unfold execPlcSend live at e; refine ctl_keeps ?_ e; (try simp) <;> repeat' ((first | split | apply forAll_keep | apply foldl_keep | intro _) <;> try simp)

end Sys2Proof.Machine
end

