-- ==== Sys2Proof/Laws/FrameProfile.lean ====
section
/-! SUPPORT. Frames of the operations of Profile: what each may change. -/

set_option linter.all false

namespace Sys2Proof.Machine

variable {F : List Part} {s₀ : State}

@[simp] theorem beginChange_kept (slot count : Nat) (s : State) (hW : [.prof] ⊆ F) : Kept F s₀ (beginChange slot count s) ↔ Kept F s₀ s := by
  simp at hW; (unfold beginChange; try simp [hW]) <;> repeat' ((first | split | apply forAll_step | apply forAll_keep | apply foldl_step | apply foldl_keep | intro _) <;> try simp [hW])

@[simp] theorem selectProfileOp_kept (d : Desc) (s : State) (hW : [.host, .prof, .rings] ⊆ F) : Kept F s₀ (selectProfileOp d s).1 ↔ Kept F s₀ s := by
  simp at hW; (unfold selectProfileOp; try simp [hW]) <;> repeat' ((first | split | apply forAll_step | apply forAll_keep | apply foldl_step | apply foldl_keep | intro _) <;> try simp [hW])

theorem execSelectProfile_keeps {t : State} (d : Desc) (s : State) (e : execSelectProfile d s = .next t) : ∃ u, t = settle u ∧ Kept [.outs, .freeIx, .host, .flt, .prof, .pair, .acq, .rcd, .rings, .faults] s u := by
  unfold execSelectProfile live at e; refine ctl_keeps ?_ e; (try simp) <;> repeat' ((first | split | apply forAll_keep | apply foldl_keep | intro _) <;> try simp)

@[simp] theorem takeEffect_kept (s : State) (hW : [.outs, .freeIx, .host, .flt, .prof, .stages, .alloc, .paths, .law, .lanes, .pair, .acq, .thm, .sw, .met, .veh, .key, .can, .plc, .rcd, .rings] ⊆ F) : Kept F s₀ (takeEffect s) ↔ Kept F s₀ s := by
  simp at hW; (unfold takeEffect; try simp [hW]) <;> repeat' ((first | split | apply forAll_step | apply forAll_keep | apply foldl_step | apply foldl_keep | intro _) <;> try simp [hW])

theorem execProfileTakeEffect_keeps {t : State} (s : State) (e : execProfileTakeEffect s = .next t) : ∃ u, t = settle u ∧ Kept [.outs, .freeIx, .host, .flt, .prof, .stages, .alloc, .paths, .law, .lanes, .pair, .acq, .thm, .sw, .met, .veh, .key, .can, .plc, .rcd, .rings] s u := by
  unfold execProfileTakeEffect live at e; refine ctl_keeps ?_ e; (try simp) <;> repeat' ((first | split | apply forAll_keep | apply foldl_keep | intro _) <;> try simp)

@[simp] theorem storePart_kept (d : Desc) (data : List Byte) (s : State) (hW : [.freeIx, .prof] ⊆ F) : Kept F s₀ (storePart d data s) ↔ Kept F s₀ s := by
  simp at hW; (unfold storePart; try simp [hW]) <;> repeat' ((first | split | apply forAll_step | apply forAll_keep | apply foldl_step | apply foldl_keep | intro _) <;> try simp [hW])

@[simp] theorem wrapProfile_kept (slot : Nat) (img : List Byte) (s : State) (hW : [.key] ⊆ F) : Kept F s₀ (wrapProfile slot img s) ↔ Kept F s₀ s := by
  simp at hW; (unfold wrapProfile; try simp [hW]) <;> repeat' ((first | split | apply forAll_step | apply forAll_keep | apply foldl_step | apply foldl_keep | intro _) <;> try simp [hW])

@[simp] theorem commitImage_kept (slot len : Nat) (s : State) (hW : [.prof, .key] ⊆ F) : Kept F s₀ (commitImage slot len s).1 ↔ Kept F s₀ s := by
  simp at hW; (unfold commitImage; try simp [hW]) <;> repeat' ((first | split | apply forAll_step | apply forAll_keep | apply foldl_step | apply foldl_keep | intro _) <;> try simp [hW])

@[simp] theorem profileWriteOp_kept (d : Desc) (s : State) (hW : [.freeIx, .prof, .key] ⊆ F) : Kept F s₀ (profileWriteOp d s).1 ↔ Kept F s₀ s := by
  simp at hW; (unfold profileWriteOp; try simp [hW]) <;> repeat' ((first | split | apply forAll_step | apply forAll_keep | apply foldl_step | apply foldl_keep | intro _) <;> try simp [hW])

theorem execProfileWrite_keeps {t : State} (d : Desc) (s : State) (e : execProfileWrite d s = .next t) : ∃ u, t = settle u ∧ Kept [.outs, .freeIx, .host, .flt, .prof, .pair, .acq, .key, .rcd, .rings, .faults] s u := by
  unfold execProfileWrite flashRow live at e; refine ctl_keeps ?_ e; (try simp) <;> repeat' ((first | split | apply forAll_keep | apply foldl_keep | intro _) <;> try simp)

@[simp] theorem firmwareWriteOp_kept (d : Desc) (s : State) (hW : [.freeIx, .key] ⊆ F) : Kept F s₀ (firmwareWriteOp d s).1 ↔ Kept F s₀ s := by
  simp at hW; (unfold firmwareWriteOp; try simp [hW]) <;> repeat' ((first | split | apply forAll_step | apply forAll_keep | apply foldl_step | apply foldl_keep | intro _) <;> try simp [hW])

theorem execFirmwareWrite_keeps {t : State} (d : Desc) (s : State) (e : execFirmwareWrite d s = .next t) : ∃ u, t = settle u ∧ Kept [.outs, .freeIx, .host, .flt, .pair, .acq, .key, .rcd, .rings, .faults] s u := by
  unfold execFirmwareWrite flashRow live at e; refine ctl_keeps ?_ e; (try simp) <;> repeat' ((first | split | apply forAll_keep | apply foldl_keep | intro _) <;> try simp)

@[simp] theorem offerCaddis_kept (image : Bool × Word × List Byte) (s : State) (hW : [.flt, .acq, .met, .key, .rcd] ⊆ F) : Kept F s₀ (offerCaddis image s) ↔ Kept F s₀ s := by
  simp at hW; (unfold offerCaddis; try simp [hW]) <;> repeat' ((first | split | apply forAll_step | apply forAll_keep | apply foldl_step | apply foldl_keep | intro _) <;> try simp [hW])

@[simp] theorem firmwareActivateOp_kept (x : Desc) (s : State) (hW : [.flt, .acq, .met, .key, .rcd] ⊆ F) : Kept F s₀ (firmwareActivateOp x s).1 ↔ Kept F s₀ s := by
  simp at hW; (unfold firmwareActivateOp; try simp [hW]) <;> repeat' ((first | split | apply forAll_step | apply forAll_keep | apply foldl_step | apply foldl_keep | intro _) <;> try simp [hW])

theorem execFirmwareActivate_keeps {t : State} (d : Desc) (s : State) (e : execFirmwareActivate d s = .next t) : ∃ u, t = settle u ∧ Kept [.outs, .freeIx, .host, .flt, .pair, .acq, .met, .key, .rcd, .rings, .faults] s u := by
  unfold execFirmwareActivate flashRow live at e; refine ctl_keeps ?_ e; (try simp) <;> repeat' ((first | split | apply forAll_keep | apply foldl_keep | intro _) <;> try simp)

end Sys2Proof.Machine
end

