-- ==== Sys2Proof/Laws/FramePair.lean ====
section
/-! SUPPORT. Frames of the operations of Pair: what each may change. -/

set_option linter.all false

namespace Sys2Proof.Machine

variable {F : List Part} {s₀ : State}

@[simp] theorem ilkRow_kept (cls : IlkClass) (s : State) (hW : [.outs, .freeIx, .flt, .stages, .alloc, .paths, .pair, .acq, .sw, .met, .veh, .rcd, .auth] ⊆ F) : Kept F s₀ (ilkRow cls s) ↔ Kept F s₀ s := by
  simp at hW; (unfold ilkRow; try simp [hW]) <;> repeat' ((first | split | apply forAll_step | apply forAll_keep | apply foldl_step | apply foldl_keep | intro _) <;> try simp [hW])

theorem execIlkInClassChange_keeps {t : State} (cls : IlkClass) (s : State) (e : execIlkInClassChange cls s = .next t) : ∃ u, t = settle u ∧ Kept [.outs, .freeIx, .flt, .stages, .alloc, .paths, .pair, .acq, .sw, .met, .veh, .rcd, .auth] s u := by
  unfold execIlkInClassChange at e; refine ctl_keeps ?_ e; (try simp) <;> repeat' ((first | split | apply forAll_keep | apply foldl_keep | intro _) <;> try simp)

@[simp] theorem readbackEffect_kept (s : State) (hW : [.outs, .freeIx, .pwr, .flt, .stages, .alloc, .paths, .law, .pair, .acq, .met, .veh, .rcd, .auth, .opState, .faults] ⊆ F) : Kept F s₀ (readbackEffect s) ↔ Kept F s₀ s := by
  simp at hW; (unfold readbackEffect; try simp [hW]) <;> repeat' ((first | split | apply forAll_step | apply forAll_keep | apply foldl_step | apply foldl_keep | intro _) <;> try simp [hW])

theorem execIlkReadbackFail_keeps {t : State} (s : State) (e : execIlkReadbackFail s = .next t) : ∃ u, t = settle u ∧ Kept [.outs, .freeIx, .pwr, .flt, .stages, .alloc, .paths, .law, .pair, .acq, .met, .veh, .rcd, .auth, .opState, .faults] s u := by
  unfold execIlkReadbackFail pairRow live at e; refine ctl_keeps ?_ e; (try simp) <;> repeat' ((first | split | apply forAll_keep | apply foldl_keep | intro _) <;> try simp)

theorem execAuthYield_keeps {t : State} (s : State) (e : execAuthYield s = .next t) : ∃ u, t = settle u ∧ Kept [.flt, .pair, .acq, .sw, .rcd, .auth] s u := by
  unfold execAuthYield pairRow live at e; refine ctl_keeps ?_ e; (try simp) <;> repeat' ((first | split | apply forAll_keep | apply foldl_keep | intro _) <;> try simp)

theorem execAuthCollision_keeps {t : State} (s : State) (e : execAuthCollision s = .next t) : ∃ u, t = settle u ∧ Kept [.outs, .freeIx, .pwr, .flt, .stages, .alloc, .paths, .law, .pair, .acq, .met, .veh, .rcd, .auth, .opState, .faults] s u := by
  unfold execAuthCollision pairRow live at e; refine ctl_keeps ?_ e; (try simp) <;> repeat' ((first | split | apply forAll_keep | apply foldl_keep | intro _) <;> try simp)

@[simp] theorem doubleFaultEffect_kept (s : State) (hW : [.outs, .freeIx, .flt, .stages, .alloc, .paths, .pair, .acq, .sw, .met, .veh, .rcd, .auth] ⊆ F) : Kept F s₀ (doubleFaultEffect s) ↔ Kept F s₀ s := by
  simp at hW; (unfold doubleFaultEffect; try simp [hW]) <;> repeat' ((first | split | apply forAll_step | apply forAll_keep | apply foldl_step | apply foldl_keep | intro _) <;> try simp [hW])

theorem execDoubleFault_keeps {t : State} (s : State) (e : execDoubleFault s = .next t) : ∃ u, t = settle u ∧ Kept [.outs, .freeIx, .flt, .stages, .alloc, .paths, .pair, .acq, .sw, .met, .veh, .rcd, .auth] s u := by
  unfold execDoubleFault pairRow live at e; refine ctl_keeps ?_ e; (try simp) <;> repeat' ((first | split | apply forAll_keep | apply foldl_keep | intro _) <;> try simp)

@[simp] theorem adoptTiming_kept (l : List Block) (s : State) (hW : [.lanes, .pair] ⊆ F) : Kept F s₀ (adoptTiming l s) ↔ Kept F s₀ s := by
  simp at hW; (unfold adoptTiming; try simp [hW]) <;> repeat' ((first | split | apply forAll_step | apply forAll_keep | apply foldl_step | apply foldl_keep | intro _) <;> try simp [hW])

@[simp] theorem periodEffect_kept (type : Byte) (l : List Block) (s : State) (hW : [.outs, .freeIx, .host, .flt, .stages, .alloc, .paths, .lanes, .pair, .acq, .sw, .met, .veh, .can, .plc, .rcd, .auth, .rings] ⊆ F) : Kept F s₀ (periodEffect type l s) ↔ Kept F s₀ s := by
  simp at hW; (unfold periodEffect; try simp [hW]) <;> repeat' ((first | split | apply forAll_step | apply forAll_keep | apply foldl_step | apply foldl_keep | intro _) <;> try simp [hW])

theorem execPeriod_keeps {t : State} (type : Byte) (blocks : List Block) (s : State) (e : execPeriod type blocks s = .next t) : ∃ u, t = settle u ∧ Kept [.outs, .freeIx, .host, .flt, .stages, .alloc, .paths, .lanes, .pair, .acq, .sw, .met, .veh, .can, .plc, .rcd, .auth, .rings] s u := by
  unfold execPeriod pairRow live at e; refine ctl_keeps ?_ e; (try simp) <;> repeat' ((first | split | apply forAll_keep | apply foldl_keep | intro _) <;> try simp)

theorem execPairLinkDown_keeps {t : State} (s : State) (e : execPairLinkDown s = .next t) : ∃ u, t = settle u ∧ Kept [.outs, .freeIx, .flt, .pair, .acq, .rcd] s u := by
  unfold execPairLinkDown pairRow live at e; refine ctl_keeps ?_ e; (try simp) <;> repeat' ((first | split | apply forAll_keep | apply foldl_keep | intro _) <;> try simp)

@[simp] theorem ackTimeoutEffect_kept (seq : Word) (s : State) (hW : [.outs, .freeIx, .flt, .pair, .acq, .rcd] ⊆ F) : Kept F s₀ (ackTimeoutEffect seq s) ↔ Kept F s₀ s := by
  simp at hW; (unfold ackTimeoutEffect; try simp [hW]) <;> repeat' ((first | split | apply forAll_step | apply forAll_keep | apply foldl_step | apply foldl_keep | intro _) <;> try simp [hW])

theorem execMirrorAckTimeout_keeps {t : State} (seq : Word) (s : State) (e : execMirrorAckTimeout seq s = .next t) : ∃ u, t = settle u ∧ Kept [.outs, .freeIx, .flt, .pair, .acq, .rcd] s u := by
  unfold execMirrorAckTimeout pairRow live at e; refine ctl_keeps ?_ e; (try simp) <;> repeat' ((first | split | apply forAll_keep | apply foldl_keep | intro _) <;> try simp)

@[simp] theorem noteHandoverAck_kept (s : State) (hW : [.pair] ⊆ F) : Kept F s₀ (noteHandoverAck s) ↔ Kept F s₀ s := by
  simp at hW; (unfold noteHandoverAck; try simp [hW]) <;> repeat' ((first | split | apply forAll_step | apply forAll_keep | apply foldl_step | apply foldl_keep | intro _) <;> try simp [hW])

@[simp] theorem ackEffect_kept (seq : Word) (s : State) (hW : [.pair] ⊆ F) : Kept F s₀ (ackEffect seq s) ↔ Kept F s₀ s := by
  simp at hW; (unfold ackEffect; try simp [hW]) <;> repeat' ((first | split | apply forAll_step | apply forAll_keep | apply foldl_step | apply foldl_keep | intro _) <;> try simp [hW])

theorem execAck_keeps {t : State} (seq : Word) (s : State) (e : execAck seq s = .next t) : ∃ u, t = settle u ∧ Kept [.pair] s u := by
  unfold execAck pairRow live at e; refine ctl_keeps ?_ e; (try simp) <;> repeat' ((first | split | apply forAll_keep | apply foldl_keep | intro _) <;> try simp)

@[simp] theorem helloFailed_kept (order ev cause : Nat) (payload : List Byte) (s : State) (hW : [.flt, .pair, .acq, .rcd] ⊆ F) : Kept F s₀ (helloFailed order ev cause payload s) ↔ Kept F s₀ s := by
  simp at hW; (unfold helloFailed; try simp [hW]) <;> repeat' ((first | split | apply forAll_step | apply forAll_keep | apply foldl_step | apply foldl_keep | intro _) <;> try simp [hW])

@[simp] theorem proposeLease_kept (s : State) (hW : [.outs, .pair] ⊆ F) : Kept F s₀ (proposeLease s) ↔ Kept F s₀ s := by
  simp at hW; (unfold proposeLease; try simp [hW]) <;> repeat' ((first | split | apply forAll_step | apply forAll_keep | apply foldl_step | apply foldl_keep | intro _) <;> try simp [hW])

@[simp] theorem helloPassed_kept (h : Hello) (s : State) (hW : [.outs, .flt, .stages, .paths, .pair, .acq, .sw, .key, .rcd, .auth] ⊆ F) : Kept F s₀ (helloPassed h s) ↔ Kept F s₀ s := by
  simp at hW; (unfold helloPassed; try simp [hW]) <;> repeat' ((first | split | apply forAll_step | apply forAll_keep | apply foldl_step | apply foldl_keep | intro _) <;> try simp [hW])

@[simp] theorem helloEffect_kept (h : Hello) (s : State) (hW : [.outs, .flt, .stages, .paths, .pair, .acq, .sw, .key, .rcd, .auth] ⊆ F) : Kept F s₀ (helloEffect h s) ↔ Kept F s₀ s := by
  simp at hW; (unfold helloEffect; try simp [hW]) <;> repeat' ((first | split | apply forAll_step | apply forAll_keep | apply foldl_step | apply foldl_keep | intro _) <;> try simp [hW])

theorem execHello_keeps {t : State} (seq : Word) (h : Hello) (s : State) (e : execHello seq h s = .next t) : ∃ u, t = settle u ∧ Kept [.outs, .flt, .stages, .paths, .pair, .acq, .sw, .key, .rcd, .auth] s u := by
  unfold execHello pairRow live at e; refine ctl_keeps ?_ e; (try simp) <;> repeat' ((first | split | apply forAll_keep | apply foldl_keep | intro _) <;> try simp)

@[simp] theorem crossedLoss_kept (s : State) (hW : [.outs, .flt, .stages, .paths, .pair, .acq, .rcd] ⊆ F) : Kept F s₀ (crossedLoss s) ↔ Kept F s₀ s := by
  simp at hW; (unfold crossedLoss; try simp [hW]) <;> repeat' ((first | split | apply forAll_step | apply forAll_keep | apply foldl_step | apply foldl_keep | intro _) <;> try simp [hW])

@[simp] theorem handoverEffect_kept (atCount kind : Nat) (s : State) (hW : [.outs, .flt, .stages, .paths, .pair, .acq, .sw, .rcd] ⊆ F) : Kept F s₀ (handoverEffect atCount kind s) ↔ Kept F s₀ s := by
  simp at hW; (unfold handoverEffect; try simp [hW]) <;> repeat' ((first | split | apply forAll_step | apply forAll_keep | apply foldl_step | apply foldl_keep | intro _) <;> try simp [hW])

theorem execHandover_keeps {t : State} (seq : Word) (atCount kind : Nat) (s : State) (e : execHandover seq atCount kind s = .next t) : ∃ u, t = settle u ∧ Kept [.outs, .flt, .stages, .paths, .pair, .acq, .sw, .rcd] s u := by
  unfold execHandover pairRow live at e; refine ctl_keeps ?_ e; (try simp) <;> repeat' ((first | split | apply forAll_keep | apply foldl_keep | intro _) <;> try simp)

@[simp] theorem handoverTakenEffect_kept (s : State) (hW : [.outs, .freeIx, .flt, .stages, .alloc, .paths, .pair, .acq, .sw, .met, .veh, .can, .rcd, .auth] ⊆ F) : Kept F s₀ (handoverTakenEffect s) ↔ Kept F s₀ s := by
  simp at hW; (unfold handoverTakenEffect; try simp [hW]) <;> repeat' ((first | split | apply forAll_step | apply forAll_keep | apply foldl_step | apply foldl_keep | intro _) <;> try simp [hW])

theorem execHandoverTaken_keeps {t : State} (s : State) (e : execHandoverTaken s = .next t) : ∃ u, t = settle u ∧ Kept [.outs, .freeIx, .flt, .stages, .alloc, .paths, .pair, .acq, .sw, .met, .veh, .can, .rcd, .auth] s u := by
  unfold execHandoverTaken pairRow live at e; refine ctl_keeps ?_ e; (try simp) <;> repeat' ((first | split | apply forAll_keep | apply foldl_keep | intro _) <;> try simp)

@[simp] theorem giveLease_kept (s : State) (hW : [.outs, .freeIx, .host, .flt, .stages, .alloc, .paths, .pair, .acq, .sw, .met, .veh, .can, .plc, .rcd, .auth, .rings] ⊆ F) : Kept F s₀ (giveLease s) ↔ Kept F s₀ s := by
  simp at hW; (unfold giveLease; try simp [hW]) <;> repeat' ((first | split | apply forAll_step | apply forAll_keep | apply foldl_step | apply foldl_keep | intro _) <;> try simp [hW])

@[simp] theorem handoverGivenEffect_kept (s : State) (hW : [.outs, .freeIx, .host, .flt, .stages, .alloc, .paths, .pair, .acq, .sw, .met, .veh, .can, .plc, .rcd, .auth, .rings] ⊆ F) : Kept F s₀ (handoverGivenEffect s) ↔ Kept F s₀ s := by
  simp at hW; (unfold handoverGivenEffect; try simp [hW]) <;> repeat' ((first | split | apply forAll_step | apply forAll_keep | apply foldl_step | apply foldl_keep | intro _) <;> try simp [hW])

theorem execHandoverGiven_keeps {t : State} (s : State) (e : execHandoverGiven s = .next t) : ∃ u, t = settle u ∧ Kept [.outs, .freeIx, .host, .flt, .stages, .alloc, .paths, .pair, .acq, .sw, .met, .veh, .can, .plc, .rcd, .auth, .rings] s u := by
  unfold execHandoverGiven pairRow live at e; refine ctl_keeps ?_ e; (try simp) <;> repeat' ((first | split | apply forAll_keep | apply foldl_keep | intro _) <;> try simp)

@[simp] theorem windowEndEffect_kept (s : State) (hW : [.outs, .freeIx, .flt, .stages, .alloc, .paths, .pair, .acq, .sw, .met, .veh, .rcd, .auth] ⊆ F) : Kept F s₀ (windowEndEffect s) ↔ Kept F s₀ s := by
  simp at hW; (unfold windowEndEffect; try simp [hW]) <;> repeat' ((first | split | apply forAll_step | apply forAll_keep | apply foldl_step | apply foldl_keep | intro _) <;> try simp [hW])

theorem execHandoverWindowEnd_keeps {t : State} (s : State) (e : execHandoverWindowEnd s = .next t) : ∃ u, t = settle u ∧ Kept [.outs, .freeIx, .flt, .stages, .alloc, .paths, .pair, .acq, .sw, .met, .veh, .rcd, .auth] s u := by
  unfold execHandoverWindowEnd pairRow live at e; refine ctl_keeps ?_ e; (try simp) <;> repeat' ((first | split | apply forAll_keep | apply foldl_keep | intro _) <;> try simp)

@[simp] theorem switchoverEffect_kept (value : Word) (s : State) (hW : [.outs, .pair] ⊆ F) : Kept F s₀ (switchoverEffect value s) ↔ Kept F s₀ s := by
  simp at hW; (unfold switchoverEffect; try simp [hW]) <;> repeat' ((first | split | apply forAll_step | apply forAll_keep | apply foldl_step | apply foldl_keep | intro _) <;> try simp [hW])

theorem execSwitchover_keeps {t : State} (value : Word) (s : State) (e : execSwitchover value s = .next t) : ∃ u, t = settle u ∧ Kept [.outs, .freeIx, .pwr, .host, .flt, .stages, .alloc, .paths, .lanes, .pair, .acq, .thm, .sw, .met, .veh, .can, .rcd, .auth] s u := by
  unfold execSwitchover hostRow at e; refine ctl_keeps ?_ e; (try simp) <;> repeat' ((first | split | apply forAll_keep | apply foldl_keep | intro _) <;> try simp)

@[simp] theorem resyncEffect_kept (value : Word) (s : State) (hW : [.outs, .pair] ⊆ F) : Kept F s₀ (resyncEffect value s) ↔ Kept F s₀ s := by
  simp at hW; (unfold resyncEffect; try simp [hW]) <;> repeat' ((first | split | apply forAll_step | apply forAll_keep | apply foldl_step | apply foldl_keep | intro _) <;> try simp [hW])

theorem execResync_keeps {t : State} (value : Word) (s : State) (e : execResync value s = .next t) : ∃ u, t = settle u ∧ Kept [.outs, .freeIx, .pwr, .host, .flt, .stages, .alloc, .paths, .lanes, .pair, .acq, .thm, .sw, .met, .veh, .can, .rcd, .auth] s u := by
  unfold execResync hostRow at e; refine ctl_keeps ?_ e; (try simp) <;> repeat' ((first | split | apply forAll_keep | apply foldl_keep | intro _) <;> try simp)

@[simp] theorem snapshotReply_kept (s : State) (hW : [.outs, .pair] ⊆ F) : Kept F s₀ (snapshotReply s) ↔ Kept F s₀ s := by
  simp at hW; (unfold snapshotReply; try simp [hW]) <;> repeat' ((first | split | apply forAll_step | apply forAll_keep | apply foldl_step | apply foldl_keep | intro _) <;> try simp [hW])

theorem execSnapshotRequest_keeps {t : State} (seq : Word) (s : State) (e : execSnapshotRequest seq s = .next t) : ∃ u, t = settle u ∧ Kept [.outs, .pair] s u := by
  unfold execSnapshotRequest pairRow live at e; refine ctl_keeps ?_ e; (try simp) <;> repeat' ((first | split | apply forAll_keep | apply foldl_keep | intro _) <;> try simp)

@[simp] theorem fragmentEffect_kept (frag frags : Nat) (part : SnapPart) (s : State) (hW : [.pair] ⊆ F) : Kept F s₀ (fragmentEffect frag frags part s) ↔ Kept F s₀ s := by
  simp at hW; (unfold fragmentEffect; try simp [hW]) <;> repeat' ((first | split | apply forAll_step | apply forAll_keep | apply foldl_step | apply foldl_keep | intro _) <;> try simp [hW])

theorem execSnapshotRecord_keeps {t : State} (seq : Word) (frag frags : Nat) (part : SnapPart) (s : State) (e : execSnapshotRecord seq frag frags part s = .next t) : ∃ u, t = settle u ∧ Kept [.outs, .pair] s u := by
  unfold execSnapshotRecord pairRow live at e; refine ctl_keeps ?_ e; (try simp) <;> repeat' ((first | split | apply forAll_keep | apply foldl_keep | intro _) <;> try simp)

@[simp] theorem resyncPointEffect_kept (s : State) (hW : [.stages, .alloc, .paths, .law, .pair, .thm, .veh] ⊆ F) : Kept F s₀ (resyncPointEffect s) ↔ Kept F s₀ s := by
  simp at hW; (unfold resyncPointEffect; try simp [hW]) <;> repeat' ((first | split | apply forAll_step | apply forAll_keep | apply foldl_step | apply foldl_keep | intro _) <;> try simp [hW])

theorem execResyncPoint_keeps {t : State} (s : State) (e : execResyncPoint s = .next t) : ∃ u, t = settle u ∧ Kept [.stages, .alloc, .paths, .law, .pair, .thm, .veh] s u := by
  unfold execResyncPoint pairRow live at e; refine ctl_keeps ?_ e; (try simp) <;> repeat' ((first | split | apply forAll_keep | apply foldl_keep | intro _) <;> try simp)

@[simp] theorem descriptorArrives_kept (d : Desc) (status : Nat) (tick : EffectTick) (s : State) (hW : [.prof, .pair] ⊆ F) : Kept F s₀ (descriptorArrives d status tick s) ↔ Kept F s₀ s := by
  simp at hW; (unfold descriptorArrives; try simp [hW]) <;> repeat' ((first | split | apply forAll_step | apply forAll_keep | apply foldl_step | apply foldl_keep | intro _) <;> try simp [hW])

theorem execDescriptor_keeps {t : State} (seq : Word) (d : Desc) (status : Byte) (tick : EffectTick) (s : State) (e : execDescriptor seq d status tick s = .next t) : ∃ u, t = settle u ∧ Kept [.outs, .prof, .pair] s u := by
  unfold execDescriptor pairRow live at e; refine ctl_keeps ?_ e; (try simp) <;> repeat' ((first | split | apply forAll_keep | apply foldl_keep | intro _) <;> try simp)

@[simp] theorem mirroredEffect_kept (d : Desc) (s : State) (hW : [.outs, .freeIx, .flt, .stages, .alloc, .paths, .law, .pair, .acq, .met, .veh, .rcd] ⊆ F) : Kept F s₀ (mirroredEffect d s) ↔ Kept F s₀ s := by
  simp at hW; (unfold mirroredEffect; try simp [hW]) <;> repeat' ((first | split | apply forAll_step | apply forAll_keep | apply foldl_step | apply foldl_keep | intro _) <;> try simp [hW])

@[simp] theorem mirroredDescriptorStep_kept (s : State) (hW : [.outs, .freeIx, .flt, .stages, .alloc, .paths, .law, .pair, .acq, .met, .veh, .rcd] ⊆ F) : Kept F s₀ (mirroredDescriptorStep s) ↔ Kept F s₀ s := by
  simp at hW; (unfold mirroredDescriptorStep; try simp [hW]) <;> repeat' ((first | split | apply forAll_step | apply forAll_keep | apply foldl_step | apply foldl_keep | intro _) <;> try simp [hW])

theorem execMirroredDescriptorEffect_keeps {t : State} (s : State) (e : execMirroredDescriptorEffect s = .next t) : ∃ u, t = settle u ∧ Kept [.outs, .freeIx, .flt, .stages, .alloc, .paths, .law, .pair, .acq, .met, .veh, .rcd] s u := by
  unfold execMirroredDescriptorEffect pairRow live at e; refine ctl_keeps ?_ e; (try simp) <;> repeat' ((first | split | apply forAll_keep | apply foldl_keep | intro _) <;> try simp)

theorem execSession_keeps {t : State} (seq : Word) (outlet : Nat) (copy : Session) (wrapKey : List Byte) (s : State) (e : execSession seq outlet copy wrapKey s = .next t) : ∃ u, t = settle u ∧ Kept [.outs, .pair, .veh] s u := by
  unfold execSession pairRow live at e; refine ctl_keeps ?_ e; (try simp) <;> repeat' ((first | split | apply forAll_keep | apply foldl_keep | intro _) <;> try simp)

theorem execTarget_keeps {t : State} (seq : Word) (outlet : Nat) (copy : Path) (s : State) (e : execTarget seq outlet copy s = .next t) : ∃ u, t = settle u ∧ Kept [.outs, .paths, .pair] s u := by
  unfold execTarget pairRow live at e; refine ctl_keeps ?_ e; (try simp) <;> repeat' ((first | split | apply forAll_keep | apply foldl_keep | intro _) <;> try simp)

theorem execTransfer_keeps {t : State} (seq : Word) (stage : Nat) (copy : Stage) (s : State) (e : execTransfer seq stage copy s = .next t) : ∃ u, t = settle u ∧ Kept [.outs, .stages, .pair] s u := by
  unfold execTransfer pairRow live at e; refine ctl_keeps ?_ e; (try simp) <;> repeat' ((first | split | apply forAll_keep | apply foldl_keep | intro _) <;> try simp)

@[simp] theorem sensorEffect_kept (at_ : Nat) (rtds : List (Nat × Half)) (flows : List (Nat × Nat)) (s : State) (hW : [.thm] ⊆ F) : Kept F s₀ (sensorEffect at_ rtds flows s) ↔ Kept F s₀ s := by
  simp at hW; (unfold sensorEffect; try simp [hW]) <;> repeat' ((first | split | apply forAll_step | apply forAll_keep | apply foldl_step | apply foldl_keep | intro _) <;> try simp [hW])

theorem execSensor_keeps {t : State} (seq : Word) (at_ : Nat) (rtds : List (Nat × Half)) (flows : List (Nat × Nat)) (s : State) (e : execSensor seq at_ rtds flows s = .next t) : ∃ u, t = settle u ∧ Kept [.outs, .pair, .thm] s u := by
  unfold execSensor pairRow live at e; refine ctl_keeps ?_ e; (try simp) <;> repeat' ((first | split | apply forAll_keep | apply foldl_keep | intro _) <;> try simp)

theorem execCaddis_keeps {t : State} (seq : Word) (outlet : Nat) (start : Bool) (sessionRef : List Byte) (primaryTxn : Nat) (primaryId : List Byte) (s : State) (e : execCaddis seq outlet start sessionRef primaryTxn primaryId s = .next t) : ∃ u, t = settle u ∧ Kept [.outs, .freeIx, .host, .flt, .pair, .acq, .met, .rcd, .rings] s u := by
  unfold execCaddis pairRow live at e; refine ctl_keeps ?_ e; (try simp) <;> repeat' ((first | split | apply forAll_keep | apply foldl_keep | intro _) <;> try simp)

theorem execLane_keeps {t : State} (seq : Word) (active : Half) (s : State) (e : execLane seq active s = .next t) : ∃ u, t = settle u ∧ Kept [.outs, .pair] s u := by
  unfold execLane pairRow live at e; refine ctl_keeps ?_ e; (try simp) <;> repeat' ((first | split | apply forAll_keep | apply foldl_keep | intro _) <;> try simp)

@[simp] theorem pairRecordEffect_kept (r : Nat × List Byte) (s : State) (hW : [.outs, .freeIx, .host, .flt, .stages, .alloc, .paths, .pair, .acq, .sw, .met, .veh, .can, .plc, .rcd, .auth, .rings] ⊆ F) : Kept F s₀ (pairRecordEffect r s) ↔ Kept F s₀ s := by
  simp at hW; (unfold pairRecordEffect; try simp [hW]) <;> repeat' ((first | split | apply forAll_step | apply forAll_keep | apply foldl_step | apply foldl_keep | intro _) <;> try simp [hW])

@[simp] theorem pairPayload_kept (payload : List Byte) (s : State) (hW : [.outs, .freeIx, .host, .flt, .stages, .alloc, .paths, .pair, .acq, .sw, .met, .veh, .can, .plc, .rcd, .auth, .rings] ⊆ F) : Kept F s₀ (pairPayload payload s) ↔ Kept F s₀ s := by
  simp at hW; (unfold pairPayload; try simp [hW]) <;> repeat' ((first | split | apply forAll_step | apply forAll_keep | apply foldl_step | apply foldl_keep | intro _) <;> try simp [hW])

@[simp] theorem pairFrameEffect_kept (f : PlcFrame) (s : State) (hW : [.outs, .freeIx, .host, .flt, .stages, .alloc, .paths, .pair, .acq, .sw, .met, .veh, .can, .plc, .rcd, .auth, .rings] ⊆ F) : Kept F s₀ (pairFrameEffect f s) ↔ Kept F s₀ s := by
  simp at hW; (unfold pairFrameEffect; try simp [hW]) <;> repeat' ((first | split | apply forAll_step | apply forAll_keep | apply foldl_step | apply foldl_keep | intro _) <;> try simp [hW])

theorem execPairFrame_keeps {t : State} (f : PlcFrame) (s : State) (e : execPairFrame f s = .next t) : ∃ u, t = settle u ∧ Kept [.outs, .freeIx, .host, .flt, .stages, .alloc, .paths, .pair, .acq, .sw, .met, .veh, .can, .plc, .rcd, .auth, .rings] s u := by
  unfold execPairFrame plcRow live at e; refine ctl_keeps ?_ e; (try simp) <;> repeat' ((first | split | apply forAll_keep | apply foldl_keep | intro _) <;> try simp)

@[simp] theorem pairTimerEffect_kept (s0 : State) (hW : [.pair, .plc] ⊆ F) : Kept F s₀ (pairTimerEffect s0) ↔ Kept F s₀ s0 := by
  simp at hW; (unfold pairTimerEffect; try simp [hW]) <;> repeat' ((first | split | apply forAll_step | apply forAll_keep | apply foldl_step | apply foldl_keep | intro _) <;> try simp [hW])

theorem execPairFrameTimer_keeps {t : State} (s : State) (e : execPairFrameTimer s = .next t) : ∃ u, t = settle u ∧ Kept [.flt, .pair, .acq, .plc, .rcd] s u := by
  unfold execPairFrameTimer plcRow live at e; refine ctl_keeps ?_ e; (try simp) <;> repeat' ((first | split | apply forAll_keep | apply foldl_keep | intro _) <;> try simp)

end Sys2Proof.Machine
end

