-- ==== Sys2Proof/Laws/FramePower.lean ====
section
/-! SUPPORT. Frames of the operations of Power: what each may change. -/

set_option linter.all false

namespace Sys2Proof.Machine

variable {F : List Part} {s₀ : State}

@[simp] theorem powerOnEffect_kept (straps : Straps) (w : WellspringRead) (s : State) (hW : [.freeIx, .pwr, .host, .flt, .prof, .stages, .alloc, .paths, .law, .lanes, .pair, .acq, .thm, .sw, .veh, .key, .can, .plc, .rcd, .auth, .opState, .rings, .faults] ⊆ F) : Kept F s₀ (powerOnEffect straps w s) ↔ Kept F s₀ s := by
  simp at hW; (unfold powerOnEffect; try simp [hW]) <;> repeat' ((first | split | apply forAll_step | apply forAll_keep | apply foldl_step | apply foldl_keep | intro _) <;> try simp [hW])

theorem execPowerOnResetRelease_keeps {t : State} (straps : Straps) (wellspring : WellspringRead) (s : State) (e : execPowerOnResetRelease straps wellspring s = .next t) : ∃ u, t = settle u ∧ Kept [.freeIx, .pwr, .host, .flt, .prof, .stages, .alloc, .paths, .law, .lanes, .pair, .acq, .thm, .sw, .veh, .key, .can, .plc, .rcd, .auth, .opState, .rings, .faults] s u := by
  unfold execPowerOnResetRelease at e; refine run_keeps ?_ e; (try simp) <;> repeat' ((first | split | apply forAll_keep | apply foldl_keep | intro _) <;> try simp)

@[simp] theorem losePower_kept (s : State) (hW : [.pwr, .sw] ⊆ F) : Kept F s₀ (losePower s) ↔ Kept F s₀ s := by
  simp at hW; (unfold losePower; try simp [hW]) <;> repeat' ((first | split | apply forAll_step | apply forAll_keep | apply foldl_step | apply foldl_keep | intro _) <;> try simp [hW])

theorem execSupplyFail_keeps {t : State} (s : State) (e : execSupplyFail s = .next t) : ∃ u, t = settle u ∧ Kept [.pwr, .sw] s u := by
  unfold execSupplyFail at e; refine run_keeps ?_ e; (try simp) <;> repeat' ((first | split | apply forAll_keep | apply foldl_keep | intro _) <;> try simp)

theorem execPowerOnResetRearm_keeps {t : State} (s : State) (e : execPowerOnResetRearm s = .next t) : ∃ u, t = settle u ∧ Kept [.pwr, .sw] s u := by
  unfold execPowerOnResetRearm at e; refine run_keeps ?_ e; (try simp) <;> repeat' ((first | split | apply forAll_keep | apply foldl_keep | intro _) <;> try simp)

@[simp] theorem resetAssertEffect_kept (s : State) (hW : [.pwr, .host, .flt, .prof, .stages, .alloc, .paths, .law, .lanes, .pair, .acq, .thm, .sw, .veh, .key, .can, .plc, .rcd, .auth, .opState, .rings, .faults] ⊆ F) : Kept F s₀ (resetAssertEffect s) ↔ Kept F s₀ s := by
  simp at hW; (unfold resetAssertEffect; try simp [hW]) <;> repeat' ((first | split | apply forAll_step | apply forAll_keep | apply foldl_step | apply foldl_keep | intro _) <;> try simp [hW])

theorem execResetNAssert_keeps {t : State} (s : State) (e : execResetNAssert s = .next t) : ∃ u, t = settle u ∧ Kept [.pwr, .host, .flt, .prof, .stages, .alloc, .paths, .law, .lanes, .pair, .acq, .thm, .sw, .veh, .key, .can, .plc, .rcd, .auth, .opState, .rings, .faults] s u := by
  unfold execResetNAssert at e; refine run_keeps ?_ e; (try simp) <;> repeat' ((first | split | apply forAll_keep | apply foldl_keep | intro _) <;> try simp)

@[simp] theorem resetReleaseEffect_kept (straps : Straps) (s : State) (hW : [.pwr, .host, .flt, .prof, .stages, .alloc, .paths, .law, .lanes, .pair, .acq, .thm, .sw, .veh, .key, .can, .plc, .rcd, .auth, .opState, .rings, .faults] ⊆ F) : Kept F s₀ (resetReleaseEffect straps s) ↔ Kept F s₀ s := by
  simp at hW; unfold resetReleaseEffect; dsimp only; repeat' split
  all_goals simp [hW]

theorem execResetNRelease_keeps {t : State} (straps : Straps) (s : State) (e : execResetNRelease straps s = .next t) : ∃ u, t = settle u ∧ Kept [.pwr, .host, .flt, .prof, .stages, .alloc, .paths, .law, .lanes, .pair, .acq, .thm, .sw, .veh, .key, .can, .plc, .rcd, .auth, .opState, .rings, .faults] s u := by
  unfold execResetNRelease at e; refine run_keeps ?_ e; (try simp) <;> repeat' ((first | split | apply forAll_keep | apply foldl_keep | intro _) <;> try simp)

@[simp] theorem boundaryScanEffect_kept (trstN : Bool) (drive : List (Nat × Bool)) (s : State) (hW : [.pwr, .host, .flt, .prof, .stages, .alloc, .paths, .law, .lanes, .pair, .acq, .thm, .sw, .veh, .key, .can, .plc, .rcd, .auth, .opState, .rings, .faults] ⊆ F) : Kept F s₀ (boundaryScanEffect trstN drive s) ↔ Kept F s₀ s := by
  simp at hW; (unfold boundaryScanEffect; try simp [hW]) <;> repeat' ((first | split | apply forAll_step | apply forAll_keep | apply foldl_step | apply foldl_keep | intro _) <;> try simp [hW])

theorem execBoundaryScan_keeps {t : State} (trstN : Bool) (drive : List (Nat × Bool)) (s : State) (e : execBoundaryScan trstN drive s = .next t) : ∃ u, t = settle u ∧ Kept [.pwr, .host, .flt, .prof, .stages, .alloc, .paths, .law, .lanes, .pair, .acq, .thm, .sw, .veh, .key, .can, .plc, .rcd, .auth, .opState, .rings, .faults] s u := by
  unfold execBoundaryScan at e; refine run_keeps ?_ e; (try simp) <;> repeat' ((first | split | apply forAll_keep | apply foldl_keep | intro _) <;> try simp)

@[simp] theorem watchdogEffect_kept (core : Nat) (straps : Straps) (s : State) (hW : [.now, .pwr, .host, .flt, .prof, .stages, .alloc, .paths, .law, .lanes, .pair, .acq, .thm, .sw, .veh, .key, .can, .plc, .rcd, .auth, .opState, .rings, .faults] ⊆ F) : Kept F s₀ (watchdogEffect core straps s) ↔ Kept F s₀ s := by
  simp at hW; (unfold watchdogEffect; try simp [hW]) <;> repeat' ((first | split | apply forAll_step | apply forAll_keep | apply foldl_step | apply foldl_keep | intro _) <;> try simp [hW])

theorem execWatchdogExpiry_keeps {t : State} (core : Nat) (straps : Straps) (s : State) (e : execWatchdogExpiry core straps s = .next t) : ∃ u, t = settle u ∧ Kept [.now, .pwr, .host, .flt, .prof, .stages, .alloc, .paths, .law, .lanes, .pair, .acq, .thm, .sw, .veh, .key, .can, .plc, .rcd, .auth, .opState, .rings, .faults] s u := by
  unfold execWatchdogExpiry at e; refine ctl_keeps ?_ e; (try simp) <;> repeat' ((first | split | apply forAll_keep | apply foldl_keep | intro _) <;> try simp)

@[simp] theorem firmwareResetEffect_kept (straps : Straps) (s : State) (hW : [.pwr, .host, .flt, .prof, .stages, .alloc, .paths, .law, .lanes, .pair, .acq, .thm, .sw, .veh, .key, .can, .plc, .rcd, .auth, .opState, .rings, .faults] ⊆ F) : Kept F s₀ (firmwareResetEffect straps s) ↔ Kept F s₀ s := by
  simp at hW; (unfold firmwareResetEffect; try simp [hW]) <;> repeat' ((first | split | apply forAll_step | apply forAll_keep | apply foldl_step | apply foldl_keep | intro _) <;> try simp [hW])

theorem execFirmwareUpdateReset_keeps {t : State} (straps : Straps) (s : State) (e : execFirmwareUpdateReset straps s = .next t) : ∃ u, t = settle u ∧ Kept [.pwr, .host, .flt, .prof, .stages, .alloc, .paths, .law, .lanes, .pair, .acq, .thm, .sw, .veh, .key, .can, .plc, .rcd, .auth, .opState, .rings, .faults] s u := by
  unfold execFirmwareUpdateReset at e; refine ctl_keeps ?_ e; (try simp) <;> repeat' ((first | split | apply forAll_keep | apply foldl_keep | intro _) <;> try simp)

@[simp] theorem bootEffect_kept (fw : FirmwareBoot) (s : State) (hW : [.outs, .pwr, .host, .flt, .prof, .stages, .paths, .law, .lanes, .pair, .acq, .thm, .sw, .met, .key, .can, .rcd, .auth, .opState, .faults] ⊆ F) : Kept F s₀ (bootEffect fw s) ↔ Kept F s₀ s := by
  simp at hW; (unfold bootEffect; try simp [hW]) <;> repeat' ((first | split | apply forAll_step | apply forAll_keep | apply foldl_step | apply foldl_keep | intro _) <;> try simp [hW])

theorem execBootSequenceComplete_keeps {t : State} (fw : FirmwareBoot) (s : State) (e : execBootSequenceComplete fw s = .next t) : ∃ u, t = settle u ∧ Kept [.outs, .pwr, .host, .flt, .prof, .stages, .paths, .law, .lanes, .pair, .acq, .thm, .sw, .met, .key, .can, .rcd, .auth, .opState, .faults] s u := by
  unfold execBootSequenceComplete at e; refine ctl_keeps ?_ e; (try simp) <;> repeat' ((first | split | apply forAll_keep | apply foldl_keep | intro _) <;> try simp)

@[simp] theorem recoveryEffect_kept (value : Word) (package : Option (List Byte)) (s : State) (hW : [.outs, .host, .key] ⊆ F) : Kept F s₀ (recoveryEffect value package s) ↔ Kept F s₀ s := by
  simp at hW; (unfold recoveryEffect; try simp [hW]) <;> repeat' ((first | split | apply forAll_step | apply forAll_keep | apply foldl_step | apply foldl_keep | intro _) <;> try simp [hW])

theorem execGo_keeps {t : State} (value : Word) (package : Option (List Byte)) (s : State) (e : execGo value package s = .next t) : ∃ u, t = settle u ∧ Kept [.outs, .host, .key] s u := by
  unfold execGo at e; refine ctl_keeps ?_ e; (try simp) <;> repeat' ((first | split | apply forAll_keep | apply foldl_keep | intro _) <;> try simp)

@[simp] theorem extQualifiedEffect_kept (s : State) (hW : [.pwr] ⊆ F) : Kept F s₀ (extQualifiedEffect s) ↔ Kept F s₀ s := by
  simp at hW; (unfold extQualifiedEffect; try simp [hW]) <;> repeat' ((first | split | apply forAll_step | apply forAll_keep | apply foldl_step | apply foldl_keep | intro _) <;> try simp [hW])

theorem execExtRefQualified_keeps {t : State} (s : State) (e : execExtRefQualified s = .next t) : ∃ u, t = settle u ∧ Kept [.pwr] s u := by
  unfold execExtRefQualified at e; refine ctl_keeps ?_ e; (try simp) <;> repeat' ((first | split | apply forAll_keep | apply foldl_keep | intro _) <;> try simp)

@[simp] theorem extLostEffect_kept (s : State) (hW : [.pwr, .flt, .acq, .rcd] ⊆ F) : Kept F s₀ (extLostEffect s) ↔ Kept F s₀ s := by
  simp at hW; (unfold extLostEffect; try simp [hW]) <;> repeat' ((first | split | apply forAll_step | apply forAll_keep | apply foldl_step | apply foldl_keep | intro _) <;> try simp [hW])

theorem execExtRefLost_keeps {t : State} (s : State) (e : execExtRefLost s = .next t) : ∃ u, t = settle u ∧ Kept [.pwr, .flt, .acq, .rcd] s u := by
  unfold execExtRefLost at e; refine ctl_keeps ?_ e; (try simp) <;> repeat' ((first | split | apply forAll_keep | apply foldl_keep | intro _) <;> try simp)

@[simp] theorem setLock_kept (d : Nat) (on : Bool) (s : State) (hW : [.pwr] ⊆ F) : Kept F s₀ (setLock d on s) ↔ Kept F s₀ s := by
  simp at hW; (unfold setLock; try simp [hW]) <;> repeat' ((first | split | apply forAll_step | apply forAll_keep | apply foldl_step | apply foldl_keep | intro _) <;> try simp [hW])

@[simp] theorem pllLossEffect_kept (d : Nat) (s : State) (hW : [.outs, .freeIx, .pwr, .flt, .stages, .alloc, .paths, .law, .pair, .acq, .met, .veh, .rcd, .auth, .opState, .faults] ⊆ F) : Kept F s₀ (pllLossEffect d s) ↔ Kept F s₀ s := by
  simp at hW; (unfold pllLossEffect; try simp [hW]) <;> repeat' ((first | split | apply forAll_step | apply forAll_keep | apply foldl_step | apply foldl_keep | intro _) <;> try simp [hW])

theorem execPllLockLoss_keeps {t : State} (domain : Nat) (s : State) (e : execPllLockLoss domain s = .next t) : ∃ u, t = settle u ∧ Kept [.outs, .freeIx, .pwr, .flt, .stages, .alloc, .paths, .law, .pair, .acq, .met, .veh, .rcd, .auth, .opState, .faults] s u := by
  unfold execPllLockLoss live at e; refine ctl_keeps ?_ e; (try simp) <;> repeat' ((first | split | apply forAll_keep | apply foldl_keep | intro _) <;> try simp)

@[simp] theorem pllRelockEffect_kept (d : Nat) (s : State) (hW : [.outs, .pwr, .host, .flt, .acq, .rcd, .faults] ⊆ F) : Kept F s₀ (pllRelockEffect d s) ↔ Kept F s₀ s := by
  simp at hW; (unfold pllRelockEffect; try simp [hW]) <;> repeat' ((first | split | apply forAll_step | apply forAll_keep | apply foldl_step | apply foldl_keep | intro _) <;> try simp [hW])

theorem execPllRelock_keeps {t : State} (domain : Nat) (s : State) (e : execPllRelock domain s = .next t) : ∃ u, t = settle u ∧ Kept [.outs, .pwr, .host, .flt, .acq, .rcd, .faults] s u := by
  unfold execPllRelock live at e; refine ctl_keeps ?_ e; (try simp) <;> repeat' ((first | split | apply forAll_keep | apply foldl_keep | intro _) <;> try simp)

@[simp] theorem enterOperate_kept (s : State) (hW : [.pwr, .alloc, .can, .plc, .opState] ⊆ F) : Kept F s₀ (enterOperate s) ↔ Kept F s₀ s := by
  simp at hW; (unfold enterOperate; try simp [hW]) <;> repeat' ((first | split | apply forAll_step | apply forAll_keep | apply foldl_step | apply foldl_keep | intro _) <;> try simp [hW])

@[simp] theorem operateEffect_kept (value : Word) (s : State) (hW : [.pwr, .alloc, .can, .plc, .opState] ⊆ F) : Kept F s₀ (operateEffect value s) ↔ Kept F s₀ s := by
  simp at hW; (unfold operateEffect; try simp [hW]) <;> repeat' ((first | split | apply forAll_step | apply forAll_keep | apply foldl_step | apply foldl_keep | intro _) <;> try simp [hW])

theorem execOperate_keeps {t : State} (value : Word) (s : State) (e : execOperate value s = .next t) : ∃ u, t = settle u ∧ Kept [.outs, .freeIx, .pwr, .host, .flt, .stages, .alloc, .paths, .lanes, .pair, .acq, .thm, .sw, .met, .veh, .can, .plc, .rcd, .auth, .opState] s u := by
  unfold execOperate hostRow at e; refine ctl_keeps ?_ e; (try simp) <;> repeat' ((first | split | apply forAll_keep | apply foldl_keep | intro _) <;> try simp)

@[simp] theorem statusReadEffect_kept (s : State) (hW : [.outs, .freeIx, .pwr, .host, .flt, .stages, .alloc, .paths, .lanes, .pair, .acq, .thm, .sw, .met, .veh, .can, .rcd, .auth] ⊆ F) : Kept F s₀ (statusReadEffect s) ↔ Kept F s₀ s := by
  simp at hW; (unfold statusReadEffect; try simp [hW]) <;> repeat' ((first | split | apply forAll_step | apply forAll_keep | apply foldl_step | apply foldl_keep | intro _) <;> try simp [hW])

theorem execPwrStatusRead_keeps {t : State} (s : State) (e : execPwrStatusRead s = .next t) : ∃ u, t = settle u ∧ Kept [.outs, .freeIx, .pwr, .host, .flt, .stages, .alloc, .paths, .lanes, .pair, .acq, .thm, .sw, .met, .veh, .can, .rcd, .auth] s u := by
  unfold execPwrStatusRead at e; refine ctl_keeps ?_ e; (try simp) <;> repeat' ((first | split | apply forAll_keep | apply foldl_keep | intro _) <;> try simp)

@[simp] theorem sleepEffect_kept (s : State) (hW : [.outs, .pwr, .host, .flt, .lanes, .acq, .plc, .rcd] ⊆ F) : Kept F s₀ (sleepEffect s) ↔ Kept F s₀ s := by
  simp at hW; (unfold sleepEffect; try simp [hW]) <;> repeat' ((first | split | apply forAll_step | apply forAll_keep | apply foldl_step | apply foldl_keep | intro _) <;> try simp [hW])

@[simp] theorem noteL1_kept (enabled : Bool) (s : State) (hW : [.host, .rings] ⊆ F) : Kept F s₀ (noteL1 enabled s) ↔ Kept F s₀ s := by
  simp at hW; (unfold noteL1; try simp [hW]) <;> repeat' ((first | split | apply forAll_step | apply forAll_keep | apply foldl_step | apply foldl_keep | intro _) <;> try simp [hW])

theorem execSleepNLow_keeps {t : State} (l1Enabled : Bool) (s : State) (e : execSleepNLow l1Enabled s = .next t) : ∃ u, t = settle u ∧ Kept [.outs, .pwr, .host, .flt, .lanes, .acq, .plc, .rcd, .rings] s u := by
  unfold execSleepNLow at e; refine ctl_keeps ?_ e; (try simp) <;> repeat' ((first | split | apply forAll_keep | apply foldl_keep | intro _) <;> try simp)

theorem execSleepDelayExpiry_keeps {t : State} (l1Enabled : Bool) (s : State) (e : execSleepDelayExpiry l1Enabled s = .next t) : ∃ u, t = settle u ∧ Kept [.outs, .pwr, .host, .flt, .lanes, .acq, .plc, .rcd, .rings] s u := by
  unfold execSleepDelayExpiry live at e; refine ctl_keeps ?_ e; (try simp) <;> repeat' ((first | split | apply forAll_keep | apply foldl_keep | intro _) <;> try simp)

@[simp] theorem notePoll_kept (s : State) (hW : [.pwr] ⊆ F) : Kept F s₀ (notePoll s) ↔ Kept F s₀ s := by
  simp at hW; (unfold notePoll; try simp [hW]) <;> repeat' ((first | split | apply forAll_step | apply forAll_keep | apply foldl_step | apply foldl_keep | intro _) <;> try simp [hW])

@[simp] theorem pollDoorbell_kept (block : Option (List Byte)) (s : State) (hW : [.outs, .host, .flt, .acq, .rcd, .rings] ⊆ F) : Kept F s₀ (pollDoorbell block s) ↔ Kept F s₀ s := by
  simp at hW; (unfold pollDoorbell; try simp [hW]) <;> repeat' ((first | split | apply forAll_step | apply forAll_keep | apply foldl_step | apply foldl_keep | intro _) <;> try simp [hW])

@[simp] theorem sleepingPoll_kept (block : Option (List Byte)) (s : State) (hW : [.outs, .freeIx, .pwr, .host, .flt, .stages, .alloc, .paths, .lanes, .pair, .acq, .thm, .sw, .met, .veh, .can, .plc, .rcd, .auth, .rings] ⊆ F) : Kept F s₀ (sleepingPoll block s) ↔ Kept F s₀ s := by
  simp at hW; (unfold sleepingPoll; try simp [hW]) <;> repeat' ((first | split | apply forAll_step | apply forAll_keep | apply foldl_step | apply foldl_keep | intro _) <;> try simp [hW])

@[simp] theorem slowPollEffect_kept (block : Option (List Byte)) (s : State) (hW : [.outs, .freeIx, .pwr, .host, .flt, .stages, .alloc, .paths, .lanes, .pair, .acq, .thm, .sw, .met, .veh, .can, .plc, .rcd, .auth, .rings] ⊆ F) : Kept F s₀ (slowPollEffect block s) ↔ Kept F s₀ s := by
  simp at hW; (unfold slowPollEffect; try simp [hW]) <;> repeat' ((first | split | apply forAll_step | apply forAll_keep | apply foldl_step | apply foldl_keep | intro _) <;> try simp [hW])

theorem execSlowPollTick_keeps {t : State} (block : Option (List Byte)) (s : State) (e : execSlowPollTick block s = .next t) : ∃ u, t = settle u ∧ Kept [.outs, .freeIx, .pwr, .host, .flt, .stages, .alloc, .paths, .lanes, .pair, .acq, .thm, .sw, .met, .veh, .can, .plc, .rcd, .auth, .rings] s u := by
  unfold execSlowPollTick at e; refine ctl_keeps ?_ e; (try simp) <;> repeat' ((first | split | apply forAll_keep | apply foldl_keep | intro _) <;> try simp)

@[simp] theorem wakeEffect_kept (mask : BitVec 10) (clocksStopped : Bool) (s : State) (hW : [.outs, .freeIx, .pwr, .host, .flt, .stages, .alloc, .paths, .lanes, .pair, .acq, .thm, .sw, .met, .veh, .can, .rcd, .auth] ⊆ F) : Kept F s₀ (wakeEffect mask clocksStopped s) ↔ Kept F s₀ s := by
  simp at hW; (unfold wakeEffect; try simp [hW]) <;> repeat' ((first | split | apply forAll_step | apply forAll_keep | apply foldl_step | apply foldl_keep | intro _) <;> try simp [hW])

theorem execWakeSourceAssert_keeps {t : State} (mask : BitVec 10) (clocksStopped : Bool) (s : State) (e : execWakeSourceAssert mask clocksStopped s = .next t) : ∃ u, t = settle u ∧ Kept [.outs, .freeIx, .pwr, .host, .flt, .stages, .alloc, .paths, .lanes, .pair, .acq, .thm, .sw, .met, .veh, .can, .rcd, .auth] s u := by
  unfold execWakeSourceAssert at e; refine ctl_keeps ?_ e; (try simp) <;> repeat' ((first | split | apply forAll_keep | apply foldl_keep | intro _) <;> try simp)

@[simp] theorem haltEffect_kept (s : State) (hW : [.pwr, .host, .flt, .prof, .stages, .alloc, .paths, .law, .lanes, .pair, .acq, .thm, .sw, .veh, .key, .can, .plc, .rcd, .auth, .opState, .rings, .faults] ⊆ F) : Kept F s₀ (haltEffect s) ↔ Kept F s₀ s := by
  simp at hW; (unfold haltEffect; try simp [hW]) <;> repeat' ((first | split | apply forAll_step | apply forAll_keep | apply foldl_step | apply foldl_keep | intro _) <;> try simp [hW])

theorem execThermalHalt_keeps {t : State} (s : State) (e : execThermalHalt s = .next t) : ∃ u, t = settle u ∧ Kept [.pwr, .host, .flt, .prof, .stages, .alloc, .paths, .law, .lanes, .pair, .acq, .thm, .sw, .veh, .key, .can, .plc, .rcd, .auth, .opState, .rings, .faults] s u := by
  unfold execThermalHalt live at e; refine ctl_keeps ?_ e; (try simp) <;> repeat' ((first | split | apply forAll_keep | apply foldl_keep | intro _) <;> try simp)

@[simp] theorem haltReleaseEffect_kept (temps : List Int) (s : State) (hW : [.pwr, .host, .flt, .prof, .stages, .alloc, .paths, .law, .lanes, .pair, .acq, .thm, .sw, .veh, .key, .can, .plc, .rcd, .auth, .opState, .rings, .faults] ⊆ F) : Kept F s₀ (haltReleaseEffect temps s) ↔ Kept F s₀ s := by
  simp at hW; (unfold haltReleaseEffect; try simp [hW]) <;> repeat' ((first | split | apply forAll_step | apply forAll_keep | apply foldl_step | apply foldl_keep | intro _) <;> try simp [hW])

theorem execThermalHaltRelease_keeps {t : State} (temps : List Int) (s : State) (e : execThermalHaltRelease temps s = .next t) : ∃ u, t = settle u ∧ Kept [.pwr, .host, .flt, .prof, .stages, .alloc, .paths, .law, .lanes, .pair, .acq, .thm, .sw, .veh, .key, .can, .plc, .rcd, .auth, .opState, .rings, .faults] s u := by
  unfold execThermalHaltRelease at e; refine ctl_keeps ?_ e; (try simp) <;> repeat' ((first | split | apply forAll_keep | apply foldl_keep | intro _) <;> try simp)

end Sys2Proof.Machine
end

