-- ==== Sys2Proof/Laws/FrameSwitch.lean ====
section
/-! SUPPORT. Frames of the operations of Switch: what each may change. -/

set_option linter.all false

namespace Sys2Proof.Machine

variable {F : List Part} {s₀ : State}

theorem execOn_keeps {t : State} (channel : Nat) (value : Word) (s : State) (e : execOn channel value s = .next t) : ∃ u, t = settle u ∧ Kept [.outs, .freeIx, .pwr, .host, .flt, .stages, .alloc, .paths, .lanes, .pair, .acq, .thm, .sw, .met, .veh, .can, .rcd, .auth] s u := by
  unfold execOn hostRow at e; refine ctl_keeps ?_ e; (try simp) <;> repeat' ((first | split | apply forAll_keep | apply foldl_keep | intro _) <;> try simp)

theorem execOff_keeps {t : State} (channel : Nat) (value : Word) (s : State) (e : execOff channel value s = .next t) : ∃ u, t = settle u ∧ Kept [.outs, .freeIx, .pwr, .host, .flt, .stages, .alloc, .paths, .lanes, .pair, .acq, .thm, .sw, .met, .veh, .can, .rcd, .auth] s u := by
  unfold execOff hostRow at e; refine ctl_keeps ?_ e; (try simp) <;> repeat' ((first | split | apply forAll_keep | apply foldl_keep | intro _) <;> try simp)

theorem execClear_keeps {t : State} (channel : Nat) (value : Word) (tjDc : Int) (s : State) (e : execClear channel value tjDc s = .next t) : ∃ u, t = settle u ∧ Kept [.outs, .freeIx, .pwr, .host, .flt, .stages, .alloc, .paths, .lanes, .pair, .acq, .thm, .sw, .met, .veh, .can, .rcd, .auth] s u := by
  unfold execClear hostRow at e; refine ctl_keeps ?_ e; (try simp) <;> repeat' ((first | split | apply forAll_keep | apply foldl_keep | intro _) <;> try simp)

@[simp] theorem swInEdgeEffect_kept (n : Nat) (level : Bool) (s : State) (hW : [.sw] ⊆ F) : Kept F s₀ (swInEdgeEffect n level s) ↔ Kept F s₀ s := by
  simp at hW; (unfold swInEdgeEffect; try simp [hW]) <;> repeat' ((first | split | apply forAll_step | apply forAll_keep | apply foldl_step | apply foldl_keep | intro _) <;> try simp [hW])

theorem execSwInEdge_keeps {t : State} (channel : Nat) (level : Bool) (s : State) (e : execSwInEdge channel level s = .next t) : ∃ u, t = settle u ∧ Kept [.sw] s u := by
  unfold execSwInEdge at e; refine run_keeps ?_ e; (try simp) <;> repeat' ((first | split | apply forAll_keep | apply foldl_keep | intro _) <;> try simp)

@[simp] theorem inrushEndEffect_kept (n peak : Nat) (s : State) (hW : [.sw] ⊆ F) : Kept F s₀ (inrushEndEffect n peak s) ↔ Kept F s₀ s := by
  simp at hW; (unfold inrushEndEffect; try simp [hW]) <;> repeat' ((first | split | apply forAll_step | apply forAll_keep | apply foldl_step | apply foldl_keep | intro _) <;> try simp [hW])

theorem execInrushEnd_keeps {t : State} (channel peakDa : Nat) (s : State) (e : execInrushEnd channel peakDa s = .next t) : ∃ u, t = settle u ∧ Kept [.sw] s u := by
  unfold execInrushEnd at e; refine run_keeps ?_ e; (try simp) <;> repeat' ((first | split | apply forAll_keep | apply foldl_keep | intro _) <;> try simp)

@[simp] theorem shortChannel_kept (n cause : Nat) (s : State) (hW : [.flt, .acq, .thm, .sw, .rcd] ⊆ F) : Kept F s₀ (shortChannel n cause s) ↔ Kept F s₀ s := by
  simp at hW; (unfold shortChannel; try simp [hW]) <;> repeat' ((first | split | apply forAll_step | apply forAll_keep | apply foldl_step | apply foldl_keep | intro _) <;> try simp [hW])

@[simp] theorem limitEffect_kept (n ma ns : Nat) (s : State) (hW : [.flt, .acq, .thm, .sw, .rcd] ⊆ F) : Kept F s₀ (limitEffect n ma ns s) ↔ Kept F s₀ s := by
  simp at hW; (unfold limitEffect; try simp [hW]) <;> repeat' ((first | split | apply forAll_step | apply forAll_keep | apply foldl_step | apply foldl_keep | intro _) <;> try simp [hW])

theorem execLimit_keeps {t : State} (channel currentMa ns : Nat) (s : State) (e : execLimit channel currentMa ns s = .next t) : ∃ u, t = settle u ∧ Kept [.flt, .acq, .thm, .sw, .rcd] s u := by
  unfold execLimit at e; refine run_keeps ?_ e; (try simp) <;> repeat' ((first | split | apply forAll_keep | apply foldl_keep | intro _) <;> try simp)

theorem execHardTrip_keeps {t : State} (channel currentMa : Nat) (s : State) (e : execHardTrip channel currentMa s = .next t) : ∃ u, t = settle u ∧ Kept [.flt, .acq, .thm, .sw, .rcd] s u := by
  unfold execHardTrip at e; refine run_keeps ?_ e; (try simp) <;> repeat' ((first | split | apply forAll_keep | apply foldl_keep | intro _) <;> try simp)

@[simp] theorem switchRetryEffect_kept (n : Nat) (s : State) (hW : [.sw] ⊆ F) : Kept F s₀ (switchRetryEffect n s) ↔ Kept F s₀ s := by
  simp at hW; (unfold switchRetryEffect; try simp [hW]) <;> repeat' ((first | split | apply forAll_step | apply forAll_keep | apply foldl_step | apply foldl_keep | intro _) <;> try simp [hW])

theorem execSwitchRetry_keeps {t : State} (channel : Nat) (s : State) (e : execSwitchRetry channel s = .next t) : ∃ u, t = settle u ∧ Kept [.sw] s u := by
  unfold execSwitchRetry at e; refine run_keeps ?_ e; (try simp) <;> repeat' ((first | split | apply forAll_keep | apply foldl_keep | intro _) <;> try simp)

@[simp] theorem retryResetEffect_kept (n : Nat) (s : State) (hW : [.sw] ⊆ F) : Kept F s₀ (retryResetEffect n s) ↔ Kept F s₀ s := by
  simp at hW; (unfold retryResetEffect; try simp [hW]) <;> repeat' ((first | split | apply forAll_step | apply forAll_keep | apply foldl_step | apply foldl_keep | intro _) <;> try simp [hW])

theorem execRetryCountReset_keeps {t : State} (channel : Nat) (s : State) (e : execRetryCountReset channel s = .next t) : ∃ u, t = settle u ∧ Kept [.sw] s u := by
  unfold execRetryCountReset at e; refine run_keeps ?_ e; (try simp) <;> repeat' ((first | split | apply forAll_keep | apply foldl_keep | intro _) <;> try simp)

@[simp] theorem latchedEffect_kept (n : Nat) (tjDc : Int) (s : State) (hW : [.flt, .acq, .thm, .sw, .rcd] ⊆ F) : Kept F s₀ (latchedEffect n tjDc s) ↔ Kept F s₀ s := by
  simp at hW; (unfold latchedEffect; try simp [hW]) <;> repeat' ((first | split | apply forAll_step | apply forAll_keep | apply foldl_step | apply foldl_keep | intro _) <;> try simp [hW])

theorem execLatched_keeps {t : State} (channel : Nat) (tjDc : Int) (s : State) (e : execLatched channel tjDc s = .next t) : ∃ u, t = settle u ∧ Kept [.flt, .acq, .thm, .sw, .rcd] s u := by
  unfold execLatched at e; refine run_keeps ?_ e; (try simp) <;> repeat' ((first | split | apply forAll_keep | apply foldl_keep | intro _) <;> try simp)

@[simp] theorem measureCh_kept (n ua : Nat) (s : State) (hW : [.sw] ⊆ F) : Kept F s₀ (measureCh n ua s) ↔ Kept F s₀ s := by
  simp at hW; (unfold measureCh; try simp [hW]) <;> repeat' ((first | split | apply forAll_step | apply forAll_keep | apply foldl_step | apply foldl_keep | intro _) <;> try simp [hW])

@[simp] theorem openLoadEffect_kept (n ua : Nat) (s : State) (hW : [.flt, .acq, .sw, .rcd] ⊆ F) : Kept F s₀ (openLoadEffect n ua s) ↔ Kept F s₀ s := by
  simp at hW; (unfold openLoadEffect; try simp [hW]) <;> repeat' ((first | split | apply forAll_step | apply forAll_keep | apply foldl_step | apply foldl_keep | intro _) <;> try simp [hW])

theorem execOpenLoad_keeps {t : State} (channel ua : Nat) (s : State) (e : execOpenLoad channel ua s = .next t) : ∃ u, t = settle u ∧ Kept [.flt, .acq, .sw, .rcd] s u := by
  unfold execOpenLoad at e; refine run_keeps ?_ e; (try simp) <;> repeat' ((first | split | apply forAll_keep | apply foldl_keep | intro _) <;> try simp)

@[simp] theorem openLoadClearedEffect_kept (n ua : Nat) (s : State) (hW : [.flt, .acq, .sw, .rcd] ⊆ F) : Kept F s₀ (openLoadClearedEffect n ua s) ↔ Kept F s₀ s := by
  simp at hW; (unfold openLoadClearedEffect; try simp [hW]) <;> repeat' ((first | split | apply forAll_step | apply forAll_keep | apply foldl_step | apply foldl_keep | intro _) <;> try simp [hW])

theorem execOpenLoadCleared_keeps {t : State} (channel ua : Nat) (s : State) (e : execOpenLoadCleared channel ua s = .next t) : ∃ u, t = settle u ∧ Kept [.flt, .acq, .sw, .rcd] s u := by
  unfold execOpenLoadCleared at e; refine run_keeps ?_ e; (try simp) <;> repeat' ((first | split | apply forAll_keep | apply foldl_keep | intro _) <;> try simp)

@[simp] theorem vauxLowEffect_kept (mv : Nat) (s : State) (hW : [.flt, .acq, .sw, .rcd] ⊆ F) : Kept F s₀ (vauxLowEffect mv s) ↔ Kept F s₀ s := by
  simp at hW; (unfold vauxLowEffect; try simp [hW]) <;> repeat' ((first | split | apply forAll_step | apply forAll_keep | apply foldl_step | apply foldl_keep | intro _) <;> try simp [hW])

theorem execVauxLow_keeps {t : State} (mv : Nat) (s : State) (e : execVauxLow mv s = .next t) : ∃ u, t = settle u ∧ Kept [.flt, .acq, .sw, .rcd] s u := by
  unfold execVauxLow at e; refine run_keeps ?_ e; (try simp) <;> repeat' ((first | split | apply forAll_keep | apply foldl_keep | intro _) <;> try simp)

@[simp] theorem vauxRecoveredEffect_kept (mv : Nat) (s : State) (hW : [.flt, .acq, .sw, .rcd] ⊆ F) : Kept F s₀ (vauxRecoveredEffect mv s) ↔ Kept F s₀ s := by
  simp at hW; (unfold vauxRecoveredEffect; try simp [hW]) <;> repeat' ((first | split | apply forAll_step | apply forAll_keep | apply foldl_step | apply foldl_keep | intro _) <;> try simp [hW])

theorem execVauxRecovered_keeps {t : State} (mv : Nat) (s : State) (e : execVauxRecovered mv s = .next t) : ∃ u, t = settle u ∧ Kept [.flt, .acq, .sw, .rcd] s u := by
  unfold execVauxRecovered at e; refine run_keeps ?_ e; (try simp) <;> repeat' ((first | split | apply forAll_keep | apply foldl_keep | intro _) <;> try simp)

@[simp] theorem vauxLostEffect_kept (mv : Nat) (s : State) (hW : [.flt, .acq, .sw, .rcd] ⊆ F) : Kept F s₀ (vauxLostEffect mv s) ↔ Kept F s₀ s := by
  simp at hW; (unfold vauxLostEffect; try simp [hW]) <;> repeat' ((first | split | apply forAll_step | apply forAll_keep | apply foldl_step | apply foldl_keep | intro _) <;> try simp [hW])

theorem execVauxLost_keeps {t : State} (mv : Nat) (s : State) (e : execVauxLost mv s = .next t) : ∃ u, t = settle u ∧ Kept [.flt, .acq, .sw, .rcd] s u := by
  unfold execVauxLost at e; refine run_keeps ?_ e; (try simp) <;> repeat' ((first | split | apply forAll_keep | apply foldl_keep | intro _) <;> try simp)

@[simp] theorem vauxReapplyEffect_kept (s : State) (hW : [.sw] ⊆ F) : Kept F s₀ (vauxReapplyEffect s) ↔ Kept F s₀ s := by
  simp at hW; (unfold vauxReapplyEffect; try simp [hW]) <;> repeat' ((first | split | apply forAll_step | apply forAll_keep | apply foldl_step | apply foldl_keep | intro _) <;> try simp [hW])

theorem execVauxReapply_keeps {t : State} (s : State) (e : execVauxReapply s = .next t) : ∃ u, t = settle u ∧ Kept [.sw] s u := by
  unfold execVauxReapply at e; refine run_keeps ?_ e; (try simp) <;> repeat' ((first | split | apply forAll_keep | apply foldl_keep | intro _) <;> try simp)

@[simp] theorem freezeEffect_kept (s : State) (hW : [.sw] ⊆ F) : Kept F s₀ (freezeEffect s) ↔ Kept F s₀ s := by
  simp at hW; (unfold freezeEffect; try simp [hW]) <;> repeat' ((first | split | apply forAll_step | apply forAll_keep | apply foldl_step | apply foldl_keep | intro _) <;> try simp [hW])

theorem execSwitchDieFreeze_keeps {t : State} (s : State) (e : execSwitchDieFreeze s = .next t) : ∃ u, t = settle u ∧ Kept [.sw] s u := by
  unfold execSwitchDieFreeze at e; refine run_keeps ?_ e; (try simp) <;> repeat' ((first | split | apply forAll_keep | apply foldl_keep | intro _) <;> try simp)

end Sys2Proof.Machine
end

