-- ==== Sys2Proof/Laws/FrameRegWrite.lean ====
section
/-! SUPPORT. Frames of the operations of RegWrite: what each may change. -/

set_option linter.all false

namespace Sys2Proof.Machine

variable {F : List Part} {s₀ : State}

@[simp] theorem sqCfgWrite_kept (n : Nat) (v : Word) (s : State) (hW : [.host, .rings] ⊆ F) : Kept F s₀ (sqCfgWrite n v s) ↔ Kept F s₀ s := by
  simp at hW; (unfold sqCfgWrite; try simp [hW]) <;> repeat' ((first | split | apply forAll_step | apply forAll_keep | apply foldl_step | apply foldl_keep | intro _) <;> try simp [hW])

@[simp] theorem sqWrite_kept (n k : Nat) (v : Word) (s : State) (hW : [.host, .rings] ⊆ F) : Kept F s₀ (sqWrite n k v s) ↔ Kept F s₀ s := by
  simp at hW; (unfold sqWrite; try simp [hW]) <;> repeat' ((first | split | apply forAll_step | apply forAll_keep | apply foldl_step | apply foldl_keep | intro _) <;> try simp [hW])

@[simp] theorem cqCfgWrite_kept (m : Nat) (v : Word) (s : State) (hW : [.host, .rings] ⊆ F) : Kept F s₀ (cqCfgWrite m v s) ↔ Kept F s₀ s := by
  simp at hW; (unfold cqCfgWrite; try simp [hW]) <;> repeat' ((first | split | apply forAll_step | apply forAll_keep | apply foldl_step | apply foldl_keep | intro _) <;> try simp [hW])

@[simp] theorem cqWrite_kept (m k : Nat) (v : Word) (s : State) (hW : [.host, .rings] ⊆ F) : Kept F s₀ (cqWrite m k v s) ↔ Kept F s₀ s := by
  simp at hW; (unfold cqWrite; try simp [hW]) <;> repeat' ((first | split | apply forAll_step | apply forAll_keep | apply foldl_step | apply foldl_keep | intro _) <;> try simp [hW])

@[simp] theorem evqCfgWrite_kept (v : Word) (s : State) (hW : [.outs, .host, .flt] ⊆ F) : Kept F s₀ (evqCfgWrite v s) ↔ Kept F s₀ s := by
  simp at hW; (unfold evqCfgWrite; try simp [hW]) <;> repeat' ((first | split | apply forAll_step | apply forAll_keep | apply foldl_step | apply foldl_keep | intro _) <;> try simp [hW])

@[simp] theorem ethWrite_kept (n : Nat) (v : Word) (s : State) (hW : [.host, .rings] ⊆ F) : Kept F s₀ (ethWrite n v s) ↔ Kept F s₀ s := by
  simp at hW; (unfold ethWrite; try simp [hW]) <;> repeat' ((first | split | apply forAll_step | apply forAll_keep | apply foldl_step | apply foldl_keep | intro _) <;> try simp [hW])

@[simp] theorem msixWrite_kept (i k : Nat) (v : Word) (s : State) (hW : [.host] ⊆ F) : Kept F s₀ (msixWrite i k v s) ↔ Kept F s₀ s := by
  simp at hW; (unfold msixWrite; try simp [hW]) <;> repeat' ((first | split | apply forAll_step | apply forAll_keep | apply foldl_step | apply foldl_keep | intro _) <;> try simp [hW])

@[simp] theorem hifWrite_kept (off : Nat) (v : Word) (s : State) (hW : [.outs, .host, .flt, .rings] ⊆ F) : Kept F s₀ (hifWrite off v s) ↔ Kept F s₀ s := by
  simp at hW; (unfold hifWrite; try simp [hW]) <;> repeat' ((first | split | apply forAll_step | apply forAll_keep | apply foldl_step | apply foldl_keep | intro _) <;> try simp [hW])

@[simp] theorem pwrWrite_kept (off : Nat) (v : Word) (s : State) (hW : [.pwr, .alloc, .can, .plc, .opState] ⊆ F) : Kept F s₀ (pwrWrite off v s) ↔ Kept F s₀ s := by
  simp at hW; (unfold pwrWrite; try simp [hW]) <;> repeat' ((first | split | apply forAll_step | apply forAll_keep | apply foldl_step | apply foldl_keep | intro _) <;> try simp [hW])

@[simp] theorem lawFlagWrite_kept (j : Nat) (v : Word) (clear : LawSlot → LawSlot) (s : State) (hW : [.law] ⊆ F) : Kept F s₀ (lawFlagWrite j v clear s) ↔ Kept F s₀ s := by
  simp at hW; (unfold lawFlagWrite; try simp [hW]) <;> repeat' ((first | split | apply forAll_step | apply forAll_keep | apply foldl_step | apply foldl_keep | intro _) <;> try simp [hW])

@[simp] theorem lawWrite_kept (off : Nat) (v : Word) (s : State) (hW : [.law] ⊆ F) : Kept F s₀ (lawWrite off v s) ↔ Kept F s₀ s := by
  simp at hW; (unfold lawWrite; try simp [hW]) <;> repeat' ((first | split | apply forAll_step | apply forAll_keep | apply foldl_step | apply foldl_keep | intro _) <;> try simp [hW])

@[simp] theorem acqWrite_kept (off : Nat) (v : Word) (s : State) (hW : [.acq] ⊆ F) : Kept F s₀ (acqWrite off v s) ↔ Kept F s₀ s := by
  simp at hW; (unfold acqWrite; try simp [hW]) <;> repeat' ((first | split | apply forAll_step | apply forAll_keep | apply foldl_step | apply foldl_keep | intro _) <;> try simp [hW])

@[simp] theorem canWrite_kept (off : Nat) (v : Word) (s : State) (hW : [.outs, .freeIx, .host, .can, .rings] ⊆ F) : Kept F s₀ (canWrite off v s) ↔ Kept F s₀ s := by
  simp at hW; (unfold canWrite; try simp [hW]) <;> repeat' ((first | split | apply forAll_step | apply forAll_keep | apply foldl_step | apply foldl_keep | intro _) <;> try simp [hW])

@[simp] theorem plcWrite_kept (off : Nat) (v : Word) (s : State) (hW : [.outs, .host, .plc] ⊆ F) : Kept F s₀ (plcWrite off v s) ↔ Kept F s₀ s := by
  simp at hW; (unfold plcWrite; try simp [hW]) <;> repeat' ((first | split | apply forAll_step | apply forAll_keep | apply foldl_step | apply foldl_keep | intro _) <;> try simp [hW])

@[simp] theorem recRegWrite_kept (off : Nat) (v : Word) (s : State) (hW : [.rcd] ⊆ F) : Kept F s₀ (recRegWrite off v s) ↔ Kept F s₀ s := by
  simp at hW; (unfold recRegWrite; try simp [hW]) <;> repeat' ((first | split | apply forAll_step | apply forAll_keep | apply foldl_step | apply foldl_keep | intro _) <;> try simp [hW])

@[simp] theorem keyWrite_kept (off : Nat) (v : Word) (s : State) (hW : [.key] ⊆ F) : Kept F s₀ (keyWrite off v s) ↔ Kept F s₀ s := by
  simp at hW; (unfold keyWrite; try simp [hW]) <;> repeat' ((first | split | apply forAll_step | apply forAll_keep | apply foldl_step | apply foldl_keep | intro _) <;> try simp [hW])

@[simp] theorem pairWrite_kept (off : Nat) (v : Word) (s : State) (hW : [.outs, .pair] ⊆ F) : Kept F s₀ (pairWrite off v s) ↔ Kept F s₀ s := by
  simp at hW; (unfold pairWrite; try simp [hW]) <;> repeat' ((first | split | apply forAll_step | apply forAll_keep | apply foldl_step | apply foldl_keep | intro _) <;> try simp [hW])

@[simp] theorem swcRegWrite_kept (off : Nat) (v : Word) (s : State) (hW : [.flt, .acq, .sw, .rcd] ⊆ F) : Kept F s₀ (swcRegWrite off v s) ↔ Kept F s₀ s := by
  simp at hW; (unfold swcRegWrite; try simp [hW]) <;> repeat' ((first | split | apply forAll_step | apply forAll_keep | apply foldl_step | apply foldl_keep | intro _) <;> try simp [hW])

@[simp] theorem regWrite_kept (off : Nat) (v : Word) (s : State) (hW : [.outs, .freeIx, .pwr, .host, .flt, .alloc, .law, .pair, .acq, .sw, .can, .plc, .rcd, .opState, .rings] ⊆ F) : Kept F s₀ (regWrite off v s) ↔ Kept F s₀ s := by
  simp at hW; (unfold regWrite; try simp [hW]) <;> repeat' ((first | split | apply forAll_step | apply forAll_keep | apply foldl_step | apply foldl_keep | intro _) <;> try simp [hW])

theorem execRegisterWrite_keeps {t : State} (offset : Nat) (value : Word) (s : State) (e : execRegisterWrite offset value s = .next t) :
    Kept [.outs, .freeIx, .pwr, .host, .flt, .stages, .alloc, .paths, .law, .lanes, .pair, .acq, .thm, .sw, .met, .veh, .key, .can, .plc, .rcd, .auth, .opState, .rings] s t := by
  unfold execRegisterWrite at e; split at e
  · unfold ctl at e; split at e <;> cases e; simp
  · unfold hostRow ctl at e; split at e <;> cases e; (try simp) <;> repeat' (split <;> try simp)

end Sys2Proof.Machine
end

