-- ==== Sys2Proof/Laws/FrameRegisters.lean ====
section
/-! SUPPORT. Frames of the operations of Registers: what each may change. -/

set_option linter.all false

namespace Sys2Proof.Machine

variable {F : List Part} {s₀ : State}


end Sys2Proof.Machine
end

