-- ==== Sys2Proof/Laws/FrameTick.lean ====
section
/-! SUPPORT. Frames of the operations of Tick: what each may change. -/

set_option linter.all false

namespace Sys2Proof.Machine

variable {F : List Part} {s₀ : State}

@[simp] theorem dueByTime_kept (s : State) (hW : [.outs, .freeIx, .host, .flt, .stages, .alloc, .paths, .pair, .acq, .met, .veh, .can, .plc, .rcd, .rings] ⊆ F) : Kept F s₀ (dueByTime s) ↔ Kept F s₀ s := by
  simp at hW; (unfold dueByTime; try simp [hW]) <;> repeat' ((first | split | apply forAll_step | apply forAll_keep | apply foldl_step | apply foldl_keep | intro _) <;> try simp [hW])

@[simp] theorem bootClocks_kept (before : Nat) (s : State) (hW : [.pwr] ⊆ F) : Kept F s₀ (bootClocks before s) ↔ Kept F s₀ s := by
  simp at hW; (unfold bootClocks; try simp [hW]) <;> repeat' ((first | split | apply forAll_step | apply forAll_keep | apply foldl_step | apply foldl_keep | intro _) <;> try simp [hW])

@[simp] theorem ppsFall_kept (s : State) (hW : [.outs, .host, .rings] ⊆ F) : Kept F s₀ (ppsFall s) ↔ Kept F s₀ s := by
  simp at hW; (unfold ppsFall; try simp [hW]) <;> repeat' ((first | split | apply forAll_step | apply forAll_keep | apply foldl_step | apply foldl_keep | intro _) <;> try simp [hW])

@[simp] theorem trigFall_kept (s : State) (hW : [.outs, .acq] ⊆ F) : Kept F s₀ (trigFall s) ↔ Kept F s₀ s := by
  simp at hW; (unfold trigFall; try simp [hW]) <;> repeat' ((first | split | apply forAll_step | apply forAll_keep | apply foldl_step | apply foldl_keep | intro _) <;> try simp [hW])

@[simp] theorem tick_kept (s : State) (hW : [.now, .outs, .freeIx, .pwr, .host, .flt, .stages, .alloc, .paths, .pair, .acq, .met, .veh, .can, .plc, .rcd, .rings] ⊆ F) : Kept F s₀ (tick s) ↔ Kept F s₀ s := by
  simp at hW; (unfold tick; try simp [hW]) <;> repeat' ((first | split | apply forAll_step | apply forAll_keep | apply foldl_step | apply foldl_keep | intro _) <;> try simp [hW])

end Sys2Proof.Machine
end

