-- ==== Sys2Proof/Laws/LawResults.lean ====
section
/-! SUPPORT. What a law instruction at its engine's address does (R240), and the exact values behind saturation and rounding (R228, R229). -/

set_option linter.all false

namespace Sys2Proof.Machine

theorem quiet_next {f : State → State} {s : State} (h : s.ready = true) : quiet f s = .next (f s) := by
  unfold quiet; simp [ready_tolerance h, ready_awake h]

theorem spend_clean {e cycles : Nat} {s : State} (h : (s.engine e).flips = 0) :
    spend e cycles s = s.modEngine e fun g => { g with used := g.used + cycles } := by unfold spend; rw [if_pos h]

theorem spend_flip {e cycles : Nat} {s : State} (h : (s.engine e).flips ≠ 0) :
    spend e cycles s = countEvent (16 + e) 3 0xFF (s.modEngine e fun g => { g with
      used := g.used + cycles + 2, flips := g.flips - 1, corrected := satAdd 16 g.corrected 1 }) := by unfold spend; rw [if_neg h]

theorem engine_setRun (e : Nat) (q : Run) (s : State) :
    ((s.modEngine e fun g => { g with run := some q }).engine e).flips = (s.engine e).flips := by
  show (nth (upd s.law.engines e _) e).flips = (nth s.law.engines e).flips
  rw [nth_upd]; split <;> rfl

theorem modEngine_twice (e : Nat) (f g : Engine → Engine) (s : State) : (s.modEngine e f).modEngine e g = s.modEngine e fun x => g (f x) := by
  simp [State.modEngine, State.modLaw, upd_upd]

theorem lawRow_next {e : Fin 8} {w : Nat} {cyc : Run → Nat} {f : State → Run → Run} {s : State} {r : Run} (h : s.ready = true)
    (hr : s.runAt e w = some r) :
    lawRow e w cyc f s = .next (spend e (cyc r) (s.modEngine e fun g => { g with run := some (f s r) })) := by
  unfold lawRow; rw [quiet_next h]; simp only [hr]

theorem lawRow_idle {e : Fin 8} {w : Nat} {cyc : Run → Nat} {f : State → Run → Run} {s : State} (h : s.ready = true)
    (hr : s.runAt e w = none) : lawRow e w cyc f s = .next s := by
  unfold lawRow; rw [quiet_next h]; simp only [hr]

/-- What R245 and R231 make of the cycles of an instruction, in one expression for each case. -/
theorem lawRow_spends {e : Fin 8} {w : Nat} {cyc : Run → Nat} {f : State → Run → Run} {s : State} {r : Run} (h : s.ready = true)
    (hr : s.runAt e w = some r) :
    ((s.engine e).flips = 0 → lawRow e w cyc f s = .next (s.modEngine e fun g => { g with run := some (f s r), used := g.used + cyc r }))
    ∧ ((s.engine e).flips ≠ 0 → lawRow e w cyc f s = .next (countEvent (16 + e) 3 0xFF (s.modEngine e fun g => { g with
        run := some (f s r), used := g.used + cyc r + 2, flips := g.flips - 1, corrected := satAdd 16 g.corrected 1 }))) := by
  refine ⟨fun hf => ?_, fun hf => ?_⟩
  · rw [lawRow_next h hr, spend_clean (by rw [engine_setRun]; exact hf), modEngine_twice]
  · rw [lawRow_next h hr, spend_flip (by rw [engine_setRun]; exact hf), modEngine_twice]

theorem satQ15_val (v : Int) : (satQ15 v).1.toInt = max (-32768) (min 32767 v) := by
  unfold satQ15; split
  · simp; omega
  · split
    · simp; omega
    · simp [BitVec.toInt_ofInt, Int.bmod]; omega

theorem satQ15_flag (v : Int) : (satQ15 v).2 = decide (v < -32768 ∨ 32767 < v) := by
  unfold satQ15; split
  · simp_all
  · split <;> simp <;> omega

theorem satAcc_val (v : Int) : (satAcc v).1.toInt = max (-(2 ^ 39)) (min (2 ^ 39 - 1) v) := by
  unfold satAcc; split
  · simp [BitVec.toInt_ofInt, Int.bmod]; omega
  · split
    · simp [BitVec.toInt_ofInt, Int.bmod]; omega
    · simp [BitVec.toInt_ofInt, Int.bmod]; omega

theorem satAcc_flag (v : Int) : (satAcc v).2 = decide (v < -(2 ^ 39) ∨ 2 ^ 39 - 1 < v) := by
  unfold satAcc; split
  · simp_all
  · split <;> simp <;> omega

theorem Run.acc_setAcc (r : Run) (ac : Bool) (v : Acc) : (r.setAcc ac v).acc ac = v ∧ (r.setAcc ac v).acc (!ac) = r.acc (!ac) := by
  cases ac <;> simp [Run.setAcc, Run.acc]

theorem Run.toAcc_result (r : Run) (ac : Bool) (v : Int) : AccResult r (r.toAcc ac v) ac v := by
  cases ac <;> simp [AccResult, Run.toAcc, Run.setAcc, Run.acc, Run.modFlags, Run.next, LawFlags.ovOr, satAcc_val, satAcc_flag]

theorem msb_neg (v : Half) : v.msb = decide (v.toInt < 0) := by rw [BitVec.msb_eq_toInt]

theorem zero_val (v : Half) : (v == 0#16) = decide (v.toInt = 0) := by
  rw [Bool.eq_iff_iff]; simp [← BitVec.toInt_inj]

theorem Run.toReg_result (r : Run) (rd : BitVec 4) (v : Half) : RegResult r (r.toReg rd v) rd v := by
  simp [RegResult, Run.toReg, Run.setReg, Run.modFlags, Run.next, LawFlags.nz, msb_neg, zero_val]

theorem Run.toRegSat_result (r : Run) (rd : BitVec 4) (v : Int) : RegResultSat r (r.toRegSat rd (satQ15 v)) rd v :=
  ⟨(satQ15 v).1, satQ15_val v, by
    simp [Run.toRegSat, Run.setReg, Run.modFlags, Run.next, LawFlags.nz, LawFlags.satOr, msb_neg, zero_val, satQ15_flag]⟩

end Sys2Proof.Machine
end

