-- ==== Sys2Proof/Laws/PerInstr.lean ====
section
/-! SUPPORT. What holds of each command as syntax: a row of the law table spells a word of 32 bits (R239). -/

/-- R239: the word of the command, when it is a law instruction, has 32 bits. -/
def Sys2Proof.Laws.LawWord.Statement (i : Sys2Proof.Instr) : Prop :=
  ∀ (e : Fin 8) (w : Nat), i.lawCode = some (e, w) → w < 2 ^ 32

/-- A command outside the law table has no word. -/
theorem Sys2Proof.Laws.lawWord_of_none {i : Sys2Proof.Instr} (h : i.lawCode = none) : Sys2Proof.Laws.LawWord.Statement i := by
  intro e w hw; rw [h] at hw; cases hw

/-- Fields within their widths add up to a word of 32 bits. -/
theorem Sys2Proof.Laws.lawWord_lt {i : Sys2Proof.Instr} {e : Fin 8} {op rd ra rb imm : Nat} {ac : Bool}
    (h : i.lawCode = some (e, Sys2Proof.Machine.lawWord op rd ra rb ac imm))
    (ho : op < 64) (hd : rd < 16) (ha : ra < 16) (hb : rb < 16) (hi : imm < 65536) (hs : rb = 0 ∧ ac = false ∨ imm < 8192) :
    Sys2Proof.Laws.LawWord.Statement i := by
  intro f w hw
  rw [h] at hw
  cases hw
  unfold Sys2Proof.Machine.lawWord Sys2Proof.Machine.b2n
  split <;> omega

theorem Sys2Proof.Laws.LawWord.powerOnResetRelease : ∀ a0 a1, Sys2Proof.Laws.LawWord.Statement (.powerOnResetRelease a0 a1) :=
  fun _ _ => Sys2Proof.Laws.lawWord_of_none rfl
theorem Sys2Proof.Laws.LawWord.supplyFail : Sys2Proof.Laws.LawWord.Statement (.supplyFail) :=
  Sys2Proof.Laws.lawWord_of_none rfl
theorem Sys2Proof.Laws.LawWord.resetNAssert : Sys2Proof.Laws.LawWord.Statement (.resetNAssert) :=
  Sys2Proof.Laws.lawWord_of_none rfl
theorem Sys2Proof.Laws.LawWord.resetNRelease : ∀ a0, Sys2Proof.Laws.LawWord.Statement (.resetNRelease a0) :=
  fun _ => Sys2Proof.Laws.lawWord_of_none rfl
theorem Sys2Proof.Laws.LawWord.bootSequenceComplete : ∀ a0, Sys2Proof.Laws.LawWord.Statement (.bootSequenceComplete a0) :=
  fun _ => Sys2Proof.Laws.lawWord_of_none rfl
theorem Sys2Proof.Laws.LawWord.watchdogExpiry : ∀ a0 a1, Sys2Proof.Laws.LawWord.Statement (.watchdogExpiry a0 a1) :=
  fun _ _ => Sys2Proof.Laws.lawWord_of_none rfl
theorem Sys2Proof.Laws.LawWord.extRefQualified : Sys2Proof.Laws.LawWord.Statement (.extRefQualified) :=
  Sys2Proof.Laws.lawWord_of_none rfl
theorem Sys2Proof.Laws.LawWord.extRefLost : Sys2Proof.Laws.LawWord.Statement (.extRefLost) :=
  Sys2Proof.Laws.lawWord_of_none rfl
theorem Sys2Proof.Laws.LawWord.pllLockLoss : ∀ a0, Sys2Proof.Laws.LawWord.Statement (.pllLockLoss a0) :=
  fun _ => Sys2Proof.Laws.lawWord_of_none rfl
theorem Sys2Proof.Laws.LawWord.pllRelock : ∀ a0, Sys2Proof.Laws.LawWord.Statement (.pllRelock a0) :=
  fun _ => Sys2Proof.Laws.lawWord_of_none rfl
theorem Sys2Proof.Laws.LawWord.operate : ∀ a0, Sys2Proof.Laws.LawWord.Statement (.operate a0) :=
  fun _ => Sys2Proof.Laws.lawWord_of_none rfl
theorem Sys2Proof.Laws.LawWord.pwrStatusRead : Sys2Proof.Laws.LawWord.Statement (.pwrStatusRead) :=
  Sys2Proof.Laws.lawWord_of_none rfl
theorem Sys2Proof.Laws.LawWord.sleepDelayExpiry : ∀ a0, Sys2Proof.Laws.LawWord.Statement (.sleepDelayExpiry a0) :=
  fun _ => Sys2Proof.Laws.lawWord_of_none rfl
theorem Sys2Proof.Laws.LawWord.wakeSourceAssert : ∀ a0 a1, Sys2Proof.Laws.LawWord.Statement (.wakeSourceAssert a0 a1) :=
  fun _ _ => Sys2Proof.Laws.lawWord_of_none rfl
theorem Sys2Proof.Laws.LawWord.slowPollTick : ∀ a0, Sys2Proof.Laws.LawWord.Statement (.slowPollTick a0) :=
  fun _ => Sys2Proof.Laws.lawWord_of_none rfl
theorem Sys2Proof.Laws.LawWord.pcieReset : Sys2Proof.Laws.LawWord.Statement (.pcieReset) :=
  Sys2Proof.Laws.lawWord_of_none rfl
theorem Sys2Proof.Laws.LawWord.ringsGo : ∀ a0, Sys2Proof.Laws.LawWord.Statement (.ringsGo a0) :=
  fun _ => Sys2Proof.Laws.lawWord_of_none rfl
theorem Sys2Proof.Laws.LawWord.registerWrite : ∀ a0 a1, Sys2Proof.Laws.LawWord.Statement (.registerWrite a0 a1) :=
  fun _ _ => Sys2Proof.Laws.lawWord_of_none rfl
theorem Sys2Proof.Laws.LawWord.doorbellFetch : Sys2Proof.Laws.LawWord.Statement (.doorbellFetch) :=
  Sys2Proof.Laws.lawWord_of_none rfl
theorem Sys2Proof.Laws.LawWord.doorbellFetchComplete : ∀ a0, Sys2Proof.Laws.LawWord.Statement (.doorbellFetchComplete a0) :=
  fun _ => Sys2Proof.Laws.lawWord_of_none rfl
theorem Sys2Proof.Laws.LawWord.doorbellFetchTimeout : ∀ a0, Sys2Proof.Laws.LawWord.Statement (.doorbellFetchTimeout a0) :=
  fun _ => Sys2Proof.Laws.lawWord_of_none rfl
theorem Sys2Proof.Laws.LawWord.tagWaitResume : ∀ a0, Sys2Proof.Laws.LawWord.Statement (.tagWaitResume a0) :=
  fun _ => Sys2Proof.Laws.lawWord_of_none rfl
theorem Sys2Proof.Laws.LawWord.eventQueueDrain : Sys2Proof.Laws.LawWord.Statement (.eventQueueDrain) :=
  Sys2Proof.Laws.lawWord_of_none rfl
theorem Sys2Proof.Laws.LawWord.coalesceTimerExpiry : Sys2Proof.Laws.LawWord.Statement (.coalesceTimerExpiry) :=
  Sys2Proof.Laws.lawWord_of_none rfl
theorem Sys2Proof.Laws.LawWord.nop : ∀ a0, Sys2Proof.Laws.LawWord.Statement (.nop a0) :=
  fun _ => Sys2Proof.Laws.lawWord_of_none rfl
theorem Sys2Proof.Laws.LawWord.armRing : ∀ a0, Sys2Proof.Laws.LawWord.Statement (.armRing a0) :=
  fun _ => Sys2Proof.Laws.lawWord_of_none rfl
theorem Sys2Proof.Laws.LawWord.ringReset : ∀ a0, Sys2Proof.Laws.LawWord.Statement (.ringReset a0) :=
  fun _ => Sys2Proof.Laws.lawWord_of_none rfl
theorem Sys2Proof.Laws.LawWord.releaseMaster : ∀ a0, Sys2Proof.Laws.LawWord.Statement (.releaseMaster a0) :=
  fun _ => Sys2Proof.Laws.lawWord_of_none rfl
theorem Sys2Proof.Laws.LawWord.safeEnter : ∀ a0, Sys2Proof.Laws.LawWord.Statement (.safeEnter a0) :=
  fun _ => Sys2Proof.Laws.lawWord_of_none rfl
theorem Sys2Proof.Laws.LawWord.safeExit : ∀ a0, Sys2Proof.Laws.LawWord.Statement (.safeExit a0) :=
  fun _ => Sys2Proof.Laws.lawWord_of_none rfl
theorem Sys2Proof.Laws.LawWord.gridCap : ∀ a0, Sys2Proof.Laws.LawWord.Statement (.gridCap a0) :=
  fun _ => Sys2Proof.Laws.lawWord_of_none rfl
theorem Sys2Proof.Laws.LawWord.outletHalt : ∀ a0, Sys2Proof.Laws.LawWord.Statement (.outletHalt a0) :=
  fun _ => Sys2Proof.Laws.lawWord_of_none rfl
theorem Sys2Proof.Laws.LawWord.outletResume : ∀ a0, Sys2Proof.Laws.LawWord.Statement (.outletResume a0) :=
  fun _ => Sys2Proof.Laws.lawWord_of_none rfl
theorem Sys2Proof.Laws.LawWord.stageHalt : ∀ a0, Sys2Proof.Laws.LawWord.Statement (.stageHalt a0) :=
  fun _ => Sys2Proof.Laws.lawWord_of_none rfl
theorem Sys2Proof.Laws.LawWord.stageResume : ∀ a0, Sys2Proof.Laws.LawWord.Statement (.stageResume a0) :=
  fun _ => Sys2Proof.Laws.lawWord_of_none rfl
theorem Sys2Proof.Laws.LawWord.stageResumeTakeEffect : ∀ a0, Sys2Proof.Laws.LawWord.Statement (.stageResumeTakeEffect a0) :=
  fun _ => Sys2Proof.Laws.lawWord_of_none rfl
theorem Sys2Proof.Laws.LawWord.snapshot : ∀ a0, Sys2Proof.Laws.LawWord.Statement (.snapshot a0) :=
  fun _ => Sys2Proof.Laws.lawWord_of_none rfl
theorem Sys2Proof.Laws.LawWord.sessionAuthorize : ∀ a0, Sys2Proof.Laws.LawWord.Statement (.sessionAuthorize a0) :=
  fun _ => Sys2Proof.Laws.lawWord_of_none rfl
theorem Sys2Proof.Laws.LawWord.sessionEnd : ∀ a0, Sys2Proof.Laws.LawWord.Statement (.sessionEnd a0) :=
  fun _ => Sys2Proof.Laws.lawWord_of_none rfl
theorem Sys2Proof.Laws.LawWord.outletPolicy : ∀ a0, Sys2Proof.Laws.LawWord.Statement (.outletPolicy a0) :=
  fun _ => Sys2Proof.Laws.lawWord_of_none rfl
theorem Sys2Proof.Laws.LawWord.selectProfile : ∀ a0, Sys2Proof.Laws.LawWord.Statement (.selectProfile a0) :=
  fun _ => Sys2Proof.Laws.lawWord_of_none rfl
theorem Sys2Proof.Laws.LawWord.profileTakeEffect : Sys2Proof.Laws.LawWord.Statement (.profileTakeEffect) :=
  Sys2Proof.Laws.lawWord_of_none rfl
theorem Sys2Proof.Laws.LawWord.canSend : ∀ a0, Sys2Proof.Laws.LawWord.Statement (.canSend a0) :=
  fun _ => Sys2Proof.Laws.lawWord_of_none rfl
theorem Sys2Proof.Laws.LawWord.plcSend : ∀ a0, Sys2Proof.Laws.LawWord.Statement (.plcSend a0) :=
  fun _ => Sys2Proof.Laws.lawWord_of_none rfl
theorem Sys2Proof.Laws.LawWord.txnStart : ∀ a0, Sys2Proof.Laws.LawWord.Statement (.txnStart a0) :=
  fun _ => Sys2Proof.Laws.lawWord_of_none rfl
theorem Sys2Proof.Laws.LawWord.txnStop : ∀ a0, Sys2Proof.Laws.LawWord.Statement (.txnStop a0) :=
  fun _ => Sys2Proof.Laws.lawWord_of_none rfl
theorem Sys2Proof.Laws.LawWord.readRegisters : ∀ a0, Sys2Proof.Laws.LawWord.Statement (.readRegisters a0) :=
  fun _ => Sys2Proof.Laws.lawWord_of_none rfl
theorem Sys2Proof.Laws.LawWord.readRecord : ∀ a0, Sys2Proof.Laws.LawWord.Statement (.readRecord a0) :=
  fun _ => Sys2Proof.Laws.lawWord_of_none rfl
theorem Sys2Proof.Laws.LawWord.readLog : ∀ a0, Sys2Proof.Laws.LawWord.Statement (.readLog a0) :=
  fun _ => Sys2Proof.Laws.lawWord_of_none rfl
theorem Sys2Proof.Laws.LawWord.identify : ∀ a0, Sys2Proof.Laws.LawWord.Statement (.identify a0) :=
  fun _ => Sys2Proof.Laws.lawWord_of_none rfl
theorem Sys2Proof.Laws.LawWord.setParameter : ∀ a0, Sys2Proof.Laws.LawWord.Statement (.setParameter a0) :=
  fun _ => Sys2Proof.Laws.lawWord_of_none rfl
theorem Sys2Proof.Laws.LawWord.selfTest : ∀ a0, Sys2Proof.Laws.LawWord.Statement (.selfTest a0) :=
  fun _ => Sys2Proof.Laws.lawWord_of_none rfl
theorem Sys2Proof.Laws.LawWord.recordRead : ∀ a0, Sys2Proof.Laws.LawWord.Statement (.recordRead a0) :=
  fun _ => Sys2Proof.Laws.lawWord_of_none rfl
theorem Sys2Proof.Laws.LawWord.setCivilTime : ∀ a0, Sys2Proof.Laws.LawWord.Statement (.setCivilTime a0) :=
  fun _ => Sys2Proof.Laws.lawWord_of_none rfl
theorem Sys2Proof.Laws.LawWord.derive : ∀ a0, Sys2Proof.Laws.LawWord.Statement (.derive a0) :=
  fun _ => Sys2Proof.Laws.lawWord_of_none rfl
theorem Sys2Proof.Laws.LawWord.generate : ∀ a0, Sys2Proof.Laws.LawWord.Statement (.generate a0) :=
  fun _ => Sys2Proof.Laws.lawWord_of_none rfl
theorem Sys2Proof.Laws.LawWord.importWrapped : ∀ a0, Sys2Proof.Laws.LawWord.Statement (.importWrapped a0) :=
  fun _ => Sys2Proof.Laws.lawWord_of_none rfl
theorem Sys2Proof.Laws.LawWord.importPublic : ∀ a0, Sys2Proof.Laws.LawWord.Statement (.importPublic a0) :=
  fun _ => Sys2Proof.Laws.lawWord_of_none rfl
theorem Sys2Proof.Laws.LawWord.readPublic : ∀ a0, Sys2Proof.Laws.LawWord.Statement (.readPublic a0) :=
  fun _ => Sys2Proof.Laws.lawWord_of_none rfl
theorem Sys2Proof.Laws.LawWord.sign : ∀ a0, Sys2Proof.Laws.LawWord.Statement (.sign a0) :=
  fun _ => Sys2Proof.Laws.lawWord_of_none rfl
theorem Sys2Proof.Laws.LawWord.info : ∀ a0, Sys2Proof.Laws.LawWord.Statement (.info a0) :=
  fun _ => Sys2Proof.Laws.lawWord_of_none rfl
theorem Sys2Proof.Laws.LawWord.revoke : ∀ a0, Sys2Proof.Laws.LawWord.Statement (.revoke a0) :=
  fun _ => Sys2Proof.Laws.lawWord_of_none rfl
theorem Sys2Proof.Laws.LawWord.delete : ∀ a0, Sys2Proof.Laws.LawWord.Statement (.delete a0) :=
  fun _ => Sys2Proof.Laws.lawWord_of_none rfl
theorem Sys2Proof.Laws.LawWord.certWrite : ∀ a0, Sys2Proof.Laws.LawWord.Statement (.certWrite a0) :=
  fun _ => Sys2Proof.Laws.lawWord_of_none rfl
theorem Sys2Proof.Laws.LawWord.certRead : ∀ a0, Sys2Proof.Laws.LawWord.Statement (.certRead a0) :=
  fun _ => Sys2Proof.Laws.lawWord_of_none rfl
theorem Sys2Proof.Laws.LawWord.enrollOwner : ∀ a0, Sys2Proof.Laws.LawWord.Statement (.enrollOwner a0) :=
  fun _ => Sys2Proof.Laws.lawWord_of_none rfl
theorem Sys2Proof.Laws.LawWord.attest : ∀ a0, Sys2Proof.Laws.LawWord.Statement (.attest a0) :=
  fun _ => Sys2Proof.Laws.lawWord_of_none rfl
theorem Sys2Proof.Laws.LawWord.profileWrite : ∀ a0, Sys2Proof.Laws.LawWord.Statement (.profileWrite a0) :=
  fun _ => Sys2Proof.Laws.lawWord_of_none rfl
theorem Sys2Proof.Laws.LawWord.firmwareWrite : ∀ a0, Sys2Proof.Laws.LawWord.Statement (.firmwareWrite a0) :=
  fun _ => Sys2Proof.Laws.lawWord_of_none rfl
theorem Sys2Proof.Laws.LawWord.firmwareActivate : ∀ a0, Sys2Proof.Laws.LawWord.Statement (.firmwareActivate a0) :=
  fun _ => Sys2Proof.Laws.lawWord_of_none rfl
theorem Sys2Proof.Laws.LawWord.captureArm : ∀ a0, Sys2Proof.Laws.LawWord.Statement (.captureArm a0) :=
  fun _ => Sys2Proof.Laws.lawWord_of_none rfl
theorem Sys2Proof.Laws.LawWord.captureCalibrate : ∀ a0, Sys2Proof.Laws.LawWord.Statement (.captureCalibrate a0) :=
  fun _ => Sys2Proof.Laws.lawWord_of_none rfl
theorem Sys2Proof.Laws.LawWord.captureDisarm : ∀ a0, Sys2Proof.Laws.LawWord.Statement (.captureDisarm a0) :=
  fun _ => Sys2Proof.Laws.lawWord_of_none rfl
theorem Sys2Proof.Laws.LawWord.captureRead : ∀ a0, Sys2Proof.Laws.LawWord.Statement (.captureRead a0) :=
  fun _ => Sys2Proof.Laws.lawWord_of_none rfl
theorem Sys2Proof.Laws.LawWord.inject : ∀ a0, Sys2Proof.Laws.LawWord.Statement (.inject a0) :=
  fun _ => Sys2Proof.Laws.lawWord_of_none rfl
theorem Sys2Proof.Laws.LawWord.injectOff : ∀ a0, Sys2Proof.Laws.LawWord.Statement (.injectOff a0) :=
  fun _ => Sys2Proof.Laws.lawWord_of_none rfl
theorem Sys2Proof.Laws.LawWord.ethSend : ∀ a0, Sys2Proof.Laws.LawWord.Statement (.ethSend a0) :=
  fun _ => Sys2Proof.Laws.lawWord_of_none rfl
theorem Sys2Proof.Laws.LawWord.ethReceive : ∀ a0, Sys2Proof.Laws.LawWord.Statement (.ethReceive a0) :=
  fun _ => Sys2Proof.Laws.lawWord_of_none rfl
theorem Sys2Proof.Laws.LawWord.ethFrameReceive : ∀ a0 a1, Sys2Proof.Laws.LawWord.Statement (.ethFrameReceive a0 a1) :=
  fun _ _ => Sys2Proof.Laws.lawWord_of_none rfl
theorem Sys2Proof.Laws.LawWord.ptpMessageReceive : ∀ a0 a1 a2 a3, Sys2Proof.Laws.LawWord.Statement (.ptpMessageReceive a0 a1 a2 a3) :=
  fun _ _ _ _ => Sys2Proof.Laws.lawWord_of_none rfl
theorem Sys2Proof.Laws.LawWord.civilSecond : Sys2Proof.Laws.LawWord.Statement (.civilSecond) :=
  Sys2Proof.Laws.lawWord_of_none rfl
theorem Sys2Proof.Laws.LawWord.masterViolation : ∀ a0 a1, Sys2Proof.Laws.LawWord.Statement (.masterViolation a0 a1) :=
  fun _ _ => Sys2Proof.Laws.lawWord_of_none rfl
theorem Sys2Proof.Laws.LawWord.allocationBoundary : ∀ a0, Sys2Proof.Laws.LawWord.Statement (.allocationBoundary a0) :=
  fun _ => Sys2Proof.Laws.lawWord_of_none rfl
theorem Sys2Proof.Laws.LawWord.fastCapChange : ∀ a0 a1, Sys2Proof.Laws.LawWord.Statement (.fastCapChange a0 a1) :=
  fun _ _ => Sys2Proof.Laws.lawWord_of_none rfl
theorem Sys2Proof.Laws.LawWord.gridCapHoldExpiry : Sys2Proof.Laws.LawWord.Statement (.gridCapHoldExpiry) :=
  Sys2Proof.Laws.lawWord_of_none rfl
theorem Sys2Proof.Laws.LawWord.releaseHoldExpiry : ∀ a0, Sys2Proof.Laws.LawWord.Statement (.releaseHoldExpiry a0) :=
  fun _ => Sys2Proof.Laws.lawWord_of_none rfl
theorem Sys2Proof.Laws.LawWord.transferRampDone : ∀ a0, Sys2Proof.Laws.LawWord.Statement (.transferRampDone a0) :=
  fun _ => Sys2Proof.Laws.lawWord_of_none rfl
theorem Sys2Proof.Laws.LawWord.transferRampTimeout : ∀ a0, Sys2Proof.Laws.LawWord.Statement (.transferRampTimeout a0) :=
  fun _ => Sys2Proof.Laws.lawWord_of_none rfl
theorem Sys2Proof.Laws.LawWord.xpOpenVerified : ∀ a0, Sys2Proof.Laws.LawWord.Statement (.xpOpenVerified a0) :=
  fun _ => Sys2Proof.Laws.lawWord_of_none rfl
theorem Sys2Proof.Laws.LawWord.xpOpenTimeout : ∀ a0, Sys2Proof.Laws.LawWord.Statement (.xpOpenTimeout a0) :=
  fun _ => Sys2Proof.Laws.lawWord_of_none rfl
theorem Sys2Proof.Laws.LawWord.trackingDone : ∀ a0, Sys2Proof.Laws.LawWord.Statement (.trackingDone a0) :=
  fun _ => Sys2Proof.Laws.lawWord_of_none rfl
theorem Sys2Proof.Laws.LawWord.trackTimeout : ∀ a0, Sys2Proof.Laws.LawWord.Statement (.trackTimeout a0) :=
  fun _ => Sys2Proof.Laws.lawWord_of_none rfl
theorem Sys2Proof.Laws.LawWord.xpCloseVerified : ∀ a0, Sys2Proof.Laws.LawWord.Statement (.xpCloseVerified a0) :=
  fun _ => Sys2Proof.Laws.lawWord_of_none rfl
theorem Sys2Proof.Laws.LawWord.xpCloseTimeout : ∀ a0, Sys2Proof.Laws.LawWord.Statement (.xpCloseTimeout a0) :=
  fun _ => Sys2Proof.Laws.lawWord_of_none rfl
theorem Sys2Proof.Laws.LawWord.transferTimeout : ∀ a0, Sys2Proof.Laws.LawWord.Statement (.transferTimeout a0) :=
  fun _ => Sys2Proof.Laws.lawWord_of_none rfl
theorem Sys2Proof.Laws.LawWord.xpCommandRelease : ∀ a0, Sys2Proof.Laws.LawWord.Statement (.xpCommandRelease a0) :=
  fun _ => Sys2Proof.Laws.lawWord_of_none rfl
theorem Sys2Proof.Laws.LawWord.xpCurrent : ∀ a0, Sys2Proof.Laws.LawWord.Statement (.xpCurrent a0) :=
  fun _ => Sys2Proof.Laws.lawWord_of_none rfl
theorem Sys2Proof.Laws.LawWord.feedbackMismatch : ∀ a0, Sys2Proof.Laws.LawWord.Statement (.feedbackMismatch a0) :=
  fun _ => Sys2Proof.Laws.lawWord_of_none rfl
theorem Sys2Proof.Laws.LawWord.spLinkUp : ∀ a0, Sys2Proof.Laws.LawWord.Statement (.spLinkUp a0) :=
  fun _ => Sys2Proof.Laws.lawWord_of_none rfl
theorem Sys2Proof.Laws.LawWord.spLinkDown : ∀ a0, Sys2Proof.Laws.LawWord.Statement (.spLinkDown a0) :=
  fun _ => Sys2Proof.Laws.lawWord_of_none rfl
theorem Sys2Proof.Laws.LawWord.targetStop : ∀ a0 a1, Sys2Proof.Laws.LawWord.Statement (.targetStop a0 a1) :=
  fun _ _ => Sys2Proof.Laws.lawWord_of_none rfl
theorem Sys2Proof.Laws.LawWord.targetConnect : ∀ a0 a1, Sys2Proof.Laws.LawWord.Statement (.targetConnect a0 a1) :=
  fun _ _ => Sys2Proof.Laws.lawWord_of_none rfl
theorem Sys2Proof.Laws.LawWord.targetCheck : ∀ a0 a1, Sys2Proof.Laws.LawWord.Statement (.targetCheck a0 a1) :=
  fun _ _ => Sys2Proof.Laws.lawWord_of_none rfl
theorem Sys2Proof.Laws.LawWord.targetPrecharge : ∀ a0 a1, Sys2Proof.Laws.LawWord.Statement (.targetPrecharge a0 a1) :=
  fun _ _ => Sys2Proof.Laws.lawWord_of_none rfl
theorem Sys2Proof.Laws.LawWord.targetCharge : ∀ a0 a1, Sys2Proof.Laws.LawWord.Statement (.targetCharge a0 a1) :=
  fun _ _ => Sys2Proof.Laws.lawWord_of_none rfl
theorem Sys2Proof.Laws.LawWord.targetPause : ∀ a0 a1, Sys2Proof.Laws.LawWord.Statement (.targetPause a0 a1) :=
  fun _ _ => Sys2Proof.Laws.lawWord_of_none rfl
theorem Sys2Proof.Laws.LawWord.statusPeriod : ∀ a0, Sys2Proof.Laws.LawWord.Statement (.statusPeriod a0) :=
  fun _ => Sys2Proof.Laws.lawWord_of_none rfl
theorem Sys2Proof.Laws.LawWord.portTimeout : ∀ a0, Sys2Proof.Laws.LawWord.Statement (.portTimeout a0) :=
  fun _ => Sys2Proof.Laws.lawWord_of_none rfl
theorem Sys2Proof.Laws.LawWord.generatorTick : Sys2Proof.Laws.LawWord.Statement (.generatorTick) :=
  Sys2Proof.Laws.lawWord_of_none rfl
theorem Sys2Proof.Laws.LawWord.ackDecision : ∀ a0, Sys2Proof.Laws.LawWord.Statement (.ackDecision a0) :=
  fun _ => Sys2Proof.Laws.lawWord_of_none rfl
theorem Sys2Proof.Laws.LawWord.notReached : ∀ a0, Sys2Proof.Laws.LawWord.Statement (.notReached a0) :=
  fun _ => Sys2Proof.Laws.lawWord_of_none rfl
theorem Sys2Proof.Laws.LawWord.connectMatch : ∀ a0, Sys2Proof.Laws.LawWord.Statement (.connectMatch a0) :=
  fun _ => Sys2Proof.Laws.lawWord_of_none rfl
theorem Sys2Proof.Laws.LawWord.contactorVerifiedClosed : ∀ a0, Sys2Proof.Laws.LawWord.Statement (.contactorVerifiedClosed a0) :=
  fun _ => Sys2Proof.Laws.lawWord_of_none rfl
theorem Sys2Proof.Laws.LawWord.connectTimeout : ∀ a0, Sys2Proof.Laws.LawWord.Statement (.connectTimeout a0) :=
  fun _ => Sys2Proof.Laws.lawWord_of_none rfl
theorem Sys2Proof.Laws.LawWord.contactorCloseTimeout : ∀ a0, Sys2Proof.Laws.LawWord.Statement (.contactorCloseTimeout a0) :=
  fun _ => Sys2Proof.Laws.lawWord_of_none rfl
theorem Sys2Proof.Laws.LawWord.outletCurrentLow : ∀ a0, Sys2Proof.Laws.LawWord.Statement (.outletCurrentLow a0) :=
  fun _ => Sys2Proof.Laws.lawWord_of_none rfl
theorem Sys2Proof.Laws.LawWord.contactorVerifiedOpen : ∀ a0, Sys2Proof.Laws.LawWord.Statement (.contactorVerifiedOpen a0) :=
  fun _ => Sys2Proof.Laws.lawWord_of_none rfl
theorem Sys2Proof.Laws.LawWord.contactorOpenTimeout : ∀ a0, Sys2Proof.Laws.LawWord.Statement (.contactorOpenTimeout a0) :=
  fun _ => Sys2Proof.Laws.lawWord_of_none rfl
theorem Sys2Proof.Laws.LawWord.dischargeReached : ∀ a0, Sys2Proof.Laws.LawWord.Statement (.dischargeReached a0) :=
  fun _ => Sys2Proof.Laws.lawWord_of_none rfl
theorem Sys2Proof.Laws.LawWord.dischargeComplete : ∀ a0, Sys2Proof.Laws.LawWord.Statement (.dischargeComplete a0) :=
  fun _ => Sys2Proof.Laws.lawWord_of_none rfl
theorem Sys2Proof.Laws.LawWord.stopTimeout : ∀ a0, Sys2Proof.Laws.LawWord.Statement (.stopTimeout a0) :=
  fun _ => Sys2Proof.Laws.lawWord_of_none rfl
theorem Sys2Proof.Laws.LawWord.shortAtStart : ∀ a0, Sys2Proof.Laws.LawWord.Statement (.shortAtStart a0) :=
  fun _ => Sys2Proof.Laws.lawWord_of_none rfl
theorem Sys2Proof.Laws.LawWord.phaseCheckWindow : ∀ a0, Sys2Proof.Laws.LawWord.Statement (.phaseCheckWindow a0) :=
  fun _ => Sys2Proof.Laws.lawWord_of_none rfl
theorem Sys2Proof.Laws.LawWord.phaseSenseFailed : ∀ a0 a1, Sys2Proof.Laws.LawWord.Statement (.phaseSenseFailed a0 a1) :=
  fun _ _ => Sys2Proof.Laws.lawWord_of_none rfl
theorem Sys2Proof.Laws.LawWord.lawWindowOpen : ∀ a0, Sys2Proof.Laws.LawWord.Statement (.lawWindowOpen a0) :=
  fun _ => Sys2Proof.Laws.lawWord_of_none rfl
theorem Sys2Proof.Laws.LawWord.lawWindowClose : Sys2Proof.Laws.LawWord.Statement (.lawWindowClose) :=
  Sys2Proof.Laws.lawWord_of_none rfl
theorem Sys2Proof.Laws.LawWord.memUncorrectable : ∀ a0 a1, Sys2Proof.Laws.LawWord.Statement (.memUncorrectable a0 a1) :=
  fun _ _ => Sys2Proof.Laws.lawWord_of_none rfl
theorem Sys2Proof.Laws.LawWord.injectionRunsDone : ∀ a0, Sys2Proof.Laws.LawWord.Statement (.injectionRunsDone a0) :=
  fun _ => Sys2Proof.Laws.lawWord_of_none rfl
theorem Sys2Proof.Laws.LawWord.lawNop : ∀ a0, Sys2Proof.Laws.LawWord.Statement (.lawNop a0) :=
  fun _ => Sys2Proof.Laws.lawWord_lt rfl (by omega) (by omega) (by omega) (by omega) (by omega) (by omega)
theorem Sys2Proof.Laws.LawWord.ldc : ∀ a0 a1 a2, Sys2Proof.Laws.LawWord.Statement (.ldc a0 a1 a2) :=
  fun _ _ _ => Sys2Proof.Laws.lawWord_lt rfl (by omega) (by omega) (by omega) (by omega) (by omega) (by omega)
theorem Sys2Proof.Laws.LawWord.lds : ∀ a0 a1 a2, Sys2Proof.Laws.LawWord.Statement (.lds a0 a1 a2) :=
  fun _ _ _ => Sys2Proof.Laws.lawWord_lt rfl (by omega) (by omega) (by omega) (by omega) (by omega) (by omega)
theorem Sys2Proof.Laws.LawWord.sts : ∀ a0 a1 a2, Sys2Proof.Laws.LawWord.Statement (.sts a0 a1 a2) :=
  fun _ _ _ => Sys2Proof.Laws.lawWord_lt rfl (by omega) (by omega) (by omega) (by omega) (by omega) (by omega)
theorem Sys2Proof.Laws.LawWord.lin : ∀ a0 a1 a2, Sys2Proof.Laws.LawWord.Statement (.lin a0 a1 a2) :=
  fun _ _ _ => Sys2Proof.Laws.lawWord_lt rfl (by omega) (by omega) (by omega) (by omega) (by omega) (by omega)
theorem Sys2Proof.Laws.LawWord.lout : ∀ a0 a1 a2, Sys2Proof.Laws.LawWord.Statement (.lout a0 a1 a2) :=
  fun _ _ _ => Sys2Proof.Laws.lawWord_lt rfl (by omega) (by omega) (by omega) (by omega) (by omega) (by omega)
theorem Sys2Proof.Laws.LawWord.ldi : ∀ a0 a1 a2, Sys2Proof.Laws.LawWord.Statement (.ldi a0 a1 a2) :=
  fun _ _ _ => Sys2Proof.Laws.lawWord_lt rfl (by omega) (by omega) (by omega) (by omega) (by omega) (.inl ⟨rfl, rfl⟩)
theorem Sys2Proof.Laws.LawWord.mov : ∀ a0 a1 a2, Sys2Proof.Laws.LawWord.Statement (.mov a0 a1 a2) :=
  fun _ _ _ => Sys2Proof.Laws.lawWord_lt rfl (by omega) (by omega) (by omega) (by omega) (by omega) (by omega)
theorem Sys2Proof.Laws.LawWord.clr : ∀ a0 a1, Sys2Proof.Laws.LawWord.Statement (.clr a0 a1) :=
  fun _ _ => Sys2Proof.Laws.lawWord_lt rfl (by omega) (by omega) (by omega) (by omega) (by omega) (by omega)
theorem Sys2Proof.Laws.LawWord.mpy : ∀ a0 a1 a2 a3, Sys2Proof.Laws.LawWord.Statement (.mpy a0 a1 a2 a3) :=
  fun _ _ _ _ => Sys2Proof.Laws.lawWord_lt rfl (by omega) (by omega) (by omega) (by omega) (by omega) (by omega)
theorem Sys2Proof.Laws.LawWord.mac : ∀ a0 a1 a2 a3, Sys2Proof.Laws.LawWord.Statement (.mac a0 a1 a2 a3) :=
  fun _ _ _ _ => Sys2Proof.Laws.lawWord_lt rfl (by omega) (by omega) (by omega) (by omega) (by omega) (by omega)
theorem Sys2Proof.Laws.LawWord.msu : ∀ a0 a1 a2 a3, Sys2Proof.Laws.LawWord.Statement (.msu a0 a1 a2 a3) :=
  fun _ _ _ _ => Sys2Proof.Laws.lawWord_lt rfl (by omega) (by omega) (by omega) (by omega) (by omega) (by omega)
theorem Sys2Proof.Laws.LawWord.macc : ∀ a0 a1 a2 a3, Sys2Proof.Laws.LawWord.Statement (.macc a0 a1 a2 a3) :=
  fun _ _ _ _ => Sys2Proof.Laws.lawWord_lt rfl (by omega) (by omega) (by omega) (by omega) (by omega) (by omega)
theorem Sys2Proof.Laws.LawWord.msuc : ∀ a0 a1 a2 a3, Sys2Proof.Laws.LawWord.Statement (.msuc a0 a1 a2 a3) :=
  fun _ _ _ _ => Sys2Proof.Laws.lawWord_lt rfl (by omega) (by omega) (by omega) (by omega) (by omega) (by omega)
theorem Sys2Proof.Laws.LawWord.lda : ∀ a0 a1 a2, Sys2Proof.Laws.LawWord.Statement (.lda a0 a1 a2) :=
  fun _ _ _ => Sys2Proof.Laws.lawWord_lt rfl (by omega) (by omega) (by omega) (by omega) (by omega) (by omega)
theorem Sys2Proof.Laws.LawWord.adda : ∀ a0 a1 a2, Sys2Proof.Laws.LawWord.Statement (.adda a0 a1 a2) :=
  fun _ _ _ => Sys2Proof.Laws.lawWord_lt rfl (by omega) (by omega) (by omega) (by omega) (by omega) (by omega)
theorem Sys2Proof.Laws.LawWord.suba : ∀ a0 a1 a2, Sys2Proof.Laws.LawWord.Statement (.suba a0 a1 a2) :=
  fun _ _ _ => Sys2Proof.Laws.lawWord_lt rfl (by omega) (by omega) (by omega) (by omega) (by omega) (by omega)
theorem Sys2Proof.Laws.LawWord.accadd : ∀ a0 a1, Sys2Proof.Laws.LawWord.Statement (.accadd a0 a1) :=
  fun _ _ => Sys2Proof.Laws.lawWord_lt rfl (by omega) (by omega) (by omega) (by omega) (by omega) (by omega)
theorem Sys2Proof.Laws.LawWord.sha : ∀ a0 a1 a2, Sys2Proof.Laws.LawWord.Statement (.sha a0 a1 a2) :=
  fun _ _ _ => Sys2Proof.Laws.lawWord_lt rfl (by omega) (by omega) (by omega) (by omega) (by omega) (by omega)
theorem Sys2Proof.Laws.LawWord.acclim : ∀ a0 a1 a2 a3, Sys2Proof.Laws.LawWord.Statement (.acclim a0 a1 a2 a3) :=
  fun _ _ _ _ => Sys2Proof.Laws.lawWord_lt rfl (by omega) (by omega) (by omega) (by omega) (by omega) (by omega)
theorem Sys2Proof.Laws.LawWord.str : ∀ a0 a1 a2, Sys2Proof.Laws.LawWord.Statement (.str a0 a1 a2) :=
  fun _ _ _ => Sys2Proof.Laws.lawWord_lt rfl (by omega) (by omega) (by omega) (by omega) (by omega) (by omega)
theorem Sys2Proof.Laws.LawWord.stas : ∀ a0 a1 a2, Sys2Proof.Laws.LawWord.Statement (.stas a0 a1 a2) :=
  fun _ _ _ => Sys2Proof.Laws.lawWord_lt rfl (by omega) (by omega) (by omega) (by omega) (by omega) (by omega)
theorem Sys2Proof.Laws.LawWord.ldas : ∀ a0 a1 a2, Sys2Proof.Laws.LawWord.Statement (.ldas a0 a1 a2) :=
  fun _ _ _ => Sys2Proof.Laws.lawWord_lt rfl (by omega) (by omega) (by omega) (by omega) (by omega) (by omega)
theorem Sys2Proof.Laws.LawWord.add : ∀ a0 a1 a2 a3, Sys2Proof.Laws.LawWord.Statement (.add a0 a1 a2 a3) :=
  fun _ _ _ _ => Sys2Proof.Laws.lawWord_lt rfl (by omega) (by omega) (by omega) (by omega) (by omega) (by omega)
theorem Sys2Proof.Laws.LawWord.sub : ∀ a0 a1 a2 a3, Sys2Proof.Laws.LawWord.Statement (.sub a0 a1 a2 a3) :=
  fun _ _ _ _ => Sys2Proof.Laws.lawWord_lt rfl (by omega) (by omega) (by omega) (by omega) (by omega) (by omega)
theorem Sys2Proof.Laws.LawWord.mul : ∀ a0 a1 a2 a3, Sys2Proof.Laws.LawWord.Statement (.mul a0 a1 a2 a3) :=
  fun _ _ _ _ => Sys2Proof.Laws.lawWord_lt rfl (by omega) (by omega) (by omega) (by omega) (by omega) (by omega)
theorem Sys2Proof.Laws.LawWord.min : ∀ a0 a1 a2 a3, Sys2Proof.Laws.LawWord.Statement (.min a0 a1 a2 a3) :=
  fun _ _ _ _ => Sys2Proof.Laws.lawWord_lt rfl (by omega) (by omega) (by omega) (by omega) (by omega) (by omega)
theorem Sys2Proof.Laws.LawWord.max : ∀ a0 a1 a2 a3, Sys2Proof.Laws.LawWord.Statement (.max a0 a1 a2 a3) :=
  fun _ _ _ _ => Sys2Proof.Laws.lawWord_lt rfl (by omega) (by omega) (by omega) (by omega) (by omega) (by omega)
theorem Sys2Proof.Laws.LawWord.abs : ∀ a0 a1 a2, Sys2Proof.Laws.LawWord.Statement (.abs a0 a1 a2) :=
  fun _ _ _ => Sys2Proof.Laws.lawWord_lt rfl (by omega) (by omega) (by omega) (by omega) (by omega) (by omega)
theorem Sys2Proof.Laws.LawWord.neg : ∀ a0 a1 a2, Sys2Proof.Laws.LawWord.Statement (.neg a0 a1 a2) :=
  fun _ _ _ => Sys2Proof.Laws.lawWord_lt rfl (by omega) (by omega) (by omega) (by omega) (by omega) (by omega)
theorem Sys2Proof.Laws.LawWord.shx : ∀ a0 a1 a2 a3, Sys2Proof.Laws.LawWord.Statement (.shx a0 a1 a2 a3) :=
  fun _ _ _ _ => Sys2Proof.Laws.lawWord_lt rfl (by omega) (by omega) (by omega) (by omega) (by omega) (by omega)
theorem Sys2Proof.Laws.LawWord.and : ∀ a0 a1 a2 a3, Sys2Proof.Laws.LawWord.Statement (.and a0 a1 a2 a3) :=
  fun _ _ _ _ => Sys2Proof.Laws.lawWord_lt rfl (by omega) (by omega) (by omega) (by omega) (by omega) (by omega)
theorem Sys2Proof.Laws.LawWord.or : ∀ a0 a1 a2 a3, Sys2Proof.Laws.LawWord.Statement (.or a0 a1 a2 a3) :=
  fun _ _ _ _ => Sys2Proof.Laws.lawWord_lt rfl (by omega) (by omega) (by omega) (by omega) (by omega) (by omega)
theorem Sys2Proof.Laws.LawWord.xor : ∀ a0 a1 a2 a3, Sys2Proof.Laws.LawWord.Statement (.xor a0 a1 a2 a3) :=
  fun _ _ _ _ => Sys2Proof.Laws.lawWord_lt rfl (by omega) (by omega) (by omega) (by omega) (by omega) (by omega)
theorem Sys2Proof.Laws.LawWord.cmp : ∀ a0 a1 a2, Sys2Proof.Laws.LawWord.Statement (.cmp a0 a1 a2) :=
  fun _ _ _ => Sys2Proof.Laws.lawWord_lt rfl (by omega) (by omega) (by omega) (by omega) (by omega) (by omega)
theorem Sys2Proof.Laws.LawWord.sel : ∀ a0 a1 a2 a3 a4, Sys2Proof.Laws.LawWord.Statement (.sel a0 a1 a2 a3 a4) :=
  fun _ _ _ _ _ => Sys2Proof.Laws.lawWord_lt rfl (by omega) (by omega) (by omega) (by omega) (by omega) (by omega)
theorem Sys2Proof.Laws.LawWord.lut : ∀ a0 a1 a2 a3, Sys2Proof.Laws.LawWord.Statement (.lut a0 a1 a2 a3) :=
  fun _ _ _ _ => Sys2Proof.Laws.lawWord_lt rfl (by omega) (by omega) (by omega) (by omega) (by omega) (by omega)
theorem Sys2Proof.Laws.LawWord.br : ∀ a0 a1 a2, Sys2Proof.Laws.LawWord.Statement (.br a0 a1 a2) :=
  fun _ _ _ => Sys2Proof.Laws.lawWord_lt rfl (by omega) (by omega) (by omega) (by omega) (by omega) (by omega)
theorem Sys2Proof.Laws.LawWord.endRun : ∀ a0, Sys2Proof.Laws.LawWord.Statement (.endRun a0) :=
  fun _ => Sys2Proof.Laws.lawWord_lt rfl (by omega) (by omega) (by omega) (by omega) (by omega) (by omega)
theorem Sys2Proof.Laws.LawWord.downlinkSend : ∀ a0, Sys2Proof.Laws.LawWord.Statement (.downlinkSend a0) :=
  fun _ => Sys2Proof.Laws.lawWord_of_none rfl
theorem Sys2Proof.Laws.LawWord.uplinkReceive : ∀ a0 a1 a2, Sys2Proof.Laws.LawWord.Statement (.uplinkReceive a0 a1 a2) :=
  fun _ _ _ => Sys2Proof.Laws.lawWord_of_none rfl
theorem Sys2Proof.Laws.LawWord.uplinkLatch : ∀ a0, Sys2Proof.Laws.LawWord.Statement (.uplinkLatch a0) :=
  fun _ => Sys2Proof.Laws.lawWord_of_none rfl
theorem Sys2Proof.Laws.LawWord.laneLost : ∀ a0, Sys2Proof.Laws.LawWord.Statement (.laneLost a0) :=
  fun _ => Sys2Proof.Laws.lawWord_of_none rfl
theorem Sys2Proof.Laws.LawWord.blockLockLoss : ∀ a0, Sys2Proof.Laws.LawWord.Statement (.blockLockLoss a0) :=
  fun _ => Sys2Proof.Laws.lawWord_of_none rfl
theorem Sys2Proof.Laws.LawWord.blockLock : ∀ a0, Sys2Proof.Laws.LawWord.Statement (.blockLock a0) :=
  fun _ => Sys2Proof.Laws.lawWord_of_none rfl
theorem Sys2Proof.Laws.LawWord.trainReqSend : ∀ a0, Sys2Proof.Laws.LawWord.Statement (.trainReqSend a0) :=
  fun _ => Sys2Proof.Laws.lawWord_of_none rfl
theorem Sys2Proof.Laws.LawWord.trainAck : ∀ a0 a1 a2 a3, Sys2Proof.Laws.LawWord.Statement (.trainAck a0 a1 a2 a3) :=
  fun _ _ _ _ => Sys2Proof.Laws.lawWord_of_none rfl
theorem Sys2Proof.Laws.LawWord.trainTimeout : ∀ a0, Sys2Proof.Laws.LawWord.Statement (.trainTimeout a0) :=
  fun _ => Sys2Proof.Laws.lawWord_of_none rfl
theorem Sys2Proof.Laws.LawWord.refusedRetry : ∀ a0, Sys2Proof.Laws.LawWord.Statement (.refusedRetry a0) :=
  fun _ => Sys2Proof.Laws.lawWord_of_none rfl
theorem Sys2Proof.Laws.LawWord.holdoffEnd : ∀ a0, Sys2Proof.Laws.LawWord.Statement (.holdoffEnd a0) :=
  fun _ => Sys2Proof.Laws.lawWord_of_none rfl
theorem Sys2Proof.Laws.LawWord.captureTrigger : ∀ a0, Sys2Proof.Laws.LawWord.Statement (.captureTrigger a0) :=
  fun _ => Sys2Proof.Laws.lawWord_of_none rfl
theorem Sys2Proof.Laws.LawWord.externalTriggerEdge : ∀ a0 a1, Sys2Proof.Laws.LawWord.Statement (.externalTriggerEdge a0 a1) :=
  fun _ _ => Sys2Proof.Laws.lawWord_of_none rfl
theorem Sys2Proof.Laws.LawWord.captureDone : ∀ a0, Sys2Proof.Laws.LawWord.Statement (.captureDone a0) :=
  fun _ => Sys2Proof.Laws.lawWord_of_none rfl
theorem Sys2Proof.Laws.LawWord.calDone : ∀ a0, Sys2Proof.Laws.LawWord.Statement (.calDone a0) :=
  fun _ => Sys2Proof.Laws.lawWord_of_none rfl
theorem Sys2Proof.Laws.LawWord.lossTick : Sys2Proof.Laws.LawWord.Statement (.lossTick) :=
  Sys2Proof.Laws.lawWord_of_none rfl
theorem Sys2Proof.Laws.LawWord.thermalSample : ∀ a0, Sys2Proof.Laws.LawWord.Statement (.thermalSample a0) :=
  fun _ => Sys2Proof.Laws.lawWord_of_none rfl
theorem Sys2Proof.Laws.LawWord.rtdConversion : ∀ a0 a1, Sys2Proof.Laws.LawWord.Statement (.rtdConversion a0 a1) :=
  fun _ _ => Sys2Proof.Laws.lawWord_of_none rfl
theorem Sys2Proof.Laws.LawWord.readingApply : Sys2Proof.Laws.LawWord.Statement (.readingApply) :=
  Sys2Proof.Laws.lawWord_of_none rfl
theorem Sys2Proof.Laws.LawWord.diverged : ∀ a0, Sys2Proof.Laws.LawWord.Statement (.diverged a0) :=
  fun _ => Sys2Proof.Laws.lawWord_of_none rfl
theorem Sys2Proof.Laws.LawWord.flowUpdate : ∀ a0, Sys2Proof.Laws.LawWord.Statement (.flowUpdate a0) :=
  fun _ => Sys2Proof.Laws.lawWord_of_none rfl
theorem Sys2Proof.Laws.LawWord.flowLow : ∀ a0, Sys2Proof.Laws.LawWord.Statement (.flowLow a0) :=
  fun _ => Sys2Proof.Laws.lawWord_of_none rfl
theorem Sys2Proof.Laws.LawWord.flowRecovered : ∀ a0, Sys2Proof.Laws.LawWord.Statement (.flowRecovered a0) :=
  fun _ => Sys2Proof.Laws.lawWord_of_none rfl
theorem Sys2Proof.Laws.LawWord.runonExpiry : ∀ a0, Sys2Proof.Laws.LawWord.Statement (.runonExpiry a0) :=
  fun _ => Sys2Proof.Laws.lawWord_of_none rfl
theorem Sys2Proof.Laws.LawWord.dieTempRead : ∀ a0, Sys2Proof.Laws.LawWord.Statement (.dieTempRead a0) :=
  fun _ => Sys2Proof.Laws.lawWord_of_none rfl
theorem Sys2Proof.Laws.LawWord.thermalHalt : Sys2Proof.Laws.LawWord.Statement (.thermalHalt) :=
  Sys2Proof.Laws.lawWord_of_none rfl
theorem Sys2Proof.Laws.LawWord.pilotStateChange : ∀ a0 a1 a2, Sys2Proof.Laws.LawWord.Statement (.pilotStateChange a0 a1 a2) :=
  fun _ _ _ => Sys2Proof.Laws.lawWord_of_none rfl
theorem Sys2Proof.Laws.LawWord.ppClassChange : ∀ a0 a1, Sys2Proof.Laws.LawWord.Statement (.ppClassChange a0 a1) :=
  fun _ _ => Sys2Proof.Laws.lawWord_of_none rfl
theorem Sys2Proof.Laws.LawWord.ppFault : ∀ a0, Sys2Proof.Laws.LawWord.Statement (.ppFault a0) :=
  fun _ => Sys2Proof.Laws.lawWord_of_none rfl
theorem Sys2Proof.Laws.LawWord.slacMatched : ∀ a0, Sys2Proof.Laws.LawWord.Statement (.slacMatched a0) :=
  fun _ => Sys2Proof.Laws.lawWord_of_none rfl
theorem Sys2Proof.Laws.LawWord.slacFailed : ∀ a0 a1, Sys2Proof.Laws.LawWord.Statement (.slacFailed a0 a1) :=
  fun _ _ => Sys2Proof.Laws.lawWord_of_none rfl
theorem Sys2Proof.Laws.LawWord.t1sFrameReceive : ∀ a0, Sys2Proof.Laws.LawWord.Statement (.t1sFrameReceive a0) :=
  fun _ => Sys2Proof.Laws.lawWord_of_none rfl
theorem Sys2Proof.Laws.LawWord.t1sLinkDown : ∀ a0, Sys2Proof.Laws.LawWord.Statement (.t1sLinkDown a0) :=
  fun _ => Sys2Proof.Laws.lawWord_of_none rfl
theorem Sys2Proof.Laws.LawWord.tcpConnectRequest : ∀ a0, Sys2Proof.Laws.LawWord.Statement (.tcpConnectRequest a0) :=
  fun _ => Sys2Proof.Laws.lawWord_of_none rfl
theorem Sys2Proof.Laws.LawWord.v2gMessageReceive : ∀ a0 a1 a2, Sys2Proof.Laws.LawWord.Statement (.v2gMessageReceive a0 a1 a2) :=
  fun _ _ _ => Sys2Proof.Laws.lawWord_of_none rfl
theorem Sys2Proof.Laws.LawWord.chademoMessageReceive : ∀ a0 a1 a2, Sys2Proof.Laws.LawWord.Statement (.chademoMessageReceive a0 a1 a2) :=
  fun _ _ _ => Sys2Proof.Laws.lawWord_of_none rfl
theorem Sys2Proof.Laws.LawWord.chademoTxTick : ∀ a0, Sys2Proof.Laws.LawWord.Statement (.chademoTxTick a0) :=
  fun _ => Sys2Proof.Laws.lawWord_of_none rfl
theorem Sys2Proof.Laws.LawWord.canLoss : ∀ a0, Sys2Proof.Laws.LawWord.Statement (.canLoss a0) :=
  fun _ => Sys2Proof.Laws.lawWord_of_none rfl
theorem Sys2Proof.Laws.LawWord.authTimeout : ∀ a0, Sys2Proof.Laws.LawWord.Statement (.authTimeout a0) :=
  fun _ => Sys2Proof.Laws.lawWord_of_none rfl
theorem Sys2Proof.Laws.LawWord.chademoUnplugTimer : ∀ a0, Sys2Proof.Laws.LawWord.Statement (.chademoUnplugTimer a0) :=
  fun _ => Sys2Proof.Laws.lawWord_of_none rfl
theorem Sys2Proof.Laws.LawWord.msgTimeout : ∀ a0 a1, Sys2Proof.Laws.LawWord.Statement (.msgTimeout a0 a1) :=
  fun _ _ => Sys2Proof.Laws.lawWord_of_none rfl
theorem Sys2Proof.Laws.LawWord.starved : ∀ a0, Sys2Proof.Laws.LawWord.Statement (.starved a0) :=
  fun _ => Sys2Proof.Laws.lawWord_of_none rfl
theorem Sys2Proof.Laws.LawWord.noStageRetry : ∀ a0, Sys2Proof.Laws.LawWord.Statement (.noStageRetry a0) :=
  fun _ => Sys2Proof.Laws.lawWord_of_none rfl
theorem Sys2Proof.Laws.LawWord.energyLimitPoll : ∀ a0, Sys2Proof.Laws.LawWord.Statement (.energyLimitPoll a0) :=
  fun _ => Sys2Proof.Laws.lawWord_of_none rfl
theorem Sys2Proof.Laws.LawWord.canFrameReceive : ∀ a0 a1, Sys2Proof.Laws.LawWord.Statement (.canFrameReceive a0 a1) :=
  fun _ _ => Sys2Proof.Laws.lawWord_of_none rfl
theorem Sys2Proof.Laws.LawWord.canRxRingWrite : ∀ a0, Sys2Proof.Laws.LawWord.Statement (.canRxRingWrite a0) :=
  fun _ => Sys2Proof.Laws.lawWord_of_none rfl
theorem Sys2Proof.Laws.LawWord.canTxComplete : ∀ a0, Sys2Proof.Laws.LawWord.Statement (.canTxComplete a0) :=
  fun _ => Sys2Proof.Laws.lawWord_of_none rfl
theorem Sys2Proof.Laws.LawWord.canError : ∀ a0 a1, Sys2Proof.Laws.LawWord.Statement (.canError a0 a1) :=
  fun _ _ => Sys2Proof.Laws.lawWord_of_none rfl
theorem Sys2Proof.Laws.LawWord.busOffRecoveryDone : ∀ a0, Sys2Proof.Laws.LawWord.Statement (.busOffRecoveryDone a0) :=
  fun _ => Sys2Proof.Laws.lawWord_of_none rfl
theorem Sys2Proof.Laws.LawWord.recover : ∀ a0 a1, Sys2Proof.Laws.LawWord.Statement (.recover a0 a1) :=
  fun _ _ => Sys2Proof.Laws.lawWord_of_none rfl
theorem Sys2Proof.Laws.LawWord.redetect : ∀ a0 a1, Sys2Proof.Laws.LawWord.Statement (.redetect a0 a1) :=
  fun _ _ => Sys2Proof.Laws.lawWord_of_none rfl
theorem Sys2Proof.Laws.LawWord.detectWindowExpiry : ∀ a0, Sys2Proof.Laws.LawWord.Statement (.detectWindowExpiry a0) :=
  fun _ => Sys2Proof.Laws.lawWord_of_none rfl
theorem Sys2Proof.Laws.LawWord.canRestrictedExit : ∀ a0, Sys2Proof.Laws.LawWord.Statement (.canRestrictedExit a0) :=
  fun _ => Sys2Proof.Laws.lawWord_of_none rfl
theorem Sys2Proof.Laws.LawWord.zeroCrossing : ∀ a0, Sys2Proof.Laws.LawWord.Statement (.zeroCrossing a0) :=
  fun _ => Sys2Proof.Laws.lawWord_of_none rfl
theorem Sys2Proof.Laws.LawWord.zcLost : Sys2Proof.Laws.LawWord.Statement (.zcLost) :=
  Sys2Proof.Laws.lawWord_of_none rfl
theorem Sys2Proof.Laws.LawWord.beaconWindow : ∀ a0, Sys2Proof.Laws.LawWord.Statement (.beaconWindow a0) :=
  fun _ => Sys2Proof.Laws.lawWord_of_none rfl
theorem Sys2Proof.Laws.LawWord.beacon : ∀ a0 a1 a2, Sys2Proof.Laws.LawWord.Statement (.beacon a0 a1 a2) :=
  fun _ _ _ => Sys2Proof.Laws.lawWord_of_none rfl
theorem Sys2Proof.Laws.LawWord.beaconLockLoss : Sys2Proof.Laws.LawWord.Statement (.beaconLockLoss) :=
  Sys2Proof.Laws.lawWord_of_none rfl
theorem Sys2Proof.Laws.LawWord.coordStart : Sys2Proof.Laws.LawWord.Statement (.coordStart) :=
  Sys2Proof.Laws.lawWord_of_none rfl
theorem Sys2Proof.Laws.LawWord.plcContention : ∀ a0 a1, Sys2Proof.Laws.LawWord.Statement (.plcContention a0 a1) :=
  fun _ _ => Sys2Proof.Laws.lawWord_of_none rfl
theorem Sys2Proof.Laws.LawWord.data : ∀ a0, Sys2Proof.Laws.LawWord.Statement (.data a0) :=
  fun _ => Sys2Proof.Laws.lawWord_of_none rfl
theorem Sys2Proof.Laws.LawWord.sack : ∀ a0, Sys2Proof.Laws.LawWord.Statement (.sack a0) :=
  fun _ => Sys2Proof.Laws.lawWord_of_none rfl
theorem Sys2Proof.Laws.LawWord.sackTimeout : Sys2Proof.Laws.LawWord.Statement (.sackTimeout) :=
  Sys2Proof.Laws.lawWord_of_none rfl
theorem Sys2Proof.Laws.LawWord.e2eAck : ∀ a0, Sys2Proof.Laws.LawWord.Statement (.e2eAck a0) :=
  fun _ => Sys2Proof.Laws.lawWord_of_none rfl
theorem Sys2Proof.Laws.LawWord.assocReq : ∀ a0, Sys2Proof.Laws.LawWord.Statement (.assocReq a0) :=
  fun _ => Sys2Proof.Laws.lawWord_of_none rfl
theorem Sys2Proof.Laws.LawWord.assocRes : ∀ a0, Sys2Proof.Laws.LawWord.Statement (.assocRes a0) :=
  fun _ => Sys2Proof.Laws.lawWord_of_none rfl
theorem Sys2Proof.Laws.LawWord.tonemap : ∀ a0, Sys2Proof.Laws.LawWord.Statement (.tonemap a0) :=
  fun _ => Sys2Proof.Laws.lawWord_of_none rfl
theorem Sys2Proof.Laws.LawWord.route : ∀ a0, Sys2Proof.Laws.LawWord.Statement (.route a0) :=
  fun _ => Sys2Proof.Laws.lawWord_of_none rfl
theorem Sys2Proof.Laws.LawWord.wakeReq : ∀ a0, Sys2Proof.Laws.LawWord.Statement (.wakeReq a0) :=
  fun _ => Sys2Proof.Laws.lawWord_of_none rfl
theorem Sys2Proof.Laws.LawWord.pairFrame : ∀ a0, Sys2Proof.Laws.LawWord.Statement (.pairFrame a0) :=
  fun _ => Sys2Proof.Laws.lawWord_of_none rfl
theorem Sys2Proof.Laws.LawWord.routeTimer : Sys2Proof.Laws.LawWord.Statement (.routeTimer) :=
  Sys2Proof.Laws.lawWord_of_none rfl
theorem Sys2Proof.Laws.LawWord.assocRetry : Sys2Proof.Laws.LawWord.Statement (.assocRetry) :=
  Sys2Proof.Laws.lawWord_of_none rfl
theorem Sys2Proof.Laws.LawWord.addressHoldExpiry : ∀ a0, Sys2Proof.Laws.LawWord.Statement (.addressHoldExpiry a0) :=
  fun _ => Sys2Proof.Laws.lawWord_of_none rfl
theorem Sys2Proof.Laws.LawWord.plcMsgTimeout : ∀ a0, Sys2Proof.Laws.LawWord.Statement (.plcMsgTimeout a0) :=
  fun _ => Sys2Proof.Laws.lawWord_of_none rfl
theorem Sys2Proof.Laws.LawWord.pairFrameTimer : Sys2Proof.Laws.LawWord.Statement (.pairFrameTimer) :=
  Sys2Proof.Laws.lawWord_of_none rfl
theorem Sys2Proof.Laws.LawWord.caddisStart : ∀ a0 a1, Sys2Proof.Laws.LawWord.Statement (.caddisStart a0 a1) :=
  fun _ _ => Sys2Proof.Laws.lawWord_of_none rfl
theorem Sys2Proof.Laws.LawWord.warmupEnd : Sys2Proof.Laws.LawWord.Statement (.warmupEnd) :=
  Sys2Proof.Laws.lawWord_of_none rfl
theorem Sys2Proof.Laws.LawWord.caddisCommit : Sys2Proof.Laws.LawWord.Statement (.caddisCommit) :=
  Sys2Proof.Laws.lawWord_of_none rfl
theorem Sys2Proof.Laws.LawWord.metRefresh : Sys2Proof.Laws.LawWord.Statement (.metRefresh) :=
  Sys2Proof.Laws.lawWord_of_none rfl
theorem Sys2Proof.Laws.LawWord.sealChange : ∀ a0, Sys2Proof.Laws.LawWord.Statement (.sealChange a0) :=
  fun _ => Sys2Proof.Laws.lawWord_of_none rfl
theorem Sys2Proof.Laws.LawWord.tamperChange : ∀ a0, Sys2Proof.Laws.LawWord.Statement (.tamperChange a0) :=
  fun _ => Sys2Proof.Laws.lawWord_of_none rfl
theorem Sys2Proof.Laws.LawWord.caddisSelfTestRun : ∀ a0 a1 a2, Sys2Proof.Laws.LawWord.Statement (.caddisSelfTestRun a0 a1 a2) :=
  fun _ _ _ => Sys2Proof.Laws.lawWord_of_none rfl
theorem Sys2Proof.Laws.LawWord.recorderSecond : Sys2Proof.Laws.LawWord.Statement (.recorderSecond) :=
  Sys2Proof.Laws.lawWord_of_none rfl
theorem Sys2Proof.Laws.LawWord.pageClose : Sys2Proof.Laws.LawWord.Statement (.pageClose) :=
  Sys2Proof.Laws.lawWord_of_none rfl
theorem Sys2Proof.Laws.LawWord.framFailure : ∀ a0 a1, Sys2Proof.Laws.LawWord.Statement (.framFailure a0 a1) :=
  fun _ _ => Sys2Proof.Laws.lawWord_of_none rfl
theorem Sys2Proof.Laws.LawWord.remaskPass : ∀ a0, Sys2Proof.Laws.LawWord.Statement (.remaskPass a0) :=
  fun _ => Sys2Proof.Laws.lawWord_of_none rfl
theorem Sys2Proof.Laws.LawWord.go : ∀ a0 a1, Sys2Proof.Laws.LawWord.Statement (.go a0 a1) :=
  fun _ _ => Sys2Proof.Laws.lawWord_of_none rfl
theorem Sys2Proof.Laws.LawWord.ilkInClassChange : ∀ a0, Sys2Proof.Laws.LawWord.Statement (.ilkInClassChange a0) :=
  fun _ => Sys2Proof.Laws.lawWord_of_none rfl
theorem Sys2Proof.Laws.LawWord.ilkReadbackFail : Sys2Proof.Laws.LawWord.Statement (.ilkReadbackFail) :=
  Sys2Proof.Laws.lawWord_of_none rfl
theorem Sys2Proof.Laws.LawWord.authYield : Sys2Proof.Laws.LawWord.Statement (.authYield) :=
  Sys2Proof.Laws.lawWord_of_none rfl
theorem Sys2Proof.Laws.LawWord.authCollision : Sys2Proof.Laws.LawWord.Statement (.authCollision) :=
  Sys2Proof.Laws.lawWord_of_none rfl
theorem Sys2Proof.Laws.LawWord.doubleFault : Sys2Proof.Laws.LawWord.Statement (.doubleFault) :=
  Sys2Proof.Laws.lawWord_of_none rfl
theorem Sys2Proof.Laws.LawWord.period : ∀ a0 a1, Sys2Proof.Laws.LawWord.Statement (.period a0 a1) :=
  fun _ _ => Sys2Proof.Laws.lawWord_of_none rfl
theorem Sys2Proof.Laws.LawWord.pairLinkDown : Sys2Proof.Laws.LawWord.Statement (.pairLinkDown) :=
  Sys2Proof.Laws.lawWord_of_none rfl
theorem Sys2Proof.Laws.LawWord.mirrorAckTimeout : ∀ a0, Sys2Proof.Laws.LawWord.Statement (.mirrorAckTimeout a0) :=
  fun _ => Sys2Proof.Laws.lawWord_of_none rfl
theorem Sys2Proof.Laws.LawWord.ack : ∀ a0, Sys2Proof.Laws.LawWord.Statement (.ack a0) :=
  fun _ => Sys2Proof.Laws.lawWord_of_none rfl
theorem Sys2Proof.Laws.LawWord.hello : ∀ a0 a1, Sys2Proof.Laws.LawWord.Statement (.hello a0 a1) :=
  fun _ _ => Sys2Proof.Laws.lawWord_of_none rfl
theorem Sys2Proof.Laws.LawWord.lease : ∀ a0 a1 a2, Sys2Proof.Laws.LawWord.Statement (.lease a0 a1 a2) :=
  fun _ _ _ => Sys2Proof.Laws.lawWord_of_none rfl
theorem Sys2Proof.Laws.LawWord.handover : ∀ a0 a1 a2, Sys2Proof.Laws.LawWord.Statement (.handover a0 a1 a2) :=
  fun _ _ _ => Sys2Proof.Laws.lawWord_of_none rfl
theorem Sys2Proof.Laws.LawWord.descriptor : ∀ a0 a1 a2 a3, Sys2Proof.Laws.LawWord.Statement (.descriptor a0 a1 a2 a3) :=
  fun _ _ _ _ => Sys2Proof.Laws.lawWord_of_none rfl
theorem Sys2Proof.Laws.LawWord.mirroredDescriptorEffect : Sys2Proof.Laws.LawWord.Statement (.mirroredDescriptorEffect) :=
  Sys2Proof.Laws.lawWord_of_none rfl
theorem Sys2Proof.Laws.LawWord.session : ∀ a0 a1 a2 a3, Sys2Proof.Laws.LawWord.Statement (.session a0 a1 a2 a3) :=
  fun _ _ _ _ => Sys2Proof.Laws.lawWord_of_none rfl
theorem Sys2Proof.Laws.LawWord.target : ∀ a0 a1 a2, Sys2Proof.Laws.LawWord.Statement (.target a0 a1 a2) :=
  fun _ _ _ => Sys2Proof.Laws.lawWord_of_none rfl
theorem Sys2Proof.Laws.LawWord.transfer : ∀ a0 a1 a2, Sys2Proof.Laws.LawWord.Statement (.transfer a0 a1 a2) :=
  fun _ _ _ => Sys2Proof.Laws.lawWord_of_none rfl
theorem Sys2Proof.Laws.LawWord.sensor : ∀ a0 a1 a2 a3, Sys2Proof.Laws.LawWord.Statement (.sensor a0 a1 a2 a3) :=
  fun _ _ _ _ => Sys2Proof.Laws.lawWord_of_none rfl
theorem Sys2Proof.Laws.LawWord.caddis : ∀ a0 a1 a2 a3 a4 a5, Sys2Proof.Laws.LawWord.Statement (.caddis a0 a1 a2 a3 a4 a5) :=
  fun _ _ _ _ _ _ => Sys2Proof.Laws.lawWord_of_none rfl
theorem Sys2Proof.Laws.LawWord.lane : ∀ a0 a1, Sys2Proof.Laws.LawWord.Statement (.lane a0 a1) :=
  fun _ _ => Sys2Proof.Laws.lawWord_of_none rfl
theorem Sys2Proof.Laws.LawWord.snapshotRecord : ∀ a0 a1 a2 a3, Sys2Proof.Laws.LawWord.Statement (.snapshotRecord a0 a1 a2 a3) :=
  fun _ _ _ _ => Sys2Proof.Laws.lawWord_of_none rfl
theorem Sys2Proof.Laws.LawWord.resyncPoint : Sys2Proof.Laws.LawWord.Statement (.resyncPoint) :=
  Sys2Proof.Laws.lawWord_of_none rfl
theorem Sys2Proof.Laws.LawWord.switchover : ∀ a0, Sys2Proof.Laws.LawWord.Statement (.switchover a0) :=
  fun _ => Sys2Proof.Laws.lawWord_of_none rfl
theorem Sys2Proof.Laws.LawWord.resync : ∀ a0, Sys2Proof.Laws.LawWord.Statement (.resync a0) :=
  fun _ => Sys2Proof.Laws.lawWord_of_none rfl
theorem Sys2Proof.Laws.LawWord.handoverTaken : Sys2Proof.Laws.LawWord.Statement (.handoverTaken) :=
  Sys2Proof.Laws.lawWord_of_none rfl
theorem Sys2Proof.Laws.LawWord.handoverGiven : Sys2Proof.Laws.LawWord.Statement (.handoverGiven) :=
  Sys2Proof.Laws.lawWord_of_none rfl
theorem Sys2Proof.Laws.LawWord.handoverWindowEnd : Sys2Proof.Laws.LawWord.Statement (.handoverWindowEnd) :=
  Sys2Proof.Laws.lawWord_of_none rfl
theorem Sys2Proof.Laws.LawWord.leaseRenew : Sys2Proof.Laws.LawWord.Statement (.leaseRenew) :=
  Sys2Proof.Laws.lawWord_of_none rfl
theorem Sys2Proof.Laws.LawWord.leaseExpiry : Sys2Proof.Laws.LawWord.Statement (.leaseExpiry) :=
  Sys2Proof.Laws.lawWord_of_none rfl
theorem Sys2Proof.Laws.LawWord.leaseClaim : Sys2Proof.Laws.LawWord.Statement (.leaseClaim) :=
  Sys2Proof.Laws.lawWord_of_none rfl
theorem Sys2Proof.Laws.LawWord.hostBoardPoll : ∀ a0, Sys2Proof.Laws.LawWord.Statement (.hostBoardPoll a0) :=
  fun _ => Sys2Proof.Laws.lawWord_of_none rfl
theorem Sys2Proof.Laws.LawWord.hostCasComplete : ∀ a0, Sys2Proof.Laws.LawWord.Statement (.hostCasComplete a0) :=
  fun _ => Sys2Proof.Laws.lawWord_of_none rfl
theorem Sys2Proof.Laws.LawWord.on : ∀ a0 a1, Sys2Proof.Laws.LawWord.Statement (.on a0 a1) :=
  fun _ _ => Sys2Proof.Laws.lawWord_of_none rfl
theorem Sys2Proof.Laws.LawWord.off : ∀ a0 a1, Sys2Proof.Laws.LawWord.Statement (.off a0 a1) :=
  fun _ _ => Sys2Proof.Laws.lawWord_of_none rfl
theorem Sys2Proof.Laws.LawWord.clear : ∀ a0 a1 a2, Sys2Proof.Laws.LawWord.Statement (.clear a0 a1 a2) :=
  fun _ _ _ => Sys2Proof.Laws.lawWord_of_none rfl
theorem Sys2Proof.Laws.LawWord.swInEdge : ∀ a0 a1, Sys2Proof.Laws.LawWord.Statement (.swInEdge a0 a1) :=
  fun _ _ => Sys2Proof.Laws.lawWord_of_none rfl
theorem Sys2Proof.Laws.LawWord.inrushEnd : ∀ a0 a1, Sys2Proof.Laws.LawWord.Statement (.inrushEnd a0 a1) :=
  fun _ _ => Sys2Proof.Laws.lawWord_of_none rfl
theorem Sys2Proof.Laws.LawWord.limit : ∀ a0 a1 a2, Sys2Proof.Laws.LawWord.Statement (.limit a0 a1 a2) :=
  fun _ _ _ => Sys2Proof.Laws.lawWord_of_none rfl
theorem Sys2Proof.Laws.LawWord.hardTrip : ∀ a0 a1, Sys2Proof.Laws.LawWord.Statement (.hardTrip a0 a1) :=
  fun _ _ => Sys2Proof.Laws.lawWord_of_none rfl
theorem Sys2Proof.Laws.LawWord.switchRetry : ∀ a0, Sys2Proof.Laws.LawWord.Statement (.switchRetry a0) :=
  fun _ => Sys2Proof.Laws.lawWord_of_none rfl
theorem Sys2Proof.Laws.LawWord.retryCountReset : ∀ a0, Sys2Proof.Laws.LawWord.Statement (.retryCountReset a0) :=
  fun _ => Sys2Proof.Laws.lawWord_of_none rfl
theorem Sys2Proof.Laws.LawWord.latched : ∀ a0 a1, Sys2Proof.Laws.LawWord.Statement (.latched a0 a1) :=
  fun _ _ => Sys2Proof.Laws.lawWord_of_none rfl
theorem Sys2Proof.Laws.LawWord.openLoad : ∀ a0 a1, Sys2Proof.Laws.LawWord.Statement (.openLoad a0 a1) :=
  fun _ _ => Sys2Proof.Laws.lawWord_of_none rfl
theorem Sys2Proof.Laws.LawWord.vauxLow : ∀ a0, Sys2Proof.Laws.LawWord.Statement (.vauxLow a0) :=
  fun _ => Sys2Proof.Laws.lawWord_of_none rfl
theorem Sys2Proof.Laws.LawWord.vauxRecovered : ∀ a0, Sys2Proof.Laws.LawWord.Statement (.vauxRecovered a0) :=
  fun _ => Sys2Proof.Laws.lawWord_of_none rfl
theorem Sys2Proof.Laws.LawWord.vauxLost : ∀ a0, Sys2Proof.Laws.LawWord.Statement (.vauxLost a0) :=
  fun _ => Sys2Proof.Laws.lawWord_of_none rfl
theorem Sys2Proof.Laws.LawWord.vauxReapply : Sys2Proof.Laws.LawWord.Statement (.vauxReapply) :=
  Sys2Proof.Laws.lawWord_of_none rfl
theorem Sys2Proof.Laws.LawWord.switchDieFreeze : Sys2Proof.Laws.LawWord.Statement (.switchDieFreeze) :=
  Sys2Proof.Laws.lawWord_of_none rfl
theorem Sys2Proof.Laws.LawWord.eventSecondTick : Sys2Proof.Laws.LawWord.Statement (.eventSecondTick) :=
  Sys2Proof.Laws.lawWord_of_none rfl
theorem Sys2Proof.Laws.LawWord.powerOnResetRearm : Sys2Proof.Laws.LawWord.Statement (.powerOnResetRearm) :=
  Sys2Proof.Laws.lawWord_of_none rfl
theorem Sys2Proof.Laws.LawWord.sleepNLow : ∀ a0, Sys2Proof.Laws.LawWord.Statement (.sleepNLow a0) :=
  fun _ => Sys2Proof.Laws.lawWord_of_none rfl
theorem Sys2Proof.Laws.LawWord.pcieLinkUp : ∀ a0 a1 a2, Sys2Proof.Laws.LawWord.Statement (.pcieLinkUp a0 a1 a2) :=
  fun _ _ _ => Sys2Proof.Laws.lawWord_of_none rfl
theorem Sys2Proof.Laws.LawWord.pcieLinkDown : Sys2Proof.Laws.LawWord.Statement (.pcieLinkDown) :=
  Sys2Proof.Laws.lawWord_of_none rfl
theorem Sys2Proof.Laws.LawWord.ethLinkUp : ∀ a0, Sys2Proof.Laws.LawWord.Statement (.ethLinkUp a0) :=
  fun _ => Sys2Proof.Laws.lawWord_of_none rfl
theorem Sys2Proof.Laws.LawWord.ethLinkDown : ∀ a0, Sys2Proof.Laws.LawWord.Statement (.ethLinkDown a0) :=
  fun _ => Sys2Proof.Laws.lawWord_of_none rfl
theorem Sys2Proof.Laws.LawWord.firmwareUpdateReset : ∀ a0, Sys2Proof.Laws.LawWord.Statement (.firmwareUpdateReset a0) :=
  fun _ => Sys2Proof.Laws.lawWord_of_none rfl
theorem Sys2Proof.Laws.LawWord.thermalHaltRelease : ∀ a0, Sys2Proof.Laws.LawWord.Statement (.thermalHaltRelease a0) :=
  fun _ => Sys2Proof.Laws.lawWord_of_none rfl
theorem Sys2Proof.Laws.LawWord.boundaryScan : ∀ a0 a1, Sys2Proof.Laws.LawWord.Statement (.boundaryScan a0 a1) :=
  fun _ _ => Sys2Proof.Laws.lawWord_of_none rfl
theorem Sys2Proof.Laws.LawWord.acqConversion : ∀ a0, Sys2Proof.Laws.LawWord.Statement (.acqConversion a0) :=
  fun _ => Sys2Proof.Laws.lawWord_of_none rfl
theorem Sys2Proof.Laws.LawWord.caddisSample : ∀ a0 a1, Sys2Proof.Laws.LawWord.Statement (.caddisSample a0 a1) :=
  fun _ _ => Sys2Proof.Laws.lawWord_of_none rfl
theorem Sys2Proof.Laws.LawWord.caddisSupplyLoss : Sys2Proof.Laws.LawWord.Statement (.caddisSupplyLoss) :=
  Sys2Proof.Laws.lawWord_of_none rfl
theorem Sys2Proof.Laws.LawWord.chargePermissionChange : ∀ a0 a1, Sys2Proof.Laws.LawWord.Statement (.chargePermissionChange a0 a1) :=
  fun _ _ => Sys2Proof.Laws.lawWord_of_none rfl
theorem Sys2Proof.Laws.LawWord.openLoadCleared : ∀ a0 a1, Sys2Proof.Laws.LawWord.Statement (.openLoadCleared a0 a1) :=
  fun _ _ => Sys2Proof.Laws.lawWord_of_none rfl
theorem Sys2Proof.Laws.LawWord.snapshotRequest : ∀ a0, Sys2Proof.Laws.LawWord.Statement (.snapshotRequest a0) :=
  fun _ => Sys2Proof.Laws.lawWord_of_none rfl
end

