-- ==== Sys2Proof/Laws/Reset.lean ====
section
/-! SUPPORT. What a reset of the controller logic leaves (R68, R80): one lemma for each part of its state that a statement names. -/

set_option linter.all false

namespace Sys2Proof.Machine

theorem resetLogic_controller (s : State) : ControllerReset (resetLogic s) := ⟨rfl, rfl, rfl, rfl, rfl, rfl, rfl, rfl, rfl, rfl, rfl, rfl, rfl⟩
theorem holdReset_controller (s : State) : ControllerReset (holdReset s) := ⟨rfl, rfl, rfl, rfl, rfl, rfl, rfl, rfl, rfl, rfl, rfl, rfl, rfl⟩
theorem releaseReset_controller (c : Nat) (st : Straps) (s : State) : ControllerReset (releaseReset c st s) :=
  ⟨rfl, rfl, rfl, rfl, rfl, rfl, rfl, rfl, rfl, rfl, rfl, rfl, rfl⟩

@[simp] theorem holdReset_pwr (s : State) : (holdReset s).pwr = { s.pwr.atReset with held := true } := rfl
@[simp] theorem holdReset_key (s : State) : (holdReset s).key = s.key.atReset := rfl
@[simp] theorem holdReset_thm (s : State) : (holdReset s).thm = s.thm.atReset := rfl
@[simp] theorem releaseReset_pwr (c : Nat) (st : Straps) (s : State) : (releaseReset c st s).pwr = { s.pwr.atReset with
    held := false, powered := true, straps := st, resetCause := c, releasedAt := s.now, refExt := s.pwr.atReset.extQualified } := rfl
@[simp] theorem releaseReset_key (c : Nat) (st : Straps) (s : State) : (releaseReset c st s).key = s.key.atReset := rfl
@[simp] theorem releaseReset_thm (c : Nat) (st : Straps) (s : State) :
    (releaseReset c st s).thm = { s.thm.atReset with
      halted := false, waiting := none } := rfl
@[simp] theorem releaseReset_now (c : Nat) (st : Straps) (s : State) : (releaseReset c st s).now = s.now := rfl

theorem tryRelease_free {c : Nat} {st : Straps} {s : State} (h : s.thm.halted = false) : tryRelease c st s = releaseReset c st s := by
  simp [tryRelease, h]

theorem tryRelease_wait {c : Nat} {st : Straps} {s : State} (h : s.thm.halted = true) :
    tryRelease c st s = (s.modPwr fun p => { p with resetCause := c }).modThm fun t => { t with waiting := some st } := by
  simp [tryRelease, h]

end Sys2Proof.Machine
end

