-- ==== Sys2Proof/Laws/Settle.lean ====
section
/-! SUPPORT. What the end of a step does (R114, R133, R137): it writes event records and messages, and changes nothing else. -/

set_option linter.all false

namespace Sys2Proof.Machine

/-- `settle` writes the host's memory, the event ring and the event log; rings, tags, freeze bits and every other part stay. -/
theorem settle_keeps (s : State) : Kept [.outs, .host, .flt] s (settle s) := (settle_kept s (List.Subset.refl _)).2 (Kept.refl _ s)

@[simp] theorem settle_pending (s : State) : (settle s).pending = s.pending := (settle_keeps s).same .pending (by decide)
@[simp] theorem settle_now (s : State) : (settle s).now = s.now := (settle_keeps s).same .now (by decide)
@[simp] theorem settle_freeIx (s : State) : (settle s).freeIx = s.freeIx := (settle_keeps s).same .freeIx (by decide)
@[simp] theorem settle_pwr (s : State) : (settle s).pwr = s.pwr := (settle_keeps s).same .pwr (by decide)
@[simp] theorem settle_prof (s : State) : (settle s).prof = s.prof := (settle_keeps s).same .prof (by decide)
@[simp] theorem settle_stages (s : State) : (settle s).stages = s.stages := (settle_keeps s).same .stages (by decide)
@[simp] theorem settle_alloc (s : State) : (settle s).alloc = s.alloc := (settle_keeps s).same .alloc (by decide)
@[simp] theorem settle_paths (s : State) : (settle s).paths = s.paths := (settle_keeps s).same .paths (by decide)
@[simp] theorem settle_law (s : State) : (settle s).law = s.law := (settle_keeps s).same .law (by decide)
@[simp] theorem settle_lanes (s : State) : (settle s).lanes = s.lanes := (settle_keeps s).same .lanes (by decide)
@[simp] theorem settle_pair (s : State) : (settle s).pair = s.pair := (settle_keeps s).same .pair (by decide)
@[simp] theorem settle_acq (s : State) : (settle s).acq = s.acq := (settle_keeps s).same .acq (by decide)
@[simp] theorem settle_thm (s : State) : (settle s).thm = s.thm := (settle_keeps s).same .thm (by decide)
@[simp] theorem settle_sw (s : State) : (settle s).sw = s.sw := (settle_keeps s).same .sw (by decide)
@[simp] theorem settle_met (s : State) : (settle s).met = s.met := (settle_keeps s).same .met (by decide)
@[simp] theorem settle_veh (s : State) : (settle s).veh = s.veh := (settle_keeps s).same .veh (by decide)
@[simp] theorem settle_civil (s : State) : (settle s).civil = s.civil := (settle_keeps s).same .civil (by decide)
@[simp] theorem settle_key (s : State) : (settle s).key = s.key := (settle_keeps s).same .key (by decide)
@[simp] theorem settle_can (s : State) : (settle s).can = s.can := (settle_keeps s).same .can (by decide)
@[simp] theorem settle_plc (s : State) : (settle s).plc = s.plc := (settle_keeps s).same .plc (by decide)
@[simp] theorem settle_rcd (s : State) : (settle s).rcd = s.rcd := (settle_keeps s).same .rcd (by decide)
@[simp] theorem settle_rings (s : State) : (settle s).host.rings = s.host.rings := (settle_keeps s).same .rings (by decide)
@[simp] theorem settle_frozen (s : State) : (settle s).flt.frozen = s.flt.frozen := ((settle_keeps s).same .faults (by decide)).1
@[simp] theorem settle_safeCause (s : State) : (settle s).flt.safeCause = s.flt.safeCause := ((settle_keeps s).same .faults (by decide)).2

/-- With nothing to record and nothing to send, a step ends as its command leaves it. -/
theorem settle_calm {s : State} (h : Settled s) : settle s = s := by
  obtain ⟨h1, h2⟩ := h
  have e1 : settleEvents s = s := by
    unfold settleEvents; rw [h1]
    cases s with | mk _ _ _ _ _ _ flt => cases flt; simp_all [State.modFlt, served, forAll]
  have e2 : settleMsgs s = s := by
    unfold settleMsgs; rw [h2]
    cases s with | mk _ _ _ _ _ host => cases host; simp_all [State.modHost, served, forAll]
  unfold settle; rw [e1, e2]

end Sys2Proof.Machine
end

