-- ==== Sys2Proof/Laws/Switch.lean ====
section
/-! SUPPORT. What a change of a switch channel and of its gang leaves in every channel, and the fields that the operations of the die keep. -/

set_option linter.all false

namespace Sys2Proof.Machine

theorem swCh_modSwCh (s : State) (n k : Nat) (f : SwCh → SwCh) (h : n < s.sw.ch.length) :
    (s.modSwCh n f).swCh k = if k = n then f (s.swCh k) else s.swCh k := by
  simp only [State.swCh, State.modSwCh, nth_upd]
  by_cases e : n = k
  · subst e; simp [h]
  · simp [e, Ne.symm e]

theorem swCh_modGang (s : State) (n k : Nat) (f : SwCh → SwCh) (h : s.sw.ch.length = 12) (hn : n < 12) :
    (s.modGang n f).swCh k = if k = n ∨ (s.ganged n = true ∧ k / 2 = n / 2) then f (s.swCh k) else s.swCh k := by
  unfold State.modGang
  by_cases g : s.ganged n = true
  · have l : (s.modSwCh (n / 2 * 2) f).sw.ch.length = 12 := by simpa [State.modSwCh, upd] using h
    rw [if_pos g, swCh_modSwCh _ _ _ _ (by omega), swCh_modSwCh _ _ _ _ (by omega)]
    simp only [g, true_and]
    by_cases a : k = n / 2 * 2 + 1
    · have : ¬ k = n / 2 * 2 := by omega
      have : k = n ∨ k / 2 = n / 2 := by omega
      simp [*]
      omega
    · by_cases b : k = n / 2 * 2
      · have : k = n ∨ k / 2 = n / 2 := by omega
        rw [if_neg a, if_pos b, if_pos this]
      · have : ¬ (k = n ∨ k / 2 = n / 2) := by omega
        rw [if_neg a, if_neg b, if_neg this]
  · rw [if_neg g, swCh_modSwCh _ _ _ _ (by omega)]
    simp [g]

@[simp] theorem modGang_prof (s : State) (n : Nat) (f : SwCh → SwCh) : (s.modGang n f).prof = s.prof := by unfold State.modGang State.modSwCh; split <;> rfl
@[simp] theorem modGang_pwr (s : State) (n : Nat) (f : SwCh → SwCh) : (s.modGang n f).pwr = s.pwr := by unfold State.modGang State.modSwCh; split <;> rfl
@[simp] theorem modGang_flt (s : State) (n : Nat) (f : SwCh → SwCh) : (s.modGang n f).flt = s.flt := by unfold State.modGang State.modSwCh; split <;> rfl
@[simp] theorem modGang_lost (s : State) (n : Nat) (f : SwCh → SwCh) : (s.modGang n f).sw.lost = s.sw.lost := by unfold State.modGang State.modSwCh; split <;> rfl
@[simp] theorem modGang_cfg (s : State) (n : Nat) (f : SwCh → SwCh) : (s.modGang n f).sw.cfg = s.sw.cfg := by unfold State.modGang State.modSwCh; split <;> rfl
@[simp] theorem modGang_len (s : State) (n : Nat) (f : SwCh → SwCh) : (s.modGang n f).sw.ch.length = s.sw.ch.length := by unfold State.modGang State.modSwCh; split <;> simp [upd]
theorem dieRaise_ready {s : State} (h : s.ready = true) (a b c : Nat) (p : List Byte) : dieRaise a b c p s = raise a b c p s := by
  unfold dieRaise; simp only [State.ready, Bool.and_eq_true] at h; simp [h.1, h.2] <;> simp_all
@[simp] theorem dieRaise_sw (s : State) (a b c : Nat) (p : List Byte) : (dieRaise a b c p s).sw = s.sw := by unfold dieRaise; split <;> simp
@[simp] theorem dieRaise_pwr (s : State) (a b c : Nat) (p : List Byte) : (dieRaise a b c p s).pwr = s.pwr := by unfold dieRaise; split <;> simp
@[simp] theorem dieRaise_prof (s : State) (a b c : Nat) (p : List Byte) : (dieRaise a b c p s).prof = s.prof := by unfold dieRaise; split <;> simp
@[simp] theorem modGang_ready (s : State) (n : Nat) (f : SwCh → SwCh) : (s.modGang n f).ready = s.ready := by simp [State.ready, State.awake]
@[simp] theorem modGang_awake (s : State) (n : Nat) (f : SwCh → SwCh) : (s.modGang n f).awake = s.awake := by simp [State.awake]
@[simp] theorem modGang_sec (s : State) (n k : Nat) (f : SwCh → SwCh) : (s.modGang n f).sec k = s.sec k := by simp [State.sec]
@[simp] theorem modGang_ganged (s : State) (n k : Nat) (f : SwCh → SwCh) : (s.modGang n f).ganged k = s.ganged k := by simp [State.ganged]
@[simp] theorem modGang_gate (s : State) (n k : Nat) (f : SwCh → SwCh) : (s.modGang n f).swInGate k = s.swInGate k := by simp [State.swInGate]
@[simp] theorem modGang_lead (s : State) (n k : Nat) (f : SwCh → SwCh) : (s.modGang n f).swLead k = s.swLead k := by simp [State.swLead]
theorem lead_gang (s : State) (n : Nat) : s.swLead n = n ∨ (s.ganged n = true ∧ s.swLead n / 2 = n / 2) := by
  unfold State.swLead; by_cases g : s.ganged n = true <;> simp [g]
theorem lead_eq {s : State} {n : Nat} (h : s.swFollows n = false) : s.swLead n = n := by
  unfold State.swLead; by_cases g : s.ganged n = true <;> simp [g, State.swFollows] at *; omega
theorem swCh_sw {s t : State} (h : t.sw = s.sw) (k : Nat) : t.swCh k = s.swCh k := by simp [State.swCh, h]
theorem pumpFailed_sw (n : Nat) (s : State) : (pumpFailed n s).sw = s.sw := by
  have : Kept [.outs, .host, .flt, .acq, .thm, .rcd] s (pumpFailed n s) := by simp
  exact this.same .sw (by decide)
@[simp] theorem pumpFailed_swCh (n k : Nat) (s : State) : (pumpFailed n s).swCh k = s.swCh k := swCh_sw (pumpFailed_sw n s) k
@[simp] theorem raise_swCh (a b c k : Nat) (p : List Byte) (s : State) : (raise a b c p s).swCh k = s.swCh k := swCh_sw (by simp) k
@[simp] theorem dieRaise_swCh (a b c k : Nat) (p : List Byte) (s : State) : (dieRaise a b c p s).swCh k = s.swCh k := swCh_sw (by simp) k

end Sys2Proof.Machine
end

