-- ==== Sys2Proof/Machine/Contacts.lean ====
section
/-! DEFINITION. The contacts of the module (R46, R47, R53), their signalling families and isolation domains (R56, R59), and what each one shows in every condition of the module (R63 to R65, R70). -/

namespace Sys2Proof.Machine

/-! ### Contacts and positions -/

/-- The contacts of R47 and R53. In a group of two or four, `w` counts the columns in the order of R47: TXP, TXN, RXP, RXN; INP, INN, OUTP, OUTN; TX, RX; TXD, RXD; P, N; U_P, U_N, I_P, I_N. -/
inductive Contact
  | lane (n w : Nat) | pairLane (n w : Nat) | pcie (k w : Nat) | eth (n w : Nat)
  | sp (n w : Nat) | t1s (n w : Nat) | can (n w : Nat)
  | gpio (n : Nat) | profile (n : Nat) | resetN
  /-- DBG_TCK, DBG_TMS, DBG_TDI, DBG_TDO, DBG_TRST_N. -/
  | dbg (k : Nat)
  | acq (n w : Nat) | acqRef (n : Nat) | acqTrigIn | acqTrigOut
  | rtd (n : Nat) | rtdExc (g : Nat) | rtdRet (g : Nat) | flow (n : Nat)
  | cp (n : Nat) | cpRef (n : Nat) | pp (n : Nat)
  | ilkOut | ilkIn | role | pairPresent | extRefIn | sleepN
  | awake | modFaultN | pcieRefclk (w : Nat) | pciePerstN | pcieClkreqN | pcieWakeN
  | ethMdc | ethMdio | ethPpsOut | ethWakeN
  | swIn (n : Nat) | swFltN
  | met (n w : Nat) | metAgnd (g : Nat) | sealN | metTamperN
  | nc (n : Nat) | shield (n : Nat) | gnd (k : Nat)
  | mainsL (n : Nat) | mainsN (n : Nat) | pe (n : Nat) | vauxIn (n : Nat) | auxGnd (n : Nat) | swOut (n : Nat) | swSenseGnd (g : Nat)
  deriving DecidableEq, Repr

/-- R46: SA(24 × r + c) in the signal array; MP in the power connector. -/
inductive Position
  | sa (n : Nat) | mp (n : Nat)
  deriving DecidableEq, Repr

/-- R46. -/
def at_ (row column : Nat) : Position := .sa (24 * row + column)

/-- R48: the rows of the signal array that are ground. -/
def gndRow (k : Nat) : Nat := nth [1, 3, 5, 7] k

/-- R47, R53. -/
def Contact.position : Contact → Position
  | .lane n w => if n < 6 then at_ 0 (4 * n + w) else if n < 12 then at_ 2 (4 * (n - 6) + w) else at_ 4 (4 * (n - 12) + w)
  | .pairLane n w => at_ 4 (16 + 4 * n + w)
  | .pcie k w => at_ 6 (4 * k + w)
  | .eth n w => at_ 6 (16 + 4 * n + w)
  | .sp n w => if n < 6 then at_ 8 (4 * n + w) else at_ 9 (4 * (n - 6) + w)
  | .t1s n w => at_ 9 (8 + 2 * n + w)
  | .can n w => at_ 10 (2 * n + w)
  | .gpio n => .sa (gpioPosition n)
  | .profile n => at_ 11 (16 + n)
  | .resetN => at_ 11 18
  | .dbg k => at_ 11 (19 + k)
  | .acq n w => if n < 12 then at_ 12 (2 * n + w) else at_ 13 (2 * (n - 12) + w)
  | .acqRef n => at_ 13 (8 + n)
  | .acqTrigIn => at_ 13 10
  | .acqTrigOut => at_ 13 11
  | .rtd n => if n < 12 then at_ 13 (12 + n) else at_ 14 (n - 12)
  | .rtdExc g => at_ 14 (12 + 2 * g)
  | .rtdRet g => at_ 14 (13 + 2 * g)
  | .flow n => at_ 14 (16 + n)
  | .cp n => .sa (cpPosition n)
  | .cpRef n => at_ 15 (8 + n)
  | .pp n => at_ 15 (10 + n)
  | .ilkOut => at_ 15 18 | .ilkIn => at_ 15 19 | .role => at_ 15 20 | .pairPresent => at_ 15 21 | .extRefIn => at_ 15 22 | .sleepN => at_ 15 23
  | .awake => at_ 16 0 | .modFaultN => at_ 16 1
  | .pcieRefclk w => at_ 16 (2 + w)
  | .pciePerstN => at_ 16 4 | .pcieClkreqN => at_ 16 5 | .pcieWakeN => at_ 16 6
  | .ethMdc => at_ 16 7 | .ethMdio => at_ 16 8 | .ethPpsOut => at_ 16 9 | .ethWakeN => at_ 16 10
  | .swIn n => at_ 16 (11 + n)
  | .swFltN => at_ 16 23
  | .met n w => if n < 6 then at_ 18 (4 * n + w) else at_ 17 (4 * (n - 6) + w)
  | .metAgnd g => at_ 17 (8 + g)
  | .sealN => at_ 17 12 | .metTamperN => at_ 17 13
  | .nc n => at_ 17 (14 + n)
  | .shield n => at_ 17 (18 + n)
  | .gnd k => at_ (gndRow (k / 24)) (k % 24)
  | .mainsL n => .mp n | .mainsN n => .mp (2 + n) | .pe n => .mp (4 + n) | .vauxIn n => .mp (6 + n) | .auxGnd n => .mp (10 + n)
  | .swOut n => .mp (14 + n) | .swSenseGnd g => .mp (26 + g)

/-! ### Families and isolation domains -/

/-- R56. -/
inductive Family
  | lane | pcie | serdes | lvds | cmos33 | openDrain | ilk | pilot | analog | rtd | pulse | metrology
  deriving DecidableEq, Repr

/-- R56; the supplies, grounds and reserved contacts belong to none. -/
def Contact.family : Contact → Option Family
  | .lane _ _ | .pairLane _ _ => some .lane
  | .pcie _ _ | .pcieRefclk _ => some .pcie
  | .eth _ _ => some .serdes
  | .sp _ _ => some .lvds
  | .gpio _ | .can _ _ | .t1s _ _ | .ethMdc | .ethMdio | .ethPpsOut | .ethWakeN | .profile _ | .resetN | .dbg _ | .acqTrigIn | .acqTrigOut
  | .extRefIn | .sleepN | .awake | .swIn _ | .role | .pairPresent => some .cmos33
  | .modFaultN | .swFltN | .pcieWakeN | .pcieClkreqN | .pciePerstN => some .openDrain
  | .ilkOut | .ilkIn => some .ilk
  | .cp _ | .pp _ => some .pilot
  | .acq _ _ | .acqRef _ => some .analog
  | .rtd _ | .rtdExc _ | .rtdRet _ => some .rtd
  | .flow _ => some .pulse
  | .met _ _ | .metAgnd _ | .sealN | .metTamperN => some .metrology
  | .cpRef _ | .nc _ | .shield _ | .gnd _ | .mainsL _ | .mainsN _ | .pe _ | .vauxIn _ | .auxGnd _ | .swOut _ | .swSenseGnd _ => none

/-- R59. -/
inductive IsolationDomain
  | mains | protectiveEarth | vaux | pilot | caddis | logic
  deriving DecidableEq, Repr

/-- R59: every other signal-array contact is logic. -/
def Contact.domain : Contact → IsolationDomain
  | .mainsL _ | .mainsN _ => .mains
  | .pe _ | .shield _ => .protectiveEarth
  | .vauxIn _ | .auxGnd _ | .swOut _ | .swSenseGnd _ => .vaux
  | .cp _ | .cpRef _ | .pp _ => .pilot
  | .met _ _ | .metAgnd _ | .sealN | .metTamperN => .caddis
  | _ => .logic

/-! ### Contact states (R63) -/

/-- What a contact shows. -/
inductive Drive
  | hiZ
  /-- Hi-Z with the 100 kΩ pull-down. -/
  | pullDown
  /-- The contact is an input, a supply, a reference or an interface whose levels are its traffic. -/
  | normal
  | electricalIdle
  /-- The low-power state of the link. -/
  | lowPower
  | idlePattern
  /-- Frames with the A bit of R280. -/
  | transmitting (aBit : Bool)
  | level (high : Bool)
  /-- The level that the contact had last. -/
  | lastLevel
  | pulses
  /-- R376: +12 V DC, PWM of 5 % duty, or −12 V. -/
  | pilot12 | pilotPwm | pilotMinus12
  | pullUp
  | busHold (high : Bool)
  /-- R360: PWM in units of 100 Hz, with its duty in percent. -/
  | pwm (freq duty : Nat)
  deriving DecidableEq, Repr

/-- The columns of R63, and the condition that none of them covers. -/
inductive Column
  | unpowered | resetBoot | sleep | noAuthority | normal
  deriving DecidableEq, Repr

/-- R63: the column that applies. -/
def State.column (s : State) : Column :=
  if !s.pwr.powered then .unpowered
  else if s.pwr.held || s.pwr.opState == .boot then .resetBoot
  else if s.pwr.powerState == .sleep then .sleep
  else if s.authority then .normal else .noAuthority

/-- R376, R378: what the pilot source of an outlet drives while the unit holds authority. -/
def State.pilotDrive (s : State) (o : Nat) : Drive :=
  if !(s.personality o == 1 || s.personality o == 2) then .hiZ
  else if (s.ses o).pilotF then .pilotMinus12
  else if (s.ses o).duty && s.personality o == 1 then .pilotPwm
  else .pilot12

/-- CPn. -/
def State.cpDrive (s : State) (o : Nat) : Drive :=
  match s.column with
  | .unpowered | .resetBoot | .noAuthority => .hiZ
  | .sleep => if s.authority && s.outActive o then .pilot12 else .hiZ
  | .normal => s.pilotDrive o

/-- PPn. -/
def State.ppDrive (s : State) : Drive :=
  match s.column with
  | .unpowered | .resetBoot | .noAuthority => .hiZ
  | .sleep => if s.authority then .pullUp else .hiZ
  | .normal => .pullUp

/-- The active profile binds the contact as a sole-actor output (R38, R383). -/
def State.soleActor (s : State) (n : Nat) : Bool := (soleActors (s.sec 2)).contains n

/-- The level that the unit commands on a sole-actor output: the contactor drive of an outlet, or a charge sequence signal. -/
def State.actorLevel (s : State) (n : Nat) : Bool :=
  (List.range 8).any fun o => s.outActive o &&
    ((s.contactorGpio o == n && (s.path o).drive)
      || (s.personality o == 3 && ((n == 3 * o && (s.ses o).sig1) || (n == 3 * o + 1 && (s.ses o).sig2))))

/-- The coolant loop that drives the contact as its PWM output (R360). -/
def State.pwmLoop (s : State) (n : Nat) : Option Nat := if s.hasSec 6 then (List.range 8).find? fun l => s.loopB l 3 == n else none

/-- GPIOn: a sole-actor output, a PWM output, or an input. -/
def State.gpioDrive (s : State) (n : Nat) : Drive :=
  if s.soleActor n then
    match s.column with
    | .unpowered => .hiZ
    | .resetBoot | .noAuthority => .pullDown
    | .sleep => if s.authority then .level false else .pullDown
    | .normal => .level (s.actorLevel n)
  else
    match s.column, s.pwmLoop n with
    | .unpowered, _ => .hiZ
    | .resetBoot, _ => .pullDown
    | .sleep, some _ => .lastLevel
    | .noAuthority, some l | .normal, some l => .pwm (s.loopH l 14) (s.loop l).duty
    | _, none => .normal

/-- LANEn and PAIRn transmitters: an unused lane and one not in use stay idle (R306). -/
def State.laneDrive (s : State) (inUse : Bool) : Drive :=
  match s.column with
  | .unpowered => .hiZ
  | .resetBoot | .sleep => .electricalIdle
  | .noAuthority | .normal => if inUse then .transmitting s.aBit else .electricalIdle

/-- PCIE and SERDES transmitters. -/
def State.linkDrive (s : State) : Drive :=
  match s.column with
  | .unpowered => .hiZ
  | .resetBoot => .electricalIdle
  | .sleep => .lowPower
  | .noAuthority | .normal => .normal

/-- A transmitter that shows a given state in reset, Boot and Sleep. -/
def State.idleDrive (s : State) (idle running : Drive) : Drive :=
  match s.column with
  | .unpowered => .hiZ
  | .resetBoot | .sleep => idle
  | .noAuthority | .normal => running

/-- A contact of the logic domain that is not listed: Hi-Z when unpowered. -/
def State.otherDrive (s : State) : Drive := if s.column == .unpowered then .hiZ else .normal

/-- R63 to R65: what the module shows on a contact that no boundary scan drives. -/
def State.ownDrive (s : State) : Contact → Drive
  | .lane n w => if w < 2 then s.laneDrive ((s.lane n).state != .unused) else s.otherDrive
  | .pairLane _ w => if w < 2 then s.laneDrive s.member else s.otherDrive
  | .pcie _ w | .eth _ w => if w < 2 then s.linkDrive else s.otherDrive
  | .sp n w => if 2 ≤ w then s.idleDrive .idlePattern (if s.outActive n then .normal else .idlePattern) else s.otherDrive
  | .cp n => s.cpDrive n
  | .pp _ => s.ppDrive
  | .gpio n => s.gpioDrive n
  | .can _ w => if w = 0 then s.idleDrive (.level true) .normal else s.otherDrive
  | .t1s _ w => if w = 0 then s.idleDrive .idlePattern .normal else s.otherDrive
  | .ilkOut => if s.pwr.ilkOut then .pulses else .level false
  | .modFaultN => if s.pwr.modFaultLow then .level false else .hiZ
  | .awake => if s.column == .unpowered then .pullDown else .level s.pwr.awake
  | .swOut n => .level (s.conducts n)
  | .swFltN => if s.swFlt then .level false else .hiZ
  | .swIn n => if s.column == .unpowered then .hiZ else .busHold (s.swCh n).swIn
  | .acqTrigOut => s.idleDrive (.level false) (.level s.acq.pulseUntil.isSome)
  | .ethPpsOut => s.idleDrive (.level false) (.level s.host.ppsUntil.isSome)
  | .mainsL _ | .mainsN _ | .pe _ | .vauxIn _ | .auxGnd _ | .swSenseGnd _ | .gnd _ | .shield _ | .nc _ | .cpRef _ | .metAgnd _ => .normal
  | _ => s.otherDrive

/-- R70: a boundary scan drives the contacts that it may drive; every other one keeps its state of the Reset and Boot column. -/
def State.contact (s : State) (c : Contact) : Drive :=
  match c.position with
  | .sa p =>
    match s.pwr.tap.drive.find? fun d => d.1 == p with
    | some d => if s.pwr.tap.testing then .level d.2 else s.ownDrive c
    | none => s.ownDrive c
  | .mp _ => s.ownDrive c

end Sys2Proof.Machine
end

