-- ==== Sys2Proof/WellFormed.lean ====
section
/-! DEFINITION. Well-formed commands: every number an operand names exists on the hardware, and every string has a length it can have. -/

namespace Sys2Proof

open Sys2Proof.Machine

/-- R117: a descriptor comes from one of 16 rings, and its body is at most 56 bytes. -/
def descWf (d : Desc) : Bool := d.ring < 16 && d.body.length ≤ 56

def outletWf (o : Nat) : Bool := o < 8
def stageWf (i : Nat) : Bool := i < 32
/-- Lanes 0 to 15 are phase lanes, 16 and 17 the pair lanes. -/
def laneWf (n : Nat) : Bool := n < 18
def ctlWf (n : Nat) : Bool := n < 8
def unitWf (n : Nat) : Bool := n < 8
def channelWf (n : Nat) : Bool := n < 12
def portWf (n : Nat) : Bool := n < 2
def loopWf (n : Nat) : Bool := n < 8
/-- R180: no frame of the set-point port is longer than 64 bytes. -/
def frameWf (o : Nat) (f : List Byte) : Bool := outletWf o && f.length ≤ 64
/-- R9: registers are 32-bit words of BAR0, which is 64 KiB. -/
def offsetWf (off : Nat) : Bool := off < 0x10000 && off % 4 == 0
/-- R107: the doorbell block is 64 bytes. -/
def blockWf (b : List Byte) : Bool := b.length == 64
/-- R425: frame control is 32 bytes. -/
def plcWf (f : PlcFrame) : Bool := f.fc.length == 32

/-- A command that the hardware's surroundings can present. -/
def Instr.wf : Instr → Bool
  | .nop d | .armRing d | .ringReset d | .releaseMaster d | .safeEnter d | .safeExit d | .gridCap d | .outletHalt d | .outletResume d
  | .stageHalt d | .stageResume d | .snapshot d | .sessionAuthorize d | .sessionEnd d | .outletPolicy d | .selectProfile d | .canSend d
  | .plcSend d | .txnStart d | .txnStop d | .readRegisters d | .readRecord d | .readLog d | .identify d | .setParameter d | .selfTest d
  | .recordRead d | .setCivilTime d | .derive d | .generate d | .importWrapped d | .importPublic d | .readPublic d | .sign d | .info d
  | .revoke d | .delete d | .certWrite d | .certRead d | .enrollOwner d | .attest d | .profileWrite d | .firmwareWrite d
  | .firmwareActivate d | .captureArm d | .captureCalibrate d | .captureDisarm d | .captureRead d | .inject d | .injectOff d
  | .ethSend d | .ethReceive d => descWf d
  | .powerOnResetRelease _ _ | .supplyFail | .resetNAssert | .resetNRelease _ | .bootSequenceComplete _ | .extRefQualified | .extRefLost
  | .operate _ | .pwrStatusRead | .sleepDelayExpiry _ | .wakeSourceAssert _ _ | .pcieReset | .ringsGo _ | .doorbellFetch
  | .doorbellFetchTimeout _ | .eventQueueDrain | .coalesceTimerExpiry | .profileTakeEffect | .civilSecond | .allocationBoundary _
  | .gridCapHoldExpiry | .generatorTick | .lawWindowClose | .downlinkSend _ | .lossTick
  | .readingApply | .thermalHalt | .zcLost | .beaconLockLoss | .coordStart | .sackTimeout | .routeTimer | .assocRetry | .pairFrameTimer
  | .warmupEnd | .caddisCommit | .metRefresh | .sealChange _ | .tamperChange _ | .caddisSupplyLoss | .recorderSecond | .pageClose
  | .go _ _ | .ilkInClassChange _ | .ilkReadbackFail | .authYield | .authCollision | .doubleFault | .pairLinkDown | .mirrorAckTimeout _
  | .ack _ | .hello _ _ | .mirroredDescriptorEffect | .lane _ _ | .resyncPoint | .switchover _ | .resync _ | .handoverTaken
  | .handoverGiven | .handoverWindowEnd | .leaseRenew | .leaseExpiry | .leaseClaim | .hostBoardPoll _ | .hostCasComplete _ | .vauxLow _
  | .vauxRecovered _ | .vauxLost _ | .vauxReapply | .switchDieFreeze | .eventSecondTick | .powerOnResetRearm | .sleepNLow _
  | .pcieLinkDown | .firmwareUpdateReset _ | .snapshotRequest _ | .zeroCrossing _ | .plcContention _ _
  | .externalTriggerEdge _ _ => true
  | .lawNop _ | .ldc _ _ _ | .lds _ _ _ | .sts _ _ _ | .lin _ _ _ | .lout _ _ _ | .ldi _ _ _ | .mov _ _ _ | .clr _ _ | .mpy _ _ _ _
  | .mac _ _ _ _ | .msu _ _ _ _ | .macc _ _ _ _ | .msuc _ _ _ _ | .lda _ _ _ | .adda _ _ _ | .suba _ _ _ | .accadd _ _ | .sha _ _ _
  | .acclim _ _ _ _ | .str _ _ _ | .stas _ _ _ | .ldas _ _ _ | .add _ _ _ _ | .sub _ _ _ _ | .mul _ _ _ _ | .min _ _ _ _
  | .max _ _ _ _ | .abs _ _ _ | .neg _ _ _ | .shx _ _ _ _ | .and _ _ _ _ | .or _ _ _ _ | .xor _ _ _ _ | .cmp _ _ _
  | .sel _ _ _ _ _ | .lut _ _ _ _ | .br _ _ _ | .endRun _ => true
  | .watchdogExpiry core _ => core < 4
  | .fastCapChange contact _ => contact < 24
  | .lawWindowOpen flips => flips.length == 8
  | .pllLockLoss domain | .pllRelock domain => domain < 12
  | .slowPollTick block => match block with | some b => blockWf b | none => true
  | .registerWrite offset _ => offsetWf offset
  | .doorbellFetchComplete block => blockWf block
  | .tagWaitResume ring => ring < 16
  | .stageResumeTakeEffect i | .transferRampDone i | .transferRampTimeout i | .xpOpenVerified i | .xpOpenTimeout i | .trackingDone i
  | .trackTimeout i | .xpCloseVerified i | .xpCloseTimeout i | .transferTimeout i | .xpCommandRelease i | .xpCurrent i
  | .feedbackMismatch i | .shortAtStart i | .phaseCheckWindow i => stageWf i
  | .phaseSenseFailed i phase => stageWf i && phase < 4
  | .ethFrameReceive port _ | .ptpMessageReceive port _ _ _ | .ethLinkUp port | .ethLinkDown port => portWf port
  | .masterViolation access _ => access.master < 36
  | .releaseHoldExpiry o | .spLinkUp o | .spLinkDown o | .statusPeriod o | .portTimeout o | .ackDecision o | .notReached o
  | .connectMatch o | .contactorVerifiedClosed o | .connectTimeout o | .contactorCloseTimeout o | .outletCurrentLow o
  | .contactorVerifiedOpen o | .contactorOpenTimeout o | .dischargeReached o | .dischargeComplete o | .stopTimeout o | .ppFault o
  | .slacMatched o | .t1sFrameReceive o | .t1sLinkDown o | .tcpConnectRequest o | .v2gMessageReceive o _ _ | .chademoTxTick o
  | .canLoss o | .authTimeout o | .chademoUnplugTimer o | .starved o | .noStageRetry o | .energyLimitPoll o
  | .chargePermissionChange o _ => outletWf o
  | .targetStop o f | .targetConnect o f | .targetCheck o f | .targetPrecharge o f | .targetCharge o f | .targetPause o f => frameWf o f
  | .memUncorrectable engine mem => engine < 8 && mem < 3
  | .injectionRunsDone engine => engine < 8
  | .uplinkReceive n _ _ | .uplinkLatch n | .laneLost n | .refusedRetry n => n < 16
  | .blockLockLoss n | .blockLock n | .trainReqSend n | .trainAck n _ _ _ | .trainTimeout n => laneWf n
  | .holdoffEnd unit | .captureTrigger unit | .captureDone unit | .calDone unit => unitWf unit
  | .acqConversion codes => codes.length == 16
  | .thermalSample object | .diverged object => object < 96
  | .rtdConversion readings leads => (readings.all fun p => p.1 < 24) && leads.length == 2
  | .flowUpdate pulses => pulses.length ≤ 8
  | .flowLow loop | .flowRecovered loop | .runonExpiry loop => loopWf loop
  | .dieTempRead temps | .thermalHaltRelease temps => temps.length == 4
  | .pilotStateChange o _ _ => outletWf o
  | .ppClassChange o _ => outletWf o
  | .slacFailed o detail => outletWf o && (detail == 1 || detail == 2)
  | .chademoMessageReceive o id _ => outletWf o && 0x100 ≤ id && id ≤ 0x102
  | .msgTimeout o _ => outletWf o
  | .canFrameReceive ctl _ | .canRxRingWrite ctl | .canTxComplete ctl | .canError ctl _ | .busOffRecoveryDone ctl | .recover ctl _
  | .redetect ctl _ | .detectWindowExpiry ctl | .canRestrictedExit ctl => ctlWf ctl
  | .beaconWindow slot => slot < 4
  | .beacon f _ _ | .data f | .e2eAck f | .assocReq f | .assocRes f | .tonemap f | .route f | .wakeReq f | .pairFrame f => plcWf f
  | .sack fc => fc.length == 32
  | .addressHoldExpiry addr => addr < 256
  | .plcMsgTimeout _ => true
  | .caddisStart failed _ => failed < 4
  | .caddisSelfTestRun test o _ => test < 8 && outletWf o
  | .caddisSample codes _ => codes.length == 8
  | .framFailure cause _ => cause == 1 || cause == 2
  | .remaskPass bad => bad.all fun i => i < 64
  | .period _ blocks => blocks.length ≤ 19
  | .lease _ body _ => body.length == 16
  | .handover _ atCount kind => atCount < 2 ^ 48 && (kind == 1 || kind == 2)
  | .descriptor _ d _ _ => descWf d
  | .session _ o _ _ | .target _ o _ | .caddis _ o _ _ _ _ => outletWf o
  | .transfer _ i _ => stageWf i
  | .sensor _ _ rtds flows => (rtds.all fun r => r.1 < 24) && flows.all fun f => f.1 < 8
  | .snapshotRecord _ frag frags _ => frag < frags
  | .on n _ | .off n _ | .clear n _ _ | .swInEdge n _ | .inrushEnd n _ | .limit n _ _ | .hardTrip n _ | .switchRetry n | .retryCountReset n
  | .latched n _ | .openLoad n _ | .openLoadCleared n _ => channelWf n
  | .pcieLinkUp gen width maxRead => [2, 3, 4].contains gen && [1, 2, 4].contains width && [128, 256, 512, 1024, 2048, 4096].contains maxRead
  | .boundaryScan _ drive => drive.all fun d => d.1 < 456

end Sys2Proof
end

