-- ==== Sys2Proof/Tests/Slice0.lean ====
section
/-! SUPPORT. Tests: ill-formed commands, values that the spec works out, and for each statement a state and operands that meet its hypotheses. -/

set_option Elab.async false

open Sys2Proof Sys2Proof.Machine

/-! ### Well-formed commands: each check refuses a term -/

theorem test_wf_descriptor : (Instr.nop { ring := 16 }).wf = false ∧ (Instr.nop { ring := 0, body := zeros 57 }).wf = false
    ∧ (Instr.nop { ring := 15, body := zeros 56 }).wf = true ∧ (Instr.descriptor 0 { ring := 16 } 0 (.time 0)).wf = false := by decide +kernel

theorem test_wf_power : (Instr.watchdogExpiry 4 {}).wf = false ∧ (Instr.pllLockLoss 12).wf = false ∧ (Instr.pllRelock 12).wf = false
    ∧ (Instr.slowPollTick (some [])).wf = false ∧ (Instr.pcieLinkUp 0 1 512).wf = false ∧ (Instr.pcieLinkUp 2 3 512).wf = false
    ∧ (Instr.pcieLinkUp 4 4 100).wf = false ∧ (Instr.boundaryScan true [(456, true)]).wf = false := by decide +kernel

theorem test_wf_host : (Instr.registerWrite 2 0).wf = false ∧ (Instr.registerWrite 0x10000 0).wf = false ∧ (Instr.doorbellFetchComplete []).wf = false
    ∧ (Instr.tagWaitResume 16).wf = false ∧ (Instr.ethLinkUp 2).wf = false ∧ (Instr.masterViolation { master := 36 } none).wf = false
    ∧ (Instr.fastCapChange 24 true).wf = false := by decide +kernel

theorem test_wf_stages : (Instr.trackingDone 32).wf = false ∧ (Instr.phaseSenseFailed 0 4).wf = false ∧ (Instr.transfer 0 32 {}).wf = false := by decide +kernel

theorem test_wf_outlets : (Instr.spLinkUp 8).wf = false ∧ (Instr.targetStop 0 (zeros 65)).wf = false ∧ (Instr.slacFailed 0 3).wf = false
    ∧ (Instr.ppFault 8).wf = false ∧ (Instr.session 0 8 {} []).wf = false ∧ (Instr.target 0 8 {}).wf = false := by decide +kernel

theorem test_wf_engines : (Instr.memUncorrectable 8 0).wf = false ∧ (Instr.memUncorrectable 0 3).wf = false ∧ (Instr.injectionRunsDone 8).wf = false
    ∧ (Instr.laneLost 16).wf = false ∧ (Instr.blockLock 18).wf = false ∧ (Instr.blockLock 17).wf = true ∧ (Instr.holdoffEnd 8).wf = false
    ∧ (Instr.acqConversion []).wf = false ∧ (Instr.lawWindowOpen []).wf = false := by decide +kernel

theorem test_wf_thermal : (Instr.thermalSample 96).wf = false ∧ (Instr.rtdConversion [(24, 0)] [0, 0]).wf = false ∧ (Instr.rtdConversion [] []).wf = false ∧ (Instr.flowLow 8).wf = false
    ∧ (Instr.dieTempRead [1, 2, 3]).wf = false := by decide +kernel

theorem test_wf_links : (Instr.canLoss 8).wf = false ∧ (Instr.canRxRingWrite 8).wf = false ∧ (Instr.beaconWindow 4).wf = false ∧ (Instr.sack []).wf = false
    ∧ (Instr.addressHoldExpiry 256).wf = false := by decide +kernel

theorem test_wf_meters : (Instr.caddisStart 4 true).wf = false ∧ (Instr.caddisSelfTestRun 8 0 true).wf = false ∧ (Instr.caddisSelfTestRun 0 8 true).wf = false
    ∧ (Instr.caddisSample [] 0).wf = false ∧ (Instr.framFailure 3 0).wf = false ∧ (Instr.remaskPass [64]).wf = false := by decide +kernel

theorem test_wf_pair : (Instr.lease 0 (zeros 15) true).wf = false ∧ (Instr.handover 0 (2 ^ 48) 1).wf = false ∧ (Instr.handover 0 0 3).wf = false
    ∧ (Instr.period 0 (List.replicate 20 0)).wf = false ∧ (Instr.sensor 0 0 [(24, 0)] []).wf = false ∧ (Instr.snapshotRecord 0 3 3 (.point 0)).wf = false
    ∧ (Instr.limit 12 0 0).wf = false ∧ (Instr.openLoad 12 0).wf = false := by decide +kernel

/-! ### Values that the spec works out -/

/-- R546: a lease of 200 ms has a guard of 200 µs. -/
theorem test_guard : ({} : State).leaseNs = 200000000 ∧ ({} : State).guardNs = 200000 := by decide +kernel

/-- R239: the command of a law word has no place in the table's bits, which the table does not give. -/
theorem test_no_table_word : decodeTableWord 32 0 = none ∧ (State.reset.withFetchWord 32 0) = State.reset := by decide +kernel

/-! ### States and operands that meet the statements' hypotheses -/

theorem test_wit_StepRunsFrontCommand : ({ ({} : State) with pending := [.supplyFail] } : State).pending = .supplyFail :: [] := rfl

theorem test_wit_IdleStepIsATick : ({} : State).pending = [] ∧ Settled {} ∧ ({} : State).pwr.undefinedLogic = false ∧ ({} : State).awake = false
    ∧ ({} : State).pwr.opState = .boot ∧ ({} : State).pwr.held = false ∧ ({ ({} : State) with pwr := { undefinedLogic := true } } : State).pending = [] := by
  refine ⟨rfl, ⟨rfl, rfl⟩, ?_⟩; decide +kernel

theorem test_wit_QueueIsLeftAlone : ∃ t, exec .supplyFail {} = .next t := ⟨_, rfl⟩

theorem test_wit_OnlySupplyFailureStops : ({} : State).pwr.undefinedLogic = false
    ∧ exec .civilSecond { ({} : State) with pwr := { undefinedLogic := true } } = .fault .supplyUndefined := ⟨rfl, rfl⟩

theorem test_wit_AuthIsClearInBootAndSafe : AuthInv {} ∧ ∃ t, step ({} : State) = .next t := ⟨fun h => absurd h (by decide), _, rfl⟩

theorem test_wit_StepsSettleTheirEvents : Settled {} ∧ ∃ t, step ({} : State) = .next t := ⟨⟨rfl, rfl⟩, _, rfl⟩

theorem test_wit_ResetReleaseBeginsBoot :
    (∃ s : State, s.pwr.porArmed = true ∧ s.pwr.resetNLow = false ∧ s.pwr.tap.testing = false ∧ s.thm.halted = false)
    ∧ (∃ s : State, s.pwr.resetNLow = true ∧ s.pwr.tap.testing = false ∧ s.thm.halted = false)
    ∧ ({} : State).pwr.porArmed = false ∧ ({} : State).pwr.resetNLow = false
    ∧ (∃ s : State, s.pwr.undefinedLogic = false ∧ s.pwr.held = false ∧ s.pwr.powerState ≠ .sleep ∧ s.pwr.bootFailed = false ∧ s.isFrozen (0x10 + 3) = false)
    ∧ (∃ s : State, s.pwr.undefinedLogic = false ∧ s.pwr.held = false ∧ s.key.resetDue = some 5 ∧ 5 + 10000000 ≤ s.now)
    ∧ (∃ s : State, s.pwr.undefinedLogic = false ∧ s.thm.waiting = some {} ∧ s.thm.halted = true ∧ s.pwr.resetNLow = false ∧ s.pwr.tap.testing = false
      ∧ ∀ x ∈ [(949 : Int), 0, 0, 0], x < 950) :=
  ⟨⟨{ pwr := { porArmed := true } }, by decide⟩, ⟨{ pwr := { resetNLow := true } }, by decide⟩, rfl, rfl, ⟨{ pwr := { opState := .setup } }, by decide⟩,
    ⟨{ key := { resetDue := some 5 }, now := 10000005 }, by decide⟩, ⟨{ thm := { halted := true, waiting := some {} } }, by decide⟩⟩

theorem test_wit_ResetHoldsController :
    (∃ s : State, s.ready = true ∧ s.thm.halting = some 0 ∧ 4 * 0 + 2 * s.periodQns ≤ 4 * s.now)
    ∧ (∃ s : State, s.ready = true ∧ s.thm.halting = some 1 ∧ 4 * s.now < 4 * 1 + 2 * s.periodQns)
    ∧ (∃ s : State, s.pwr.resetNLow = true ∧ s.pwr.tap.testing = false ∧ s.thm.halted = true)
    ∧ (∃ s : State, s.pwr.porArmed = true ∧ s.pwr.resetNLow = false ∧ s.pwr.tap.testing = false ∧ s.thm.halted = true) :=
  ⟨⟨{ pwr := { opState := .setup }, thm := { halting := some 0 }, now := 1000000000 }, by decide +kernel⟩,
    ⟨{ pwr := { opState := .setup }, thm := { halting := some 1 } }, by decide +kernel⟩,
    ⟨{ pwr := { resetNLow := true }, thm := { halted := true } }, by decide⟩, ⟨{ pwr := { porArmed := true }, thm := { halted := true } }, by decide⟩⟩

theorem test_wit_BootSequenceEnds :
    (∃ s : State, s.pwr.undefinedLogic = false ∧ s.pwr.held = false ∧ s.pwr.opState = .boot ∧ s.pwr.bootFailed = false ∧ s.key.failed = false
      ∧ bootBankOf { bank0 := false, bank1 := false } s.key = none)
    ∧ (∃ (s : State) (x : Nat), s.pwr.undefinedLogic = false ∧ s.pwr.bootFailed = true ∧ s.key.resetDue = some x)
    ∧ ∃ s : State, s.pwr.undefinedLogic = false ∧ s.pwr.held = false ∧ s.pwr.bootFailed = true ∧ (1#32).getLsbD 0 = true ∧ s.key.resetDue = none :=
  ⟨⟨{}, by decide⟩, ⟨{ pwr := { bootFailed := true }, key := { resetDue := some 1 } }, 1, by decide⟩, ⟨{ pwr := { bootFailed := true } }, by decide⟩⟩

theorem test_wit_ClockReferenceAndLocks :
    (∃ s : State, s.ready = true ∧ s.pwr.undefinedLogic = false ∧ s.pwr.refExt = true ∧ s.pwr.held = false ∧ s.pwr.powerState ≠ .sleep ∧ isPll 11 = true ∧ s.domainUp 11 = true
      ∧ s.domainUp 2 = true ∧ s.domainUp 5 = true ∧ s.pwr.opState = .operate ∧ isPll 1 = false)
    ∧ (∃ s : State, s.pwr.undefinedLogic = false ∧ s.pwr.refExt = true ∧ s.pwr.held = false ∧ s.pwr.powerState = .sleep)
    ∧ (∃ s : State, s.ready = true ∧ s.domainUp 2 = true ∧ s.pwr.opState = .safe) ∧ (∃ s : State, s.ready = true ∧ isPll 2 = true ∧ s.domainUp 2 = true ∧ s.pwr.opState = .setup)
    ∧ ∃ s : State, s.ready = true ∧ isPll 6 = true ∧ s.domainUp 6 = false ∧ s.pwr.undefinedLogic = false ∧ s.pwr.refExt = false :=
  ⟨⟨{ pwr := { opState := .operate, locked := 0xFFF, refExt := true } }, by decide⟩, ⟨{ pwr := { opState := .operate, powerState := .sleep, refExt := true } }, by decide⟩,
    ⟨{ pwr := { opState := .safe, locked := 0xFFF } }, by decide⟩, ⟨{ pwr := { opState := .setup, locked := 0xFFF } }, by decide⟩, ⟨{ pwr := { opState := .setup } }, by decide⟩⟩

theorem test_wit_OperateSleepAndWake :
    (∃ s : State, s.ready = true ∧ s.domainUp 6 = true ∧ s.pwr.opState = .setup ∧ operateBlockOf s = 0)
    ∧ (∃ s : State, s.ready = true ∧ s.domainUp 6 = true ∧ s.pwr.opState = .setup ∧ operateBlockOf s = 1)
    ∧ (∃ s : State, s.ready = true ∧ s.pwr.opState = .operate ∧ s.pwr.powerState = .doze ∧ s.pwr.sleepN = false ∧ s.dozedOut = true
      ∧ sleepBlock { s with host := { s.host with aspmL1 := true } } = some 2 ∧ s.pwr.e125Raised = false)
    ∧ (∃ s : State, s.ready = true ∧ s.pwr.opState = .operate ∧ s.pwr.powerState = .doze ∧ s.pwr.sleepN = false ∧ s.dozedOut = true
      ∧ sleepBlock { s with host := { s.host with aspmL1 := true } } = none)
    ∧ (∃ s : State, s.pwr.undefinedLogic = false ∧ s.pwr.held = false ∧ s.pwr.bootFailed = false ∧ s.pwr.powerState = .sleep ∧ s.pwr.wakeEn.getLsbD 8 = true
      ∧ s.pwr.opState ≠ .boot ∧ wakeMask 0x100 s ≠ 0 ∧ pollDue s = true ∧ s.anyArmed = false)
    ∧ ∃ s : State, s.ready = true ∧ s.domainUp 6 = true ∧ pollDue s = true ∧ s.anyArmed = false ∧ s.dozedOut = false := by
  refine ⟨⟨{ pwr := { opState := .setup, locked := 0xFFF }, prof := { active := some {} }, key := { slots := List.replicate 3 {} ++ [{ state := .ready }] }, host := { ringsRunning := true, evq := { enable := true }, cq := [{ enable := true }] } }, by decide⟩,
    ⟨{ pwr := { opState := .setup, locked := 0xFFF } }, by decide⟩,
    ⟨{ pwr := { opState := .operate, sleepN := false, dozeTimer := true }, now := 100000000, host := { sq := [{ state := .armed }] } }, ?_⟩,
    ⟨{ pwr := { opState := .operate, sleepN := false, dozeTimer := true }, now := 100000000 }, ?_⟩,
    ⟨{ pwr := { opState := .operate, powerState := .sleep } }, by decide +kernel⟩,
    ⟨{ pwr := { opState := .operate, locked := 0xFFF } }, by decide⟩⟩
  · decide +kernel
  · decide +kernel

theorem test_wit_RecordsReachTheHost :
    (∃ (s : State) (e : Arising), s.flt.arising = [e] ∧ s.host.msgs = [] ∧ s.host.evq.canTake = true ∧ s.host.evq.heldRecs = [] ∧ s.domainUp 6 = true)
    ∧ (∃ (s : State) (e : Arising), s.flt.arising = [e] ∧ s.host.msgs = [] ∧ s.host.evq.canTake = false ∧ s.host.evq.heldRecs.length < 256)
    ∧ (∃ (s : State) (e : Arising), s.flt.arising = [e] ∧ s.host.msgs = [] ∧ s.host.evq.heldRecs ≠ [] ∧ 256 ≤ s.host.evq.heldRecs.length)
    ∧ (∃ s : State, s.host.ringsRunning = true ∧ s.host.muted = false ∧ s.domainUp 6 = true ∧ (s.cq (s.sq 15).cq).enable = true ∧ (s.sq 15).cq < s.host.cq.length)
    ∧ ∃ s : State, (s.cq (s.sq 0).cq).enable = false := by
  refine ⟨⟨{ flt := { arising := [{}] }, pwr := { locked := 0xFFF }, host := { evq := { started := true, tail := 15 } } }, {}, by decide⟩,
    ⟨{ flt := { arising := [{}] } }, {}, by decide⟩, ⟨{ flt := { arising := [{}] }, host := { evq := { heldRecs := List.replicate 256 [] } } }, {}, by decide +kernel⟩,
    ⟨{ pwr := { locked := 0xFFF }, host := { ringsRunning := true, cq := [{ enable := true }] } }, by decide⟩, ⟨{}, by decide⟩⟩

def witRing (n : Nat) : State :=
  { pwr := { opState := .operate, locked := 0xFFF }
    host := { ringsRunning := true, c0Tags := 16, cq := [{ enable := true }]
              sq := List.replicate n {} ++ [{ enable := true, state := .enabled, tail := { index := 1 }, bucket := 8000000 }] } }

theorem test_wit_DescriptorChecksInOrder :
    canFetch {} 0 = false ∧ canFetch (witRing 12) 12 = true ∧ (5 : Half) ≠ ((witRing 12).sq 12).expSeq
    ∧ (let d : Desc := { ring := 12, cls := 3, tag := 16, opcode := 1 }
       opcodeDefined d.opcode.toNat = true ∧ d.opcode.toNat ≠ nopInfo.code)
    ∧ (let d : Desc := { ring := 12, cls := 3, tag := 16, barrier := true }
       let s : State := { witRing 12 with host := { (witRing 12).host with inflight := [{ ring := 12, tag := 17 }], sq := List.replicate 12 {} ++ [{ waiting := some d }] } }
       d.opcode.toNat = nopInfo.code ∧ (s.sq 12).waiting = some d ∧ ringBusy s 12 d.tag = true)
    ∧ (let d : Desc := { ring := 12, cls := 3, devAddr := 1 }
       d.seq = ((witRing 12).sq 12).expSeq ∧ d.devAddr.toNat ≠ (witRing 12).deviceAddr ∧ ((witRing 12).sq 12).waiting ≠ some d)
    ∧ (let d : Desc := { ring := 12, cls := 3, tag := 16, rsv1 := 1 }
       d.devAddr.toNat = (witRing 12).deviceAddr ∧ rsvBitsOk nopInfo d = false)
    ∧ (let d : Desc := { ring := 12, cls := 3, tag := 16, opcode := 0x7F }
       rsvBitsOk nopInfo d = true ∧ opcodeDefined d.opcode.toNat = false)
    ∧ (let d : Desc := { ring := 12, cls := 2, tag := 16 }
       rsvBitsOk nopInfo d = true ∧ opcodeDefined d.opcode.toNat = true ∧ d.cls.toNat ≠ ringClass d.ring)
    ∧ (let d : Desc := { ring := 12, cls := 3, tag := 15 }
       d.cls.toNat = ringClass d.ring ∧ (∀ c, nopInfo.cls = some c → d.cls.toNat = c) ∧ tagRangeOk (witRing 12) d = false)
    ∧ (let d : Desc := { ring := 12, cls := 3, tag := 16 }
       tagRangeOk (witRing 12) d = true ∧ tagInFlight (witRing 12) d.tag = false ∧ ringClass d.ring ≠ 0
        ∧ tagInFlight { (witRing 12) with host := { (witRing 12).host with inflight := [{ tag := 16 }] } } d.tag = true)
    ∧ (let d : Desc := { ring := 0, cls := 0, tag := 15 }
       tagRangeOk (witRing 0) d = true ∧ ringClass d.ring = 0 ∧ tagInFlight (witRing 0) d.tag = false
        ∧ million ≤ (((takeDesc d.ring (witRing 0)).modSq d.ring (refill (witRing 0).now)).sq d.ring).bucket)
    ∧ (let s : State := { (witRing 0) with host := { (witRing 0).host with sq := [{ enable := true, state := .enabled, tail := { index := 1 }, bucket := 999999 }] } }
       canFetch s 0 = true ∧ (((takeDesc 0 s).modSq 0 (refill s.now)).sq 0).bucket < million)
    ∧ stateOk safeExitInfo (witRing 0) = false ∧ stateOk nopInfo (witRing 0) = true
    ∧ gridCapInfo.acc = .authority ∧ ({ witRing 0 with pair := { auth := false }, pwr := { straps := { pairPresent := false } } } : State).acceptsA = false
    ∧ canSendInfo.acc = .token ∧ (witRing 0).leaseHere = true ∧ nopInfo.acc = .unit := by
  refine ⟨?_, ?_, ?_, ?_, ?_, ?_, ?_, ?_, ?_, ?_, ?_, ?_, ?_, ?_, ?_, ?_, ?_, ?_, ?_, ?_⟩
  all_goals first | decide +kernel | (refine ⟨?_, ?_, ?_⟩ <;> first | decide +kernel | (intro c h; cases h))

theorem test_wit_MirroredDescriptorsWaitForTheTick :
    let s : State := { (witRing 0) with
      pwr := { opState := .operate, locked := 0xFFF, straps := { pairPresent := false, role := false } }
      pair := { linkUp := true, helloOk := true, auth := true, held := true, expiresAt := 1 } }
    let d : Desc := { ring := 0, opcode := 0x06, body := [] }
    passesChecks gridCapInfo d s = true ∧ gridCapInfo.acc ≠ .unit ∧ (fetched d s).paired = true ∧ (gridCapOp d (fetched d s)).2 = some (stOk, 0)
      ∧ atTick d.opcode.toNat = true ∧ atTick 0x23 = false ∧ stState ≠ stOk ∧ stState ≠ stDeferred := by
  decide +kernel

theorem test_wit_RingsStartAndStop :
    admits nopInfo { ring := 12, cls := 3, tag := 16 } (witRing 12) = true
    ∧ admits armInfo { ring := 0, opcode := 1, kind := 5, index := 3, body := [1] } (witRing 0) = true
    ∧ admits ringResetInfo { ring := 0, opcode := 2, kind := 5, index := 1, body := [15, 16] } (let s := witRing 0
        { s with host := { s.host with sq := s.host.sq ++ [{ state := .error }] } }) = true
    ∧ (let s : State := { pwr := { opState := .setup, locked := 0xFFF }, host := { sq := [{ hold := some 5 }] } }
       s.ready = true ∧ (s.sq 0).hold = some 5 ∧ tagInFlight s 5 = false ∧ (1#32).getLsbD 0 = true ∧ s.host.ringsRunning = false ∧ s.domainUp 6 = true
        ∧ s.pwr.undefinedLogic = false ∧ s.pwr.held = false ∧ s.pwr.opState ≠ .boot ∧ (s.sq 1).hold = none ∧ (∀ m, m < 16 → (s.sq m).claim ≠ some 5))
    ∧ ({} : State).pwr.opState = .boot ∧ ({ pwr := { held := true } } : State).pwr.held = true := by decide +kernel

theorem test_wit_DoorbellsAndEventQueue :
    (let s : State := { witRing 0 with now := 1000, host := { (witRing 0).host with sq := [{ enable := true, state := .armed }] } }
     s.ready = true ∧ s.host.ringsRunning = true ∧ s.anyArmed = true ∧ s.host.fetching = false ∧ s.domainUp 6 = true ∧ s.pwr.fetchAt + 1000 ≤ s.now
      ∧ s.host.evq.heldRecs = [] ∧ s.host.evq.lostNow = 0 ∧ s.host.evq.canTake = false ∧ Settled s)
    ∧ (witRing 0).anyArmed = false ∧ (witRing 0).ready = true
    ∧ (let s : State := { witRing 0 with
         host := { (witRing 0).host with fetching := true, evq := { started := true, heldRecs := [[]] } }, flt := { counts := [((5, 1, 0, 7), 0)] }, now := 1000000000 }
       s.ready = true ∧ s.domainUp 6 = true ∧ s.host.fetching = true ∧ (s.sq 0).state = .enabled ∧ s.isFrozen 0 = false ∧ s.host.evq.canTake = true
        ∧ s.host.evq.heldRecs = [[]] ∧ s.host.evq.lostNow = 0 ∧ (((5, 1, 0, 7), 0) : (Nat × Nat × Nat × Nat) × Nat) ∈ s.flt.counts ∧ 0 < s.now / 10 ^ 9
        ∧ 0 < s.host.sq.length ∧ u16 [0x0F, 0x00] 0 < 2 ^ 13 ∧ u16 [0x0F, 0x00] 0 % 4096 < ringSize (s.sq 0) ∧ ringSize (s.sq 0) ≤ u16 [0x10, 0x00] 0 % 4096
        ∧ ringDistance (ringSize (s.sq 0)) (s.sq 0).head { index := u16 [0x0F, 0x00] 0 % 4096, wrap := bitOf (u16 [0x0F, 0x00] 0) 12 } ≤ ringSize (s.sq 0)) := by
  refine ⟨⟨by decide, by decide, by decide, by decide, by decide, by decide, by decide, by decide, by decide, ⟨rfl, rfl⟩⟩, by decide, by decide, ?_⟩
  decide +kernel

theorem test_wit_SafeAndFrozenMasters :
    admits safeEnterInfo { ring := 0, opcode := 4 } (witRing 0) = true
    ∧ (let s : State := { witRing 0 with pwr := { opState := .safe, locked := 0xFFF }, flt := { safeCause := 0x19, frozen := 1#36 <<< 0x23, freezeAt := [(0x22, 0)] } }
       admits safeExitInfo { ring := 0, opcode := 5 } s = true ∧ (clearExitCauses s).flt.safeCause = 0 ∧ s.pathsSafe = true
        ∧ admits safeExitInfo { ring := 0, opcode := 5 } { s with flt := { safeCause := 0x03, causeAt := [(0, 0)] } } = true
        ∧ (clearExitCauses { s with flt := { safeCause := 0x03, causeAt := [(0, 0)] } }).flt.safeCause ≠ 0
        ∧ ({ s with paths := [{ state := .faulted, closed := true, opened := false }] } : State).pathsSafe = false
        ∧ admits safeExitInfo { ring := 0, opcode := 5 } { s with paths := [{ state := .faulted, closed := true, opened := false }] } = true
        ∧ admits releaseInfo { ring := 0, opcode := 3, kind := 6, index := 0x23 } s = true ∧ s.isFrozen 0x23 = true ∧ s.flt.freezeAt.contains (0x23, s.now) = false
        ∧ admits releaseInfo { ring := 0, opcode := 3, kind := 6, index := 0 } s = true ∧ s.isFrozen 0 = false)
    ∧ (witRing 0).ready = true ∧ masterExists 0x10 = true ∧ masterExists 0x13 = true ∧ masterExists 0x23 = true ∧ (witRing 0).isFrozen 0x13 = false ∧ (witRing 0).running = true
    ∧ windowAllows (witRing 0) 0x13 true .firmware = false ∧ windowAllows (witRing 0) 0 true .doorbell = false ∧ masterExists 0x14 = false
    ∧ windowAllows (witRing 0) 0 false .doorbell = true := by
  decide +kernel

theorem test_wit_EthernetAndCivilSeconds :
    let s : State := { witRing 12 with
      host := { (witRing 12).host with
        ptp := { utcOffset := some 37, egress := some 5 }
        eth := [{ mode := 1, linkUp := true, ptpEn := true, civilFromPtp := true }, { mode := 1 }]
        inflight := [{ tag := 20, op := .ethReceive 0 4096 64 }] } }
    let d : Desc := { ring := 12, opcode := 0x46, cls := 3, tag := 16, kind := 0xB, body := zeros 16 ++ [64] }
    let i : InFlight := { tag := 20, op := .ethReceive 0 4096 64 }
    admits ethSendInfo d s = true ∧ d.input = some [] ∧ s.ethRuns d.ix = true ∧ admits ethSendInfo { d with input := none } s = true
    ∧ admits ethReceiveInfo { d with opcode := 0x47 } s = true ∧ s.posted d.ix < 8 ∧ s.ready = true ∧ s.ethRuns 0 = true ∧ s.ethRuns 1 = false
    ∧ (let t : State := { s with host := { s.host with inflight := List.replicate 8 i } }
       admits ethReceiveInfo { d with opcode := 0x47 } t = true ∧ 8 ≤ t.posted d.ix)
    ∧ ({ s with host := { s.host with inflight := [] } } : State).posted 0 = 0
    ∧ s.host.inflight.find? (fun i => isReceive 0 i.op) = some i ∧ i.op = .ethReceive 0 4096 64 ∧ i.discard = false
    ∧ (zeros 64).length ≤ 64 ∧ 64 < (zeros 65).length ∧ s.host.ringsRunning = true ∧ s.host.muted = false ∧ s.domainUp 6 = true
    ∧ (nth s.host.eth 1).mode ≠ 0 ∧ (nth s.host.eth 1).linkUp = false
    ∧ (nth s.host.eth 0).linkUp = true ∧ s.ptpPort = some 0 ∧ (nth s.host.eth 0).civilFromPtp = true ∧ s.host.ptp.utcOffset = some 37 ∧ s.host.ptp.egress = some 5
    ∧ ((s.now : Int) + s.civil) % 10 ^ 9 < 1000 ∧ 1000 ≤ ((({ s with now := 1000 } : State).now : Int) + s.civil) % 10 ^ 9 := by decide +kernel

theorem test_wit_RegisterWritesObeyTheirRules :
    (∃ s : State, s.ready = true ∧ s.domainUp 6 = true ∧ s.pwr.opState = .setup ∧ s.host.sq.length = 16) ∧ (∃ s : State, s.ready = true ∧ s.domainUp 6 = true ∧ s.pwr.opState ≠ .setup)
    ∧ (∃ s : State, s.ready = true ∧ s.domainUp 6 = false)
    ∧ (∃ s : State, s.pwr.undefinedLogic = false ∧ s.pwr.held = false ∧ s.pwr.opState ≠ .boot ∧ s.pwr.powerState = .sleep ∧ s.pwr.wakeEn.getLsbD 8 = true)
    ∧ (∃ s : State, s.pwr.undefinedLogic = false ∧ s.pwr.held = false ∧ s.pwr.opState ≠ .boot ∧ s.pwr.powerState = .sleep ∧ s.pwr.wakeEn.getLsbD 8 = false)
    ∧ ∃ s : State, s.pwr.undefinedLogic = false ∧ s.pwr.held = false ∧ s.pwr.opState = .boot :=
  ⟨⟨{ pwr := { opState := .setup, locked := 0xFFF } }, by decide⟩, ⟨{ pwr := { opState := .safe, locked := 0xFFF } }, by decide⟩, ⟨{ pwr := { opState := .setup } }, by decide⟩,
    ⟨{ pwr := { opState := .setup, powerState := .sleep } }, by decide⟩, ⟨{ pwr := { opState := .setup, powerState := .sleep, wakeEn := 0x2C0 } }, by decide⟩, ⟨{}, by decide⟩⟩

theorem test_wit_LawWordsDecodeToTheirRows :
    (Instr.sel 7 15 15 15 9).lawCode = some (7, 0x93FFC900) ∧ lawWordOk 0x93FFC900 = true ∧ lawWordOk 0x93FFCA00 = false ∧ lawWordOk 0xC00003FF = true := by decide +kernel

/-- Section table entries of a test image: type, offset, length. -/
def testTable : Nat → List (Nat × List Byte) → List Byte
  | _, [] => []
  | off, (t, b) :: r => toLE 2 t ++ zeros 2 ++ toLE 4 off ++ toLE 4 b.length ++ zeros 4 ++ testTable (off + b.length) r

/-- A profile image that holds the given sections. -/
def testImage (secs : List (Nat × List Byte)) : List Byte :=
  zeros 16 ++ toLE 2 secs.length ++ zeros 110 ++ testTable (128 + 16 * secs.length) secs ++ secs.flatMap (·.2)

/-- One slot on engine 0 with a program of one word. -/
def lawTestImage (w : Nat) : List Byte :=
  testImage [(5, zeros 4 ++ toLE 2 1 ++ zeros 10 ++ zeros 128), (4, toLE 2 1 ++ zeros 14 ++ zeros 2 ++ toLE 2 1 ++ zeros 8 ++ toLE 4 32 ++ toLE 4 w)]

/-- The same with a slot that outlet 0 owns. -/
def lawSkipImage (w : Nat) : List Byte :=
  testImage [(5, zeros 4 ++ toLE 2 1 ++ zeros 10 ++ zeros 3 ++ [3] ++ zeros 124), (4, toLE 2 1 ++ zeros 14 ++ zeros 2 ++ toLE 2 1 ++ zeros 8 ++ toLE 4 32 ++ toLE 4 w)]

/-- A schedule of one slot on engine 0, whose program holds one word, with its run at that word. -/
def lawTestState (w : Nat) : State :=
  { pwr := { opState := .operate, locked := 0xFFF }
    prof := { active := some { image := lawTestImage w } }
    law := { running := true, openNow := true, window := 100, engines := { run := some { st := [1, 2, 3] } } :: List.replicate 7 {}, slots := [{ st := [1, 2, 3] }] } }

theorem test_wit_LawMovesAndLoads :
    (lawTestState 0).ready = true ∧ (lawTestState 0).runAt 0 0 = some { st := [1, 2, 3] }
    ∧ (lawTestState 0x04C00011).runAt 0 0x04C00011 = some { st := [1, 2, 3] } ∧ (lawTestState 0x54002000).runAt 0 0x54002000 = some { st := [1, 2, 3] }
    ∧ (Instr.ldc 0 3 0x11).lawCode = some (0, 0x04C00011) ∧ (Instr.stas 0 true 0).lawCode = some (0, 0x54002000) := by decide +kernel

theorem test_wit_LawAccumulatorResults :
    (lawTestState 0x2408C000).runAt 0 0x2408C000 = some { st := [1, 2, 3] } ∧ (Instr.mpy 0 false 2 3).lawCode = some (0, 0x2408C000)
    ∧ (lawTestState 0x48001000).runAt 0 0x48001000 = some { st := [1, 2, 3] } ∧ (Instr.sha 0 false 0x10).lawCode = some (0, 0x48001000)
    ∧ (0x10#5).toInt < 0 ∧ 0 ≤ (0x0F#5).toInt ∧ (lawTestState 0).ready = true := by decide +kernel

theorem test_wit_LawRegisterResults :
    (lawTestState 0x60488000).runAt 0 0x60488000 = some { st := [1, 2, 3] } ∧ (Instr.add 0 1 2 2).lawCode = some (0, 0x60488000)
    ∧ (lawTestState 0x7C441000).runAt 0 0x7C441000 = some { st := [1, 2, 3] } ∧ (Instr.shx 0 1 1 0x10).lawCode = some (0, 0x7C441000)
    ∧ (0x10#5).toInt < 0 ∧ 0 ≤ (0x0F#5).toInt ∧ (lawTestState 0).ready = true := by decide +kernel

theorem test_wit_LawBranchesAndCommits :
    (Instr.br 0 9 0x3FF).lawCode = some (0, 0xC24003FF) ∧ (lawTestState 0xC24003FF).runAt 0 0xC24003FF = some { st := [1, 2, 3] }
    ∧ (lawTestState 0xFC000000).runAt 0 0xFC000000 = some { st := [1, 2, 3] } ∧ ((lawTestState 0).engine 0).used + 1 ≤ (lawTestState 0).law.window
    ∧ (let s := { lawTestState 0xFC000000 with law := { (lawTestState 0xFC000000).law with window := 0 } }
       s.runAt 0 0xFC000000 = some { st := [1, 2, 3] } ∧ s.law.window < (s.engine 0).used + 1 ∧ s.ready = true ∧ 0 < s.law.engines.length)
    ∧ skipRun (lawTestState 0xFC000000) ((lawTestState 0xFC000000).lawRec 0) = false
    ∧ (let s := { lawTestState 0xFC000000 with prof := { active := some { image := lawSkipImage 0xFC000000 } } }
       s.runAt 0 0xFC000000 = some { st := [1, 2, 3] } ∧ skipRun s (s.lawRec 0) = true ∧ s.ready = true)
    ∧ (Instr.lawNop 0).lawCode = some (0, 0) ∧ Instr.lawNop 0 ≠ .endRun 0 ∧ (lawTestState 0xFC000000).runAt 0 0 = none := by decide +kernel

theorem test_wit_LawWindowsAndInjections :
    let s : State := { witRing 12 with
      prof := { active := some { image := testImage [(5, toLE 4 100000 ++ toLE 2 1 ++ zeros 10 ++ zeros 14 ++ [1] ++ zeros 3 ++ toLE 2 100 ++ zeros 108)] } }
      law := { running := true, baseRate := 100000, engines := { inj := some { started := true, runs := 1, n := 1 } } :: List.replicate 7 {} } }
    let d : Desc := { ring := 12, opcode := 0x45, cls := 3, tag := 16, kind := 0xA, body := zeros 16 ++ [32] }
    let c : List Byte := [4, 0, 0, 0, 100, 0, 0, 0xFF] ++ zeros 24
    s.ready = true ∧ s.law.openNow = false ∧ (s.engine 7).fault = false ∧ 7 < s.law.engines.length
    ∧ (s.engine 0).inj = some { started := true, runs := 1, n := 1 } ∧ (s.engine 1).inj = none
    ∧ admits injectInfo { d with input := some c } s = true ∧ injectOk (fetched d s) d.ix c = true ∧ u8 c 0 ≠ 0
    ∧ injectOk (fetched d s) d.ix ([4, 0, 0, 0, 101, 0, 0, 0xFF] ++ zeros 24) = false
    ∧ admits injectInfo { d with input := none } s = true ∧ injectOk (fetched d s) d.ix (0 :: c.tail) = true
    ∧ (let t : State := { lawTestState 0 with law := { (lawTestState 0).law with slots := [{ dueNow := true }] } }
       t.ready = true ∧ t.law.openNow = true ∧ t.lawRecs.length = 1 ∧ (∀ r ∈ t.lawRecs, skipRun t r = false ∧ srSlot r < t.law.slots.length
         ∧ (nth t.law.slots (srSlot r)).dueNow = true)) := by decide +kernel

def witStage (st : Stage) : State := { witRing 0 with
  stages := st :: List.replicate 31 {} }

theorem test_wit_TransfersPassTheirStates :
    (let s := witStage { xfer := .rampDown, src := some 2, coils := 4, fb := 4 }
     s.ready = true ∧ s.lowCurrent 0 = true ∧ s.stepsMayBegin = true ∧ (s.stage 0).inTransfer = true ∧ s.now < (s.stage 0).xferAt + 40000000
      ∧ s.inStepFor .rampDown 0 s.tDownMs = false ∧ s.inStepFor .opening 0 (s.xpOperateMs + 1) = false)
    ∧ (let s := { witStage { xfer := .rampDown, src := some 2, coils := 4, fb := 4 } with now := 10 ^ 12 }
       s.ready = true ∧ s.inStepFor .rampDown 0 s.tDownMs = true ∧ (s.stage 0).xferAt + 40000000 ≤ s.now)
    ∧ (let s := { witStage { xfer := .opening, src := some 2, order := .release } with now := 10 ^ 12 }
       s.ready = true ∧ (s.stage 0).fb.getLsbD (s.stage 0).leaves = false ∧ (s.stage 0).coils.getLsbD (s.stage 0).leaves = false
        ∧ s.inStepFor .opening 0 (s.xpOperateMs + 1) = true)
    ∧ (let s := witStage { xfer := .opening, src := some 2, order := .move }
       s.ready = true ∧ (s.stage 0).order ≠ .release ∧ s.stepsMayBegin = true ∧ (s.stage 0).coils.getLsbD (s.stage 0).leaves = false)
    ∧ ({ witStage {} with pwr := { (witRing 0).pwr with straps := { pairPresent := false } } } : State).stepsMayBegin = false
    ∧ (let s := { witStage { xfer := .tracking, dest := some 7, nearAt := some 0 } with now := 10 ^ 12 }
       s.ready = true ∧ s.tracked 0 = true ∧ heldFor (s.stage 0).nearAt 1000000 s.now = true ∧ s.lowCurrent 0 = true ∧ s.stepsMayBegin = true
        ∧ blockerOf (s.stage 0) 7 = none ∧ (s.stage 0).trackTimeouts = 0 ∧ s.inStepFor .tracking 0 s.trackTimeoutMs = true)
    ∧ (let s := { witStage { xfer := .tracking, dest := some 7, fb := 1, trackTimeouts := 1, nearAt := some 0 } with now := 10 ^ 12 }
       s.ready = true ∧ s.tracked 0 = true ∧ blockerOf (s.stage 0) 7 = some 0 ∧ 1 ≤ (s.stage 0).trackTimeouts ∧ s.stepsMayBegin = true)
    ∧ (let s := { witStage { xfer := .closing, dest := some 7, coils := 128, fb := 128 } with now := 10 ^ 12 }
       s.ready = true ∧ (s.stage 0).coils.getLsbD 7 = true ∧ (s.stage 0).fb.getLsbD 7 = true ∧ s.inStepFor .closing 0 (s.xpOperateMs + 1) = true) := by
  decide +kernel

theorem test_wit_StagesStopAndResume :
    (let s := witStage { openWait := 4, coils := 4, fb := 4, ramping := true }
     s.ready = true ∧ (s.stage 0).openWait ≠ 0 ∧ s.lowCurrent 0 = true ∧ (s.stage 0).inTransfer = false ∧ s.now ≤ (s.stage 0).waitAt + 40000000
      ∧ (s.stage 0).waitRaised = false ∧ (∀ k, k < 8 → s.mismatched 0 k = false) ∧ (s.stage 0).resumeDeferred = false)
    ∧ (let s := { witStage { openWait := 4, coils := 4 } with now := 10 ^ 12, lanes := { lane := { lastAct := 4 } :: List.replicate 15 {} } }
       s.ready = true ∧ (s.stage 0).openWait ≠ 0 ∧ (s.stage 0).inTransfer = false ∧ (s.stage 0).waitRaised = false ∧ (s.stage 0).waitAt + 40000000 < s.now
        ∧ s.mismatched 0 2 = true ∧ (s.stage 0).removed = false)
    ∧ (let s : State := { witStage { halted := true, resumeDeferred := true } with lanes := { lane := { state := .active } :: List.replicate 15 {} } }
       s.ready = true ∧ (s.stage 0).stopped = true ∧ s.stageSafeEnd 0 = true ∧ (s.stage 0).resumeDeferred = true)
    ∧ (let d : Desc := { ring := 0, opcode := 0x09, kind := 2 }
       let s := witStage { xfer := .tracking, dest := some 1, outEn := true, coils := 2 }
       admits (haltInfo 0x09 true) d s = true ∧ d.ix < s.stages.length ∧ d.b 8 = 0 ∧ (s.stage 0).inTransfer = true ∧ (s.stage 0).outEn = true
        ∧ (s.stage 0).coils ≠ 0 ∧ admits (haltInfo 0x09 true) { d with body := [1] } s = true ∧ ({ d with body := [1] } : Desc).b 8 = 1
        ∧ admits (haltInfo 0x09 true) d (witStage { xfer := .blocked }) = true)
    ∧ (let d : Desc := { ring := 0, opcode := 0x0A, kind := 2 }
       let s := witStage { halted := true }
       admits (resumeInfo 0x0A true) d s = true ∧ s.stageHot 0 = false ∧ (s.stage 0).stopped = true ∧ s.stageSafeEnd 0 = false
        ∧ admits (resumeInfo 0x0A true) d (witStage {}) = true ∧ (witStage {}).stageHot 0 = false ∧ ((witStage {}).stage 0).stopped = false
        ∧ (witStage {}).haltWaits 9 0 = false
        ∧ (let s : State := { witStage { halted := true } with lanes := { lane := { state := .active } :: List.replicate 15 {} } }
           admits (resumeInfo 0x0A true) d s = true ∧ s.stageHot 0 = false ∧ s.stageSafeEnd 0 = true)) := by decide +kernel
theorem test_wit_StagesStopAndResume_hot :
    let s : State := { witStage {} with
      prof := { active := some { image := testImage [(6, zeros 0xF0 ++ [0, 0, 2, 0] ++ zeros 92)] } }
      thm := { objs := [{ above := true }] } }
    admits (resumeInfo 0x0A true) { ring := 0, opcode := 0x0A, kind := 2 } s = true ∧ s.stageHot 0 = true := by decide +kernel

theorem test_wit_BudgetsStayWithinAvailablePower :
    let l : AlcLatch := { outlets := { demand := .active } :: { demand := .active, weight := 3 } :: List.replicate 6 {} }
    (fill l (fun _ => true) (fun _ => 1000) 900).level = some (225, 0) ∧ (fill l (fun _ => true) (fun _ => 1000) 900).b.take 3 = [225, 675, 0]
    ∧ (fill l (fun _ => true) (fun _ => 1000) 3000).level = none := by decide +kernel

theorem test_wit_AllocationsPublishWhatWasLatched :
    (let s : State := { witRing 0 with lanes := { ticking := true }
                                       alloc := { latch := some { outlets := { demand := .starting } :: { demand := .stopping } :: { demand := .active } :: List.replicate 5 {} } } }
     s.ready = true ∧ s.atAllocBoundary = true ∧ s.pwr.opState = .operate ∧ s.alloc.latch.isSome = true ∧ 7 < s.alloc.outlets.length)
    ∧ (let s : State := { witRing 0 with lanes := { ticking := true } }
       s.ready = true ∧ s.atAllocBoundary = true ∧ s.alloc.latch = none ∧ (witRing 0).ready = true ∧ (witRing 0).atAllocBoundary = false)
    ∧ (let s : State := { witRing 0 with lanes := { ticking := true }, pwr := { opState := .setup } }
       s.ready = true ∧ s.atAllocBoundary = true ∧ s.pwr.opState ≠ .operate) := by decide +kernel

theorem test_wit_CapsHoldsAndPolicies :
    (let s : State := { witRing 0 with alloc := { hostCap := some (5, true) } }
     s.ready = true ∧ s.pwr.undefinedLogic = false ∧ s.alloc.hostCap = some (5, true) ∧ s.alloc.holdUntil ≤ s.now
      ∧ (∀ kw, (witRing 0).alloc.hostCap ≠ some (kw, true)) ∧ (witRing 0).ready = true
      ∧ ({ s with alloc := { s.alloc with holdUntil := 1 } } : State).now < 1)
    ∧ admits gridCapInfo { ring := 0, opcode := 0x06, body := [0x10, 0x27] } (witRing 0) = true
    ∧ admits outletPolicyInfo { ring := 4, opcode := 0x22, cls := 1, tag := 16, kind := 1, index := 7, body := [3, 1, 0, 0] } (witRing 4) = true := by
  refine ⟨⟨by decide +kernel, by decide +kernel, rfl, by decide +kernel, fun _ h => ?_, by decide +kernel, by decide +kernel⟩, by decide +kernel, by decide +kernel⟩
  exact absurd h (by rintro ⟨⟩)

/-- An operating module with the port as the source of outlet 0, its link up. -/
def witPort (p : Path) : State := { witRing 0 with
  prof := { active := some { image := testImage [(2, [4, 1] ++ zeros 254)] } }
  paths := { p with linkUp := true } :: List.replicate 7 {} }
def witTarget (seq cmd : Nat) : List Byte :=
  withCrc (toLE 1 1 ++ toLE 1 0 ++ toLE 2 seq ++ toLE 1 cmd ++ zeros 1 ++ zeros 18)

theorem test_wit_PortFramesAreTakenInTurn :
    (let s := witPort {}
     s.ready = true ∧ s.outActive 0 = true ∧ s.outActive 1 = false ∧ s.portSource 0 = true ∧ s.portSource 1 = false ∧ (s.path 0).linkUp = true
      ∧ (s.path 1).linkUp = false ∧ s.leaseHere = true ∧ (s.path 0).state = .idle ∧ (s.prof.lock && tCmd (witTarget 5 1) == 1 && (s.path 0).state == .idle) = false
      ∧ (let t : State := { s with prof := { s.prof with lock := true, waiting := [(0, [])] } }
         t.ready = true ∧ t.portSource 0 = true ∧ (t.prof.lock && tCmd (witTarget 5 1) == 1 && (t.path 0).state == .idle) = true
          ∧ t.prof.waiting.find? (·.1 == 0) = some (0, [])))
    ∧ (let s := { witPort { state := .deliver } with now := 10 ^ 12 }
       s.ready = true ∧ (s.path 0).state ≠ .idle ∧ s.portSource 0 = true ∧ (s.path 0).frameAt + s.portTimeoutMs * 1000000 ≤ s.now
        ∧ (s.path 0).state.started = true ∧ ((witPort { state := .stopping }).path 0).state.started = false)
    ∧ (let s := witPort {}
       frameValid 0 [] = false ∧ frameValid 0 (witTarget 5 1) = true ∧ isNew (s.path 0) (witTarget 5 1) = true ∧ tCmd (witTarget 5 1) = 1
        ∧ targetRefusal 0 (witTarget 5 1) s = none ∧ targetRefusal 0 (witTarget 5 4) s = some (1, 0))
    ∧ (let s := witPort { lastNew := some 5, held := some [1] }
       isNew (s.path 0) (witTarget 5 1) = false ∧ (s.path 0).lastNew = some (tSeq (witTarget 5 1)) ∧ (s.path 0).held = some [1]
        ∧ isNew (s.path 0) (witTarget 4 1) = false ∧ (s.path 0).lastNew ≠ some (tSeq (witTarget 4 1))
        ∧ ((witPort { lastNew := some 5 }).path 0).held = none)
    ∧ targetRefusal 0 (witTarget 5 0) (witPort { state := .deliver }) = none ∧ targetRefusal 0 (witTarget 5 5) (witPort { state := .deliver }) = none
    ∧ targetRefusal 0 (witTarget 5 2) (witPort { state := .connected }) = none ∧ targetRefusal 0 (witTarget 5 3) (witPort { state := .connected }) = none
    ∧ targetRefusal 0 (witTarget 5 4) (witPort { state := .connected }) = none ∧ targetRefusal 0 (witTarget 5 1) (witPort { state := .stopping }) = none
    ∧ (let s : State := { witPort {} with prof := { active := some { image := testImage [(2, [4, 0] ++ zeros 254)] } } }
       s.ready = true ∧ s.outActive 0 = true ∧ s.portSource 0 = false ∧ (s.path 0).linkUp = true) := by decide +kernel

theorem test_wit_TargetsAreAnsweredAndTheGeneratorTicks :
    (let s := { witPort { state := .paused, bandAt := some 0, tgt := some { bytes := witTarget 1 5, startAt := some 0 } } with now := 10 ^ 12 }
     s.ready = true ∧ (s.path 0).tgt.isSome = true ∧ inBand s 0 (tCmd (witTarget 1 5)) = true ∧ heldFor (s.path 0).bandAt (s.ackHoldNs 0) s.now = true
      ∧ tCmd (witTarget 1 5) = 5 ∧ s.overdue 0 { bytes := witTarget 1 5, startAt := some 0 } = true)
    ∧ (let s := witPort { state := .connecting, tgt := some { bytes := witTarget 1 1 } }
       s.ready = true ∧ inBand s 0 (tCmd (witTarget 1 1)) = false ∧ tCmd (witTarget 1 1) < 2 ∧ (s.path 7).tgt = none
        ∧ (s.steadyStages 0).isEmpty = true ∧ s.overdue 0 { bytes := witTarget 1 1 } = false)
    ∧ (let s := witPort { fallback := 3 }
       s.ready = true ∧ (s.path 0).fallback = 3 ∧ ((s.path 0).recent s.now).length ≤ 32
        ∧ 32 < (({ retargets := List.replicate 33 0 } : Path).recent 0).length) := by decide +kernel

def witPath (p : Path) : State := { witRing 0 with
  paths := p :: List.replicate 7 {}, now := 10 ^ 12 }

def witSteady (p : Path) : State := { witPath p with
  stages := { outlet := some 0, outEn := true } :: List.replicate 31 {} }

theorem test_wit_PathsStartAndStop :
    (let s := witSteady { state := .connecting, drive := true, nearAt := some 0 }
     s.ready = true ∧ s.inletMatched 0 = true ∧ heldFor (s.path 0).nearAt 1000000 s.now = true ∧ s.mayVerify 0 = true
      ∧ (s.path 0).drive = true ∧ (s.path 0).closed = false ∧ s.driveHeld 0 (s.outletOperateMs 0 + 1) = true
      ∧ (s.path 0).since + s.connectTimeoutMs 0 * 1000000 ≤ s.now)
    ∧ (let s := { witPath { state := .connecting, driveAt := 10, since := 10, tgt := some {} } with
         now := 0, prof := { active := some { image := testImage [(8, List.replicate 528 255)] } } }
       s.ready = true ∧ (s.steadyStages 0).isEmpty = true ∧ (s.path 0).drive = false ∧ (s.path 0).tgt = some {} ∧ s.inletMatched 0 = false
        ∧ s.now < (s.path 0).since + s.connectTimeoutMs 0 * 1000000 ∧ s.driveHeld 0 (s.outletOperateMs 0 + 1) = false)
    ∧ ({ witPath { driveAt := 1 } with now := 0, prof := { active := some { image := testImage [(8, List.replicate 528 255)] } } } : State).mayVerify 0 = false
    ∧ (let s := witSteady { state := .stopping, closed := true, opened := false }
       s.ready = true ∧ (s.iMeasQ 0).natAbs ≤ 64 ∧ (s.path 0).opened = false ∧ (s.path 0).drive = false ∧ 0 ∈ s.heldStages 0
        ∧ (s.path 0).since + s.stopTimeoutMs 0 * 1000000 ≤ s.now)
    ∧ (let s : State := { witSteady { state := .stopping } with
        lanes := { lane := { state := .active, lastUp := List.replicate 33 0x7FFF7FFF7FFF7FFF } :: List.replicate 15 {} } }
       s.ready = true ∧ 64 < (s.iMeasQ 0).natAbs)
    ∧ (let s := witSteady { state := .discharging, closed := true, opened := false, lowAt := some 0 }
       s.ready = true ∧ (s.path 0).opened = false ∧ s.driveHeld 0 (s.outletOperateMs 0 + 1) = true ∧ (s.steadyStages 0).isEmpty = false
        ∧ s.busLow 0 = true ∧ heldFor (s.path 0).lowAt 1000000 s.now = true ∧ 0 ∈ s.heldStages 0 ∧ s.outletOpen 0 = false
        ∧ (s.path 0).since + s.stopTimeoutMs 0 * 1000000 ≤ s.now)
    ∧ (let s := witPath { state := .discharging, heldConnect := true, tgt := some { bytes := zeros 28 } }
       s.ready = true ∧ s.outletOpen 0 = true ∧ tCmd (zeros 28) = 0 ∧ (s.path 0).discharge = none)
    ∧ (let s := witPath { state := .faulted }
       s.ready = true ∧ s.faultEnd 0 = true ∧ openCmd (s.path 0) ≠ some 0 ∧ openCmd { tgt := some { bytes := zeros 28 } } = some 0
        ∧ (witPath { state := .faulted, opened := false }).faultEnd 0 = false) := by decide +kernel

theorem test_wit_ShortsPhasesAndOutletHalts :
    (let s := witStage { xfer := .tracking }
     s.ready = true ∧ s.shorted 0 = false ∧ s.stPresent 0 = false)
    ∧ (let s : State := { witStage {} with
         now := 10 ^ 12
         stages := { xfer := .tracking, dest := some 1, outEn := true, trackFrom := 16000, shortAt := some 0 } :: { outlet := some 1, outEn := true } :: List.replicate 30 {}
         alloc := { outlets := {} :: { busV := 16000 } :: List.replicate 6 {} } }
       s.ready = true ∧ s.shorted 0 = true ∧ heldFor (s.stage 0).shortAt 2000000 s.now = true ∧ (s.stage 0).xfer = .tracking)
    ∧ (let s : State := { witSteady { state := .precharge, vAxis := { x := 800 } } with
         stages := { outlet := some 0, outEn := true, shortAt := some 0 } :: List.replicate 31 {} }
       s.ready = true ∧ (s.stage 0).outlet = some 0 ∧ (s.stage 0).xfer ≠ .tracking ∧ s.shorted 0 = true ∧ heldFor (s.stage 0).shortAt 2000000 s.now = true)
    ∧ (let s : State := { witSteady {} with
        prof := { active := some { image := testImage [(1, zeros 8 ++ [1, 4] ++ zeros 1014)] } } }
       s.ready = true ∧ s.stPresent 0 = true ∧ senseFailed s 0 0 = true ∧ 0 < s.stages.length ∧ sumImplausible s 0 = false)
    ∧ (let s : State := { witSteady {} with
        stages := { outlet := some 0, outEn := true, win := { periods := 1, phases := 30000 } } :: List.replicate 31 {}
        prof := { active := some { image := testImage [(1, zeros 8 ++ [1, 4] ++ zeros 1014), (8, zeros 10 ++ [0xFF] ++ zeros 53)] } } }
       s.ready = true ∧ s.stPresent 0 = true ∧ sumImplausible s 0 = true ∧ ((List.range 4).filter (senseFailed s 0)) = [])
    ∧ (let d : Desc := { ring := 0, opcode := 0x07, kind := 1, body := [1, 9] }
       let s := witPath { state := .deliver }
       admits (haltInfo 0x07 false) d s = true ∧ d.ix < s.paths.length ∧ (s.path d.ix).state.started = true ∧ d.b 8 = 1)
    ∧ (let d : Desc := { ring := 0, opcode := 0x08, kind := 1 }
       let s := witPath { state := .stopping, halted := true }
       admits (resumeInfo 0x08 false) d s = true ∧ (s.path 0).halted = true ∧ s.pathSafeEnd 0 = false
        ∧ admits (resumeInfo 0x08 false) d (witPath {}) = true ∧ ((witPath {}).path 0).halted = false ∧ (witPath {}).haltWaits 7 0 = false
        ∧ admits (resumeInfo 0x08 false) d (witPath { halted := true }) = true ∧ (witPath { halted := true }).pathSafeEnd 0 = true) := by decide +kernel

def witLane (l : Lane) : State := { witRing 0 with
  lanes := { lane := l :: List.replicate 15 {} } }

/-- The 33 data blocks of an UPLINK of lane 0 with SEQ 0 and the same sample everywhere. -/
def witUplink : List Block := withCrcBlock ([2] ++ List.replicate 30 0 ++ [0x1234])

theorem test_wit_LanePeriodsCarryFrames_uplink : uplinkOk 0 2 witUplink = true ∧ frSeq witUplink = 0 := by
  unfold uplinkOk frameOk witUplink withCrcBlock
  simp only [List.getLast?_concat, List.dropLast_concat, Option.getD_some, beq_self_eq_true, Bool.and_true]
  generalize crcBlock _ = c
  simp [blk, bits, frSeq, laneUp]

theorem test_wit_LanePeriodsCarryFrames :
    (let s := witLane { state := .active }
     s.ready = true ∧ s.lanes.lane.length = 16 ∧ (s.lane 0).sends = true ∧ (s.lane 1).sends = false ∧ s.running = true
      ∧ ({ s with thm := { halting := some 0 } } : State).ready = true)
    ∧ uplinkOk 0 2 [] = false
    ∧ (let s := witLane { state := .active, arrived := [List.replicate 33 0] }
       ((s.lane 0).arrived.find? fun b => frSeq b == s.lanes.q) = some (List.replicate 33 0))
    ∧ (let s : State := { witLane { state := .active } with prof := { active := some { image := testImage [(1, zeros 8 ++ [1, 4] ++ zeros 1014)] } } }
       ((s.lane 0).arrived.find? fun b => frSeq b == s.lanes.q) = none ∧ (s.lane 0).missRun = 0 ∧ s.laneInUse 0 = true)
    ∧ (let s := witLane { state := .down, train := .running 15, arrived := [List.replicate 33 0] }
       s.ready = true ∧ (s.lane 0).train = .running 15 ∧ ((s.lane 0).arrived.find? fun b => frSeq b == s.lanes.q) = some (List.replicate 33 0)) := by decide +kernel

def witAck (round : Nat) : List Block := withCrcBlock [BitVec.ofNat 64 (4 + 2 ^ 40 * round), 0, 0]

def witPairLanes (l0 l1 : PairLane) (linkUp : Bool) : State := { witRing 0 with
  pwr := { (witRing 0).pwr with straps := { pairPresent := false, role := false } }
  pair := { lanes := [l0, l1], linkUp := linkUp, peerLanes := 0xFFFF }, now := 10 ^ 12 }

theorem test_wit_LanesTrainAndFail :
    (let s := witLane { state := .active, missRun := 3 }
     s.ready = true ∧ 3 ≤ (s.lane 0).missRun ∧ s.pair.linkUp = false ∧ s.stages.length = 32 ∧ (s.lane 15).state = .unused
      ∧ trainAckOk 0 4 (witAck 1) = true ∧ trainAckOk 0 4 [] = false ∧ bits (blk (witAck 1) 0) 40 8 ≠ (s.lane 0).round)
    ∧ (let s := { witLane { state := .down, blockLock := true } with now := 2000000 }
       s.ready = true ∧ (s.lane 0).train.request = some 0 ∧ (s.lane 0).trainFailRun = false ∧ (s.lane 0).trainAt + 2000000 ≤ s.now
        ∧ ((witLane { state := .down, trainFailRun := true }).lane 0).trainFailRun = true ∧ (witLane { state := .down }).now < (({} : Lane).trainAt) + 2000000)
    ∧ (let s := { witLane { state := .refused } with now := 1000000000 }
       s.ready = true ∧ (s.lane 0).state = .refused ∧ (s.lane 0).trainAt + 1000000000 ≤ s.now)
    ∧ (let s := witLane { state := .down, round := 1, train := .rounds 2 [5] }
       s.ready = true ∧ bits (blk (witAck 1) 0) 40 8 = (s.lane 0).round ∧ bits (blk (witAck 1) 1) 0 32 = (s.lane 0).t1 % 2 ^ 32
        ∧ (s.lane 0).train = .rounds 2 [5] ∧ (s.lane 0).refuseRaised ≠ 1)
    ∧ (let s := witLane { state := .down, round := 1, train := .final }
       mismatch s 0 (bits (blk (witAck 1) 2) 32 3) (bits (blk (witAck 1) 2) 36 3) = none)
    ∧ (let s : State := { witLane { state := .down, round := 1, train := .final } with
        prof := { active := some { image := testImage [(1, zeros 8 ++ [1, 4] ++ zeros 1014)] } } }
       mismatch s 0 (bits (blk (witAck 1) 2) 32 3) (bits (blk (witAck 1) 2) 36 3) = some (0, 0))
    ∧ (let s := witPairLanes { blockLock := true } { blockLock := true } true
       s.ready = true ∧ s.member = true ∧ s.unitB = false ∧ s.pair.linkUp = true ∧ (s.pairLane 0).blockLock = true ∧ (s.pairLane 1).blockLock = true
        ∧ (s.pairLane 0).train.request = some 0 ∧ (s.pairLane 0).refused = false ∧ s.pair.lanes.length = 2
        ∧ (let v : State := { s with lanes := { lane := { state := .active, missRun := 3 } :: List.replicate 15 {} } }
           v.ready = true ∧ v.pair.auth = false ∧ v.pair.peerLanes.getLsbD 0 = true ∧ (v.lane 0).state = .active))
    ∧ (let s := witPairLanes { blockLock := true } { refused := true } false
       s.ready = true ∧ (s.pairLane 1).blockLock = false ∧ (s.pairLane 1).refused = true ∧ (s.pairLane 1).refusedAt + 1000000000 ≤ s.now ∧ (witRing 0).member = false)
    ∧ (let s := witPairLanes {} {} false
       s.ready = true ∧ s.member = true ∧ s.peerHeard = false
        ∧ ({ s with pair := { s.pair with periodAt := some (10 ^ 12) } } : State).peerHeard = true) := by decide +kernel

theorem test_wit_LanesTrainAndFail_rtt :
    rttSpread (List.replicate 15 100 ++ [100]) ≤ 20 ∧ rttLatency (List.replicate 15 100 ++ [100]) ≤ 700
    ∧ 700 < rttLatency (List.replicate 15 1500 ++ [1500]) ∧ 20 < rttSpread (List.replicate 15 100 ++ [121]) := by decide

def witUnit (v : CapUnit) : State := { witRing 12 with
  acq := { units := v :: List.replicate 7 {} } }

theorem test_wit_CapturesTriggerAndComplete :
    (let s := witUnit { state := .armed }
     s.ready = true ∧ (s.unit 0).waits = true ∧ cfTrigType (s.unit 0).cfg = 0 ∧ (s.unit 0).holdoffEnd ≤ s.now ∧ (s.unit 7).waits = false
      ∧ ((drainUnit 0 s).unit 0).trig = none ∧ ((drainUnit 0 s).unit 0).state ≠ .triggered ∧ s.calOver 0 = false ∧ s.domainUp 9 = true)
    ∧ (let s := witUnit { state := .armed, trig := some 5, cfg := zeros 0x15 ++ [1] }
       ((drainUnit 0 s).unit 0).trig = some 5 ∧ ((drainUnit 0 s).unit 0).state = .armed ∧ s.acq.pulseUntil = none)
    ∧ cfTrigOut (zeros 0x15 ++ [1]) = true
    ∧ ((drainUnit 0 (witUnit { state := .triggered, full := true })).unit 0).state = .triggered
    ∧ ((drainUnit 0 (witUnit { state := .triggered, full := true })).unit 0).full = true
    ∧ (let s := witUnit { state := .triggered, trigTime := 10 ^ 12 }
       ((drainUnit 0 s).unit 0).full = false ∧ ((drainUnit 0 s).unit 0).horizon s.capLag < ((drainUnit 0 s).unit 0).lastTime)
    ∧ (witUnit { state := .calibrating }).calOver 0 = true
    ∧ (let s := witUnit { state := .armed, cfg := [0, 0, 0, 7, 0, 2] }
       (s.unit 0).waits = true ∧ cfTrigType (s.unit 0).cfg = 7 ∧ cfSlope (s.unit 0).cfg = 2 ∧ (s.unit 0).holdoffEnd ≤ 0 ∧ cfQualify (s.unit 0).cfg = false)
    ∧ (let s : State := { witRing 12 with pwr := { opState := .operate } }
       s.ready = true ∧ s.domainUp 9 = false) := by decide +kernel

def witCap (mode start : Nat) : List Byte :=
  toLE 1 mode ++ toLE 1 start ++ [1, 7] ++ zeros 0x1C ++ [1] ++ zeros 12 ++ [0xFF] ++ zeros 18 ++ [6] ++ zeros 15

/-- A capture descriptor for unit 0 with a block in its buffer. -/
def witCapDesc (input : Option (List Byte)) : Desc :=
  { ring := 12, opcode := 0x43, cls := 3, tag := 16, kind := 9, body := zeros 16 ++ [0x50], input := input }

theorem test_wit_CaptureDescriptorsAnswer :
    (let s := witUnit {}
     admits captureInfo (witCapDesc none) s = true ∧ admits captureInfo (witCapDesc (some (witCap 0 1))) s = true
      ∧ (s.unit 0).storing = false ∧ 0 < s.acq.units.length
      ∧ (witCap 0 1).take ((witCapDesc none).h 24) = witCap 0 1 ∧ cfMode (witCap 0 1) ≤ 1 ∧ configOk s (witCap 0 1) = true ∧ cfStart (witCap 0 1) = 1
      ∧ configOk s (witCap 0 0) = true ∧ cfStart (witCap 0 0) ≠ 1 ∧ configOk s [] = false
      ∧ cfMode (witCap 2 0) = 2 ∧ configOk s (witCap 2 0) = true ∧ calibrateOk s (witCap 2 0) = true
      ∧ cfMode (witCap 3 0) = 3 ∧ disarmOk (witCap 3 0) = true ∧ cfMode (witCap 4 0) ≠ 3)
    ∧ (let s := witUnit { state := .armed }
       admits captureInfo (witCapDesc (some [])) s = true ∧ (s.unit 0).storing = true)
    ∧ calibrateOk { witUnit {} with paths := [{ state := .deliver }] } (witCap 2 0) = false
    ∧ admits captureInfo (witCapDesc (some (witCap 2 0))) { witUnit {} with paths := [{ state := .deliver }] } = true
    ∧ admits captureInfo (witCapDesc (some (witCap 3 0))) (witUnit { state := .triggered }) = true
    ∧ admits captureInfo (witCapDesc (some (witCap 3 0))) (witUnit { state := .done, cfg := [1] }) = true ∧ cfMode [1] = 1
    ∧ (let d : Desc := { ring := 12, opcode := 0x44, cls := 3, tag := 16, kind := 9, body := zeros 16 ++ [32] }
       admits captureReadInfo d (witUnit {}) = true ∧ ((witUnit {}).unit 0).record = none ∧ (witUnit {}).host.muted = false
        ∧ admits captureReadInfo d (witUnit { record := some (zeros 40) }) = true ∧ d.w 12 < 40
        ∧ admits captureReadInfo { d with body := [0, 0, 0, 0, 40] ++ zeros 11 ++ [32] } (witUnit { record := some (zeros 40) }) = true
        ∧ ({ d with body := [0, 0, 0, 0, 40] ++ zeros 11 ++ [32] } : Desc).w 12 = 40) := by decide +kernel

/-- An operating module with one thermal object of order 1 bound to stage 0, and RTD 0 enabled. -/
def witThermal (o : ThmObj) (body : List Byte) : State := { witRing 0 with
  now := 2000000000
  prof := { active := some { image := testImage [(6, [1] ++ zeros 15 ++ [0xFF, 0x7F, 1] ++ zeros 0xDD ++ body ++ zeros (96 - body.length))] } }
  thm := { objs := [o] } }

/-- The record of an object of order 1, bound to stage 0, with the stop flag and a limit of 0 °C. -/
def witObjRec : List Byte := [0, 1, 2, 0, 2, 1] ++ zeros 18 ++ [0xE8, 3, 0, 0] ++ zeros 12 ++ [100, 0, 0, 0]

theorem test_wit_ThermalModelsAdvance :
    (let s := witThermal { theta := [50] } witObjRec
     s.ready = true ∧ 0 < s.thm.objs.length ∧ (s.obj 0).lastSample < sampleInstant s.now (s.obj 0) ∧ (s.obj 0).above = false ∧ orBindKind (s.objRec 0) = 2
      ∧ bitOf (orFlags (s.objRec 0)) 0 = true ∧ orSensor0 (s.objRec 0) / 0x1000 = 0 ∧ orSensor1 (s.objRec 0) / 0x1000 = 0
      ∧ (s.obj 0).raw = [] ∧ orQtyKind (s.objRec 0) ≠ 3 ∧ orQtyKind (s.objRec 0) ≠ 5 ∧ s.rtdEnabled 0 = true ∧ s.rtdEnabled 1 = false
      ∧ s.pwr.held = false ∧ s.thm.queue = [] ∧ s.member = false ∧ sampleInstant s.now { lastSample := 2000000000 } ≤ 2000000000
      ∧ (s.obj 0).divergeSince = none ∧ 1 < s.thm.rtd.length ∧ s.stages.length = 32 ∧ ((thermalSampleEffect 0 s).obj 0).above = true)
    ∧ (let s : State := { witThermal { divergeSince := some 0 } [] with now := 10000000000 }
       s.ready = true ∧ (s.obj 0).divergeSince = some 0 ∧ (s.obj 0).diverged = false)
    ∧ (let s : State := { witThermal {} [] with pwr := { opState := .operate, straps := { pairPresent := false } } }
       s.ready = true ∧ s.member = true ∧ s.thm.appliedAt < s.now / 10000000 * 10000000)
    ∧ ({} : State).pwr.opState = .boot := by decide +kernel

/-- A module whose loop 0 has flow input 0 and pump channel 0. -/
def witLoop (c : CoolLoop) : State := { witRing 0 with
  now := 6000000000
  prof := { active := some { image := testImage [(6, zeros 0x70 ++ [0, 0, 0xFF, 0xFF, 1, 0, 5, 0] ++ zeros 120)] } }
  thm := { loops := c :: List.replicate 7 {} } }

theorem test_wit_CoolingFlowsAndDieTemperature :
    (let s := witLoop { pumpOn := true, flow := 4, lowSince := some 0 }
     s.ready = true ∧ s.thm.loops.length = 8 ∧ s.thm.pulses.length = 8 ∧ s.member = false ∧ s.loopB 0 0 ≠ 0xFF ∧ bitOf (s.loopB 0 0) 6 = s.unitB
      ∧ (s.loop 0).pumpAt + 5000000000 ≤ s.now ∧ (s.loop 0).lowSince = some 0 ∧ (s.loop 0).flowLow = false ∧ s.loopNeed 0 = false
      ∧ (s.loop 0).neededAt + s.loopH 0 12 * 1000000000 ≤ s.now ∧ (s.loop 0).okSince = none
      ∧ s.loopB 0 1 < 12 ∧ s.loopB 0 1 < s.sw.ch.length)
    ∧ (let s := witLoop { flow := 5, flowLow := true, okSince := some 0 }
       s.ready = true ∧ (s.loop 0).okSince = some 0 ∧ (s.loop 0).flowLow = true ∧ (s.loop 0).lowSince = none)
    ∧ (let s : State := { witThermal { theta := [50] } ([0, 1, 2, 0, 2, 1] ++ zeros 90) with stages := [{ outEn := true }] }
       s.ready = true ∧ s.loopNeed 0 = true)
    ∧ maxInt [1049, 1180] = 1180 ∧ 1180 ≤ maxInt [1049, 1180] ∧ maxInt [999] < 1000 := by decide +kernel

/-- A SWITCH section whose even channels are pumps, the first pair ganged. -/
def witSwSec : List Byte := [1] ++ zeros 15 ++ ((List.replicate 6 ([1, 0, 2, 0, 0, 0, 0, 0] ++ [0, 0, 2, 0, 0, 0, 0, 0])).flatten)

/-- An operating module with that section, in the die too; channel 6 is loop-owned. -/
def witSwitch (w : Switch) : State := { witRing 0 with
  now := 10 ^ 12
  prof := { active := some { image := testImage [(9, witSwSec), (6, zeros 0x71 ++ [6] ++ zeros 398)] } }
  thm := { loops := List.replicate 8 {} }
  sw := { w with cfg := witSwSec } }

theorem test_wit_SwitchCommandsObeyAuthority :
    (let s := witSwitch {}
     s.ready = true ∧ s.domainUp 6 = true ∧ s.sw.ch.length = 12 ∧ s.loopOwned 2 = false ∧ s.swProfile 2 ≠ 0 ∧ s.swFollows 2 = false ∧ s.authority = true
      ∧ s.sw.frozen = false ∧ s.sw.lost = false ∧ s.loopOwned 6 = true ∧ s.swProfile 3 = 0 ∧ (s.swCh 2).enabled = false
      ∧ s.swInGate 2 = false ∧ (s.swCh 2).short = false ∧ (s.swCh 2).latch = false ∧ (s.swCh 2).exhausted = false ∧ s.ganged 0 = true ∧ s.ganged 2 = false
      ∧ s.sw.vauxLow = false ∧ s.sw.beatLost = some 0)
    ∧ (let s := { witSwitch {} with
          prof := { active := some { image := testImage [(9, [1] ++ zeros 15 ++ ((List.replicate 6 ([1, 0, 2, 0, 0, 0, 0, 0] ++ [1, 0, 2, 0, 0, 0, 0, 0])).flatten))] } } }
       s.ready = true ∧ s.domainUp 6 = true ∧ s.loopOwned 1 = false ∧ s.swProfile 1 ≠ 0 ∧ s.swFollows 1 = true)
    ∧ ((witSwitch { frozen := true }).ready = true ∧ (witSwitch { frozen := true }).sw.frozen = true)
    ∧ ((1 : Word).getLsbD 0 = true ∧ (1 : Word).getLsbD 1 = false ∧ (1 : Word).getLsbD 2 = false ∧ (2 : Word).getLsbD 1 = true
      ∧ (4 : Word).getLsbD 2 = true ∧ (4 : Word).getLsbD 0 = false ∧ (4 : Word).getLsbD 1 = false ∧ (7 : Word).getLsbD 2 = true)
    ∧ (let s := witSwitch { lost := true }
       s.ready = true ∧ s.sw.lost = true ∧ s.sw.vauxLow = false ∧ s.sw.vauxOkAt + 100000000 ≤ s.now ∧ s.authority = true ∧ s.sw.frozen = false ∧ s.sw.ch.length = 12)
    ∧ (let s := witSwitch { ch := [{}, {}, { latch := true, enabled := true }] ++ List.replicate 9 {} }
       s.authority = true ∧ (s.swCh 2).latch = true ∧ (s.swCh 2).enabled = true ∧ (s.swCh 2).short = false ∧ s.swInGate 2 = false)
    ∧ (let s := witSwitch { vauxLow := true }
       s.ready = true ∧ s.sw.vauxLow = true)
    ∧ ({ sw := { lost := true } } : State).ready = false := by decide +kernel

def witCh (n : Nat) (c : SwCh) : Switch := { ch := List.replicate n {} ++ [c] ++ List.replicate (11 - n) {} }

theorem test_wit_SwitchProtectionActsByItself :
    (let s := witSwitch (witCh 2 { enabled := true })
     s.ready = true ∧ s.sw.ch.length = 12 ∧ s.swFollows 2 = false ∧ (s.swCh 2).swIn = false ∧ s.swInGate 2 = false ∧ s.conducts 2 = true
      ∧ (s.swCh 2).inrush = false ∧ (s.swCh (s.swLead 2)).retries < s.swRetryMax (s.swLead 2) ∧ s.conducts 3 = false ∧ (s.swCh (s.swLead 2)).latch = false
      ∧ (s.swCh (s.swLead 2)).retrying = false ∧ s.swLimitMa 2 ≤ 6000 ∧ s.swShortNs 2 ≤ 100000 ∧ (s.swCh 2).closedAt + s.swShortNs 2 ≤ s.now
      ∧ s.swTripMa 2 < 20001 ∧ (s.swCh 2).conductAt + 10000000000 ≤ s.now ∧ s.samplesCount 2 = true ∧ s.samplesCount 3 = false
      ∧ s.sw.lost = false ∧ s.sw.vauxLow = false ∧ 0 < s.swOpenUa 2 ∧ (s.swCh 2).closedAt + s.swOpenNs 2 ≤ s.now ∧ (s.swCh 2).openLoad = false
      ∧ s.ganged 0 = true ∧ s.swFollows 1 = true)
    ∧ (let s := witSwitch (witCh 2 { enabled := true, retries := 1, retrying := true, swIn := true })
       s.conducts 2 = true ∧ s.swRetryMax (s.swLead 2) ≤ (s.swCh (s.swLead 2)).retries + b2n (s.swCh (s.swLead 2)).retrying
        ∧ s.swFollows 2 = false ∧ (s.swCh 2).swIn = true)
    ∧ (let s := witSwitch (witCh 2 { enabled := true, inrush := true, short := true })
       (s.swCh 2).inrush = true ∧ s.sw.vauxLow = false ∧ (s.swCh 2).windowAt + s.swInrushNs 2 ≤ s.now ∧ (s.swCh 2).short = true ∧ (s.swCh 2).latch = false
        ∧ s.sw.lost = false ∧ s.swFollows 2 = false ∧ (s.swCh 2).enabled = true ∧ (s.swCh 2).exhausted = false ∧ s.swInGate 2 = false
        ∧ (s.swCh 2).retryFrom + s.swRetryNs 2 ≤ s.now)
    ∧ (let s := witSwitch (witCh 2 { enabled := true, openLoad := true })
       s.samplesCount 2 = true ∧ (s.swCh 2).openLoad = true ∧ (s.swCh 2).openAt + s.swOpenNs 2 ≤ s.now)
    ∧ (witSwitch (witCh 2 { latch := true })).sw.ch.length = 12
    ∧ (let s := witSwitch (witCh 6 { enabled := true })
       s.conducts 6 = true ∧ s.hasSec 6 = true ∧ s.loopB 0 1 = 6 ∧ 0 < s.thm.loops.length)
    ∧ (let s : State := let b := zeros 32 ++ [1, 1] ++ zeros 78
                        { witSwitch (witCh 2 { enabled := true, fresh := true }) with sw := { witCh 2 { enabled := true, fresh := true } with cfg := b } }
       s.swInGate 2 = true ∧ (s.swCh 2).fresh = true ∧ (s.swCh 2).enabled = true ∧ (s.swCh 2).short = false ∧ (s.swCh 2).latch = false
        ∧ (s.swCh 2).exhausted = false ∧ s.swFollows 2 = false ∧ (s.swCh 2).swIn = false ∧ s.sw.lost = false) := by decide +kernel

def witMet (m : Met) : State := { witRing 8 with
  now := 10 ^ 15
  met := m }

theorem test_wit_CaddisMetersAndKeepsItsRegisters :
    (let s := witMet { ready := true, ch := { isOpen := true, sensorSet := 1 } :: List.replicate 7 {} }
     s.ready = true ∧ s.met.powered = true ∧ s.met.ready = true ∧ s.met.ch.length = 8 ∧ (s.chan 0).isOpen = true ∧ s.met.sealIntact ≠ false
      ∧ s.met.tamperIntact ≠ false ∧ generalCount s < 8184 ∧ (0 : Rat) ≤ (s.chan 0).regs.deliveredRes ∧ s.met.startedAt + 120000000000 ≤ s.now
      ∧ s.met.commitAt + 10000000 ≤ s.now ∧ testDue s 0 0 = true ∧ testDue s 5 0 = true ∧ testDue s 6 0 = true ∧ testDue s 6 1 = false)
    ∧ ((witMet {}).met.ready = false ∧ (witMet {}).awake = true ∧ (bitOf 1 0 && !(bitOf 1 0 && false)) = true ∧ bitOf 2 1 = true)
    ∧ (let s := { witMet { ready := true } with now := 0 }
       s.met.ready = true ∧ s.now < s.met.commitAt + 10000000)
    ∧ ({ met := { ready := true } } : State).ready = false
    ∧ (witMet { powered := false }).met.powered = false ∧ bitOf (witMet { failed := 4 }).met.failed 2 = true := by decide +kernel

theorem witFullLog : 8184 ≤ generalCount (witMet { log := List.replicate 8184 (0, []) }) := by
  have h : generalCount (witMet { log := List.replicate 8184 (0, []) }) = 8184 := by
    simp only [generalCount, witMet, List.filter_replicate]
    rw [if_pos (by decide), List.length_replicate]
  exact Nat.le_of_eq h.symm

def witMeterDesc (op : Nat) (args : List Byte) : Desc :=
  { ring := 8, opcode := 0x30, kind := 1, cls := 2, tag := 16, body := toLE 1 op ++ zeros 7 ++ zeros 8 ++ toLE 2 4096 ++ zeros 6 ++ padTo 16 args ++ zeros 8 }

/-- Caddis ready, its seal open, on an operating module whose outlet 0 is PORT_ONLY. -/
def witMeter (open1 : Bool) (p : Nat) : State := { witRing 8 with
  prof := { active := some { image := testImage [(2, [BitVec.ofNat 8 p] ++ zeros 255)] } }
  met := { ready := true, sealIntact := false, log := [(3, zeros 32)]
           ch := { isOpen := open1, sensorSet := 1, records := [{ txn := 0, kind := 2 }] } :: List.replicate 7 {} } }

theorem test_wit_MeterRequestsAnswer :
    (let s := witMeter false 4
     s.host.muted = false ∧ s.member = false ∧ admits (meterInfo 1 true false [(32, 16)] fun _ _ => 256) (witMeterDesc 1 []) s = true ∧ s.met.ready = true ∧ s.personality 0 = 4
      ∧ s.chanError 0 = false ∧ (s.chan 0).sensorSet ≠ 0 ∧ 0 < s.met.ch.length ∧ (s.chan 0).isOpen = false
      ∧ admits (meterInfo 2 true false [(32, 1)] fun _ _ => 256) (witMeterDesc 2 []) s = true
      ∧ admits (meterInfo 0x10 false false [] fun _ _ => 256) (witMeterDesc 0x10 []) s = true
      ∧ admits (meterInfo 0x11 false false [(32, 5)] fun _ _ => 256) (witMeterDesc 0x11 [0, 0, 0, 0, 2]) s = true
      ∧ admits (meterInfo 0x11 false false [(32, 5)] fun _ _ => 256) (witMeterDesc 0x11 [0, 0, 0, 0, 3]) s = true
      ∧ (∃ r ∈ (s.chan 0).records, r.txn = (witMeterDesc 0x11 [0, 0, 0, 0, 2]).w 32 ∧ r.kind = (witMeterDesc 0x11 [0, 0, 0, 0, 2]).b 36)
      ∧ (∀ r ∈ (s.chan 0).records, r.txn ≠ (witMeterDesc 0x11 [0, 0, 0, 0, 1]).w 32 ∨ r.kind ≠ (witMeterDesc 0x11 [0, 0, 0, 0, 1]).b 36)
      ∧ admits (meterInfo 0x12 false false [(32, 6)] fun s d => 80 + 32 * (logFrom s (d.w 32) (d.h 36)).length) (witMeterDesc 0x12 [3, 0, 0, 0, 5]) s = true
      ∧ logFrom s 3 5 ≠ [] ∧ logFrom s 4 5 = []
      ∧ admits (meterInfo 0x12 false false [(32, 6)] fun s d => 80 + 32 * (logFrom s (d.w 32) (d.h 36)).length) (witMeterDesc 0x12 [4, 0, 0, 0, 5]) s = true
      ∧ admits (meterInfo 0x12 false false [(32, 6)] fun s d => 80 + 32 * (logFrom s (d.w 32) (d.h 36)).length) (witMeterDesc 0x12 [3, 0, 0, 0, 0]) s = true
      ∧ admits (meterInfo 0x21 false true [] fun _ _ => 8) (witMeterDesc 0x21 []) s = true
      ∧ admits setParameterInfo (witMeterDesc 0x20 ([2] ++ zeros 7 ++ toLE 8 5000)) s = true
      ∧ paramRange ((witMeterDesc 0x20 ([2] ++ zeros 7 ++ toLE 8 5000)).h 32) (signed 64 ((witMeterDesc 0x20 ([2] ++ zeros 7 ++ toLE 8 5000)).q 40)) = true
      ∧ paramRange 2 10 = false ∧ generalCount s < 8184 ∧ s.met.sealIntact = false ∧ (∀ x ∈ s.met.log, x.1 ≠ generalCount s))
    ∧ (let s := witMeter true 0
       admits (meterInfo 1 true false [(32, 16)] fun _ _ => 256) (witMeterDesc 1 []) s = true ∧ s.personality 0 = 0 ∧ (s.chan 0).isOpen = true)
    ∧ (let s := witMeter true 1
       admits (meterInfo 1 true false [(32, 16)] fun _ _ => 256) (witMeterDesc 1 []) s = true ∧ s.personality 0 ≠ 0 ∧ s.personality 0 ≠ 4)
    ∧ (let s : State := { witMeter true 4 with met := { ready := true, ch := { modFail := true } :: List.replicate 7 {} } }
       s.personality 0 = 4 ∧ s.chanError 0 = true ∧ admits (meterInfo 1 true false [(32, 16)] fun _ _ => 256) (witMeterDesc 1 []) s = true
        ∧ s.met.sealIntact = true)
    ∧ (let s := witRing 8
       admits (meterInfo 0x21 false true [] fun _ _ => 8) (witMeterDesc 0x21 []) s = true ∧ s.met.ready = false ∧ s.caddisBusy = false)
    ∧ (let s : State := { witRing 8 with met := { installing := true } }
       admits (meterInfo 0x21 false true [] fun _ _ => 8) (witMeterDesc 0x21 []) s = true ∧ s.met.ready = false ∧ s.caddisBusy = true
        ∧ s.host.mailbox.length < 16) := by decide +kernel

/-- IDENTIFY passes its checks: a reply with a certificate of at most 1024 bytes fits the buffer. -/
theorem test_wit_identify :
    admits (meterInfo 0x13 false true [] fun s _ => (identifyReply s).length) (witMeterDesc 0x13 []) (witMeter false 4) = true := by
  have e : ∀ s : State, s.met.firmware = none → ((identifyReply s).length ≤ 4096) = ((0 : Nat) ≤ 4096) := by
    intro s h
    have l : (identifyReply s).length = 112 + Config.caddisCertLen.val := by simp [identifyReply, optionBytes, toLE, zeros, caddisKey, State.metFwDigest, h]; omega
    have := Config.caddisCertLen.isLt
    simp only [l, eq_iff_iff]; omega
  have h : (paid (witMeterDesc 0x13 []) (witMeter false 4)).met.firmware = none := by decide +kernel
  have r : admits (meterInfo 0x13 false true [] fun _ _ => 0) (witMeterDesc 0x13 []) (witMeter false 4) = true := by decide +kernel
  have b : (witMeterDesc 0x13 []).h 24 = 4096 := by decide +kernel
  simp only [admits, passesChecks, bodyChecks, meterInfo, b, e _ h] at r ⊢
  exact r

/-- An operating module whose outlets 0 to 2 are CCS, MCS and CHADEMO outlets, all with the vehicle-link state `v`. -/
def witVeh (v : Veh) (p : Path) : State := { witRing 4 with
  prof := { active := some { image := testImage [(2, [1] ++ zeros 31 ++ [2] ++ zeros 31 ++ [3] ++ zeros 191)] } }
  veh := List.replicate 8 v, paths := List.replicate 8 p, now := 300000000000 }

theorem test_wit_VehicleHappeningsMoveTheSession :
    (let s := witVeh { tcpOpen := true, t1sUp := true, ses := { state := .preparing, ready := true, noStage := true } } {}
     s.ready = true ∧ s.veh.length = 8 ∧ s.paths.length = 8 ∧ s.engineOn 0 [1, 2] = true ∧ s.engineOn 1 [1, 2] = true ∧ s.engineOn 0 [1] = true
      ∧ s.engineOn 1 [2] = true ∧ s.engineOn 2 [3] = true ∧ s.engineOn 3 [1, 2, 3] = false ∧ s.engineOn 0 [1, 2, 3] = true ∧ (s.ses 0).state ≠ .ended
      ∧ s.engineHere = true ∧ (s.ses 0).state.alive = true ∧ s.leaseHere = true ∧ (s.vehOf 0).t1sUp = true ∧ (s.vehOf 0).ppClass ≠ 2 ∧ s.domainUp 11 = true
      ∧ (s.vehOf 1).t1sAt + 2000000000 ≤ s.now ∧ max (s.vehOf 2).canAt (s.ses 2).pluggedAt + 1000000000 ≤ s.now ∧ (s.vehOf 2).canTxAt + 100000000 ≤ s.now
      ∧ (s.ses 0).noStage = true ∧ (s.ses 0).noStageAt + 5000000000 ≤ s.now ∧ (s.path 0).state = .idle ∧ (s.ses 0).isolating = false ∧ s.portSource 0 = false
      ∧ (s.ses 0).starvedSince = none ∧ s.personality 0 ≠ 2 ∧ (s.path 0).closed = false ∧ (s.ses 0).state ≠ .plugged ∧ (s.ses 0).energyLimitWh = 0)
    ∧ (let s := witVeh { tcpOpen := true, t1sUp := true, ses := { state := .preparing, ready := true, noStage := true } } {}
       (s.ses 0).pilotF = false ∧ pilotClass ((s.ses 0).duty && s.personality 0 == 1) 14000 0 = 6
      ∧ pilotClass ((s.ses 0).duty && s.personality 0 == 1) 12000 0 = 0 ∧ pilotClass ((s.ses 0).duty && s.personality 0 == 1) 9000 0 = 1) := by decide +kernel

theorem test_wit_VehicleHappenings_more :
    (let s := witVeh { ses := { state := .plugged, ready := true }, ppClass := 0 } { closed := true, state := .deliver }
     s.engineOn 0 [1] = true ∧ (s.ses 0).state = .plugged ∧ (s.path 1).closed = true ∧ (s.path 0).state.started = true ∧ (s.vehOf 1).ppClass ≠ 2
        ∧ (s.vehOf 1).ppBadAt + 10000000 ≤ s.now ∧ (s.ses 0).pluggedAt + 50000000000 ≤ s.now)
    ∧ (let s := witVeh { ses := { state := .authorizing, starvedSince := some 0 } } {}
       s.engineOn 0 [1, 2, 3] = true ∧ (s.ses 0).state = .authorizing ∧ (s.ses 0).startWaits = none ∧ (s.ses 0).authAt + 55000000000 ≤ s.now
        ∧ (s.ses 0).starvedSince = some 0 ∧ 0 + 300000000000 ≤ s.now)
    ∧ (let s := witVeh { ses := { state := .ended, starvedSince := some 1 } } {}
       s.engineOn 2 [3] = true ∧ (s.ses 2).state = .ended ∧ (s.ses 2).sig1At + 2000000000 ≤ s.now ∧ s.now < 1 + 300000000000 ∧ (s.ses 2).state.alive = false)
    ∧ (let s := witVeh { ses := { state := .preparing, ready := true } } {}
       s.engineOn 2 [3] = true ∧ s.engineHere = true ∧ (s.ses 2).state = .preparing ∧ (s.ses 2).ready = true ∧ (s.ses 2).noStage = false)
    ∧ (let s : State := { witVeh { ses := { state := .charging, energyLimitWh := 1 } } {} with
        met := { ch := List.replicate 8 { isOpen := true }, shown := [(0x691C, 1000)] } }
       s.engineOn 0 [1, 2, 3] = true ∧ (s.ses 0).energyLimitWh ≠ 0 ∧ (s.ses 0).state = .charging ∧ (s.chan 0).isOpen = true
        ∧ (s.ses 0).energyLimitWh * 1000 ≤ s.windowEnergy 0)
    ∧ (let s := witVeh {} {}
       s.engineOn 2 [3] = true ∧ (s.ses 2).state = .idle)
    ∧ (let s : State := { witVeh {} {} with pwr := { opState := .operate, powerState := .run, locked := 0x7FF } }
       s.engineOn 1 [2] = true ∧ s.domainUp 11 = false) := by decide +kernel

theorem test_wit_VehicleMessagesDriveTheSession :
    (let s := witVeh { tcpOpen := true, ses := { state := .linked } } {}
     s.engineOn 0 [1, 2] = true ∧ s.engineHere = true ∧ (s.vehOf 0).tcpOpen = true ∧ (s.ses 0).state = .linked
      ∧ protocolOk (s.personality 0) 2 0 false s.contractAnchor = true ∧ protocolOk (s.personality 0) 4 0 false s.contractAnchor = false)
    ∧ (let s := witVeh { tcpOpen := true, ses := { state := .preparing, checked := true } } {}
       s.engineOn 0 [1, 2] = true ∧ (s.ses 0).checked = true ∧ (s.ses 0).precharging = false ∧ s.personality 1 = 2 ∧ (s.vehOf 1).ppClass ≠ 2
        ∧ s.engineOn 1 [1, 2] = true ∧ (s.ses 1).isolating = false)
    ∧ (let s := witVeh { tcpOpen := true, permission := true, ses := { state := .preparing, precharging := true, isolating := true, checked := true, sig2 := true } } {}
       s.engineOn 0 [1, 2] = true ∧ s.engineOn 2 [3] = true ∧ (s.ses 2).precharging = true ∧ (s.ses 2).delivering = false ∧ (s.ses 2).sig2 = true)
    ∧ (let s := witVeh { tcpOpen := true, ses := { state := .charging, protocol := 3 } } {}
       s.engineOn 0 [1, 2] = true ∧ (s.ses 0).issuedAt + 25000000 ≤ s.now ∧ s.leaseVoid = false ∧ max 1000 (s.ses 0).issuedI < 100 * natDist 20 (s.ses 0).issuedI
        ∧ s.portSource 0 = false ∧ (s.ses 0).standby = false ∧ 3 ≤ (s.ses 0).protocol)
    ∧ (witVeh { tcpOpen := true, ses := { state := .charging, standby := true } } {}).engineOn 0 [1, 2] = true
    ∧ (let s := witVeh { ses := { state := .plugged } } {}
       s.engineOn 2 [3] = true ∧ s.engineHere = true ∧ (s.ses 2).state = .plugged ∧ s.leaseHere = true ∧ startRefusal s 2 ≠ 0 ∧ (s.vehOf 2).tcpOpen = false
        ∧ s.caddisBusy = false ∧ ({ s with met := { installing := true } } : State).caddisBusy = true)
    ∧ (let s : State := { witVeh { ses := { state := .plugged } } {} with met := { ready := true, ch := List.replicate 8 { sensorSet := 1 } } }
       s.engineOn 2 [3] = true ∧ startRefusal s 2 = 0 ∧ s.caddisBusy = false ∧ 2 < s.met.ch.length) := by decide +kernel

theorem test_wit_SessionsStartAreAuthorizedAndEnd :
    (let s := witVeh { pilot := 1, ppClass := 2, ses := { authorized := true } } {}
     s.mayStart 0 = true ∧ s.personality 0 = 1 ∧ s.personality 1 = 2 ∧ s.personality 2 = 3 ∧ (s.path 0).lastAnswer = none ∧ 2 < s.veh.length ∧ 2 < s.paths.length
      ∧ (s.vehOf 0).pilot = 1 ∧ (s.vehOf 1).ppClass = 2 ∧ (s.ses 2).authorized = true)
    ∧ (let s := witVeh { pilot := 1, ppClass := 2, ses := { state := .ending, closed := true } } {}
       (s.ses 0).closed = true ∧ s.leaseHere = true ∧ s.leaseVoid = false ∧ s.met.ready = false ∧ ({ s with met := { ready := true } } : State).met.ready = true)
    ∧ (let s := witVeh { pilot := 3, ses := { state := .charging } } { state := .deliver, closed := true }
       s.personality 1 = 2 ∧ (s.vehOf 1).ppClass = 0 ∧ (s.path 1).closed = true ∧ (s.path 1).state.started = true ∧ (s.ses 1).state.alive = true)
    ∧ (let s := witVeh { ses := { state := .ended } } {}
       (s.ses 0).state = .ended ∧ (s.vehOf 0).pilot = 0 ∧ (s.vehOf 1).ppClass = 0)
    ∧ (let s : State := { witVeh { ses := { state := .ending, closed := true } } {} with pwr := { opState := .operate, straps := { pairPresent := false } } }
       s.leaseVoid = true)
    ∧ (let d : Desc := { ring := 4, opcode := 0x20, kind := 1, cls := 1, tag := 16, body := [1] }
       let s := witVeh { ses := { state := .authorizing } } {}
       admits (sessionInfo 0x20 [(8, 1), (10, 22)]) d s = true ∧ d.ix < s.veh.length ∧ d.ix < s.alloc.outlets.length ∧ (s.ses d.ix).state = .authorizing
        ∧ d.b 8 = 1 ∧ s.leaseHere = true ∧ startRefusal s d.ix ≠ 0 ∧ s.personality 0 = 1 ∧ s.caddisBusy = false
        ∧ (let r : State := { s with met := { ready := true, ch := List.replicate 8 { sensorSet := 1 } } }
           startRefusal r 0 = 0 ∧ r.caddisBusy = false ∧ admits (sessionInfo 0x20 [(8, 1), (10, 22)]) d r = true)
        ∧ (let r : State := { s with met := { installing := true } }
           r.caddisBusy = true ∧ admits (sessionInfo 0x20 [(8, 1), (10, 22)]) d r = true))
    ∧ (let d : Desc := { ring := 4, opcode := 0x20, kind := 1, index := 2, cls := 1, tag := 16, body := [1] }
       let s := witVeh {} {}
       admits (sessionInfo 0x20 [(8, 1), (10, 22)]) d s = true ∧ (s.ses d.ix).state = .idle ∧ s.personality d.ix = 3)
    ∧ (let d : Desc := { ring := 4, opcode := 0x20, kind := 1, index := 2, cls := 1, tag := 16 }
       admits (sessionInfo 0x20 [(8, 1), (10, 22)]) d (witVeh {} {}) = true ∧ d.b 8 = 0
        ∧ admits (sessionInfo 0x20 [(8, 1), (10, 22)]) d (witVeh { ses := { state := .authorizing } } {}) = true)
    ∧ (let d : Desc := { ring := 4, opcode := 0x21, kind := 1, cls := 1, tag := 16 }
       admits (sessionInfo 0x21 [(8, 1)]) d (witVeh {} {}) = true ∧ ((witVeh {} {}).ses d.ix).state = .idle
        ∧ admits (sessionInfo 0x21 [(8, 1)]) d (witVeh { ses := { state := .charging } } {}) = true) := by decide +kernel

/-- An operating module whose CAN controller 0 has the state `c` and a record that starts with `r`. -/
def witCan (c : CanCtl) (r : List Byte) : State := { witRing 4 with
  now := 10 ^ 12
  prof := { active := some { image := testImage [(0x0A, padTo 512 r ++ zeros 3584)] } }
  can := c :: List.replicate 7 {} }

theorem test_wit_CanFramesAreStoredDeliveredAndSent :
    (let s := witCan { running := true } [1]
     s.ready = true ∧ s.can.length = 8 ∧ (s.ctlr 0).running = true ∧ s.domainUp 11 = true ∧ (s.ctlr 1).running = false ∧ s.canReads 0 0 = true
      ∧ s.canReads 0 1 = false ∧ (s.ctlr 0).busOff = false ∧ (s.ctlr 0).mode ≠ .detecting ∧ frameFate (s.canRec 0) {} = .reject
      ∧ (s.ctlr 0).fifo.length < 64 ∧ (s.ctlr 0).onWire = none ∧ s.canOwner 0 = none ∧ (s.ctlr 0).rx.enable = false)
    ∧ (let s := witCan { running := true, prio := some {}, fifo := [{}], rx := { enable := true }, onWire := some 0, tx := [some {}, none, none] }
        (zeros 0x58 ++ zeros 8 ++ [1])
       frameFate (s.canRec 0) {} = .prio ∧ (s.ctlr 0).prio ≠ none ∧ (s.ctlr 0).rx.enable = true ∧ (s.ctlr 0).prio = some {} ∧ (s.ctlr 0).leaving = 0
        ∧ nth (s.ctlr 0).tx 0 = some {} ∧ 0 < (s.ctlr 0).tx.length ∧ s.ready = true ∧ s.domainUp 6 = true)
    ∧ (let s := witCan { running := true, fifo := List.replicate 64 {} } (zeros 0x1E4 ++ [1])
       frameFate (s.canRec 0) {} = .accept 0 ∧ 64 ≤ (s.ctlr 0).fifo.length ∧ (s.ctlr 0).dropping = false)
    ∧ (let s := witCan { running := true, mode := .detecting, good := 2 } [1]
       s.canReads 0 0 = true ∧ (s.ctlr 0).mode = .detecting ∧ (s.ctlr 0).accepted = false ∧ (s.ctlr 0).good = 2)
    ∧ (let s : State := { witCan { running := true } [] with
        prof := { active := some { image := testImage [(2, [3] ++ zeros 255)] } } }
       s.ready = true ∧ s.canOwner 0 ≠ none ∧ (s.ctlr 0).mode = .normal)
    ∧ (let d : Desc := { ring := 4, opcode := 0x24, kind := 4, cls := 1, tag := 16, input := some [] }
       let s := witCan { running := true } [1, 16]
       admits canSendInfo d s = true ∧ (s.ctlr 0).mode ≠ .detecting ∧ (s.ctlr 0).leaving ≠ 5 ∧ nth (s.ctlr 0).tx 0 = none ∧ d.input = some []
        ∧ admits canSendInfo { d with input := none } s = true
        ∧ admits canSendInfo d (witCan { running := true, mode := .detecting } [1]) = true
        ∧ admits canSendInfo d (witCan { running := true, leaving := 5 } [1]) = true
        ∧ admits canSendInfo d (witCan { running := true, busOff := true } [1, 16]) = true ∧ (witCan {} [1, 16]).canFeature 0 4 = true
        ∧ admits canSendInfo d (witCan { running := true, tx := [some {}, some {}, some {}] } [1]) = true) := by decide +kernel

theorem test_wit_CanErrorsConfineAndDetectionFindsTheRate :
    (let s := witCan { running := true, tec := 250 } [1]
     s.ready = true ∧ s.can.length = 8 ∧ (s.ctlr 0).running = true ∧ s.domainUp 11 = true ∧ s.domainUp 6 = true ∧ (s.ctlr 0).busOff = false
      ∧ (s.ctlr 0).mode = .normal ∧ (s.ctlr 0).leaving = 0 ∧ s.canFeature 0 6 = false ∧ (s.ctlr 1).running = false ∧ 255 < (s.ctlr 0).tec + 8
      ∧ s.leaseHere = true ∧ unverifiedData 0 (.error true 4 true false false) s = false)
    ∧ (let s := witCan { running := true, busOff := true, recovering := true } [1]
       (s.ctlr 0).recovering = true ∧ (s.ctlr 0).recoverAt + s.canBitsNs 0 1408 ≤ s.now)
    ∧ (witCan {} [1]).canFeature 0 3 = false ∧ (witCan {} [1, 0x48]).canFeature 0 6 = true ∧ (witCan {} [1, 0x48]).canFeature 0 3 = true
    ∧ unverifiedData 0 (.error true 4 true false false) (witCan { running := true } [1, 64]) = true
    ∧ (let s := witCan { running := true, mode := .detecting } [1, 64, 1]
       (s.ctlr 0).mode = .detecting ∧ (s.ctlr 0).accepted = false ∧ (s.ctlr 0).candAt + 1000000 * detectWindowMs s 0 ≤ s.now
        ∧ s.candCount 0 ≤ (s.ctlr 0).candidate + 1)
    ∧ ((witCan { running := true, mode := .detecting, accepted := true } [1, 64, 1]).ctlr 0).accepted = true
    ∧ (let s := witCan { running := true, mode := .restricted } [1]
       s.ready = true ∧ (s.ctlr 0).mode = .restricted ∧ (s.ctlr 0).tec ≤ 255 ∧ s.leaseHere = true ∧ (s.ctlr 0).quietAt + s.canBitsNs 0 11 ≤ s.now)
    ∧ ((1 : Word).getLsbD 0 = true ∧ (1 : Word).getLsbD 1 = false ∧ (2 : Word).getLsbD 0 = false ∧ (2 : Word).getLsbD 1 = true) := by decide +kernel

/-- An operating module whose network is on with the FLAGS byte `fl`, its site key in slot 0. -/
def witPlc (fl : Byte) (p : Plc) : State := { witRing 4 with
  prof := { active := some { image := testImage [(0x0B, [1, fl, 0, 0] ++ zeros 28)] } }
  key := { slots := { state := .ready } :: List.replicate 63 {} }, plc := p, now := 1000000000 }

/-- A single-block frame of node 5, with its plaintext sealed under an empty key. -/
def witFrame (ty dst final : Nat) (d : List Byte) : PlcFrame :=
  let fc := FrameControl.bytes { type := ty, dst := dst, final := final, src := 5, orig := 5, msgBlocks := 1, blockMap := 1 }
  let c := FrameControl.ofBytes fc
  { fc := fc, blocks := [(0, some (sealPayload [] ty c.orig c.nid 7 d))], auth := some (7, d) }

theorem test_wit_MainsCrossingsAndBeaconsKeepTime :
    (let s := witPlc 3 { role := 2, addr := 2, lock := true, relays := [2, 0, 0], cycleStart := 990000000, zc := [980000000, 960000000], zcFault := true, zcRun := 15 }
     s.ready = true ∧ s.beaconOn = true ∧ s.isFrozen 0x21 = false ∧ s.relaysSlot 1 = true ∧ s.relaysSlot 0 = false ∧ fcAccepted s (witFrame 1 255 255 []).fc = true
      ∧ (FrameControl.ofBytes (witFrame 1 255 255 []).fc).type = 1 ∧ fcAccepted s [] = false ∧ s.plc.cycle = BitVec.ofNat 32 (u32 [] 4) ∧ s.plc.depth ≤ u8 [] 1
      ∧ s.now < 980000000 + 50000000)
    ∧ (let s := witPlc 1 { role := 1, zc := [0] }
       s.beaconOn = true ∧ s.plc.lock = false ∧ s.plc.role ≠ 3 ∧ s.plc.heardAt + 2 * s.mainsNs * (4 + (s.coordRank + 1) * 2) ≤ s.now
        ∧ 0 + 50000000 ≤ s.now ∧ s.plcFlag 0 = true)
    ∧ (let s := witPlc 1 { role := 2, lock := true }
       s.beaconOn = true ∧ s.plc.heardAt + 8 * s.mainsNs ≤ s.now)
    ∧ (let s := witPlc 1 { role := 3, addr := 9 }
       s.beaconOn = true ∧ s.beaconDue = true ∧ u8 [8] 0 ≠ s.plc.addr ∧ 0 = s.coordRank ∧ u8 [8] 0 < s.plc.addr ∧ fcAccepted s (witFrame 1 255 255 [8]).fc = true)
    ∧ (let s : State := { witPlc 1 { role := 1 } with flt := { frozen := BitVec.ofNat 36 (2 ^ 0x21) } }
       s.beaconOn = true ∧ s.isFrozen 0x21 = true)
    ∧ (witPlc 1 {}).beaconOn = false := by decide +kernel

theorem test_wit_BeaconVerifies (d : List Byte) : BeaconVerifies (witFrame 1 255 255 d) 7 d (witPlc 1 { role := 3, addr := 9 }) := by
  have k : plcKey (witPlc 1 { role := 3, addr := 9 }) 1 = [] := by decide +kernel
  have ht : (witPlc 1 { role := 3, addr := 9 }).plc.times = [] := rfl
  exact ⟨rfl, ⟨0, by rw [k]; rfl⟩, by rw [ht]; simp⟩

def witMsg (b : List PlcBlock) : PlcMsg := { num := 7, final := 5, own := true, bytes := zeros 100, blocks := b }

theorem test_wit_PlcMessagesAreSentAndAcknowledged :
    (let s := witPlc 1 { role := 2, addr := 2, lock := true, cycleStart := 994000000, msgs := [witMsg [.pending]], known := [{ addr := 5, direct := true }], await := none }
     s.plcRuns = true ∧ s.plcSynced = true ∧ s.mayContend 3 = true ∧ s.maySend = true ∧ s.plc.addr ≠ 0 ∧ (nextMsg s s.regionNow.1).isSome = true
      ∧ s.plc.routeAt + 32 * s.mainsNs ≤ s.now ∧ s.mayContend 100 = false
      ∧ (s.plcNode 5).direct = true ∧ (s.plcNode 5).lastHeard + s.assocHoldS * 1000000000 ≤ s.now
      ∧ (s.plc.msgs.filter fun m => m.own && m.prio == 0).length < 16) ∧ (witPlc 1 {}).plcRuns = false := by decide +kernel

theorem test_wit_PlcBroadcast :
    (let s := witPlc 1 { role := 2, addr := 2, lock := true, cycleStart := 994000000, msgs := [{ final := 255, robust := true, bytes := zeros 100, blocks := [.pending] }] }
     nextMsg s s.regionNow.1 = some ({ final := 255, robust := true, bytes := zeros 100, blocks := [.pending] }, [0], false) ∧ s.mayContend 0 = true
        ∧ 0 < fitBlocks (robustBits s) (s.regionNow.2 - 56800 * 2) true 1 ∧ (takeHop 255 s.regionNow.1 s) = s
        ∧ fitBlocks (robustBits s) (s.regionNow.2 - 56800 * 10000) true 1 = 0) := by decide +kernel

theorem test_wit_PlcMessagesAreAcknowledged :
    (let s := witPlc 1 { role := 2, addr := 2, lock := true, msgs := [witMsg [.pending]], await := some { num := 7, dst := 5, map := 1 } }
     let fc := FrameControl.bytes { type := 3, src := 5, dst := 2 }
     let fb := FrameControl.bytes { type := 3, src := 5, dst := 2, blockMap := 1 }
     s.plcRuns = true ∧ s.plc.await = some { num := 7, dst := 5, map := 1 } ∧ (s.plc.msgs.find? fun x => x.num == 7) = some (witMsg [.pending])
        ∧ fcAccepted s fc = true ∧ (FrameControl.ofBytes fc).type = 3 ∧ (FrameControl.ofBytes fc).src = 5 ∧ (FrameControl.ofBytes fc).seq = (witMsg [.pending]).seq
        ∧ (FrameControl.ofBytes fc).blockMap &&& 1 = 0 ∧ fcAccepted s [] = false ∧ fcAccepted s fb = true ∧ bitOf ((FrameControl.ofBytes fb).blockMap &&& 1) 0 = true
        ∧ bitOf 1 0 = true ∧ s.plc.busyUntil ≤ s.now ∧ s.resendLimit ≤ 0)
    ∧ 0 < ({ witPlc 1 {} with prof := { active := some { image := testImage [(0x0B, [1, 1, 0, 0] ++ zeros 6 ++ [4] ++ zeros 21)] } } } : State).resendLimit
    ∧ (let s := witPlc 1 { role := 1, lock := true, assocOpen := true }
       s.plcRuns = true ∧ s.plc.lock = true ∧ s.plc.addr = 0 ∧ s.plc.assocOpen = true ∧ s.plcOn = true ∧ s.plc.askedAt + 32 * s.mainsNs ≤ s.now)
    := by decide +kernel

theorem test_wit_PlcSend :
    (let s := witPlc 1 { role := 2, addr := 2, lock := true, known := [{ addr := 5, direct := true }] }
     hasRoute s 5 = true) := by decide +kernel

theorem test_wit_PlcSendChecks :
    hasRoute (witPlc 1 {}) 6 = false
    ∧ (let d : Desc := { ring := 4, opcode := 0x25, kind := 12, index := 5, cls := 1, tag := 16, body := zeros 16 ++ [1], input := some [1] }
       let s := witPlc 1 { role := 2, addr := 2, lock := true, known := [{ addr := 5, direct := true }] }
       admits plcSendInfo d s = true ∧ d.ix = 5 ∧ d.input = some [1]
        ∧ admits plcSendInfo { d with input := none } s = true ∧ admits plcSendInfo { d with index := 6 } s = true
        ∧ admits plcSendInfo d (witPlc 1 {}) = true ∧ (witPlc 1 {}).plc.addr = 0
        ∧ admits plcSendInfo d (witPlc 1 { role := 2, addr := 2, lock := true, msgs := List.replicate 16 { own := true } }) = true) := by decide +kernel

/-- R427, R431: a frame whose one block is its sealed plaintext opens, whatever the cipher is. -/
theorem witTakes {ty at_ : Nat} {f : PlcFrame} {d raw : List Byte} {s s1 s2 s3 : State} {c : FrameControl}
    (hc : FrameControl.ofBytes f.fc = c) (hf : (!s.plcSynced || !fcAccepted s f.fc || decide (c.type ≠ ty)) = false)
    (h1 : noteBad c.region (f.blocks.filter fun b => b.2.isNone).length (heardNode c.orig false (heardNode c.src true s)) = s1)
    (h2 : assembleMsg c f.blocks s1 = (s2, some raw)) (he : f.est = none) (hm : (c.final == s.plc.addr || c.final == 255) = true)
    (h3 : (if c.dst == 255 || s.plc.ask != 0 then s2
      else sendSack c (((f.blocks.filter fun b => b.2.isNone).map fun b => 2 ^ b.1).foldl (· + ·) 0) s2) = s3)
    (hw : (ty == 2 && !s.plc.rx.enable && decide (16 ≤ s.plc.waiting.length)) = false)
    (ha : f.auth = some (at_, d)) (hk : sealPayload (plcKey s3 c.type) c.type c.orig c.nid at_ d = raw) (ht : s3.plc.times = []) :
    takeFrame ty f s = (s3.modPlc fun p => { p with times := [(c.orig, c.type, at_)] }, some d) := by
  simp only [takeFrame, hc, hf, h1, h2, h3, he, hm, ha, Bool.false_eq_true, if_false]
  by_cases h : (ty == 2 && true && (some raw).isSome && !s.plc.rx.enable && decide (16 ≤ s.plc.waiting.length)) = true
  · simp only [Bool.and_true, Option.isSome_some, hw, Bool.false_eq_true] at h
  · rw [if_neg h]
    simp [authPayload, answerTone, hk, ht, State.modPlc]

theorem witTake2 : (takeFrame 2 (witFrame 2 2 2 [1, 2, 3]) (witPlc 1 { role := 2, addr := 2, lock := true })).2 = some [1, 2, 3] :=
  congrArg Prod.snd (witTakes rfl (by decide +kernel) rfl rfl rfl (by decide +kernel) rfl (by decide +kernel) rfl rfl rfl)

theorem witTake4 : (takeFrame 4 (witFrame 4 2 2 (zeros 3)) (witPlc 1 { role := 2, addr := 2, lock := true })).2 = some (zeros 3) :=
  congrArg Prod.snd (witTakes rfl (by decide +kernel) rfl rfl rfl (by decide +kernel) rfl (by decide +kernel) rfl rfl rfl)

theorem witTake5 : (takeFrame 5 (witFrame 5 2 2 (zeros 9)) (witPlc 1 { role := 3, addr := 2, lock := true })).2 = some (zeros 9) :=
  congrArg Prod.snd (witTakes rfl (by decide +kernel) rfl rfl rfl (by decide +kernel) rfl (by decide +kernel) rfl rfl rfl)

theorem witTake5b : (takeFrame 5 (witFrame 5 2 2 (zeros 8 ++ [9])) (witPlc 1 { role := 3, addr := 2, lock := true })).2 = some (zeros 8 ++ [9]) :=
  congrArg Prod.snd (witTakes rfl (by decide +kernel) rfl rfl rfl (by decide +kernel) rfl (by decide +kernel) rfl rfl rfl)

theorem witTake6 : (takeFrame 6 (witFrame 6 2 2 (zeros 8 ++ [7, 0])) (witPlc 1 { role := 2, addr := 2, lock := true })).2 = some (zeros 8 ++ [7, 0]) :=
  congrArg Prod.snd (witTakes rfl (by decide +kernel) rfl rfl rfl (by decide +kernel) rfl (by decide +kernel) rfl rfl rfl)

theorem witTake7 : (takeFrame 7 (witFrame 7 2 2 (zeros 3)) (witPlc 1 { role := 2, addr := 2, lock := true })).2 = some (zeros 3) :=
  congrArg Prod.snd (witTakes rfl (by decide +kernel) rfl rfl rfl (by decide +kernel) rfl (by decide +kernel) rfl rfl rfl)

theorem witTake8 : (takeFrame 8 (witFrame 8 2 2 (zeros 9)) (witPlc 1 { role := 3, addr := 2, lock := true })).2 = some (zeros 9) :=
  congrArg Prod.snd (witTakes rfl (by decide +kernel) rfl rfl rfl (by decide +kernel) rfl (by decide +kernel) rfl rfl rfl)

theorem witTake9 : (takeFrame 9 (witFrame 9 2 2 [7]) (witPlc 1 { role := 3, addr := 2, lock := true })).2 = some [7] :=
  congrArg Prod.snd (witTakes rfl (by decide +kernel) rfl rfl rfl (by decide +kernel) rfl (by decide +kernel) rfl rfl rfl)

theorem test_wit_PlcFramesActOnTheirReceiver :
    (let s := witPlc 1 { role := 2, addr := 2, lock := true }
     s.ready = true ∧ s.plcRuns = true ∧ s.plcSynced = true ∧ fcAccepted s [] = false ∧ (witPlc 1 {}).plcRuns = false ∧ s.domainUp 6 = true
      ∧ (takeFrame 2 { witFrame 2 2 2 [] with auth := none } s).2 = none) := by decide +kernel

theorem test_wit_tonemap : ((takeFrame 7 (witFrame 7 2 2 (zeros 3)) (witPlc 1 { role := 2, addr := 2, lock := true })).1.plcNode 5).regions.length = 8 := by
  rw [witTakes rfl (by decide +kernel) rfl rfl rfl (by decide +kernel) rfl (by decide +kernel) rfl rfl rfl]
  decide +kernel

theorem test_wit_assocReq :
    (let u := (takeFrame 5 (witFrame 5 2 2 (zeros 9)) (witPlc 1 { role := 3, addr := 2, lock := true })).1
     freeAddr u = some 1 ∧ (∀ e ∈ u.plc.table, e.1 ≠ 9)) := by
  rw [witTakes rfl (by decide +kernel) rfl rfl rfl (by decide +kernel) rfl (by decide +kernel) rfl rfl rfl]
  decide +kernel

theorem test_wit_e2eAck :
    (takeFrame 4 (witFrame 4 2 2 [0, 0, 2]) (witPlc 1 { role := 2, addr := 2, lock := true, msgs := [{ own := true, waitAck := true }] })).1.plc.msgs
      = [{ own := true, waitAck := true }] := by
  rw [witTakes rfl (by decide +kernel) rfl rfl rfl (by decide +kernel) rfl (by decide +kernel) rfl rfl rfl]
  decide +kernel

theorem witBytes (l : List Byte) (a st : Byte) : leAt (bytesAt l 0 8 ++ [a, st]) 0 8 = leAt l 0 8 ∧ u8 (bytesAt l 0 8 ++ [a, st]) 9 = st.toNat := ⟨rfl, rfl⟩

/-- An ASSOC_RES for this node: its plaintext names NODE_ID. -/
theorem test_wit_assocRes (s : State) (a st : Byte) :
    leAt (bytesAt s.nodeId 0 8 ++ [a, st]) 0 8 = leAt s.nodeId 0 8 ∧ u8 (bytesAt s.nodeId 0 8 ++ [a, st]) 9 = st.toNat := witBytes s.nodeId a st

/-- An operating module whose recorder is `r`, one day after its start. -/
def witRec (r : Recorder) : State := { witRing 8 with rcd := r, now := 86400000000000 }

/-- Slot 168 with a page from device time 0, whose boundary is now. -/
def witOpens : List (Option HistPage) := List.replicate 168 none ++ [some { kind := 6 }] ++ List.replicate 9 none

theorem test_wit_RecorderKeepsHistory :
    (let s := witRec { data := { opens := witOpens }, secondAt := 86399 }
     s.ready = true ∧ s.thm.halting = none ∧ s.rcd.secondAt < s.second ∧ s.rcd.data.opens.length = 178 ∧ s.rcd.data.extremes.length = 178
      ∧ s.rcd.acc.length = 178 ∧ s.recPresent 0 = false ∧ s.recPresent 168 = true ∧ nth s.rcd.data.opens 168 = some { kind := 6 }
      ∧ s.second * 1000000000 ≤ ({ kind := 6 } : HistPage).boundary s.civil ∧ nth s.rcd.data.opens 0 = none
      ∧ ({ kind := 6, day := false } : HistPage).boundary s.civil < s.second * 1000000000
      ∧ ({ kind := 6, day := false, time := 82800000000001 - 3600000000000 } : HistPage).passed s.civil (s.second * 1000000000 - 1) = 1
      ∧ s.rcd.isVolatile = false ∧ s.ptpSteers = false)
    ∧ (let s := witRec { data := { opens := witOpens }, secondAt := 86400 }
       s.second ≤ s.rcd.secondAt ∧ ({ kind := 6 } : HistPage).boundary s.civil ≤ s.now ∧ ({ kind := 6 } : HistPage).passed s.civil s.now = 1
        ∧ s.now < ({ kind := 6, time := 86400000000000 } : HistPage).boundary s.civil)
    ∧ (let s : State := { witRec {} with thm := { halting := some 0 } }
       s.ready = true ∧ s.thm.halting ≠ none)
    ∧ (witRec { isVolatile := true }).ready = true
    ∧ (let d : Desc := { ring := 8, opcode := 0x32, cls := 2, tag := 16, body := [1] }
       admits setCivilInfo d (witRec {}) = true ∧ signed 64 (({ d with body := List.replicate 8 0xFF } : Desc).q 8) < 0
        ∧ admits setCivilInfo { d with body := List.replicate 8 0xFF } (witRec {}) = true
        ∧ ({ kind := 6 } : HistPage).boundary (signed 64 (d.q 8)) ≤ (witRec {}).now ∧ 0 ≤ signed 64 (d.q 8)
        ∧ (let s : State := { witRec {} with host := { (witRec {}).host with ptpLocked := true, eth := [{ ptpEn := true, civilFromPtp := true }] } }
           s.ptpSteers = true ∧ admits setCivilInfo d s = true))
    ∧ (let d : Desc := { ring := 8, opcode := 0x31, cls := 2, tag := 16, body := [4] ++ zeros 15 ++ toLE 4 1024 }
       admits recordReadInfo d (witRec {}) = true ∧ (witRec {}).host.muted = false) := by decide +kernel

theorem test_wit_ProfilesAreSelectedAndStored :
    (let d : Desc := { ring := 4, opcode := 0x23, kind := 7, cls := 1, tag := 16 }
     let s := witRing 4
     passesChecks selectInfo d s = true ∧ s.paired = false ∧ s.prof.lock = false ∧ s.allIdle = true
      ∧ passesChecks selectInfo d { s with prof := { lock := true } } = true)
    ∧ (let s : State := { witPort { state := .deliver } with host := (witRing 4).host }
       passesChecks selectInfo { ring := 4, opcode := 0x23, kind := 7, cls := 1, tag := 16 } s = true ∧ s.allIdle = false ∧ s.prof.lock = false)
    ∧ (let d : Desc := { ring := 12, opcode := 0x40, kind := 7, cls := 3, tag := 16, body := [3] ++ zeros 15 ++ [4], input := some [1, 2, 3, 4] }
       let s := witRing 12
       admits (storeInfo 0x40 (kindBelow 7 4) maxImage) d s = true ∧ s.thm.halting = none ∧ isActiveSlot s d.ix = false ∧ d.ix < s.prof.slots.length
        ∧ d.b 8 / 2 % 2 = 1 ∧ admits (storeInfo 0x40 (kindBelow 7 4) maxImage) { d with body := [1] ++ zeros 15 ++ [4] } s = true
        ∧ admits (storeInfo 0x40 (kindBelow 7 4) maxImage) { d with input := none } s = true
        ∧ admits (storeInfo 0x40 (kindBelow 7 4) maxImage) d { s with thm := { halting := some 0 } } = true
        ∧ (let a : State := { s with prof := { active := some { slot := 0 } } }
           isActiveSlot a 0 = true ∧ admits (storeInfo 0x40 (kindBelow 7 4) maxImage) d a = true))
    ∧ (let d : Desc := { ring := 12, opcode := 0x41, cls := 3, tag := 16, body := [3] ++ zeros 15 ++ [4], input := some [1, 2, 3, 4] }
       let s := witRing 12
       admits (storeInfo 0x41 kindNone (2 ^ 32 + 65536)) d s = true ∧ 1 - s.key.active < s.key.banks.length
        ∧ admits (storeInfo 0x41 kindNone (2 ^ 32 + 65536)) { d with input := none } s = true)
    ∧ (let d : Desc := { ring := 12, opcode := 0x42, cls := 3, tag := 16 }
       let s := witRing 12
       admits activateInfo d s = true ∧ s.allIdle = true ∧ s.key.staged = false ∧ admits activateInfo d { s with key := { staged := true } } = true
        ∧ (let b : State := { witPort { state := .deliver } with host := s.host }
           admits activateInfo d b = true ∧ b.allIdle = false)) := by decide +kernel

theorem test_wit_Snapshot :
    (let d : Desc := { ring := 0, opcode := 0x0B, kind := 3, body := zeros 8 ++ toLE 2 416 }
     admits snapshotInfo d (witRing 0) = true ∧ d.kind ≠ 1 ∧ d.kind ≠ 2 ∧ (witRing 0).ready = true ∧ d.ring < 4
      ∧ passesChecks { snapshotInfo with range := fun _ _ => true } { d with body := zeros 8 ++ toLE 2 64 } (witRing 0) = true
      ∧ ({ d with body := zeros 8 ++ toLE 2 64 } : Desc).h 16 < 416)
    ∧ (let s : State := { prof := { change := some 0 } }
       s.prof.change = some 0 ∧ s.mayChange = true)
    ∧ ({ prof := { change := some 0, changeCount := 1 } } : State).mayChange = false := by decide +kernel

def witKeyDesc (op ix inLen : Nat) (input : Option (List Byte)) : Desc :=
  { ring := 8, opcode := 0x33, kind := 8, index := BitVec.ofNat 8 ix, cls := 2, tag := 16, input := input
    body := toLE 1 op ++ zeros 15 ++ toLE 2 inLen ++ zeros 6 ++ zeros 8 ++ toLE 2 4096 ++ zeros 6 }

def witBlock (ty usage flags parent label : Nat) (data : List Byte) : List Byte :=
  toLE 1 ty ++ toLE 1 usage ++ toLE 1 flags ++ toLE 1 parent ++ toLE 1 label ++ zeros 11 ++ data

def witKeys (k : Keys) : State := { witRing 8 with key := k }

theorem test_wit_KeysAreMadeAndPlaced :
    (let s := witKeys {}
     admits (keyOpInfo 1 generalSlot) (witKeyDesc 1 4 17 (some (witBlock 1 4 1 255 1 [65]))) s = true ∧ s.isFrozen 0x23 = false ∧ s.thm.halting = none ∧ s.host.muted = false
      ∧ keyInput (witKeyDesc 1 4 17 (some (witBlock 1 4 1 255 1 [65]))) = some (witBlock 1 4 1 255 1 [65])
      ∧ placeSlot s 4 = some 4 ∧ 4 < s.key.slots.length ∧ privateType 1 = true ∧ 4 &&& typeUses 1 = 4 ∧ allZero (witBlock 1 4 1 255 1 [65]) 5 11 = true
      ∧ (∀ b ∈ (witBlock 1 4 1 255 1 [65]).drop 16, b.toNat < 128)
      ∧ admits (keyOpInfo 1 generalSlot) (witKeyDesc 1 4 17 (some (witBlock 1 4 1 5 1 [65]))) s = true ∧ (s.slot 5).state ≠ .ready
      ∧ admits (keyOpInfo 1 generalSlot) (witKeyDesc 1 4 17 none) s = true ∧ keyInput (witKeyDesc 1 4 17 none) = none
      ∧ admits (keyOpInfo 1 generalSlot) (witKeyDesc 1 4 8 (some [])) s = true ∧ keyInput (witKeyDesc 1 4 8 (some [])) = some (zeros 8)
      ∧ admits (keyOpInfo 2 generalSlot) (witKeyDesc 2 4 16 (some (witBlock 3 1 0 255 0 []))) s = true
      ∧ admits (keyOpInfo 2 generalSlot) (witKeyDesc 2 4 16 (some (witBlock 3 1 4 255 0 []))) s = true
      ∧ publicType 0x11 = true ∧ 0x40 &&& typeUses 0x11 = 0x40)
    ∧ (let s := witKeys {}
       admits (keyOpInfo 4 generalSlot) (witKeyDesc 4 4 81 (some (witBlock 0x11 0x40 0 255 0 ([4] ++ zeros 64)))) s = true
        ∧ (keyInput (witKeyDesc 4 4 81 (some (witBlock 0x11 0x40 0 255 0 ([4] ++ zeros 64))))).map (·.length) = some 81
        ∧ admits (keyOpInfo 3 generalSlot) (witKeyDesc 3 4 141 (some (witBlock 3 1 0 255 0 (zeros 125)))) s = true ∧ (s.slot 1).state = .empty
        ∧ admits (keyOpInfo 3 generalSlot) (witKeyDesc 3 4 141 (some (witBlock 3 1 0 255 0 (zeros 125))))
            (witKeys { slots := [{}, { state := .ready }] ++ List.replicate 62 {} }) = true
        ∧ ((witKeys { slots := [{}, { state := .ready }] ++ List.replicate 62 {} }).slot 1).state = .ready)
    ∧ (let s := witKeys { slots := List.replicate 64 { state := .ready, type := 1 } }
       placeSlot s 4 = none ∧ admits (keyOpInfo 1 generalSlot) (witKeyDesc 1 4 17 (some (witBlock 1 4 1 5 1 [65]))) s = true ∧ (s.slot 5).type = 1
        ∧ (s.slot 5).tagOk = true ∧ 5 ∉ liveDescendants s 5)
    ∧ (let s := witKeys { slots := List.replicate 64 { state := .ready, type := 1, tagOk := false } }
       (s.slot 5).tagOk = false ∧ 5 ∉ liveDescendants s 5 ∧ admits (keyOpInfo 1 generalSlot) (witKeyDesc 1 4 17 (some (witBlock 1 4 1 5 1 [65]))) s = true)
    ∧ (let s : State := { witKeys {} with flt := { frozen := BitVec.ofNat 36 (2 ^ 0x23) } }
       s.isFrozen 0x23 = true ∧ admits (keyOpInfo 1 generalSlot) (witKeyDesc 1 4 17 none) s = true)
    ∧ (let s : State := { witKeys {} with thm := { halting := some 0 } }
       s.thm.halting ≠ none ∧ admits (keyOpInfo 1 generalSlot) (witKeyDesc 1 4 17 none) s = true) := by decide +kernel

def witSlot (k : KeySlot) : State := witKeys { slots := List.replicate 4 {} ++ [k] ++ List.replicate 59 {} }

theorem test_wit_KeysAreUsedRevokedAndAttested :
    (let s := witSlot { state := .ready, type := 3, usage := 1 }
     s.isFrozen 0x23 = false ∧ s.thm.halting = none ∧ s.host.muted = false ∧ (s.slot 4).state = .ready ∧ (s.slot 4).tagOk = true ∧ s.key.slots.length = 64 ∧ 4 ∉ liveDescendants s 4
      ∧ admits (keyOpInfo 5 publicSlot) (witKeyDesc 5 4 0 none) s = true
      ∧ admits (keyOpInfo 5 publicSlot) (witKeyDesc 5 5 0 none) s = true ∧ (s.slot 5).state = .empty
      ∧ admits (keyOpInfo 6 generalSlot) (witKeyDesc 6 4 32 (some (zeros 32))) s = true
      ∧ (keyInput (witKeyDesc 6 4 32 (some (zeros 32)))).map (·.length) = some 32
      ∧ admits (keyOpInfo 7 fun _ => true) (witKeyDesc 7 4 0 none) s = true
      ∧ admits (keyOpInfo 8 generalSlot) (witKeyDesc 8 4 0 none) s = true ∧ admits (keyOpInfo 9 generalSlot) (witKeyDesc 9 4 0 none) s = true
      ∧ admits (keyOpInfo 8 generalSlot) (witKeyDesc 8 4 1 none) s = true
      ∧ admits (keyOpInfo 0x0A certSlot) (witKeyDesc 0x0A 4 1 (some [1])) s = true ∧ admits (keyOpInfo 0x0A certSlot) (witKeyDesc 0x0A 4 0 (some [1])) s = true
      ∧ admits (keyOpInfo 0x0A certSlot) (witKeyDesc 0x0A 4 0 none) s = true)
    ∧ (let s := witSlot { state := .ready, type := 3, usage := 1, tagOk := false }
       (s.slot 4).tagOk = false ∧ 4 ∉ liveDescendants s 4 ∧ admits (keyOpInfo 5 publicSlot) (witKeyDesc 5 4 0 none) s = true)
    ∧ (let s : State := { witSlot {} with thm := { halting := some 0 } }
       s.thm.halting ≠ none ∧ admits (keyOpInfo 8 generalSlot) (witKeyDesc 8 4 0 none) s = true)
    ∧ (let s : State := { witSlot {} with key := { (witSlot {}).key with certs := List.replicate 64 [1] } }
       admits (keyOpInfo 0x0B publicSlot) (witKeyDesc 0x0B 4 0 none) s = true ∧ nth s.key.certs 4 ≠ []
        ∧ admits (keyOpInfo 0x0B publicSlot) (witKeyDesc 0x0B 4 0 none) (witSlot {}) = true ∧ nth (witSlot {}).key.certs 4 = [])
    ∧ (let d := witKeyDesc 0x0C 3 65 (some ([4] ++ zeros 64))
       let s := witKeys {}
       let t : State := { s with pwr := { s.pwr with opState := .setup } }
       admits (keyOpInfo 0x0C (· == 3)) d s = true ∧ s.ownerKey = none ∧ s.pwr.opState ≠ .setup ∧ admits (keyOpInfo 0x0C (· == 3)) d t = true
        ∧ ((keyInput d).map ownerKeyOk) = some true
        ∧ (let o : State := witKeys { slots := List.replicate 3 {} ++ [{ state := .ready, material := [4] ++ zeros 64 }] ++ List.replicate 60 {} }
           let e := witKeyDesc 0x0C 3 129 (some ([4] ++ zeros 128))
           o.ownerKey = some ([4] ++ zeros 64) ∧ (o.slot 3).tagOk = true ∧ 3 ∉ liveDescendants o 3 ∧ admits (keyOpInfo 0x0C (· == 3)) e o = true
            ∧ (keyInput e).map (fun l => ownerKeyOk (l.take (l.length - 64))) = some true))
    ∧ (let s := witKeys { slots := List.replicate 64 { state := .ready }, orphaning := [(4, 1)] }
       s.ready = true ∧ s.isFrozen 0x23 = false ∧ (∀ i, i < 64 → (s.slot i).tagOk = true) ∧ s.key.orphaning = [(4, 1)] ∧ (s.slot 5).state = .ready ∧ 5 ∉ liveDescendants s 5
        ∧ ({ s with now := 0 } : State).quarter ≤ s.key.passAt ∧ ({ s with now := 250000000 } : State).key.passAt < ({ s with now := 250000000 } : State).quarter) := by decide +kernel

/-- ATTEST with a buffer of 256 bytes is too small, and one of 4096 bytes fits a statement without a Caddis identity. -/
theorem test_wit_attest :
    let d : Nat → Desc := fun n => { ring := 8, opcode := 0x34, cls := 2, tag := 16, body := zeros 40 ++ toLE 2 n }
    admits attestInfo (d 256) (witKeys {}) = true ∧ admits attestInfo (d 4096) (witKeys {}) = true ∧ (d 256).h 48 < attestLen (witKeys {})
      ∧ attestLen (witKeys {}) ≤ (d 4096).h 48
      ∧ admits attestInfo (d 4096) (witKeys { slots := List.replicate 64 { state := .ready } }) = true := by
  refine ⟨by decide +kernel, by decide +kernel, ?_, ?_, by decide +kernel⟩
  · show 256 < 0x210 + Config.identityCertLen.val + 0 + 64
    omega
  · show 0x210 + Config.identityCertLen.val + 0 + 64 ≤ 4096
    have := Config.identityCertLen.isLt
    omega

def witPair (unitB : Bool) (p : Pair) : State := { witRing 8 with
  pwr := { opState := .operate, locked := 0xFFF, ilkOut := true, straps := { pairPresent := false, role := unitB } }, pair := p, now := 1000000000 }

def witPeriod (s : State) (b0 : Nat) : List Block :=
  withCrcBlock [BitVec.ofNat 64 (0x10 + 1024 * s.host.pairId.toNat + b0), 0, 1 <<< 32, 0]

theorem test_wit_AuthorityFollowsInterlockAndLink :
    ((witRing 8).ready = true ∧ (witRing 8).member = false)
    ∧ (let s := witPair true { ilk := .standby, state := .hot, linkUp := true, digestOk := true, lanes := [{ blockLock := true }, {}], unacked := [{ seq := 3 }, { seq := 4, tries := 9 }] }
       s.ready = true ∧ s.member = true ∧ s.running = true ∧ s.pwr.held = false ∧ s.awake = true ∧ s.pair.pulsesAt + 3000 ≤ s.now ∧ s.peerHeard = false
        ∧ s.givesTerm 1 = false ∧ s.pair.ilk ≠ .low ∧ s.pair.ilk.good = true ∧ s.unitB = true ∧ s.pwr.ilkOut = true
        ∧ periodOk s 0x10 (witPeriod s 0) = true ∧ periodOk s 0x11 (witPeriod s 0) = false ∧ (∃ p ∈ s.pair.lanes, p.blockLock = true)
        ∧ s.pair.digestOk = true ∧ frSeq (witPeriod s 0) = s.lanes.q ∧ bits (blk (witPeriod s 0) 2) 32 1 = 1
        ∧ bits (blk (witPeriod s 0) 2) 0 32 = s.pair.digest.toNat ∧ bits (blk (witPeriod s 0) 3) 0 32 = 0
        ∧ (0 : Word) ∉ s.pair.ackedSeqs)
    ∧ (let s := witPair true { ilk := .active, state := .active, auth := true }
       s.ready = true ∧ s.member = true ∧ s.unitB = true ∧ s.pair.auth = true ∧ s.sawActive 4000 = true
        ∧ ({ s with now := 3999 } : State).sawActive 4000 = false)
    ∧ (let s := witPair false { ilk := .active, state := .active, auth := true }
       s.ready = true ∧ s.member = true ∧ s.unitB = false ∧ s.pair.auth = true ∧ s.sawActive 20000 = true ∧ s.running = true)
    ∧ (let s := witPair true { ilk := .high, state := .hot, held := true, holderB := true, witnessedAt := some 1000000000 }
       s.ready = true ∧ s.member = true ∧ s.unitB = true ∧ s.pair.ilk.broken = true ∧ s.pair.linkUp = false ∧ s.running = true ∧ s.leaseWitnessed = true
        ∧ s.pair.ilkAt + 1000000 ≤ s.now ∧ s.pair.linkDownAt + 1000000 ≤ s.now ∧ s.pair.doubleFault = false)
    ∧ (let s := witPair false { ilk := .high, state := .active, auth := true, held := true, holderB := true }
       s.ready = true ∧ s.member = true ∧ s.unitB = false ∧ s.pair.ilk.broken = true ∧ s.leaseHere = false ∧ s.pair.held = true)
    ∧ (let s := witPair true { ilk := .standby, state := .hot }
       s.pwr.undefinedLogic = false ∧ ({ s with pwr := { s.pwr with opState := .boot } } : State).awake = false ∧ s.member = true
        ∧ ({ s with pwr := { s.pwr with powerState := .sleep } } : State).awake = false ∧ s.pwr.opState ≠ .boot) := by decide +kernel

/-- A HELLO with the own profile and firmware passes every check but the identity, which the certificate authority decides. -/
theorem test_wit_hello :
    let v := acknowledged 5 (witPair false { ilk := .standby, state := .forming, linkUp := true })
    let h : Hello := { unitB := true, pairId := v.host.pairId, ownerKeyId := padTo 16 (ownerKeyId (v.ownerKey.getD [])), firmware := v.fwVersion, digest := v.payloadDigest, meas := v.key.meas }
    v.pair.state = .forming ∧ h.unitB ≠ v.unitB ∧ ({ h with pairId := 9 } : Hello).pairId ≠ v.host.pairId ∧ 2 < v.key.slots.length
      ∧ h.ownerKeyId = padTo 16 (ownerKeyId (v.ownerKey.getD [])) ∧ h.meas = v.key.meas ∧ v.pair.helloOk = false := by
  decide +kernel

def witCopy (p : Pair) : State := acknowledged 5 (witPair true { p with linkUp := true, ilk := .standby })

/-- A member on the site network that uses it as the second way to its peer. -/
def witFallback (p : Pair) : State := { witPair true p with
  prof := { active := some { image := testImage [(0x0B, [1, 11, 0, 0, 0, 0, 0, 0, 0, 4] ++ zeros 22)] } }
  key := { slots := { state := .ready } :: List.replicate 63 {} }
  plc := { role := 2, addr := 2, lock := true } }

theorem test_wit_HandoversRecordsAndResyncMoveThePair :
    (let v := witCopy { state := .hot }
     v.ready = true ∧ v.member = true ∧ v.running = true ∧ v.pair.handover = none ∧ v.leaseHere = false ∧ v.veh.length = 8 ∧ v.paths.length = 8 ∧ v.stages.length = 32
      ∧ v.sw.ch.length = 12 ∧ v.sw.frozen = false ∧ v.sw.lost = false ∧ v.met.ch.length = 8 ∧ (6 : Word) ∉ v.pair.ackedSeqs ∧ v.plcFallback = false
      ∧ v.caddisBusy = false ∧ v.pairKeyOpens (v.slot 2).material = true ∧ v.pairKeyOpens [1] = false ∧ v.domainUp 6 = true ∧ v.plcRuns = false)
    ∧ (let v := witCopy { state := .active, auth := true, handover := some { kind := 2 } }
       v.pair.handover = some { kind := 2 } ∧ (v.lane 3).state = .unused ∧ (v.stage 6).xfer ≠ .blocked)
    ∧ (let s := witPair true { state := .hot, handover := some { taking := true, acked := true, atCount := 3 }, periodCount := 3, granted := some 4 }
       s.ready = true ∧ s.member = true ∧ s.running = true ∧ s.pair.auth = false ∧ s.pair.state ≠ .refused
        ∧ ({ s with lanes := { s.lanes with boundary := 1000000000 } } : State).inHandoverWindow = true
        ∧ s.handoverTime { taking := true, acked := true, atCount := 3 } + 8000 ≤ s.now
        ∧ ({ s with pair := { s.pair with handover := none, ilk := .low } } : State).authDue = true
        ∧ ({ s with pair := { s.pair with handover := none, ilk := .standby } } : State).authDue = false)
    ∧ (let s : State := { witPair true { state := .active, auth := true, held := true, holderB := true, handover := some { acked := true } } with
         lanes := { boundary := 999999500 } }
       s.ready = true ∧ s.leaseHere = true ∧ s.inHandoverWindow = true ∧ s.handoverTime { acked := true } + 500 ≤ s.now
        ∧ ({ s with pair := { s.pair with held := false } } : State).leaseHere = false)
    ∧ (let s := witPair true { state := .active, auth := true, held := true, holderB := true, peerState := .hot, linkUp := true }
       s.ready = true ∧ s.member = true ∧ (1 : Word).getLsbD 0 = true ∧ s.leaseHere = true ∧ s.pair.handover = none ∧ s.domainUp 6 = true)
    ∧ (let s := witPair true { state := .resync, resyncAt := some 5, periodCount := 5, snapWanted := true
                               effects := [(.time 2000000000, { ring := 0, opcode := 7 }), (.period 5, { ring := 0, opcode := 6 })]
                               snapParts := [(0, .path 2 { halted := true }), (1, .point 5)] }
       s.ready = true ∧ s.member = true ∧ (2 : Word).getLsbD 1 = true ∧ s.pair.resyncAt = some s.pair.periodCount.toNat
        ∧ (s.pair.effects.filter fun e => s.reached e.1) = [(.period 5, { ring := 0, opcode := 6 })])
    ∧ (let s := witFallback { state := .hot, plcOut := [(3, zeros 16)] }
       s.plcRuns = true ∧ s.member = true ∧ s.plcFallback = true ∧ s.pairFrameDue = true ∧ s.pair.plcOut ≠ [] ∧ s.peerAddr ≠ 0
        ∧ (takeFrame 0x0A (witFrame 0x0B 2 2 []) s).2 = none
        ∧ (witFallback { state := .hot, frameAt := 1000000000 }).pairFrameDue = false) := by decide +kernel

theorem witTakePair :
    (takeFrame 0x0A (witFrame 0x0A 2 2 (toLE 1 3 ++ toLE 2 16 ++ zeros 16)) (witFallback { state := .hot })).2 = some (toLE 1 3 ++ toLE 2 16 ++ zeros 16) :=
  congrArg Prod.snd (witTakes rfl (by decide +kernel) rfl rfl rfl (by decide +kernel) rfl (by decide +kernel) rfl rfl rfl)

theorem test_wit_lastPart : LastPart (witPair true { snapParts := [(0, .path 2 { halted := true }), (1, .point 5)] })
    (fun p => match p with | .path j _ => j == 2 | _ => false) (.path 2 { halted := true }) :=
  ⟨rfl, [], [(1, .point 5)], 0, rfl, by simp⟩

def witLease (op unit term : Nat) : List Byte := toLE 1 op ++ toLE 1 unit ++ zeros 2 ++ toLE 4 term ++ zeros 8

theorem test_wit_LeasesAreRenewedLapseAndAreClaimed :
    ((witRing 8).ready = true ∧ (witRing 8).member = false)
    ∧ (let s := witPair false { state := .active, auth := true, linkUp := true, ilk := .standby, held := true, term := 4, expiresAt := 5, witEnable := true }
       s.ready = true ∧ s.member = true ∧ (0 : Word) ∉ s.pair.ackedSeqs ∧ s.leaseHere = true ∧ s.witness 0 = true ∧ s.witness 2 = true ∧ s.pair.expiresAt ≤ s.now
        ∧ (witLease 1 1 5).length = 16 ∧ (u8 (witLease 1 1 5) 1 % 2 == 1) ≠ s.unitB ∧ (u8 (witLease 1 0 5) 1 % 2 == 1) = s.unitB ∧ u8 (witLease 1 1 5) 0 = 1
        ∧ u32 (witLease 2 1 4) 4 = 4 ∧ s.pair.proposed ≠ some 4 ∧ s.pair.lapsed = false ∧ (s.ctlr 0).onWire = none ∧ s.pair.cas = none
        ∧ s.pair.renewAt + s.renewMs * 1000000 ≤ s.now ∧ s.domainUp 6 = true)
    ∧ (let s := witPair false { state := .forming, auth := true, linkUp := true, ilk := .standby, proposed := some 1 }
       s.leaseHere = false ∧ s.pair.lapsed = false ∧ u32 (witLease 2 1 1) 4 = 1)
    ∧ (let s := witPair true { state := .alone, ilk := .low }
       s.ready = true ∧ s.member = true ∧ s.running = true ∧ s.claimFrom ≤ s.now ∧ s.pair.held = false)
    ∧ (let s := witPair true { state := .hot, ilk := .high, doubleFault := true, term := 3, witEnable := true, expiresAt := 9 }
       s.ready = true ∧ s.member = true ∧ s.running = true ∧ s.claimFrom ≤ s.now ∧ s.witness 2 = true ∧ s.pair.grantedPlc = none
        ∧ s.pair.term.toNat < (hbTerm (hostBoardWord 4 true true 0)).toNat ∧ s.pair.ilk.good = false ∧ s.pair.polledAt + s.hostPollMs * 1000000 ≤ s.now)
    ∧ (let s : State := { witFallback { state := .hot, ilk := .standby, held := true, term := 2, cas := some (5, true) } with
         prof := { active := some { image := testImage [(0x0B, [1, 11, 0, 0, 0, 0, 0, 0, 0, 4] ++ zeros 22), (0x0C, [200, 0, 50, 0, 7, 1, 64, 0, 10] ++ zeros 23)] } } }
       s.ready = true ∧ s.plcFallback = true ∧ s.witness 1 = true ∧ s.leaseHere = false ∧ s.pair.cas = some (5, true)) := by decide +kernel
end

section
/-! The step without a command (log entry 2), and writes of BAR0 registers (R9, R86, R89, R96, R103 to R105, R271, R338, R496, R521). -/

namespace Sys2Proof.Machine

/-! ### The tick -/

theorem step_idle {s : State} (h : s.pending = []) : step s = .next (tick s) := by unfold step; rw [h]

/-- What follows the advance of device time leaves device time alone. -/
theorem tick_keeps_advanced (s : State) :
    Kept [.outs, .freeIx, .pwr, .host, .flt, .stages, .alloc, .paths, .pair, .acq, .met, .veh, .can, .plc, .rcd, .rings]
      { s with now := s.now + tickNs } (tick s) := by
  unfold tick
  dsimp only
  split
  · exact Kept.refl _ _
  · simp

@[simp] theorem tick_now (s : State) : (tick s).now = s.now + tickNs := (tick_keeps_advanced s).same .now (by decide)

/-- R73: with the logic undefined, only device time runs. -/
theorem tick_undefined {s : State} (h : s.pwr.undefinedLogic = true) : tick s = { s with now := s.now + tickNs } := if_pos h

/-- Held in reset, or past Boot, the clocks are not Boot's. -/
theorem bootClocks_outside_boot {s : State} (before : Nat) (h : s.pwr.held = true ∨ s.pwr.opState ≠ .boot) : bootClocks before s = s := by
  unfold bootClocks
  exact if_pos (by simpa using h)

/-- R80, R83: the lock bits of Boot, before and from t0 + 2 ms on. -/
theorem bootClocks_in_boot {s : State} (before : Nat) (hh : s.pwr.held = false) (hb : s.pwr.opState = .boot) :
    bootClocks before s = { s with pwr := { s.pwr with locked :=
      if before < s.pwr.releasedAt + 2000000 ∧ s.pwr.releasedAt + 2000000 ≤ s.now then 0xFFF
      else if s.pwr.locked = 0 then 0x401 else s.pwr.locked } } := by
  unfold bootClocks
  rw [if_neg (by simp [hh, hb])]
  by_cases h2 : before < s.pwr.releasedAt + 2000000 ∧ s.pwr.releasedAt + 2000000 ≤ s.now
  · rw [if_pos h2, if_pos (by simpa using h2)]; rfl
  · rw [if_neg h2, if_neg (by simpa using h2)]
    by_cases h0 : s.pwr.locked = 0
    · rw [if_pos h0, if_pos (by simpa using h0)]; rfl
    · rw [if_neg h0, if_neg (by simpa using h0)]

theorem bootClocks_settled {s : State} (before : Nat) (h : Settled s) : Settled (bootClocks before s) := by
  have k : Kept [.pwr] s (bootClocks before s) := by simp
  exact ⟨(congrArg Flt.arising (k.same .flt (by decide))).trans h.1, (congrArg HostIf.msgs (k.same .host (by decide))).trans h.2⟩

/-- While the controller is not awake and has nothing to record or to send, a tick does no more than run the clocks of Boot. -/
theorem tick_calm {s : State} (hs : Settled s) (hu : s.pwr.undefinedLogic = false) (ha : s.awake = false) :
    tick s = bootClocks s.now { s with now := s.now + tickNs } := by
  have e : tick s = settle (bootClocks s.now { s with now := s.now + tickNs }) := by
    unfold tick
    exact (if_neg (by simp [hu])).trans (congrArg settle (if_neg (by simpa [State.awake] using ha)))
  exact e.trans (settle_calm (bootClocks_settled _ hs))

theorem awake_in_boot {s : State} (h : s.pwr.opState = .boot) : s.awake = false := by simp [State.awake, h]

/-- Settles O2: a tick changes only what falls due with time, and while the controller is not awake it is `bootClocks` alone. -/
theorem idleStepIsATick : Obligations.IdleStepIsATick := by
  intro s hp
  refine ⟨tick s, step_idle hp, tick_now s, by simp, tick_undefined, fun hs hu ha hb => ?_, fun hs hu hh hb => ?_⟩
  · exact (tick_calm hs hu ha).trans (bootClocks_outside_boot _ hb)
  · exact (tick_calm hs hu (awake_in_boot hb)).trans (bootClocks_in_boot _ hh hb)

/-! ### An access of the host (R85, R89) -/

theorem awake_not_asleep {s : State} (h : s.awake = true) : s.pwr.powerState ≠ .sleep := by
  simp only [State.awake, Bool.and_eq_true, bne_iff_ne] at h
  exact h.2

theorem hostRow_awake {f : State → State} {s : State} (h : s.ready = true) :
    hostRow f s = .next (settle (if s.domainUp 6 then f s else s)) := by
  unfold hostRow
  rw [ctl_next (ready_tolerance h)]
  simp [awake_not_asleep (ready_awake h), ready_awake h]

/-- R89: a disabled source wakes nothing, and its access is not taken. -/
theorem hostRow_asleep_disabled {f : State → State} {s : State} (hu : s.pwr.undefinedLogic = false) (hp : s.pwr.powerState = .sleep)
    (hw : s.pwr.wakeEn.getLsbD 8 = false) : hostRow f s = .next (settle s) := by
  unfold hostRow
  rw [ctl_next hu]
  have ha : s.awake = false := by simp [State.awake, hp]
  simp only [hw, ha, Bool.and_false, Bool.false_and, Bool.false_eq_true, if_false]

/-- R87, R91: what a wake makes of the power state: Doze with its timer started, and every domain locked. -/
theorem wakeUp_pwr (mask : BitVec 10) (s : State) : (wakeUp mask s).pwr = { s.pwr with
    powerState := .doze, awake := true, dozeTimer := true, dozeAt := s.now, wakeCause := mask, locked := 0xFFF, e125Raised := false, refLost := false } := by
  have k : Kept [.outs, .freeIx, .host, .flt, .stages, .alloc, .paths, .lanes, .pair, .acq, .thm, .sw, .met, .veh, .can, .rcd, .auth]
      ((restartDoze s).modPwr fun p => { p with wakeCause := mask, locked := 0xFFF, e125Raised := false, refLost := false }) (wakeUp mask s) := by
    unfold wakeUp
    simp
  exact k.same .pwr (by decide)

theorem wakeUp_awake {mask : BitVec 10} {s : State} (hh : s.pwr.held = false) (hb : s.pwr.opState ≠ .boot) : (wakeUp mask s).awake = true := by
  simp [State.awake, wakeUp_pwr, hh, hb]

theorem wakeUp_domainUp (mask : BitVec 10) (s : State) : (wakeUp mask s).domainUp 6 = true := by
  simp only [State.domainUp, wakeUp_pwr]
  decide

/-- R89: an enabled source wakes the module, which then takes the access. -/
theorem hostRow_asleep_enabled {f : State → State} {s : State} (hu : s.pwr.undefinedLogic = false) (hh : s.pwr.held = false)
    (hb : s.pwr.opState ≠ .boot) (hp : s.pwr.powerState = .sleep) (hw : s.pwr.wakeEn.getLsbD 8 = true) :
    hostRow f s = .next (settle (f (wakeUp 0x100 s))) := by
  unfold hostRow
  rw [ctl_next hu]
  simp [hh, hp, hw, wakeUp_awake hh hb, wakeUp_domainUp]

/-! ### Which block takes a write -/

/-- R9, R80: past Boot a write goes to its block as an access of the host. -/
theorem exec_registerWrite_of_not_boot {s : State} (off : Nat) (v : Word) (h : s.pwr.opState ≠ .boot) :
    exec (.registerWrite off v) s = hostRow (regWrite off v) s := if_neg (by simp [h])

/-- R521: in Boot a write goes to the key block. -/
theorem exec_registerWrite_of_boot {s : State} (off : Nat) (v : Word) (hu : s.pwr.undefinedLogic = false) (hh : s.pwr.held = false)
    (hb : s.pwr.opState = .boot) : exec (.registerWrite off v) s = .next (settle (keyWrite off v s)) :=
  (if_pos (by simp [hb, hh])).trans (ctl_next hu)

theorem awake_not_boot {s : State} (h : s.awake = true) : s.pwr.opState ≠ .boot := by
  simp only [State.awake, Bool.and_eq_true, bne_iff_ne] at h
  exact h.1.2

theorem exec_registerWrite_taken {s : State} (off : Nat) (v : Word) (h : s.ready = true) (hd : s.domainUp 6 = true) :
    exec (.registerWrite off v) s = .next (settle (regWrite off v s)) := by
  rw [exec_registerWrite_of_not_boot off v (awake_not_boot (ready_awake h)), hostRow_awake h, if_pos hd]

/-- R85: without the PCIe clock no write is taken. -/
theorem registerWrite_idles_of_unclocked {s : State} (off : Nat) (v : Word) (h : s.ready = true) (hd : s.domainUp 6 = false) :
    Idles (.registerWrite off v) s := by
  unfold Idles
  rw [exec_registerWrite_of_not_boot off v (awake_not_boot (ready_awake h)), hostRow_awake h, hd]
  rfl

/-- A write that its block leaves without effect. -/
theorem registerWrite_idles {s : State} {off : Nat} {v : Word} (h : s.ready = true) (hd : s.domainUp 6 = true) (e : regWrite off v s = s) :
    Idles (.registerWrite off v) s := (exec_registerWrite_taken off v h hd).trans (by rw [e])

/-! ### Single registers -/

theorem inSetup_iff {s : State} : s.inSetup = true ↔ s.pwr.opState = .setup := by simp [State.inSetup]

/-- R86: a register with the Setup rule takes a write in Setup. -/
theorem when_inSetup {f : State → State} {s : State} (h : s.pwr.opState = .setup) : when s.inSetup f s = f s := if_pos (inSetup_iff.2 h)

/-- R86: in any other state it takes none. -/
theorem when_not_inSetup {f : State → State} {s : State} (h : s.pwr.opState ≠ .setup) : when s.inSetup f s = s :=
  if_neg fun k => h (inSetup_iff.1 k)

theorem regWrite_pairId (v : Word) (s : State) :
    regWrite 0x04 v s = when s.inSetup (fun s => s.modHost fun h => { h with pairId := BitVec.ofNat 6 (v.toNat / 2 % 64) }) s := rfl

theorem regWrite_slowPoll (v : Word) (s : State) : regWrite 0x1008 v s = when s.inSetup (fun s => s.modPwr fun p => { p with
    slowPollUs := max 100 (min 1000000 (v.toNat % 2 ^ 20)) }) s := by
  have e : vf v 0 20 = v.toNat % 2 ^ 20 := by simp [vf, bits]
  rw [← e]
  rfl

theorem regWrite_ptpLimit (v : Word) (s : State) :
    regWrite 0x38 v s = when s.inSetup (fun s => s.modHost fun h => { h with ptpLimitNs := v.toNat }) s := rfl

theorem regWrite_eth0 (v : Word) (s : State) : regWrite 0x30 v s = when s.inSetup (fun s => s.modEth 0 fun e => { e with
    mode := if v.toNat % 8 ≤ 4 then v.toNat % 8 else e.mode, ptpEn := v.getLsbD 3, civilFromPtp := v.getLsbD 4 }) s := by
  have e : vf v 0 3 = v.toNat % 8 := by simp [vf, bits]
  rw [← e]
  rfl

/-- R338: a written 1 clears the overrun of its channel. -/
theorem regWrite_acqOvr (v : Word) (s : State) :
    regWrite 0x4004 v s = { s with acq := { s.acq with ovr := s.acq.ovr &&& ~~~(v.extractLsb' 0 16) } } := rfl

/-! ### Submission ring registers (R103 to R105) -/

theorem regIndex_of_lt {base size count n k : Nat} (hn : n < count) (hk : k < size) :
    regIndex base size count (base + size * n + k) = some (n, k) := by
  have hlt : size * n + k < size * count :=
    calc size * n + k < size * n + size := Nat.add_lt_add_left hk _
      _ = size * (n + 1) := (Nat.mul_succ _ _).symm
      _ ≤ size * count := Nat.mul_le_mul_left _ hn
  have e : base + size * n + k - base = k + size * n := by omega
  unfold regIndex
  rw [if_pos (by omega), e, Nat.add_mul_div_left _ _ (by omega), Nat.add_mul_mod_self_left, Nat.div_eq_of_lt hk, Nat.mod_eq_of_lt hk,
    Nat.zero_add]

/-- R103: the registers of the submission rings stand 16 bytes apart from 0x100. -/
theorem regWrite_sq {n k : Nat} (v : Word) (s : State) (hn : n < 16) (hk : k < 16) : regWrite (0x100 + 16 * n + k) v s = sqWrite n k v s := by
  have e : regWrite (0x100 + 16 * n + k) v s = hifWrite (0x100 + 16 * n + k) v s := by
    have h0 : (0x100 + 16 * n + k) / 0x800 = 0 := by omega
    unfold regWrite
    simp only [h0]
  rw [e]
  unfold hifWrite
  split
  case h_11 => rw [regIndex_of_lt hn hk]
  all_goals omega

/-- R104: in Setup the fields of a ring are open. -/
theorem ringField_inSetup {s : State} (b : Bool) (h : s.pwr.opState = .setup) : s.ringField b = true := by
  simp [State.ringField, State.ringsOpen, inSetup_iff.2 h]

theorem sqWrite_base {s : State} (n : Nat) (v : Word) (h : s.pwr.opState = .setup) :
    sqWrite n 0 v s = s.modSq n fun q => { q with baseLo := BitVec.ofNat 32 (v.toNat / 4096 * 4096) } :=
  if_pos (ringField_inSetup _ h)

/-- R105: a C0 ring gets at most what the BURST of the three others leaves of 32. -/
theorem burstFor_eq {l : List Sq} {n : Nat} (b : Nat) (hl : 4 ≤ l.length) (hn : n < 4) :
    burstFor l n b = min b (32 - (((List.range 4).filter (· != n)).map fun m => (nth l m).burst).sum) := by
  obtain ⟨q0, q1, q2, q3, rest, rfl⟩ : ∃ q0 q1 q2 q3 rest, l = q0 :: q1 :: q2 :: q3 :: rest := by
    match l, hl with
    | q0 :: q1 :: q2 :: q3 :: rest, _ => exact ⟨q0, q1, q2, q3, rest, rfl⟩
  have hr : List.range 4 = [0, 1, 2, 3] := rfl
  match n, hn with
  | 0, _ | 1, _ | 2, _ | 3, _ => simp [burstFor, hr, nth, Nat.add_assoc]

theorem sqWrite_rate {s : State} {n : Nat} (v : Word) (h : s.pwr.opState = .setup) (hn : n < 4) (hl : 4 ≤ s.host.sq.length) :
    sqWrite n 12 v s = s.modSq n fun q => { refill s.now q with
      rate := max 1 (min 200 (v.toNat % 256))
      burst := min (max 1 (min 32 (v.toNat / 256 % 256))) (32 - (((List.range 4).filter (· != n)).map fun m => (s.sq m).burst).sum) } := by
  have e : vf v 0 8 = v.toNat % 256 := by simp [vf, bits]
  unfold State.sq
  rw [← e, ← burstFor_eq _ hl hn]
  exact if_pos (by simp [ringField_inSetup _ h, hn])

/-! ### The key block in Boot (R521) -/

theorem keyWrite_in_boot {s : State} (off : Nat) (v : Word) (hb : s.pwr.opState = .boot) : keyWrite off v s =
    if off = 0x7C00 then { s with key := { s.key with rcvLo := v } }
    else if off = 0x7C04 then { s with key := { s.key with rcvHi := v } }
    else if off = 0x7C08 then { s with key := { s.key with rcvLen := v } }
    else s := by
  unfold keyWrite
  rw [if_neg (by simp [hb])]
  split
  case h_4 h0 h4 h8 => rw [if_neg h0, if_neg h4, if_neg h8]
  all_goals rfl

/-! ### The statement about register writes -/

/-- Settles O20: the access decides whether the write reaches its block (`hostRow`), and the equation of the register says what it does there. -/
theorem registerWritesObeyTheirRules : Obligations.RegisterWritesObeyTheirRules := by
  refine ⟨fun v s hr hd => ?_, fun n v s hr hd hn hs hl => ?_, fun off v s => registerWrite_idles_of_unclocked off v,
    fun off v s hu hh hb hp => ?_, fun off v s hu hh hb => ?_⟩
  · have taken (off : Nat) : exec (.registerWrite off v) s = .next (settle (regWrite off v s)) := exec_registerWrite_taken off v hr hd
    refine ⟨fun h => ?_, fun h => ?_, fun h => ?_, fun h => ?_, fun h => ?_, fun h => ?_, fun h => ?_, ?_, ?_, ?_, ?_⟩
    · rw [taken, regWrite_pairId, when_inSetup h]; rfl
    · exact registerWrite_idles hr hd (when_not_inSetup h)
    · rw [taken, regWrite_slowPoll, when_inSetup h]; rfl
    · exact registerWrite_idles hr hd (when_not_inSetup h)
    · rw [taken, regWrite_ptpLimit, when_inSetup h]; rfl
    · exact registerWrite_idles hr hd (when_not_inSetup h)
    · rw [taken, regWrite_eth0, when_inSetup h]; rfl
    · exact registerWrite_idles hr hd rfl
    · exact registerWrite_idles hr hd rfl
    · exact registerWrite_idles hr hd rfl
    · rw [taken, regWrite_acqOvr]
  · have e0 : regWrite (0x100 + 16 * n) v s = sqWrite n 0 v s := regWrite_sq (k := 0) v s (by omega) (by omega)
    have e12 : regWrite (0x10C + 16 * n) v s = sqWrite n 12 v s := by
      rw [← regWrite_sq (k := 12) v s (by omega) (by omega), show 0x10C + 16 * n = 0x100 + 16 * n + 12 by omega]
    constructor
    · rw [exec_registerWrite_taken _ v hr hd, e0, sqWrite_base n v hs]; rfl
    · rw [exec_registerWrite_taken _ v hr hd, e12, sqWrite_rate v hs hn (by omega)]; rfl
  · unfold Idles
    rw [exec_registerWrite_of_not_boot off v hb]
    exact ⟨hostRow_asleep_enabled hu hh hb hp, hostRow_asleep_disabled hu hp⟩
  · unfold Idles
    simp only [exec_registerWrite_of_boot _ v hu hh hb, keyWrite_in_boot _ v hb]
    exact ⟨rfl, rfl, rfl, fun h0 h4 h8 => by rw [if_neg h0, if_neg h4, if_neg h8]⟩

end Sys2Proof.Machine
end

section
/-! Resets of the controller logic, what holds it in reset (R63 to R80, R364, R365, R514), and the clock domains (R83 to R85, R586). -/

namespace Sys2Proof.Machine

/-! ### Commands that reset the controller -/

/-- A command that acts in every state and whose effect is known. -/
theorem exec_of_run {c : Instr} {f : State → State} {s u : State} (e : exec c s = run f s) (hu : f s = u) : exec c s = .next (settle u) := by
  rw [e, ← hu]
  rfl

/-- R73: a command of the controller whose effect is known. -/
theorem exec_of_ctl {c : Instr} {f : State → State} {s u : State} (e : exec c s = ctl f s) (h : s.pwr.undefinedLogic = false) (hu : f s = u) :
    exec c s = .next (settle u) := by rw [e, ctl_next h, hu]

/-- A command of the running controller whose effect is known. -/
theorem exec_of_live {c : Instr} {f : State → State} {s u : State} (e : exec c s = live f s) (h : s.ready = true) (hu : f s = u) :
    exec c s = .next (settle u) := by rw [e, live_next h, hu]

/-- A reset leaves no event and no message for the end of the step (R68). -/
theorem ControllerReset.settled {t : State} (h : ControllerReset t) : Settled t := by
  obtain ⟨hhost, hflt, -⟩ := h
  exact ⟨congrArg Flt.arising hflt, congrArg HostIf.msgs hhost⟩

/-- A command that resets the controller ends as the reset leaves it. -/
theorem lands_of_reset {c : Instr} {s u : State} {w : List Part} {P : State → Prop} (e : exec c s = .next (settle u)) (hr : ControllerReset u)
    (k : Kept w s u) (p : P u) : Lands c s w P := ⟨u, by rw [e, settle_calm hr.settled], p, k⟩

/-- R80: a command that releases the reset, from the state `u` in which the release finds the controller. -/
theorem lands_of_release {c : Instr} {cause : Nat} {straps : Straps} {s u : State} {w : List Part} {P : State → Prop}
    (e : exec c s = .next (settle (releaseReset cause straps u))) (hw : controllerParts ⊆ w) (k : Kept w s u)
    (p : ControllerReset (releaseReset cause straps u) → P (releaseReset cause straps u)) : Lands c s w P :=
  lands_of_reset e (releaseReset_controller cause straps u) ((releaseReset_kept cause straps u hw).2 k) (p (releaseReset_controller cause straps u))

/-! ### Power-on reset (R75, R499) -/

/-- The state in which an armed power-on reset tries to release: held in reset, with the Wellspring read taken and the halt mark kept or lost. -/
def powerOnHeld (w : WellspringRead) (s : State) : State :=
  let s1 := (s.modPwr fun p => { p with porArmed := false, powered := true }).modKey fun k => { k with well := w, failed := decide (24 < w.maxErrors) }
  holdReset (useFree (s1.modThm fun t => { t with haltMark := t.haltMark && (freeHalf s1).getLsbD 0 }))

theorem powerOnHeld_pwr (w : WellspringRead) (s : State) :
    (powerOnHeld w s).pwr = { s.pwr.atReset with porArmed := false, powered := true, held := true } := rfl

theorem powerOnHeld_controller (w : WellspringRead) (s : State) : ControllerReset (powerOnHeld w s) := holdReset_controller _

theorem powerOnHeld_keeps (w : WellspringRead) (s : State) : Kept (.freeIx :: controllerParts) s (powerOnHeld w s) := by
  unfold powerOnHeld
  simp [controllerParts]

/-- R75: without a re-arming there is no power-on reset to release. -/
theorem powerOnEffect_unarmed {straps : Straps} {w : WellspringRead} {s : State} (h : s.pwr.porArmed = false) : powerOnEffect straps w s = s :=
  if_pos (by simp [h])

theorem powerOnEffect_armed {straps : Straps} {w : WellspringRead} {s : State} (ha : s.pwr.porArmed = true) (hn : s.pwr.resetNLow = false)
    (ht : s.pwr.tap.testing = false) : powerOnEffect straps w s = tryRelease 1 straps (powerOnHeld w s) :=
  (if_neg (by simp [ha])).trans (if_neg (by
    show ¬ (powerOnHeld w s).pwr.pinned = true
    simp [Pwr.pinned, powerOnHeld_pwr, Pwr.atReset, hn, ht]))

/-! ### The reset pin (R77) -/

/-- The rising edge of RESET_N shows the supply in tolerance (R73). -/
def pinReleased (s : State) : State := s.modPwr fun p => { p with resetNLow := false, powered := true, undefinedLogic := false }

theorem pinReleased_keeps (s : State) : Kept controllerParts s (pinReleased s) := by
  unfold pinReleased
  simp [controllerParts]

theorem resetReleaseEffect_high {straps : Straps} {s : State} (h : s.pwr.resetNLow = false) : resetReleaseEffect straps s = s :=
  if_pos (by simp [h])

theorem resetReleaseEffect_rise {straps : Straps} {s : State} (hn : s.pwr.resetNLow = true) (ht : s.pwr.tap.testing = false) :
    resetReleaseEffect straps s = tryRelease 2 straps (pinReleased s) :=
  (if_neg (by simp [hn])).trans (if_neg (by
    show ¬ (pinReleased s).pwr.pinned = true
    simp [Pwr.pinned, pinReleased, State.modPwr, ht]))

/-! ### Watchdog, firmware and thermal releases (R79, R365, R514) -/

/-- R79: the controller stops its heartbeat and ILK_OUT, and 1 ms passes. -/
def watchdogStopped (core : Nat) (s : State) : State :=
  { stopBeat s with now := s.now + 1000000 }.modPwr fun p => { p with ilkOut := false, wdCore := some core }

theorem watchdogStopped_keeps (core : Nat) (s : State) : Kept (.now :: controllerParts) s (watchdogStopped core s) := by
  unfold watchdogStopped
  simp [controllerParts]

theorem watchdogEffect_expires {core : Nat} {straps : Straps} {s : State} (hh : s.pwr.held = false) (hp : s.pwr.powerState ≠ .sleep)
    (hb : s.pwr.bootFailed = false) (hc : core < 4) (hf : s.isFrozen (0x10 + core) = false) :
    watchdogEffect core straps s = releaseReset 3 straps (watchdogStopped core s) :=
  if_pos (by simp [hh, hp, hb, hc, hf])

theorem firmwareResetEffect_due {straps : Straps} {x : Nat} {s : State} (hh : s.pwr.held = false) (hd : s.key.resetDue = some x)
    (hx : x + 10000000 ≤ s.now) : firmwareResetEffect straps s = releaseReset 4 straps s := by
  unfold firmwareResetEffect
  rw [hd]
  exact if_pos (by simp [hh, hx])

theorem haltReleaseEffect_cool {temps : List Int} {straps : Straps} {s : State} (hw : s.thm.waiting = some straps) (hh : s.thm.halted = true)
    (hn : s.pwr.resetNLow = false) (ht : s.pwr.tap.testing = false) (hc : ∀ x ∈ temps, x < 950) :
    haltReleaseEffect temps s = releaseReset s.pwr.resetCause straps s := by
  unfold haltReleaseEffect
  rw [hw]
  exact if_pos (by simpa [hh, Pwr.pinned, hn, ht] using hc)

/-- Settles O8: each release is `releaseReset` on the state in which it finds the controller, and a reset leaves nothing for `settle` to do. What arms a release and what it waits for are the model's reading (log entry 14), as are the watchdog's one command (16) and the power that a release shows (9). -/
theorem resetReleaseBeginsBoot : Obligations.ResetReleaseBeginsBoot := by
  have within (p : Part) : controllerParts ⊆ p :: controllerParts := List.subset_cons_self p _
  refine ⟨fun straps w s ha hn ht hh => ?_, fun straps w s h => exec_of_run rfl (powerOnEffect_unarmed h), fun straps s hn ht hh => ?_,
    fun straps s h => exec_of_run rfl (resetReleaseEffect_high h), fun core straps s hu hh hp hb hc hf => ?_,
    fun straps x s hu hh hd hx => ?_, fun temps straps s hu hw hh hn ht hc => ?_⟩
  · have e := exec_of_run (c := .powerOnResetRelease straps w) rfl ((powerOnEffect_armed ha hn ht).trans (tryRelease_free hh))
    exact lands_of_release e (within _) (powerOnHeld_keeps w s) fun hr => ⟨hr, rfl, rfl⟩
  · have e := exec_of_run (c := .resetNRelease straps) rfl ((resetReleaseEffect_rise hn ht).trans (tryRelease_free hh))
    exact lands_of_release e (List.Subset.refl _) (pinReleased_keeps s) fun hr => ⟨hr, rfl⟩
  · have e := exec_of_ctl (c := .watchdogExpiry core straps) rfl hu (watchdogEffect_expires hh hp hb hc hf)
    exact lands_of_release e (within _) (watchdogStopped_keeps core s) fun hr => ⟨hr, rfl, rfl⟩
  · have e := exec_of_ctl (c := .firmwareUpdateReset straps) rfl hu (firmwareResetEffect_due hh hd hx)
    exact lands_of_release e (List.Subset.refl _) (Kept.refl _ s) fun hr => ⟨hr, rfl, rfl, rfl⟩
  · have e := exec_of_ctl (c := .thermalHaltRelease temps) rfl hu (haltReleaseEffect_cool hw hh hn ht hc)
    exact lands_of_release e (List.Subset.refl _) (Kept.refl _ s) fun hr => ⟨hr, rfl, rfl⟩

/-! ### What holds the controller in reset (R68, R70, R77, R364, R365) -/

theorem haltEffect_due {x : Nat} {s : State} (h : s.thm.halting = some x) (hx : 4 * x + 2 * s.periodQns ≤ 4 * s.now) :
    haltEffect s = (holdReset s).modThm fun t => { t with halted := true, waiting := none, haltMark := true } :=
  if_pos (by simpa [State.haltDue, h] using hx)

/-- R364: before two control periods have passed, the write in progress goes on. -/
theorem haltEffect_early {x : Nat} {s : State} (h : s.thm.halting = some x) (hx : 4 * s.now < 4 * x + 2 * s.periodQns) : haltEffect s = s :=
  if_neg (by simpa [State.haltDue, h] using hx)

/-- Settles O9: RESET_N, the scan and the halt are `holdReset` with marks of their own; a release of a halted module is `tryRelease_wait`. The ends of a wait and of a scan, and the contacts without supply, are the model's reading (log entries 9, 14, 15). -/
theorem resetHoldsController : Obligations.ResetHoldsController := by
  refine ⟨fun s => ?_, fun drive s => ?_, fun drive s => rfl, fun x s hr hx => ⟨fun h => ?_, fun h => exec_of_live rfl hr (haltEffect_early hx h)⟩,
    fun straps s hn ht hh => ?_, fun straps w s ha hn ht hh => ?_, fun s => rfl, fun s => rfl⟩
  · exact lands_of_reset (u := resetAssertEffect s) rfl (holdReset_controller s) (by simp [controllerParts]) ⟨holdReset_controller s, rfl, rfl⟩
  · exact lands_of_reset (u := boundaryScanEffect true drive s) rfl (holdReset_controller s) (by simp [controllerParts])
      ⟨holdReset_controller s, rfl, rfl⟩
  · exact lands_of_reset (exec_of_live rfl hr (haltEffect_due hx h)) (holdReset_controller s) (by simp [controllerParts])
      ⟨holdReset_controller s, rfl, rfl, rfl, rfl⟩
  · exact exec_of_run (c := .resetNRelease straps) rfl ((resetReleaseEffect_rise hn ht).trans (tryRelease_wait hh))
  · have e := exec_of_run (c := .powerOnResetRelease straps w) rfl ((powerOnEffect_armed ha hn ht).trans (tryRelease_wait hh))
    have k := powerOnHeld_keeps w s
    exact lands_of_reset e (powerOnHeld_controller w s) (by simpa [controllerParts] using k) ⟨powerOnHeld_controller w s, rfl, hh, rfl, rfl⟩

/-! ### Safe from a running unit (R530, R586) -/

@[simp] theorem idleAllocator_pwr (s : State) : (idleAllocator s).pwr = s.pwr :=
  ((idleAllocator_kept s (List.Subset.refl _)).2 (Kept.refl _ s)).same .pwr (by decide)

/-- R86, R587: of the actions of Safe, only the last touches the power state. -/
theorem safeActions_pwr (s : State) : (safeActions s).pwr = { s.pwr with
    opState := .safe, powerState := .doze, safeFromOperate := s.pwr.opState == .operate, ilkOut := false, modFaultLow := true, dozeTimer := false } := by
  have k : Kept [.outs, .flt, .stages, .paths, .law, .pair, .acq, .veh, .rcd] s
      (forAll ((List.range 32).filter s.stPresent) safeStopStage
        (forAll (List.range 8) (fun o s => endSession o 0x0E false s) (forAll (List.range 8) pathSafe (endInjections 3 s)))) := by simp
  have e := k.same .pwr (by decide)
  unfold safeActions
  simp only [idleAllocator_pwr, State.modPwr_pwr]
  rw [e]

theorem safeActions_safeCause (s : State) : (safeActions s).flt.safeCause = s.flt.safeCause :=
  (((safeActions_kept s (List.Subset.refl _)).2 (Kept.refl _ s)).same .faults (by decide)).2

/-- R586: what a Safe cause notes: its bit and its instant. -/
def noteCause (bit : Nat) (s : State) : State :=
  s.modFlt fun f => { f with
    safeCause := f.safeCause ||| BitVec.ofNat 7 (2 ^ bit), causeAt := f.causeAt.filter (fun c => c.1 != bit) ++ [(bit, s.now)] }

@[simp] theorem noteCause_pwr (bit : Nat) (s : State) : (noteCause bit s).pwr = s.pwr := rfl

theorem enterSafe_running {s : State} (bit : Nat) (h : s.running = true) :
    enterSafe bit s = settleVehicles (safePair (safeActions (noteCause bit s))) := if_pos h

theorem enterSafe_stopped {s : State} (bit : Nat) (h : s.running = false) : enterSafe bit s = noteCause bit s := if_neg (by simp [h])

theorem enterSafe_pwr {s : State} (bit : Nat) (h : s.running = true) : (enterSafe bit s).pwr = { s.pwr with
    opState := .safe, powerState := .doze, safeFromOperate := s.pwr.opState == .operate, ilkOut := false, modFaultLow := true, dozeTimer := false } := by
  rw [enterSafe_running bit h, settleVehicles_pwr]
  exact safeActions_pwr (noteCause bit s)

theorem enterSafe_auth {s : State} (bit : Nat) (h : s.running = true) : (enterSafe bit s).pair.auth = false := by
  rw [enterSafe_running bit h]
  exact (settleVehicles_same _).same .auth (by decide)

theorem enterSafe_safeCause {s : State} (bit : Nat) (h : s.running = true) :
    (enterSafe bit s).flt.safeCause = s.flt.safeCause ||| BitVec.ofNat 7 (2 ^ bit) := by
  rw [enterSafe_running bit h]
  exact ((settleVehicles_same _).same .faults (by decide)).2.trans (safeActions_safeCause (noteCause bit s))

/-! ### The reference (R67, R84) -/

theorem extLostEffect_selected {s : State} (h : s.pwr.refExt = true) (hh : s.pwr.held = false) (hp : s.pwr.powerState ≠ .sleep) :
    extLostEffect s = raise 121 1 1 [] (s.modPwr fun p => { p with extQualified := false, refExt := false }) := by
  unfold extLostEffect
  simp [h, hh, hp]

theorem extLostEffect_asleep {s : State} (h : s.pwr.refExt = true) (hh : s.pwr.held = false) (hp : s.pwr.powerState = .sleep) :
    extLostEffect s = s.modPwr fun p => { p with extQualified := false, refExt := false, refLost := true } := by
  unfold extLostEffect
  simp [h, hh, hp, State.modPwr]

theorem extLostEffect_unselected {s : State} (h : s.pwr.refExt = false ∨ s.pwr.held = true) :
    extLostEffect s = s.modPwr fun p => { p with extQualified := false, refExt := false } := if_pos (by simpa using h)

/-! ### Lock bits (R83, R85) -/

theorem isPll_iff {d : Nat} : isPll d = true ↔ (2 ≤ d ∧ d ≤ 9) ∨ d = 11 := by simp [isPll]

@[simp] theorem setLock_pwr (d : Nat) (on : Bool) (s : State) : (setLock d on s).pwr = { s.pwr with
    locked := if on then s.pwr.locked ||| BitVec.ofNat 12 (2 ^ d) else s.pwr.locked &&& ~~~(BitVec.ofNat 12 (2 ^ d)) } := rfl

/-- The mask of a domain holds its own bit, where CLK_LOCK has one. -/
theorem domainBit_self (d : Nat) : (BitVec.ofNat 12 (2 ^ d)).getLsbD d = decide (d < 12) := by
  rw [BitVec.getLsbD_ofNat, Nat.testBit_two_pow_self, Bool.and_true]

theorem setLock_lost (d : Nat) (s : State) : (setLock d false s).domainUp d = false := by
  simp only [State.domainUp, setLock_pwr, Bool.false_eq_true, if_false, BitVec.getLsbD_and, BitVec.getLsbD_not, domainBit_self, Bool.and_not_self,
    Bool.and_false]

theorem setLock_gained {d : Nat} (s : State) (h : isPll d = true) : (setLock d true s).domainUp d = true := by
  have hd : d < 12 := by have := isPll_iff.1 h; omega
  simp only [State.domainUp, setLock_pwr, if_true, BitVec.getLsbD_or, domainBit_self, hd, decide_true, Bool.or_true]

/-! ### Loss of lock (R85) -/

theorem pllLossEffect_idle {d : Nat} {s : State} (h : isPll d = false ∨ s.domainUp d = false) : pllLossEffect d s = s :=
  if_pos (by simpa using h)

/-- A domain outside 2 to 5, or one that is lost in Setup, only stops. -/
theorem pllLossEffect_alone {d : Nat} {s : State} (hp : isPll d = true) (hu : s.domainUp d = true)
    (h : ¬ (2 ≤ d ∧ d ≤ 5) ∨ s.pwr.opState = .setup) : pllLossEffect d s = raise 121 2 d [] (setLock d false s) := by
  have safe : (decide (2 ≤ d ∧ d ≤ 5) && (s.pwr.opState == .operate || s.pwr.opState == .safe)) = false := by
    rcases h with h | h <;> simp [h]
  unfold pllLossEffect
  simp only [hp, hu, safe, when]
  rfl

/-- R586: the loss of a domain from 2 to 5 in Operate and Safe is the Safe cause CLOCK. -/
theorem pllLossEffect_safe {d : Nat} {s : State} (h2 : 2 ≤ d) (h5 : d ≤ 5) (hu : s.domainUp d = true)
    (h : s.pwr.opState = .operate ∨ s.pwr.opState = .safe) : pllLossEffect d s = raise 121 2 d [] (enterSafe 1 (setLock d false s)) := by
  have hp : isPll d = true := isPll_iff.2 (.inl ⟨h2, by omega⟩)
  have safe : (decide (2 ≤ d ∧ d ≤ 5) && (s.pwr.opState == .operate || s.pwr.opState == .safe)) = true := by simpa [h2, h5] using h
  unfold pllLossEffect
  simp only [hp, hu, safe, when]
  rfl

/-! ### Relock (R85, R586) -/

theorem pllRelockEffect_idle {d : Nat} {s : State} (h : isPll d = false ∨ s.domainUp d = true) : pllRelockEffect d s = s :=
  if_pos (by simpa using h)

theorem pllRelockEffect_locks {d : Nat} {s : State} (hp : isPll d = true) (hu : s.domainUp d = false) :
    pllRelockEffect d s = raise 121 3 d [] (flushStalled (clearSafeCauses (setLock d true s))) := if_neg (by simp [hp, hu])

theorem flushStalled_keeps (s : State) : Kept [.outs, .host] s (flushStalled s) := (flushStalled_kept s (List.Subset.refl _)).2 (Kept.refl _ s)

/-- R85: with the PCIe clock locked nothing waits for it. -/
theorem flushStalled_sends {s : State} (h : s.domainUp 6 = true) : (flushStalled s).host.stalled = [] := by
  have k : Kept [.outs] (s.modHost fun h => { h with stalled := [] })
      (s.host.stalled.foldl (fun s o => emit o s) (s.modHost fun h => { h with stalled := [] })) :=
    foldl_keep _ _ (fun _ _ => by simp) (Kept.refl _ _)
  unfold flushStalled
  rw [if_pos h, k.same .host (by decide)]
  rfl

theorem clearSafeCauses_keeps (s : State) : Kept [.flt, .faults] s (clearSafeCauses s) :=
  (clearSafeCauses_kept s (List.Subset.refl _)).2 (Kept.refl _ s)

/-- R586: the causes CLOCK and CORE stay or clear, each for itself, and no other changes. -/
theorem clearSafeCauses_safeCause (s : State) : (clearSafeCauses s).flt.safeCause = s.flt.safeCause
    ∨ (clearSafeCauses s).flt.safeCause = s.flt.safeCause &&& ~~~2 ∨ (clearSafeCauses s).flt.safeCause = s.flt.safeCause &&& ~~~4
    ∨ (clearSafeCauses s).flt.safeCause = s.flt.safeCause &&& ~~~6 := by
  have all : s.flt.safeCause &&& 0x7F#7 = s.flt.safeCause := BitVec.and_allOnes
  have both : s.flt.safeCause &&& ~~~4 &&& ~~~2 = s.flt.safeCause &&& ~~~6 := BitVec.and_assoc ..
  have only4 : s.flt.safeCause &&& ~~~4 &&& 0x7F#7 = s.flt.safeCause &&& ~~~4 := BitVec.and_allOnes
  simp only [clearSafeCauses, State.modFlt_flt]
  split <;> split
  · exact .inr (.inl rfl)
  · exact .inl all
  · exact .inr (.inr (.inr both))
  · exact .inr (.inr (.inl only4))

theorem raise_safeCause (src cause inst : Nat) (payload : List Byte) (s : State) :
    (raise src cause inst payload s).flt.safeCause = s.flt.safeCause := ((raise_same src cause inst payload s).same .faults (by decide)).2

/-- Settles O11: `enterSafe` says what the loss of a domain from 2 to 5 adds in Operate and in Safe, `clearSafeCauses` and `flushStalled` what a relock adds. That Setup loses a domain without Safe, and that host writes wait for domain 6, is the model's reading (log entry 19). -/
theorem clockReferenceAndLocks : Obligations.ClockReferenceAndLocks := by
  refine ⟨fun s hu => exec_of_ctl rfl hu rfl, fun s hu he hh hp => ?_, fun s hu he hh hp => exec_of_ctl rfl hu (extLostEffect_asleep he hh hp),
    fun s hu h => exec_of_ctl rfl hu (extLostEffect_unselected h), fun d s hr hp hu h => ?_, fun d s hr h2 h5 hu ho => ?_,
    fun d s hr h2 h5 hu ho => ?_, fun d s hr h => exec_of_live rfl hr (pllLossEffect_idle h), fun d s hr hp hu => ?_,
    fun d s hr h => exec_of_live rfl hr (pllRelockEffect_idle h)⟩
  · exact ctl_runs rfl hu (extLostEffect_selected he hh hp) (by simp [eventParts]) ⟨by simp, raise_arose _ _ _ _ _ _ rfl⟩
  · exact live_runs rfl hr (pllLossEffect_alone hp hu h) (by simp [eventParts])
      ⟨raise_pwr .., by simpa only [State.domainUp, raise_pwr] using setLock_lost d s, raise_arose _ _ _ _ _ _ rfl⟩
  · have hrun : (setLock d false s).running = true := by simp [State.running, ho]
    have hpwr := enterSafe_pwr 1 hrun
    refine live_runs rfl hr (pllLossEffect_safe h2 h5 hu (.inl ho)) (by simp) ⟨?_, ?_, ?_, ?_, ?_, raise_arose _ _ _ _ _ _ ?_⟩
    · rw [raise_pwr, hpwr]
    · rw [raise_pair, enterSafe_auth 1 hrun]
    · simpa only [State.domainUp, raise_pwr, hpwr] using setLock_lost d s
    · rw [raise_pwr, hpwr]
    · rw [raise_safeCause, enterSafe_safeCause 1 hrun]
      rfl
    · exact ((enterSafe_kept 1 _ (List.Subset.refl _)).2 (Kept.refl _ _)).same .now (by decide)
  · have hstop : (setLock d false s).running = false := by simp [State.running, ho]
    have e := (pllLossEffect_safe h2 h5 hu (.inr ho)).trans (congrArg (raise 121 2 d []) (enterSafe_stopped 1 hstop))
    exact live_runs rfl hr e (by simp [eventParts, noteCause])
      ⟨raise_pwr .., by simpa only [State.domainUp, raise_pwr, noteCause_pwr] using setLock_lost d s, raise_safeCause .., raise_arose _ _ _ _ _ _ rfl⟩
  · have hpwr : (flushStalled (clearSafeCauses (setLock d true s))).pwr = (setLock d true s).pwr :=
      ((flushStalled_keeps _).same .pwr (by decide)).trans ((clearSafeCauses_keeps _).same .pwr (by decide))
    have hflt : (flushStalled (clearSafeCauses (setLock d true s))).flt = (clearSafeCauses (setLock d true s)).flt :=
      (flushStalled_keeps _).same .flt (by decide)
    refine live_runs rfl hr (pllRelockEffect_locks hp hu) (by simp [eventParts]) ⟨?_, ?_, ?_, ?_, raise_arose _ _ _ _ _ _ ?_⟩
    · rw [raise_pwr, hpwr, setLock_pwr]
      rfl
    · simpa only [State.domainUp, raise_pwr, hpwr] using setLock_gained s hp
    · rw [raise_safeCause, hflt]
      exact clearSafeCauses_safeCause (setLock d true s)
    · rintro rfl
      rw [raise_host]
      exact flushStalled_sends (setLock_gained s hp)
    · exact ((flushStalled_keeps _).same .now (by decide)).trans ((clearSafeCauses_keeps _).same .now (by decide))

end Sys2Proof.Machine
end
